-- ==== Sys2Proof/Word.lean ====
section
/-! DEFINITION. The word and byte types of the register and memory spaces (R3), and their plainest arithmetic. -/

namespace Sys2Proof

/-- A register or memory word: 32 bits, little-endian in memory (R3). -/
abbrev Word := BitVec 32

/-- One byte of a blob, frame or host structure. -/
abbrev Byte := BitVec 8

end Sys2Proof
end

