-- ==== Sys2Proof/RegTypes.lean ====
section
/-! DEFINITION. How a BAR0 register is described: access types (Table — Access types, R4), legal encodings of a
field (R5), and the layout of one register or of an array of registers. -/

namespace Sys2Proof

/-- Access types of Table — Access types (R4). Reserved fields are simply not listed in a descriptor. -/
inductive Access where
  | rw | ro | w1c | w1s | wo
  deriving DecidableEq, Repr

/-- Which encodings of an RW field are not reserved (R5). -/
inductive Legal where
  /-- Every encoding may be written. -/
  | any
  /-- The unsigned value lies from `lo` to `hi`. -/
  | range (lo hi : Nat)
  /-- The two's complement value lies from `lo` to `hi`. -/
  | srange (lo hi : Int)
  deriving DecidableEq, Repr

/-- One field of a register: bits [hi:lo]. -/
structure Field where
  hi : Nat
  lo : Nat
  access : Access
  reset : Nat
  legal : Legal
  deriving DecidableEq, Repr

/-- What the words of a descriptor are. -/
inductive RegKind where
  /-- A plain 32-bit register. -/
  | plain
  /-- An event-class counter: COUNT in [30:0], SAT in [31] (R12, R13). -/
  | counter
  /-- The low word of a 64-bit value whose high word is the next register (R7). -/
  | low64
  /-- The high word of a 64-bit value (R7). -/
  | high64
  deriving DecidableEq, Repr

/-- A register, or `count` registers at `base + stride * k`. -/
structure RegDesc where
  name : String
  base : Nat
  stride : Nat
  count : Nat
  kind : RegKind
  fields : List Field
  deriving DecidableEq, Repr

/-- Does the descriptor cover the BAR0 offset? -/
def RegDesc.covers (d : RegDesc) (off : Nat) : Bool :=
  if d.count = 1 then off == d.base
  else d.base ≤ off && off < d.base + d.stride * d.count && (off - d.base) % d.stride == 0

end Sys2Proof
end

