-- ==== Sys2Proof/Messages.lean ====
section
/-! DEFINITION. What the world hands the block in one command: frames, messages and outcomes, as plain data. -/

namespace Sys2Proof

/-- The result of a transfer from host memory: its bytes, or a failure on PCI Express. -/
inductive Fetch where
  | bytes (b : List Byte)
  | failed
  deriving DecidableEq, Repr

/-- A frame received on a Heathline port: first bit and end of its frame time in ns from the beat instant, its EtherType, whether
the Ethernet FCS is correct, and the bytes from the Heathline header to the CRC-32C. -/
structure HtlFrame where
  first : Nat
  last : Nat
  etype : Nat
  fcsOk : Bool
  bytes : List Byte
  deriving DecidableEq, Repr

/-- The PTP header members the slave looks at (R295, R296). -/
structure PtpHdr where
  domain : Nat
  sdoId : Nat
  version : Nat
  minor : Nat
  /-- sourcePortIdentity and the clockIdentity within it. -/
  source : Nat
  clockId : Nat
  seq : Nat
  /-- correctionField in units of 2^−16 ns. -/
  corr : Int
  logInt : Int
  twoStep : Bool
  /-- The message is well formed under IEEE 1588-2019. -/
  formed : Bool
  deriving DecidableEq, Repr

/-- What else an Announce carries (R296): the grandmaster data set in the order of comparison and stepsRemoved. -/
structure AnnBody where
  gm : List Nat
  gmId : Nat
  steps : Nat
  deriving DecidableEq, Repr

/-- A timestamp of a master: seconds and nanoseconds. -/
structure PtpTime where
  sec : Nat
  ns : Nat
  deriving DecidableEq, Repr

/-- Target assignment the firmware makes for one source (EVC_TGT, R382). -/
structure TgtSet where
  src : Nat
  kind : Nat
  pri : Nat
  tidx : Nat
  deriving DecidableEq, Repr

/-- What a Hod task waits for (R395): an event source or a counting semaphore. -/
inductive WaitObj where
  | source (s : Nat)
  | semaphore (n : Nat)
  deriving DecidableEq, Repr

/-- An operation a lane checks by its residue mod 7 (R105). -/
inductive LaneOp where
  | product (a b : Int)
  | accumulate (l : List Int)
  | shl (x : Int) (s : Nat)
  | shr (x : Int) (s : Nat)
  /-- n = q·d + remainder. -/
  | div (n d q : Int)
  deriving DecidableEq, Repr

/-- A single-bit error in a lane's checked result: course, brick, the operation, the bit, and whether it was set or cleared. -/
structure LaneFault where
  course : Nat
  brick : Nat
  op : LaneOp
  bit : Nat
  up : Bool
  deriving DecidableEq, Repr

/-- A parity error in wall memory, by what the word holds (R107): a matrix entry of a row, a bound of a row, a preconditioner
block, or x, z or y. -/
inductive WallWord where
  | matrix (row : Nat)
  | bound (row : Nat)
  | precond (block : Nat)
  | iterate
  deriving DecidableEq, Repr

/-- What the checks of a servo engine find during a joint's computation (Table — Servo engine faults): residue mismatches, one
or more, or a parity error in a chain-state word or in a program or parameter word. -/
inductive EngFault where
  | none
  | residue (again : Bool)
  | stateWord
  | programWord
  deriving DecidableEq, Repr

/-- What a word of mortar memory holds that is read with a parity error (Table — Mortar memory recovery). -/
inductive MemWord where
  | modelSlot (staged : Bool)
  | stagedSchedule
  | stagedServo
  | problem
  | measured (gj : Nat)
  | toolCode
  | tracks (sid : Nat)
  | checkpoint (gj : Nat)
  | commitBuffer
  | sepRecord
  | journal (id : Nat)
  | logEntry (seq : Nat)
  | telemetry
  | lockWord (n : Nat)
  | authority
  deriving DecidableEq, Repr

/-- What a write meets besides its word: the bits the device sets in the same cycle (R6), whether a key comes within 1 ms of
the one before (R258), and the check channels that a self-test finds failed (R286). -/
structure WriteEnv where
  keep : Word
  inTime : Bool
  fail : BitVec 16
  deriving DecidableEq, Repr

end Sys2Proof
end

