-- ==== Sys2Proof/Pointer.lean ====
section
/-! DEFINITION. The operand forms of servo engine instructions as syntax: pointer post-modifies and branch conditions
(R171, R172). -/

namespace Sys2Proof

/-- Post-modify of a memory operand (R171). -/
inductive PostMod where
  | none | inc | dec | step
  deriving DecidableEq, Repr

/-- Condition codes of BR (R172). -/
inductive Cond where
  | always | z | nz | n | nn | sv | av
  deriving DecidableEq, Repr

end Sys2Proof
end

