-- ==== Sys2Proof/Syntax.lean ====
section
/-! DEFINITION. The commands of the block, one constructor for each row of the table of operations and events, with the operands
the row's occurrence brings: which unit, port, engine or ring it is about, what is received or read, and what the world
outside decides. A servo engine's instructions name their engine. -/

namespace Sys2Proof

inductive Instr where
  /-- POWER_ON_RESET (R420). -/
  | powerOnReset
  /-- VAUX_LOST (R420). -/
  | vauxLost
  /-- SUPPLY_RESET (R419). -/
  | supplyReset (rail : Fin 4)
  /-- MAIN_RAILS_RESTORED (R419). -/
  | mainRailsRestored (seqErr : Bool)
  /-- PERST_ASSERT (R438). -/
  | perstAssert
  /-- PERST_RELEASE (R443). -/
  | perstRelease
  /-- CLOCK_LOSS (R441). -/
  | clockLoss
  /-- WARM_RESET (R439). -/
  | warmReset (w : Word)
  /-- HIBERNATE_ARM (R422). -/
  | hibernateArm (key : BitVec 16)
  /-- HIBERNATE_ENTER (R423). -/
  | hibernateEnter
  /-- HIBERNATE_WAKE (R424). -/
  | hibernateWake
  /-- PLL_LOCK (R441). -/
  | pllLock (core servo safa : Bool) (tref : Option Bool)
  /-- TIME_PLL_LOCK (R441). -/
  | timePllLock (tref25 : Bool)
  /-- TREF_LOST (R442). -/
  | trefLost
  /-- TREF_BACK (R442). -/
  | trefBack
  /-- MEMORY_TEST_DONE (R445). -/
  | memoryTestDone (fail : BitVec 6) (engines : BitVec 16)
  /-- LANE_TEST_DONE (R446). -/
  | laneTestDone (part : Fin 18) (bricks : List (Nat × Nat)) (fail : Bool) (f : Fetch)
  /-- CROSS_DIE_LINK_DOWN (R443). -/
  | crossDieLinkDown
  /-- CROSS_DIE_LINK_UP (R443). -/
  | crossDieLinkUp
  /-- IMAGE_VERIFY_DONE (R444). -/
  | imageVerifyDone (f : Fetch) (tgts : List TgtSet)
  /-- TAP_TEST_LOGIC_RESET (R447). -/
  | tapTestLogicReset (hedge : Bool)
  /-- TAP_UPDATE_IR (R450). -/
  | tapUpdateIr (hedge : Bool) (code : BitVec 8)
  /-- TESTEN_HIGH (R451). -/
  | testenHigh
  /-- REGISTER_WRITE (R4). -/
  | registerWrite (off : BitVec 16) (w : Word) (e : WriteEnv)
  /-- BAR0_INVALID_ACCESS (R31). -/
  | bar0InvalidAccess (off : BitVec 16) (size : Nat) (read : Bool)
  /-- LOW_WORD_READ (R7). -/
  | lowWordRead (off : BitVec 16)
  /-- TIME_READ_LATCH (R306). -/
  | timeReadLatch
  /-- PLANNER_RESTART (R131). -/
  | plannerRestart
  /-- WALL_REJOIN (R135). -/
  | wallRejoin (w : Fin 2)
  /-- ENGINE_REJOIN (R157). -/
  | engineRejoin (mask : BitVec 16)
  /-- CHECK_UNIT_SELFTEST (R286). -/
  | checkUnitSelftest (fail : BitVec 16)
  /-- HEDGE_UNLOCK_KEY (R258). -/
  | hedgeUnlockKey (key : BitVec 16) (inTime : Bool)
  /-- UNLOCK_WINDOW_EXPIRY (R258). -/
  | unlockWindowExpiry
  /-- SAFA_HOST_RESET (R251). -/
  | safaHostReset
  /-- FEEDBACK_CLEAR_FAULT (R314). -/
  | feedbackClearFault (n : Fin 24)
  /-- FEEDBACK_PRESET (R319). -/
  | feedbackPreset (n : Fin 24) (v : Word)
  /-- FEEDBACK_ENABLE (R319). -/
  | feedbackEnable (n : Fin 24) (w : Word)
  /-- AUX_STOP (R337). -/
  | auxStop (a : Fin 16)
  /-- AUX_DRIVER_OFF (R338). -/
  | auxDriverOff (a : Fin 16)
  /-- AUX_DRIVER_ON (R338). -/
  | auxDriverOn (a : Fin 16)
  /-- REPHASE_DONE (R338). -/
  | rephaseDone (a : Fin 16)
  /-- PORT_ENABLE (R275). -/
  | portEnable (p : Fin 4)
  /-- PORT_STOP (R287). -/
  | portStop (p : Fin 4)
  /-- HYS_INPUT_WRITE (R342). -/
  | hysInputWrite (l : Fin 32) (w : Word)
  /-- REFDOM_WRITE (R301). -/
  | refdomWrite (k : Fin 2)
  /-- RING_ENABLE (R353). -/
  | ringEnable (r : Fin 73) (w : Word)
  /-- COMMAND_DOORBELL (R352). -/
  | commandDoorbell (r : Fin 32) (w : Word)
  /-- CONSUMER_DOORBELL (R352). -/
  | consumerDoorbell (r : Fin 41) (w : Word)
  /-- HEARTBEAT_PAGE_WRITE (R374). -/
  | heartbeatPageWrite
  /-- COMMAND_ACCEPT (R360). -/
  | commandAccept (f : Fetch)
  /-- COMPLETION_WRITE (R355). -/
  | completionWrite
  /-- COALESCE_TIMEOUT (R355). -/
  | coalesceTimeout (r : Fin 41)
  /-- EVENT_ENTRY_WRITE (R383). -/
  | eventEntryWrite
  /-- TELEMETRY_WRITE (R359). -/
  | telemetryWrite
  /-- HOST_DMA_FAIL (R472). -/
  | hostDmaFail (r : Fin 41)
  /-- HEARTBEAT_TIMEOUT (R374). -/
  | heartbeatTimeout
  /-- QUEUE_ENGINE_RESET (R376). -/
  | queueEngineReset (w : Word)
  /-- FUNCTION_LEVEL_RESET (R376). -/
  | functionLevelReset
  /-- QUEUE_RESET_DONE (R376). -/
  | queueResetDone
  /-- ATTACH (R372). -/
  | attach (img : Fetch) (copies : List Fetch) (repOk : Bool)
  /-- DETACH (R375). -/
  | detach
  /-- HEARTBEAT (R374). -/
  | heartbeat
  /-- MODEL_LOAD (R59). -/
  | modelLoad
  /-- MODEL_FETCH_DONE (R40). -/
  | modelFetchDone (f : Fetch)
  /-- MODEL_ACTIVATE (R61). -/
  | modelActivate
  /-- SAFETY_PARAM_LOAD (R254). -/
  | safetyParamLoad (f : Fetch)
  /-- SAFETY_SET_CHECKED (R253). -/
  | safetySetChecked (h : Bool)
  /-- SCHEDULE_LOAD (R275). -/
  | scheduleLoad
  /-- SCHEDULE_CHECK_DONE (R274). -/
  | scheduleCheckDone (f : Fetch)
  /-- MODE_SWITCH (R281). -/
  | modeSwitch
  /-- SEG_APPEND (R364). -/
  | segAppend (f : Fetch)
  /-- SEG_FLUSH (R365). -/
  | segFlush
  /-- TARGET_SET (R365). -/
  | targetSet (f : Fetch)
  /-- LIMITS_SET (R75). -/
  | limitsSet
  /-- GROUP_MOVE (R366). -/
  | groupMove (f : Fetch)
  /-- COMMONS_REQUEST (R189). -/
  | commonsRequest
  /-- COMMONS_RELEASE (R193). -/
  | commonsRelease
  /-- AUX_PROFILE (R333). -/
  | auxProfile (f : Fetch)
  /-- AUX_TARGET (R330). -/
  | auxTarget
  /-- HL_SETPOINT (R343). -/
  | hlSetpoint (f : Fetch)
  /-- STATE_READ (R367). -/
  | stateRead
  /-- LOG_FETCH (R368). -/
  | logFetch (wrOk : Bool)
  /-- TELEMETRY_CONFIG (R369). -/
  | telemetryConfig
  /-- SERVO_PROGRAM_LOAD (R149). -/
  | servoProgramLoad
  /-- SERVO_LOAD_CHECK_DONE (R181). -/
  | servoLoadCheckDone (f : Fetch) (static : BitVec 8)
  /-- TIME_CONFIG (R294). -/
  | timeConfig
  /-- DIAG (R370). -/
  | diag (loop : Fetch) (wrOk masked : Bool) (fail : BitVec 16)
  /-- SOURCE_ASSERTION (R381). -/
  | sourceAssertion (src : BitVec 8)
  /-- MASON_INTERRUPT_ENTRY (R387). -/
  | masonInterruptEntry (c : Fin 8) (late : Bool)
  /-- MASON_HANDLER_RETURN (R388). -/
  | masonHandlerReturn (c : Fin 8)
  /-- ENGINE_VECTOR_ENTRY (R177). -/
  | engineVectorEntry (e : Fin 16) (f : EngFault)
  /-- TASK_READY (R393). -/
  | taskReady (id : BitVec 8) (pri : Fin 32) (aff : BitVec 8)
  /-- HOD_TICK (R394). -/
  | hodTick
  /-- TASK_DELAY (R394). -/
  | taskDelay (id : BitVec 8) (wake : Nat)
  /-- TASK_WAIT (R395). -/
  | taskWait (id : BitVec 8) (o : WaitObj) (tmo : Option Nat)
  /-- SEMAPHORE_POST (R395). -/
  | semaphorePost (n : Fin 64)
  /-- WAIT_TIMEOUT (R395). -/
  | waitTimeout (id : BitVec 8)
  /-- MASON_FAIL (R396). -/
  | masonFail (c : Fin 8)
  /-- WAIT_LONG (R396). -/
  | waitLong (id : BitVec 8)
  /-- HOD_WINDOW_END (R398). -/
  | hodWindowEnd
  /-- FW_REFETCH (R410). -/
  | fwRefetch (c : Fin 8) (ok : Bool)
  /-- TRANSFER_REQUEST (R406). -/
  | transferRequest (port : Fin 39) (path : Nat) (beats : Nat) (par : Option (MemWord × Nat))
  /-- LOCK_REQUEST (R403). -/
  | lockRequest (lv : Fin 3) (idx lock : Nat)
  /-- LOCK_WAIT_TIMEOUT (R403). -/
  | lockWaitTimeout (lv : Fin 3) (idx : Nat)
  /-- LOCK_BACKOFF_EXPIRY (R403). -/
  | lockBackoffExpiry (lv : Fin 3) (idx : Nat)
  /-- PORT_HANG (R408). -/
  | portHang (port : Fin 39)
  /-- REFETCH_DONE (R409). -/
  | refetchDone (kind : Nat) (f : Fetch)
  /-- ASSEMBLY_START (R68). -/
  | assemblyStart
  /-- LAST_BLOCK_ARRIVAL (R94). -/
  | lastBlockArrival (w : Fin 2)
  /-- CSU_LATCH (R185). -/
  | csuLatch (parity : Bool)
  /-- SEP_RECORD_DELIVER (R211). -/
  | sepRecordDeliver
  /-- REC_LATE (R211). -/
  | recLate
  /-- CHECK_POINT (R81). -/
  | checkPoint (outside : List Nat)
  /-- OUTER_ITERATION (R94). -/
  | outerIteration (w : Fin 2) (mis : List LaneFault) (par : List WallWord)
  /-- REFACTOR_DONE (R99). -/
  | refactorDone (w : Fin 2)
  /-- SOLVE_DEADLINE (R114). -/
  | solveDeadline
  /-- COMMIT_POINT (R124). -/
  | commitPoint (badA badB silent : Bool)
  /-- COMMIT_RECORD_RECEIVE (R124). -/
  | commitRecordReceive (chanA : Bool) (w : Fin 2) (intact : Bool)
  /-- COMMIT_WATCH_EXPIRY (R134). -/
  | commitWatchExpiry (begun observes : Bool)
  /-- WALL_GIVE_UP (R133). -/
  | wallGiveUp (w : Fin 2)
  /-- DUAL_ACT_WINDOW_CLOSE (R125). -/
  | dualActWindowClose
  /-- STRIDE_BOUNDARY (R24). -/
  | strideBoundary
  /-- PLANNER_STOPPED (R130). -/
  | plannerStopped
  /-- BEAT_TICK (R293). -/
  | beatTick
  /-- POLL_SEND (R269). -/
  | pollSend (p : Fin 4) (slot : Nat)
  /-- RESP_RECEIVE (R270). -/
  | respReceive (p : Fin 4) (f : HtlFrame)
  /-- RESP_WINDOW_CLOSE (R271). -/
  | respWindowClose (p : Fin 4) (slot : Nat)
  /-- BEAT_END_SEND (R268). -/
  | beatEndSend (p : Fin 4)
  /-- JOIN_EXCHANGE (R277). -/
  | joinExchange (p : Fin 4)
  /-- JOIN_RESP_RECEIVE (R277). -/
  | joinRespReceive (p : Fin 4) (f : HtlFrame)
  /-- BACKUP_FRAME_RECEIVE (R284). -/
  | backupFrameReceive (p : Fin 4)
  /-- HEATHLINE_LINK_CHANGE (R261). -/
  | heathlineLinkChange (p : Fin 4) (link : Bool)
  /-- SETPOINT_FREEZE (R28). -/
  | setpointFreeze
  /-- ENGINE_DEADLINE_CHECK (R154). -/
  | engineDeadlineCheck (e : Fin 16)
  /-- CM_BLOCK_READY (R160). -/
  | cmBlockReady (gj : Fin 60)
  /-- NOP (R172). -/
  | nop (e : Fin 16)
  /-- LDW (R172). -/
  | ldw (e : Fin 16) (dd i : Fin 8) (pm : PostMod)
  /-- LDE (R172). -/
  | lde (e : Fin 16) (dd j : Fin 8) (pm : PostMod)
  /-- STW (R172). -/
  | stw (e : Fin 16) (i : Fin 8) (pm : PostMod) (ds : Fin 8)
  /-- STE (R172). -/
  | ste (e : Fin 16) (j : Fin 8) (pm : PostMod) (ds : Fin 8)
  /-- LDC (R170). -/
  | ldc (e : Fin 16) (dd : Fin 8) (pm : PostMod)
  /-- LDI (R172). -/
  | ldi (e : Fin 16) (dd : Fin 8) (imm : BitVec 12)
  /-- LDIL (R172). -/
  | ldil (e : Fin 16) (dd : Fin 8) (imm : BitVec 12)
  /-- LDIG (R172). -/
  | ldig (e : Fin 16) (dd : Fin 8) (imm : BitVec 8)
  /-- MOV (R172). -/
  | mov (e : Fin 16) (dd ds : Fin 8)
  /-- PLDI (R172). -/
  | pldi (e : Fin 16) (n : Fin 8) (imm : BitVec 14)
  /-- PADD (R171). -/
  | padd (e : Fin 16) (n : Fin 8) (imm : BitVec 12)
  /-- SETPD (R171). -/
  | setpd (e : Fin 16) (n ds : Fin 8)
  /-- MVST (R165). -/
  | mvst (e : Fin 16) (dd : Fin 8)
  /-- STST (R165). -/
  | stst (e : Fin 16) (ds : Fin 8)
  /-- MVBS (R175). -/
  | mvbs (e : Fin 16) (dd : Fin 8)
  /-- CLR (R172). -/
  | clr (e : Fin 16) (a : Fin 4)
  /-- MPY (R166). -/
  | mpy (e : Fin 16) (a : Fin 4) (x y : Fin 8)
  /-- MAC (R166). -/
  | mac (e : Fin 16) (a : Fin 4) (x y : Fin 8)
  /-- MSU (R166). -/
  | msu (e : Fin 16) (a : Fin 4) (x y : Fin 8)
  /-- MACM (R172). -/
  | macm (e : Fin 16) (a : Fin 4) (i : Fin 8) (pi : PostMod) (j : Fin 8) (pj : PostMod)
  /-- MULG (R166). -/
  | mulg (e : Fin 16) (a : Fin 4) (x g : Fin 8)
  /-- MACG (R166). -/
  | macg (e : Fin 16) (a : Fin 4) (x g : Fin 8)
  /-- LDA (R172). -/
  | lda (e : Fin 16) (a : Fin 4) (x : Fin 8)
  /-- ADDA (R172). -/
  | adda (e : Fin 16) (a m : Fin 4)
  /-- SHA (R172). -/
  | sha (e : Fin 16) (a : Fin 4) (sh : Int)
  /-- RND (R166). -/
  | rnd (e : Fin 16) (dd : Fin 8) (a : Fin 4)
  /-- STAW (R175). -/
  | staw (e : Fin 16) (i : Fin 8) (pm : PostMod) (a : Fin 4)
  /-- STAE (R175). -/
  | stae (e : Fin 16) (j : Fin 8) (pm : PostMod) (a : Fin 4)
  /-- ADD (R166). -/
  | add (e : Fin 16) (dd x y : Fin 8)
  /-- SUB (R166). -/
  | sub (e : Fin 16) (dd x y : Fin 8)
  /-- NEG (R166). -/
  | neg (e : Fin 16) (dd x : Fin 8)
  /-- ABS (R166). -/
  | abs (e : Fin 16) (dd x : Fin 8)
  /-- MIN (R172). -/
  | min (e : Fin 16) (dd x y : Fin 8)
  /-- MAX (R172). -/
  | max (e : Fin 16) (dd x y : Fin 8)
  /-- CLMP (R172). -/
  | clmp (e : Fin 16) (dd x y : Fin 8)
  /-- SGN (R172). -/
  | sgn (e : Fin 16) (dd x : Fin 8)
  /-- DIV (R173). -/
  | div (e : Fin 16) (dd x y : Fin 8)
  /-- CMP (R172). -/
  | cmp (e : Fin 16) (x y : Fin 8)
  /-- DMAC (R172). -/
  | dmac (e : Fin 16) (a m : Fin 4) (i : Fin 8) (pi : PostMod) (j : Fin 8) (pj p7 : PostMod)
  /-- TAPMV (R174). -/
  | tapmv (e : Fin 16) (a : Fin 4) (i : Fin 8) (pi : PostMod) (j : Fin 8) (pj : PostMod)
  /-- TAPMV2 (R174). -/
  | tapmv2 (e : Fin 16) (a m : Fin 4) (i : Fin 8) (pi : PostMod) (j : Fin 8) (pj p7 : PostMod)
  /-- BFLY (R175). -/
  | bfly (e : Fin 16) (pa pb p7 : PostMod)
  /-- BSTAGE (R175). -/
  | bstage (e : Fin 16)
  /-- BCLR (R175). -/
  | bclr (e : Fin 16)
  /-- LOOP (R169). -/
  | loop (e : Fin 16) (n : BitVec 16) (len : BitVec 8)
  /-- BR (R172). -/
  | br (e : Fin 16) (cc : Cond) (target : BitVec 14)
  /-- CALL (R172). -/
  | call (e : Fin 16) (target : BitVec 14)
  /-- RET (R172). -/
  | ret (e : Fin 16)
  /-- RETI (R177). -/
  | reti (e : Fin 16)
  /-- WAIT (R177). -/
  | wait (e : Fin 16)
  /-- EVRAISE (R184). -/
  | evraise (e : Fin 16)
  /-- BRKLP (R169). -/
  | brklp (e : Fin 16)
  /-- PLANEV (R176). -/
  | planev (e : Fin 16)
  /-- JEND (R176). -/
  | jend (e : Fin 16)
  /-- SAFETY_BEAT (R237). -/
  | safetyBeat (h : Bool) (cyc : Nat)
  /-- NO_RECORD (R241). -/
  | noRecord
  /-- HEDGE_TICK_TIMEOUT (R248). -/
  | hedgeTickTimeout
  /-- OFF_PULSE_END (R231). -/
  | offPulseEnd (h : Bool) (n : Fin 16)
  /-- READBACK_FAULT (R233). -/
  | readbackFault (h : Bool) (n : Fin 16) (level : Bool)
  /-- SAFETY_INPUT_ACCEPT (R222). -/
  | safetyInputAccept (h : Bool) (i : Fin 16) (level : Bool) (held : Nat)
  /-- DISCREPANCY_TIMEOUT (R223). -/
  | discrepancyTimeout (h : Bool) (i : Fin 16)
  /-- TWOHAND_SYNC_TIMEOUT (R226). -/
  | twohandSyncTimeout (h : Bool) (i : Fin 16)
  /-- SUBTELEGRAM_RECEIVE (R219). -/
  | subtelegramReceive (h lost : Bool)
  /-- SEP_RECORD_RECEIVE (R240). -/
  | sepRecordReceive (intact : Bool)
  /-- CROSS_CHECK_POINT (R245). -/
  | crossCheckPoint (bad : BitVec 10) (wrOk : Bool)
  /-- VERDICT_RECEIVE (R246). -/
  | verdictReceive (h : Bool) (v : Option (List Byte))
  /-- BRAKE_RELEASE_DELAY (R251). -/
  | brakeReleaseDelay (h : Bool) (a : Fin 8)
  /-- TSS1_EXPIRY (R238). -/
  | tss1Expiry (h : Bool) (a : Fin 8)
  /-- SAFETY_CHANNEL_FAULT (R250). -/
  | safetyChannelFault (h : Bool)
  /-- FEEDBACK_EDGE (R312). -/
  | feedbackEdge (n : Fin 24) (lv : BitVec 3) (t : Nat)
  /-- INDEX_EDGE (R320). -/
  | indexEdge (n : Fin 24)
  /-- FEEDBACK_LATCH (R321). -/
  | feedbackLatch (t : Nat)
  /-- SSI_WORD_COMPLETE (R317). -/
  | ssiWordComplete (n : Fin 24) (word : BitVec 40) (high par : Bool)
  /-- SPEED_STILL_TIMEOUT (R323). -/
  | speedStillTimeout (n : Fin 24)
  /-- EMULATION_TICK (R326). -/
  | emulationTick
  /-- AUX_PROFILE_TICK (R329). -/
  | auxProfileTick
  /-- HYS_UPDATE (R340). -/
  | hysUpdate (l : Fin 32)
  /-- MODULATOR_OUTPUT (R425). -/
  | modulatorOutput (ch : Fin 8) (fast : Bool) (sum : Nat)
  /-- MODULATOR_STUCK (R426). -/
  | modulatorStuck (ch : Fin 8)
  /-- MAINS_UPDATE (R427). -/
  | mainsUpdate (a0 a1 a2 : BitVec 16) (freq : Word)
  /-- DIP_END (R428). -/
  | dipEnd
  /-- RIDE_THROUGH_EXPIRY (R431). -/
  | rideThroughExpiry
  /-- ANNOUNCE_RECEIVE (R296). -/
  | announceReceive (p : Fin 2) (h : PtpHdr) (b : AnnBody)
  /-- SYNC_RECEIVE (R299). -/
  | syncReceive (p : Fin 2) (follow : Bool) (h : PtpHdr) (o : PtpTime)
  /-- DELAY_REQ_SEND (R295). -/
  | delayReqSend (k : Fin 2)
  /-- DELAY_RESP_RECEIVE (R298). -/
  | delayRespReceive (p : Fin 2) (h : PtpHdr) (who : Nat) (t4 : PtpTime)
  /-- ANNOUNCE_TIMEOUT (R297). -/
  | announceTimeout (k : Fin 2)
  /-- SYNC_TIMEOUT (R297). -/
  | syncTimeout (k : Fin 2)
  /-- PLANT_LINK_CHANGE (R297). -/
  | plantLinkChange (p : Fin 2) (up : Bool)
  /-- TC_FORWARD (R303). -/
  | tcForward (p : Fin 2) (drop : Bool) (event : Option Int) (dwell : Nat)
  /-- HOLD_LONG (R302). -/
  | holdLong
  /-- LOCK_RELEASE (R403). -/
  | lockRelease (lv : Fin 3) (idx : Nat)
  /-- MORTAR_TRANSFER_DONE (R407). -/
  | mortarTransferDone (path : Nat)
  /-- SLAVE_ENABLE_WRITE (R297). -/
  | slaveEnableWrite (en : BitVec 2)
  /-- DOMAIN_NUMBER_WRITE (R307). -/
  | domainNumberWrite (w : Word)
  /-- CLEARING_TEST_END (R233). -/
  | clearingTestEnd (h : Bool) (n : Fin 16) (pass : Bool)
  /-- HIB_READY (R422). -/
  | hibReady
  /-- GLB_TEMP_UPDATE (R467). -/
  | glbTempUpdate (t : BitVec 16)
  /-- MODULATOR_RECOVERY (R426). -/
  | modulatorRecovery (ch : Fin 8)
  deriving DecidableEq, Repr

end Sys2Proof
end

