-- ==== Sys2Proof/Decode.lean ====
section
/-! DEFINITION. Decoding. The block takes commands, not words: the table of operations and events gives none of its rows bits,
so no word spells a command. -/

namespace Sys2Proof

/-- The command that an instruction word of `nbits` bits spells by the table's bits: none, since no row has bits. -/
def decodeTableWord (_nbits _w : Nat) : Option Instr := none

end Sys2Proof
end

