-- ==== Sys2Proof/Config.lean ====
section
/-! DEFINITION. What an implementation fixes and the spec does not, and the free values: constants with no body, so that
no proof can lean on a number. Each is named in a row of the assumption log. -/

namespace Sys2Proof.Config

/-- The 256-bit key hash held in fuses (R444), as its 32 bytes. -/
opaque keyHash : List Byte
/-- The security version held in fuses (R444). -/
opaque fuseSecVer : Nat
/-- Does the signature verify under the public key over the digest (ECDSA P-256, R444 check 4)? Arguments: public key
bytes, signature bytes, digest bytes. The arithmetic is that of FIPS 186-4, outside the spec. -/
opaque ecdsaValid : List Byte → List Byte → List Byte → Bool
/-- A free value for use number `n`: what the device puts where the spec states no value. -/
opaque freeNat : Nat → Nat
/-- The acceleration of gravity in units of 2^−16 mm/s², of which the gravity torque of R74 is made; the spec prints no
number. -/
opaque gravity : Nat
/-- Where the reference of a joint stands while its arm follows a conveyor-relative segment (R52). The spec gives the tool
point and not the joint positions that reach it. Arguments: all they may depend on, as numbers; the joint within the arm;
the component (position, velocity, acceleration, jerk). -/
opaque toolRef : List Int → Nat → Nat → Int
/-- Contents of the mask ROM of a servo engine, which the spec does not print (R162). -/
opaque romWord : Nat → Word

/-- What a post-modify leaves in a pointer where R171 states no result: a circular step of the buffer's length or more, a
reverse-carry width above 12. Arguments: pointer, descriptor, buffer start, amount. -/
opaque freePtr : Nat → Word → Nat → Int → Nat

end Sys2Proof.Config
end

