-- ==== Sys2Proof/Machine/Bytes.lean ====
section
/-! DEFINITION. Little-endian byte strings (R3), the three cyclic redundancy checks the spec names (Table — Model blob
header for CRC-32C, R218 for CRC-32, R217 for CRC-16) and the index-class comparison of R10. -/

namespace Sys2Proof.Machine

/-- The `n` little-endian bytes of a number (R3). -/
def leBytes : Nat → Nat → List Byte
  | 0, _ => []
  | n + 1, v => BitVec.ofNat 8 v :: leBytes n (v / 256)

/-- The number little-endian bytes spell (R3). -/
def leNat : List Byte → Nat
  | [] => 0
  | b :: bs => b.toNat + 256 * leNat bs

/-- `n` bytes at an offset, zeros where the string is too short. -/
def bytesAt (bs : List Byte) (off n : Nat) : List Byte :=
  let t := (bs.drop off).take n
  t ++ List.replicate (n - t.length) 0

/-- The unsigned field of `n` bytes at an offset. -/
def uAt (bs : List Byte) (off n : Nat) : Nat := leNat (bytesAt bs off n)

/-- Two's complement reading of an unsigned number of `w` bits. -/
def signed (w v : Nat) : Int := if v % 2 ^ w < 2 ^ (w - 1) then (v % 2 ^ w : Nat) else (v % 2 ^ w : Nat) - (2 ^ w : Nat)

/-- The signed field of `n` bytes at an offset. -/
def sAt (bs : List Byte) (off n : Nat) : Int := signed (8 * n) (uAt bs off n)

/-- The `w`-bit two's complement encoding of an integer. -/
def encSigned (w : Nat) (v : Int) : Nat := (v % (2 ^ w : Nat)).toNat

/-- Are the `n` bytes at an offset all zero? -/
def zeroAt (bs : List Byte) (off n : Nat) : Bool := (bytesAt bs off n).all (· == 0)

/-- Put bytes over a string at an offset. -/
def putBytes (bs : List Byte) (off : Nat) (v : List Byte) : List Byte :=
  bs.take off ++ v ++ bs.drop (off + v.length)

/-- Clamp an integer to a range. -/
def clampInt (v lo hi : Int) : Int := if v < lo then lo else if hi < v then hi else v

/-- One bit of a number. -/
def bitOf (v n : Nat) : Bool := v / 2 ^ n % 2 == 1

/-- Set one bit of a number. -/
def setBit (v n : Nat) (b : Bool) : Nat :=
  if bitOf v n == b then v else if b then v + 2 ^ n else v - 2 ^ n

/-- Number of bits set among the low `n`. -/
def popCount : Nat → Nat → Nat
  | 0, _ => 0
  | n + 1, v => v % 2 + popCount n (v / 2)

/-- The set bits below `n`, ascending. -/
def bitsOf (v n : Nat) : List Nat := (List.range n).filter (bitOf v)

/-- The mask of a list of bit numbers. -/
def maskOf (l : List Nat) : Nat := l.foldl (fun a b => setBit a b true) 0

/-- One bit step of a reflected CRC. -/
def crcReflStep (poly : Nat) : Nat → Nat → Nat
  | 0, c => c
  | n + 1, c => crcReflStep poly n (if c % 2 = 1 then Nat.xor (c / 2) poly else c / 2)

/-- A reflected 32-bit CRC with initial value and final XOR all ones; `poly` is the reflected generator. -/
def crc32Refl (poly : Nat) (bs : List Byte) : Nat :=
  Nat.xor (bs.foldl (fun c b => crcReflStep poly 8 (Nat.xor c b.toNat)) 0xFFFFFFFF) 0xFFFFFFFF

/-- CRC-32C, generator 0x1EDC_6F41 reflected (Table — Model blob header). -/
def crc32c (bs : List Byte) : Nat := crc32Refl 0x82F63B78 bs

/-- CRC-32, generator 0x04C1_1DB7 reflected (R218). -/
def crc32 (bs : List Byte) : Nat := crc32Refl 0xEDB88320 bs

/-- One bit step of the CRC-16 of R217, generator 0x8BB7, most significant bit first. -/
def crc16Step : Nat → Nat → Nat
  | 0, c => c
  | n + 1, c => crc16Step n (if c ≥ 0x8000 then Nat.xor (c * 2 % 0x10000) 0x8BB7 else c * 2)

/-- CRC-16, generator 0x8BB7, initial value 0, no final XOR (R217). -/
def crc16 (bs : List Byte) : Nat := bs.foldl (fun c b => crc16Step 8 (Nat.xor c (b.toNat * 256))) 0

/-- Is a quaternion or direction in Q1.30 of unit norm within 2^−20 (R37)? -/
def unitNorm (q : List Int) : Bool :=
  let n := q.foldl (fun a x => a + x * x) 0
  decide ((2 ^ 30 - 2 ^ 10) ^ 2 ≤ n) && decide (n ≤ (2 ^ 30 + 2 ^ 10) ^ 2)

/-- `n` signed 32-bit values at an offset. -/
def vecAt (bs : List Byte) (off n : Nat) : List Int := (List.range n).map (fun i => sAt bs (off + 4 * i) 4)

/-- R10: `a` is newer than `b` for an `n`-bit index-class counter. -/
def newer (n a b : Nat) : Bool :=
  let d := (a + (2 ^ n - b % 2 ^ n)) % 2 ^ n
  1 ≤ d && d < 2 ^ (n - 1)

/-- Distance from ring index `b` to `a` in a ring of `size` entries (R351). -/
def ringDist (size a b : Nat) : Nat := (a + (size - b % size)) % size

/-- Replace one element of a list, growing nothing. -/
def updAt {α : Type} (l : List α) (n : Nat) (f : α → α) : List α :=
  match l, n with
  | [], _ => []
  | x :: xs, 0 => f x :: xs
  | x :: xs, n + 1 => x :: updAt xs n f

/-- Division of integers rounded to nearest, ties to even (R8); a divisor below 1 gives the dividend. -/
def divRne (n : Int) (d : Nat) : Int :=
  if d = 0 then n
  else
    let q := n / (d : Int)
    let r := n % (d : Int)
    if 2 * r < d then q else if (d : Int) < 2 * r then q + 1 else if q % 2 = 0 then q else q + 1

/-- Saturate to a signed range of `w` bits. -/
def satS (w : Nat) (v : Int) : Int := clampInt v (-(2 ^ (w - 1) : Nat)) ((2 ^ (w - 1) : Nat) - 1)

end Sys2Proof.Machine
end

