-- ==== Sys2Proof/Machine/CommonsTypes.lean ====
section
/-! DEFINITION. The state of the Commons and Separation Unit beside its registers (R185 to R212). -/

namespace Sys2Proof.Machine

/-- State of a held commons (Table — Commons states). -/
inductive HoldSt where
  | held | relpend | yielding
  deriving DecidableEq, Repr

/-- A commons that is not FREE, with the release command that waits for it. -/
structure Hold where
  cid : Nat
  arm : Nat
  st : HoldSt
  release : Option Nat
  deriving DecidableEq, Repr

/-- A pending request (R189): age, time-out in ms, cell time of the latch that made it pending, its command. -/
structure CReq where
  arm : Nat
  cid : Nat
  age : Nat
  tmo : Nat
  since : Nat
  cmd : Nat
  deriving DecidableEq, Repr

/-- A request or release received and not yet applied (R186). -/
structure HostReq where
  time : Nat
  request : Bool
  arm : Nat
  cid : Nat
  tmo : Nat
  cmd : Nat
  deriving DecidableEq, Repr

/-- An arm under retreat for a commons (R196): retreat time and target, the commons-free reference point. -/
structure Retreat where
  arm : Nat
  cid : Nat
  time : Nat
  target : Option (List Int)
  deriving DecidableEq, Repr

/-- A track that is LIVE or COASTING (R203): foot point in units of 2^−4 mm and velocity in units of 2^−16 mm/s, both in
the cell frame (R202), height and reported radius in mm, growth in units of 2^−16 mm · 10^−9. -/
structure Track where
  idx : Nat
  sid : Nat
  tid : Nat
  conf : Nat
  live : Bool
  age : Nat
  miss : Nat
  x : Int
  y : Int
  vx : Int
  vy : Int
  vz : Int
  ztop : Nat
  rad : Nat
  growth : Nat
  deriving DecidableEq, Repr

/-- A sensor of the model: lost at the last latch, and the newest sequence counter accepted from it. -/
structure SensorRt where
  sid : Nat
  lost : Bool
  seq : Option Nat
  deriving DecidableEq, Repr

/-- An entry of a separation limit record (Table — Separation limit record entry). -/
structure SepEntry where
  arm : Nat
  track : Nat
  nj : Nat
  firstj : Nat
  vlim : Nat
  dist : Nat
  c0 : Int
  gains : List Int
  deriving DecidableEq, Repr

/-- A separation limit record (Table — Separation limit record header). -/
structure SepRecord where
  tfrom : Nat
  tto : Nat
  rseq : Nat
  flags : Nat
  seppcrc : Nat
  entries : List SepEntry
  deriving DecidableEq, Repr

structure CommonsSt where
  holds : List Hold
  reqs : List CReq
  queue : List HostReq
  retreats : List Retreat
  /-- Commons-free reference points (R197): arm and joint positions in plan units. -/
  cfps : List (Nat × List Int)
  tracks : List Track
  sensors : List SensorRt
  /-- RSEQ of the last record built. -/
  rseq : Nat
  /-- The record built at the last latch and not delivered; the transfers that delivered one to channel A, until it takes
  them. -/
  built : Option SepRecord
  sent : List (List Byte)
  /-- TFROM of a record that could not be completed and has not been reported. -/
  lateAt : Option Nat
  /-- CMN_SEPACT, CMN_SEPCFG and the intrusion distances of sensors 0 to 7 in force since the last latch. -/
  sepact : Nat
  sepcfg : Nat
  intrs : List Nat
  deriving DecidableEq, Repr

end Sys2Proof.Machine
end

