-- ==== Sys2Proof/Machine/FabricTypes.lean ====
section
/-! DEFINITION. The state of the mortar beside its registers (R402 to R412): paths with their requests, locks and locked
sequences. -/

namespace Sys2Proof.Machine

/-- A transfer request: its port, age, order of arrival and beats. -/
structure XferReq where
  port : Nat
  age : Nat
  order : Nat
  beats : Nat
  deriving DecidableEq, Repr

/-- One path: the transfer under way, the port the grant is parked at, the requests that wait, and revoked transfers that
restart once the safety-class transfer has finished. -/
structure PathSt where
  path : Nat
  active : Option XferReq
  parked : Option Nat
  waiting : List XferReq
  revoked : List XferReq
  deriving DecidableEq, Repr

/-- A locked sequence: its level (0 brick, 1 course, 2 mortar), requester index, locks held, the lock it waits for, time-outs
in succession, and the cycles of a back-off in progress. -/
structure LockSeq where
  level : Nat
  idx : Nat
  held : List Nat
  wait : Option Nat
  k : Nat
  backoff : Option Nat
  deriving DecidableEq, Repr

/-- Requesters waiting for a lock, in order of request. -/
structure LockQueue where
  level : Nat
  lock : Nat
  waiters : List Nat
  deriving DecidableEq, Repr

structure FabricSt where
  paths : List PathSt
  order : Nat
  seqs : List LockSeq
  queues : List LockQueue
  /-- LOCK_TIMEOUT has been raised in this beat. -/
  lktSeen : Bool
  deriving DecidableEq, Repr

end Sys2Proof.Machine
end

