-- ==== Sys2Proof/Machine/HostTypes.lean ====
section
/-! DEFINITION. The state of the Host Queue Engine beside its registers (R351 to R376), of the event controller
(R381 to R390) and of Hod (R392 to R398). -/

namespace Sys2Proof.Machine

/-- The status codes of Table — Status meanings (R361). -/
inductive Status where
  | ok | partial_ | rejectedParam | rejectedState | aborted | timeout | unitFault | superseded
  deriving DecidableEq, Repr

/-- The code of a status (R361). -/
def Status.code : Status → Nat
  | .ok => 0 | .partial_ => 1 | .rejectedParam => 2 | .rejectedState => 3 | .aborted => 4 | .timeout => 5
  | .unitFault => 6 | .superseded => 7

/-- What a completion carries beside the command's own fields (R357). -/
structure Cpl where
  status : Status
  progress : Nat
  parts : Nat
  res0 : Nat
  res1 : Nat
  deriving DecidableEq, Repr

/-- An accepted command, held in the journal until it is complete and acknowledged (R360, R373). -/
structure Cmd where
  /-- Number of the command in order of acceptance. -/
  id : Nat
  ring : Nat
  opcode : Nat
  fence : Bool
  cid : Nat
  tag : Nat
  addr : Nat
  len : Nat
  param : List Byte
  /-- Cell time of acceptance. -/
  accepted : Nat
  /-- The row of the command's own name has run. -/
  started : Bool
  progress : Nat
  /-- FLAGS.REATTACH: accepted before the last queue-engine reset. -/
  reattach : Bool
  done : Option Cpl
  /-- Completion ring and index of the written completion. -/
  posted : Option (Nat × Nat)
  /-- Fetched in HOSTLOST: completes into the journal only (R371). -/
  journalOnly : Bool
  deriving DecidableEq, Repr

/-- A registered master copy (R1, R363). -/
structure MCopy where
  kind : Nat
  index : Nat
  addr : Nat
  len : Nat
  mid : Nat
  crc : Nat
  /-- Set while registered by a command still in progress: that command's number. -/
  cmd : Option Nat
  /-- STATUS 1 BAD: the check at the last reattach failed. -/
  bad : Bool
  deriving DecidableEq, Repr

/-- An event entry (R358) without its PHASE. -/
structure EvEntry where
  time : Nat
  source : Nat
  vec : Nat
  count : Nat
  detail0 : Nat
  detail1 : Nat
  seq : Nat
  kind : Nat
  deriving DecidableEq, Repr

/-- A run of events dropped from the event ring (R354, R358). -/
structure DropRun where
  count : Nat
  first : Nat
  last : Nat
  deriving DecidableEq, Repr

/-- A telemetry record on its way to one ring (R359). -/
structure TelRec where
  ring : Nat
  stream : Nat
  sub : Nat
  time : Nat
  payload : List Byte
  deriving DecidableEq, Repr

/-- Delivery of one stream to one ring (R369). -/
structure TelCfg where
  ring : Nat
  stream : Nat
  decim : Nat
  /-- Records offered since the last one delivered. -/
  skipped : Nat
  deriving DecidableEq, Repr

/-- The queue engine's own state. -/
structure HostSt where
  cmds : List Cmd
  nextId : Nat
  /-- The command ring the round robin serves next (R360). -/
  rr : Nat
  /-- PHASE of completion rings 0 to 31, the event ring (32) and telemetry rings 0 to 7 (33 to 40) (R353). -/
  phases : List Bool
  /-- Entries not yet signalled, per device-written ring in the same numbering (R355). -/
  unsig : List Nat
  /-- Commands complete and not yet written, in order of completion. -/
  cplQ : List Nat
  drops : Option DropRun
  /-- The main log: the newest 4,096 event entries, oldest first (R368). -/
  log : List EvEntry
  /-- Latched assertions whose entry is not yet written, in order of latch (R383). -/
  evOut : List EvEntry
  /-- SEQ of the next SOURCE entry (R358). -/
  evSeq : Nat
  /-- SEQ of the last entry written to the ring, and entries logged but not written since (R373). -/
  ringSeq : Nat
  unsent : Nat
  telOut : List TelRec
  telCfg : List TelCfg
  jointMask : Nat
  telSeq : List Nat
  telDrop : List Bool
  copies : List MCopy
  /-- The ATTACH being fetched, verified or carried out (R372). -/
  attaching : Option Nat
  /-- SHA-256 digest of the running firmware (R444). -/
  digest : List Byte
  tloss : Nat
  tatt : Nat
  /-- Reaction run at the last host loss: 0 none, 1 HOLD, 2 SS1 (R373). -/
  reactRun : Nat
  /-- STATE_READ commands that wait for their cross-check point (R367). -/
  stateRead : List Nat
  /-- Cell time of the last restart of the watchdog (R374). -/
  hbAt : Nat
  /-- Command rings enabled since the host loss (R371), as a mask. -/
  freshRings : Nat
  /-- Rings stopped by an error until they are disabled (R472), as a mask over the ring numbers. -/
  ringStop : Nat
  deriving DecidableEq, Repr

/-- State of one source at one engine target (R385). -/
structure EngSrc where
  eng : Nat
  src : Nat
  pend : Bool
  act : Bool
  deriving DecidableEq, Repr

/-- One Mason: the handlers it runs, innermost first, each with source and level, and what it runs below them. -/
structure Mason where
  handlers : List (Nat × Nat)
  task : Option Nat
  asleep : Bool
  failed : Bool
  running : Bool
  /-- Load of the window in progress (R398): time accounted up to, ns running a task or handler, ns in handlers. -/
  since : Nat
  busy : Nat
  irq : Nat
  deriving DecidableEq, Repr

inductive TaskSt where
  | dormant | ready | running (mason : Nat) | delayed (wake : Nat) | waiting (o : WaitObj) (deadline : Option Nat)
  deriving DecidableEq, Repr

/-- A task of the firmware (R392). -/
structure Task where
  id : Nat
  pri : Nat
  aff : Nat
  st : TaskSt
  /-- Cell time at which the task last became READY, and whether WAIT_LONG was raised for that readiness. -/
  since : Nat
  long : Bool
  /-- Result of the last wait: false TIMEOUT, true OK. -/
  resOk : Bool
  /-- Order of entry into its wait. -/
  order : Nat
  deriving DecidableEq, Repr

/-- Hod's own state. -/
structure HodSt where
  tasks : List Task
  /-- READY tasks per priority 0 to 31, head first. -/
  ready : List (List Nat)
  /-- Delay list: wake time in µs and task, sorted by wake time (R394). -/
  delays : List (Nat × Nat)
  /-- Counts of the 64 semaphores. -/
  sems : List Nat
  /-- Sources with a pending post (R395). -/
  posts : List Nat
  masons : List Mason
  /-- Measurements of the window in progress (R398): deepest ready list and longest wait per priority. -/
  qmax : List Nat
  wmax : List Nat
  switches : Nat
  preempts : Nat
  timeouts : Nat
  undels : Nat
  /-- Last tick in µs of cell time; start of the window in progress; waits begun so far. -/
  tick : Nat
  winAt : Nat
  waits : Nat
  deriving DecidableEq, Repr

end Sys2Proof.Machine
end

