-- ==== Sys2Proof/Machine/FieldTypes.lean ====
section
/-! DEFINITION. The state of the Field I/O unit beside its registers (R310 to R346): feedback channels, encoder emulation,
auxiliary axes and hysteretic loops. -/

namespace Sys2Proof.Machine

/-- Configuration of a feedback channel in force since the last beat instant (R346). -/
structure FbCfg where
  cfg : Nat
  ssi : Nat
  jump : Nat
  scale : Int
  offs : Int
  deriving DecidableEq, Repr

/-- One feedback channel. Times are FIELD cycles of 5 ns. -/
structure FbRt where
  cfg : FbCfg
  /-- The extended count X, and the count as latched. -/
  x : Int
  latched : Int
  /-- Edge history, newest first: time and direction (R322). -/
  hist : List (Nat × Int)
  /-- The history's only edge reversed the direction (R323). -/
  rev : Bool
  /-- Times of the last illegal transitions, newest first, at most three (R314). -/
  illegal : List Nat
  /-- Speed in 2^−4 count/s at the latch. -/
  spd : Int
  preset : Option Int
  /-- SSI: last good word, good and failed words in a row, latch time of the transfer and of the last good word. -/
  word : Option Nat
  good : Nat
  bad : Nat
  tLatch : Nat
  tWord : Nat
  spdSsi : Option Int
  /-- Position delivered, 2^−40 rad (or m). -/
  pos : Int
  deriving DecidableEq, Repr

/-- One emulation output: configuration in force, source position at enable, counts emitted (R326). -/
structure EeRt where
  cfg : Nat
  k : Int
  p0 : Int
  emitted : Int
  ovr : Bool
  deriving DecidableEq, Repr

/-- An auxiliary segment (Table — Auxiliary segment entry). -/
structure AuxSeg where
  p : Int
  v : Int
  tend : Nat
  deriving DecidableEq, Repr

/-- A table running or waiting: its segments, start as cell time, position and speed at the start; `follow` waits for the
end of the table running. -/
structure AuxTable where
  segs : List AuxSeg
  start : Nat
  follow : Bool
  p0 : Int
  v0 : Int
  cmd : Nat
  deriving DecidableEq, Repr

/-- A target that takes effect at the next tick (R330). -/
structure AuxTgt where
  tgt : Int
  vmax : Nat
  amax : Nat
  dmax : Nat
  cmd : Nat
  deriving DecidableEq, Repr

/-- One auxiliary axis: position in 2^−16 microstep, speed in 2^−16 microstep/s. -/
structure AuxRt where
  pos : Int
  vel : Int
  tgt : Int
  /-- The AUX_TARGET running, if any, and whether it has overshot. -/
  cmd : Option Nat
  ovr : Bool
  next : Option AuxTgt
  run : Option AuxTable
  seg : Nat
  wait : Option AuxTable
  /-- A stop is due at the next tick (R337). -/
  stopDue : Bool
  /-- Steps emitted toward the position, the direction of the last, and the FIELD cycles from it to the last tick (R328). -/
  emitted : Int
  dir : Int
  since : Nat
  /-- End of the re-phase under way, as cell time (R338). -/
  rephaseEnd : Nat
  /-- AUX_CFG has been written since the last reset: the outputs are driven (R328). -/
  driven : Bool
  deriving DecidableEq, Repr

/-- One hysteretic loop (R340 to R343). -/
structure HysRt where
  acc : Int
  nOn : Nat
  nOff : Nat
  stale : Nat
  fresh : Bool
  clamped : Bool
  /-- SRC and MODCH last used (R346). -/
  sel : Nat
  deriving DecidableEq, Repr

/-- An HL_SETPOINT in progress: command, loops still to take their setpoint, time, setpoints per loop (R343). -/
structure HlCmd where
  cmd : Nat
  left : List Nat
  at_ : Nat
  sps : List (Nat × Nat)
  deriving DecidableEq, Repr

structure FieldSt where
  fb : List FbRt
  ee : List EeRt
  aux : List AuxRt
  hys : List HysRt
  hl : Option HlCmd
  /-- Filtered values of the eight modulator channels for the loops, Q1.15 (R425). -/
  mod : List Int
  deriving DecidableEq, Repr

/-- The last feedback of a joint as mortar memory holds it: position (2^−40), speed (2^−16), torque (2^−10), vibration and
current (Q1.23), cell time of the latch; a missing beat leaves the values. -/
structure JointFb where
  gj : Nat
  q : Int
  v : Int
  trq : Int
  vib : Int
  cur : Int
  time : Nat
  turn : Int
  missing : Bool
  deriving DecidableEq, Repr

/-- The retention bank beside the joint entries MNS_RETJ shows (R421): axis positions with their valid mark, and the
retention log, oldest first. -/
structure RetSt where
  aux : List (Option Int)
  log : List EvEntry
  deriving DecidableEq, Repr

end Sys2Proof.Machine
end

