-- ==== Sys2Proof/Machine/HeathTypes.lean ====
section
/-! DEFINITION. The state of the Heathline controller beside its registers (R261 to R288). -/

namespace Sys2Proof.Machine

/-- An address entry of a schedule (Table — Address entry). -/
structure AddrEnt where
  laddr : Nat
  station : Nat
  vendor : Nat
  product : Nat
  rtdMin : Nat
  rtdMax : Nat
  deriving DecidableEq, Repr

/-- A slot entry of a schedule (Table — Slot entry). -/
structure SlotEnt where
  slot : Nat
  laddr : Nat
  nax : Nat
  nsafe : Nat
  paux : Nat
  raux : Nat
  plan : Bool
  tpoll : Nat
  deriving DecidableEq, Repr

/-- One port section of a schedule (R273). -/
structure PortSched where
  entries : List AddrEnt
  modes : List (List SlotEnt)
  defmode : Nat
  btm : Nat
  deriving DecidableEq, Repr

/-- A schedule: one optional section per port. -/
structure Sched where
  schedid : Nat
  crc : Nat
  tb : Nat
  ports : List (Option PortSched)
  deriving DecidableEq, Repr

/-- What the last responses said of one axis of a node (R266, R271, R272). -/
structure AxisFb where
  axis : Nat
  pos : Int
  vel : Int
  trq : Int
  turn : Int
  vib : Int
  cur : Int
  fstat : Nat
  /-- Consecutive beats in which the axis was missing. -/
  missing : Nat
  deriving DecidableEq, Repr

/-- One node address beside its HTL_NODE words. -/
structure NodeRt where
  laddr : Nat
  /-- Delays of the MEASURE exchanges so far (R278). -/
  meas : List Nat
  good : Nat
  /-- The node is polled in this beat; LEAVE was accepted in it. -/
  polled : Bool
  leave : Bool
  /-- Slots whose response was accepted in this beat. -/
  got : List Nat
  /-- Tool code of the last response, none before the first. -/
  tool : Option Nat
  axes : List AxisFb
  /-- Node input data of the last response, by slot. -/
  inputs : List (Nat × List Byte)
  /-- Safety sub-telegrams accepted in this beat (32 bytes each), from which the S + 60 µs latch takes the tracks. -/
  tracks : List (List Byte)
  deriving DecidableEq, Repr

/-- One port beside its HTL_PSTAT word. -/
structure PortRt where
  link : Bool
  /-- A restart at the next boundary is due (R275, HTL_CTRL.PEN). -/
  restart : Bool
  stop : Bool
  /-- Entry last served by the join exchange; the address whose answer is awaited; the exchange of this beat has been made. -/
  served : Nat
  exchange : Option Nat
  exchanged : Bool
  endSent : Bool
  /-- A backup frame was received in this beat. -/
  bkup : Bool
  /-- REFTIME and payload of this beat's BEAT_HEAD, which BEAT_END repeats (R265, R282). -/
  head : List Byte
  deriving DecidableEq, Repr

/-- A mode switch accepted and not yet made (R281). -/
structure ModeSw where
  ports : Nat
  modes : List Nat
  cmd : Nat
  accepted : Nat
  /-- Beat b once it has begun. -/
  first : Option Nat
  listed : List Nat
  acked : List Nat
  decided : Option Bool
  deriving DecidableEq, Repr

structure HeathSt where
  sched : Option Sched
  /-- A SCHEDULE_LOAD being fetched, and a checked schedule awaiting its boundary with its command. -/
  loading : Option Nat
  awaiting : Option (Sched × Nat)
  nodes : List NodeRt
  ports : List PortRt
  switch : Option ModeSw
  /-- Channels failed in the check-unit self-test (R286); CHK_MISMATCH raised in this beat. -/
  chkSeen : Bool
  /-- HTL_CFG in force since the last beat. -/
  cfg : Nat
  deriving DecidableEq, Repr

end Sys2Proof.Machine
end

