-- ==== Sys2Proof/Machine/MainsTypes.lean ====
section
/-! DEFINITION. The state of the Supply and Mains Monitor beside its registers (R425 to R433). -/

namespace Sys2Proof.Machine

/-- A dip in progress: cell time of detection, updates since, smallest A_p in 0.1 V, phases that were below DIPTHR, and
updates in a row with every A_p at or above DIPTHR + 20 (R427, R428). -/
structure DipSt where
  start : Nat
  updates : Nat
  low : Nat
  phases : Nat
  calm : Nat
  deriving DecidableEq, Repr

/-- A chopper loop in the monitor's hands (R433): loop, group, and updates with the output on and in all this stride. -/
structure Chopper where
  loop : Nat
  group : Nat
  on : Nat
  all : Nat
  deriving DecidableEq, Repr

structure MainsSt where
  /-- Outputs of the precise decimators of the eight channels, Q1.15 (R425). -/
  precise : List Int
  dip : Option DipSt
  swell : Bool
  /-- Updates in a row in which SWELL, and FREQ_DEV, could be left. -/
  swlCalm : Nat
  fdevCalm : Nat
  /-- Cell time at which the ride-through timer started. -/
  rt : Option Nat
  chop : List Chopper
  /-- BUS_OV has been raised in this beat. -/
  ovSeen : Bool
  deriving DecidableEq, Repr

end Sys2Proof.Machine
end

