-- ==== Sys2Proof/Machine/PlanTypes.lean ====
section
/-! DEFINITION. Plans and commit records (R111 to R137) and the problems and iterates of the solver walls (R88 to R109). -/

namespace Sys2Proof.Machine

/-- One knot of one joint in the units of Table — Model units: q, v, a, j (R124). -/
structure Knot where
  q : Int
  v : Int
  a : Int
  j : Int
  deriving DecidableEq, Repr

/-- The arrays of one present joint: knots 0 to 31 and stop points 1 to 16 (R124). -/
structure JointPlan where
  gj : Nat
  knots : List Knot
  stop : List (Int × Int)
  deriving DecidableEq, Repr

/-- A plan: the content of a commit record (R124). KIND: 0 CONVERGED, 1 BEST, 2 SHIFTED, 3 STANDSTILL. -/
structure Plan where
  seq : Nat
  srcseq : Nat
  token : Nat
  wall : Nat
  kind : Nat
  shifts : Nat
  flags : Nat
  epoch : Nat
  t0 : Nat
  tsolved : Nat
  tstop : Nat
  nfine : Nat
  dfine : Nat
  dcoarse : Nat
  viol : Nat
  modelid : Nat
  joints : List JointPlan
  /-- Stride duration in ns at the solve: what a stride of the knot layout is. -/
  ts : Nat
  deriving DecidableEq, Repr

/-- A row of the problem: l ≤ a·x ≤ u, under its identity (R70). Coefficients and bounds are mantissas of the matrix class
and of the bound class, `none` where infinite; `blk` is the row's block index (R88, R89). -/
structure Row where
  kind : Nat
  id1 : Nat
  id2 : Nat
  at_ : Nat
  blk : Nat
  coefs : List (Nat × Int)
  eA : Int
  eB : Int
  eY : Int
  lo : Option Int
  hi : Option Int
  deriving DecidableEq, Repr

/-- One problem as the Kiln delivers it and a wall holds it (R88). Variables are numbered by joint, knot, component. -/
structure Problem where
  epoch : Nat
  /-- S of the stride during which the problem is solved, and the stride's duration. -/
  s : Nat
  ts : Nat
  modelid : Nat
  /-- Present joints with the arm of each. -/
  joints : List Nat
  arms : List Nat
  /-- Classes of the primal and right-hand-side segments, four per joint, and of the preconditioner blocks, eight per joint. -/
  eX : List Int
  eR : List Int
  eK : List Int
  nfine : Nat
  dfine : Nat
  dcoarse : Nat
  /-- Objective exponents WQ, WV, WA, WJ, and reference mantissas: the linear term is −P r (R76). -/
  weights : List Int
  refx : List Int
  /-- Implicit bound rows: classes of bound and dual, four per joint; lower and upper mantissas, one per variable. -/
  bB : List Int
  bY : List Int
  bLo : List (Option Int)
  bHi : List (Option Int)
  /-- Dynamics rows, then the general rows. -/
  rows : List Row
  warmX : List Int
  warmY : List Int
  cold : Bool
  matchPm : Nat
  /-- T_stop in µs. -/
  tstop : Nat
  /-- x0 per joint: q, v, a (R69). -/
  x0 : List (Nat × Int × Int × Int)
  /-- Block that saturated while the Kiln built the problem (R58). -/
  bad : Option (Nat × Nat)
  deriving DecidableEq, Repr

/-- What a later problem is warm-started from (R86): of a solved problem, the range classes of its primal segments and the
duals of its rows under their identities. -/
structure Sol where
  seq : Nat
  joints : List Nat
  eX : List Int
  /-- (kind, identity, identity, knot or stop point), class, mantissa. -/
  duals : List ((Nat × Nat × Nat × Nat) × Int × Int)
  deriving DecidableEq, Repr

/-- A preconditioner block: its factor rows, or its diagonal alone (R99 to R101). -/
structure PcBlock where
  diagOnly : Bool
  /-- Strictly lower triangle by rows, and the diagonal, as mantissas of the block's class. -/
  l : List (List Int)
  d : List Int
  deriving DecidableEq, Repr

/-- An iterate of a wall. -/
structure Iterate where
  x : List Int
  z : List Int
  y : List Int
  deriving DecidableEq, Repr

/-- Solver set-up latched at a problem's start (SLV_CTRL, SLV_RHO, SLV_SCALE, SLV_TOL, SLV_ITER). -/
structure SolveCfg where
  relax : Bool
  carry : Bool
  rinit : Int
  rmin : Int
  rmax : Int
  rhoint : Nat
  rhoth : Nat
  sigma : Int
  eqsh : Nat
  tolp : Nat
  told : Nat
  tolv : Nat
  cgtol : Nat
  itcap : Nat
  inner : Nat
  cgeps : Nat
  deriving DecidableEq, Repr

/-- One solver wall beside its registers. -/
structure WallSt where
  /-- The wall passed its lane test and has not given up since (R112). -/
  avail : Bool
  /-- The problem in solution, and one whose blocks have all arrived while another was in solution. -/
  problem : Option Problem
  next : Option Problem
  cfg : SolveCfg
  cur : Iterate
  pc : List PcBlock
  r : Int
  carried : Int
  iters : Nat
  /-- Complete iterations of the final epoch that began after the fold (R114). -/
  finalIters : Nat
  /-- An iteration is on the folded problem: set at the boundary after the check point (R96, R108). -/
  folded : Bool
  foldDue : Option Problem
  /-- Started iterating; ended at the cap, by convergence, abandonment or the deadline. -/
  iterating : Bool
  converged : Bool
  capped : Bool
  abandoned : Nat
  /-- The best iterate with its violation and its iteration (R98). -/
  best : Option (Iterate × Nat × Nat)
  /-- A refactor after a change of r is in progress (R99). -/
  refactor : Bool
  innerN : Nat
  tconv : Option Nat
  prim : Nat
  dual : Nat
  pivf : Nat
  pcdiagn : Nat
  brkn : Nat
  qovfn : Nat
  resmisn : Nat
  parityN : Nat
  sat : Option (Nat × Nat)
  rhoclamp : Bool
  brkFlag : Bool
  qovfFlag : Bool
  pcdiagFlag : Bool
  pivFlag : Bool
  parityFlag : Bool
  /-- Residue mismatches of this stride per (course, brick); bricks retired. -/
  mismatches : List (Nat × Nat)
  retired : List (Nat × Nat)
  /-- Candidate selected at the deadline: 0 CONVERGED, 1 BEST, 2 SHIFTED; with its plan (R114). -/
  cand : Option (Nat × Option Plan)
  /-- The solve record awaiting the commit point, and what the candidate leaves for a warm start. -/
  solveRec : Option (List Byte)
  sol : Option Sol
  ran : Bool
  token : Nat
  portClosed : Bool
  /-- Cap doubled, for a COLD problem or a takeover (R97, R134). -/
  doubled : Bool
  /-- The record in the wall's commit buffer on its way to the receivers; its commit is not yet accounted; the record has
  been counted as rejected, as stale. -/
  record : Option Plan
  held : Bool
  rejCounted : Bool
  staleCounted : Bool
  /-- The wall of this entry is still in its lane test (R135). -/
  testing : Bool
  /-- A warm standby has claimed and waits for its problem's blocks: its cap will be doubled (R134). -/
  claimed : Bool
  deriving DecidableEq, Repr

/-- One receiver of commit records: servo wall or channel A (R24, R124, R127). -/
structure Receiver where
  inForce : Option Plan
  slot : Option Plan
  /-- It has accepted the record of the current commit point. -/
  accepted : Bool
  deriving DecidableEq, Repr

/-- The commit logic and the servo wall's plan state. -/
structure PlannerSt where
  servo : Receiver
  chanA : Receiver
  /-- The plan in force in channel A in the beat that ended at the last tick (R242). -/
  endPlan : Option Plan
  /-- Part of the stride reached: 0 before the solve deadline, 1 from it on, 2 from the commit point on. -/
  phase : Nat
  lastSeq : Nat
  /-- TOKEN of the last accounted commit (R131). -/
  lastToken : Nat
  /-- How the stride in progress has been accounted: as a miss or not (R118, R122). -/
  counted : Option Bool
  /-- The plan and t_e in force at the start of the beat in progress (R25). -/
  beatPlan : Option Plan
  beatTe : Option Nat
  /-- A stop request has reached the servo wall; t_e of the stop branch in progress. -/
  stopReq : Bool
  te : Option Nat
  /-- Standstill plan awaiting its boundary (R131), and beats at standstill (R130). -/
  restart : Option Plan
  standBeats : Nat
  /-- Strides without a miss in CREEP (R122). -/
  exitRun : Nat
  /-- The dual-act window: time of opening, and the wall that was active before, if one was. -/
  window : Option (Nat × Option Nat)
  /-- The recovery window: the claiming wall and its plans that have come into force (R136). -/
  recov : Option (Nat × Nat)
  /-- SLV_TIMING and SLV_REDUN in force since the last stride boundary. -/
  timing : Nat
  redun : Nat
  walls : List WallSt
  deriving DecidableEq, Repr

end Sys2Proof.Machine
end

