-- ==== Sys2Proof/Machine/ModelTypes.lean ====
section
/-! DEFINITION. The cell model as the Kiln holds it (R37 to R50, R54), reference segments (R52, R364) and the Kiln's own
state. -/

namespace Sys2Proof.Machine

/-- A vector or point of the geometry pipes. -/
structure V3 where
  x : Int
  y : Int
  z : Int
  deriving DecidableEq, Repr

/-- Arm entry (R41). -/
structure ArmEnt where
  armid : Nat
  nj : Nat
  firstj : Nat
  toolsrc : Nat
  ntool : Nat
  firsttool : Nat
  dcbus : Nat
  tcpvb : Nat
  body : List Byte
  deriving DecidableEq, Repr

/-- Joint entry (R42); the geometry and mass members stay in `body`, the entry's bytes, for the geometry pipes. -/
structure JointEnt where
  gj : Nat
  arm : Nat
  aj : Nat
  type : Nat
  qmin : Int
  qmax : Int
  vmax : Nat
  amax : Nat
  dmon : Nat
  jmax : Nat
  tmax : Nat
  fbsrc : Nat
  fbaddr : Nat
  axis : Nat
  vmeasb : Nat
  qdevb : Nat
  tmeasb : Nat
  rotorj : Nat
  body : List Byte
  deriving DecidableEq, Repr

/-- Tool entry (R45). -/
structure ToolEnt where
  arm : Nat
  code : Nat
  firstcap : Nat
  ncap : Nat
  body : List Byte
  deriving DecidableEq, Repr

/-- Capsule entry (R47). -/
structure CapEnt where
  owner : Nat
  tool : Nat
  p0 : List Int
  p1 : List Int
  radius : Nat
  deriving DecidableEq, Repr

/-- Pair entry (R48). -/
structure PairEnt where
  pairid : Nat
  capa : Nat
  capb : Nat
  clear : Nat
  deriving DecidableEq, Repr

/-- Commons entry (R49). -/
structure CommonsEnt where
  cid : Nat
  armmask : Nat
  baseprio : List Nat
  body : List Byte
  deriving DecidableEq, Repr

/-- Sensor entry (R50). -/
structure SensorEnt where
  sid : Nat
  node : Nat
  maxtr : Nat
  pos : List Int
  rot : List Int
  lat : Nat
  posunc : Nat
  vhb : Nat
  deriving DecidableEq, Repr

/-- DC-bus group entry (R50). -/
structure BusEnt where
  gid : Nat
  modch : Nat
  chophl : Nat
  cap : Nat
  vnom : Nat
  vuv : Nat
  vov : Nat
  pmaxb : Nat
  jmask : Nat
  deriving DecidableEq, Repr

/-- Conveyor entry (R50). -/
structure ConvEnt where
  kid : Nat
  fbch : Nat
  flags : Nat
  scale : Nat
  vconvb : Nat
  body : List Byte
  deriving DecidableEq, Repr

/-- Range entry (R54): block kind, index and class. -/
structure RangeEnt where
  kind : Nat
  index : Nat
  rc : Int
  deriving DecidableEq, Repr

/-- A model blob, checked and parsed. -/
structure Model where
  modelid : Nat
  modelrev : Nat
  headroom : Nat
  crc : Nat
  arms : List ArmEnt
  joints : List JointEnt
  tools : List ToolEnt
  caps : List CapEnt
  pairs : List PairEnt
  commons : List CommonsEnt
  sensors : List SensorEnt
  buses : List BusEnt
  convs : List ConvEnt
  range : List RangeEnt
  deriving DecidableEq, Repr

/-- A queued reference segment (R364); positions and velocities in the segment's own units. -/
structure Seg where
  kind : Nat
  kid : Nat
  tend : Nat
  pos : List Int
  vel : List Int
  deriving DecidableEq, Repr

/-- One arm's reference (R365): where and when its first queued segment starts, and the queue. -/
structure ArmRef where
  arm : Nat
  start : Nat
  q0 : List Int
  v0 : List Int
  segs : List Seg
  deriving DecidableEq, Repr

/-- Scale factors of LIMITS_SET, unit 2^−16 (R74, R75). -/
structure Limits where
  sv : Nat
  sa : Nat
  sj : Nat
  st : Nat
  deriving DecidableEq, Repr

/-- A GROUP_MOVE between its two phases (R366). -/
structure GroupPrep where
  cmd : Nat
  replace : Bool
  tswitch : Nat
  preparedAt : Nat
  /-- New segments per arm. -/
  segs : List (Nat × List Seg)
  deriving DecidableEq, Repr

/-- A change latched at the next check point, in order of acceptance: segments to append, a flush of arms from a time,
one target segment, and a GROUP_MOVE with REPLACE of one arm. -/
inductive RefChange where
  | append (arm : Nat) (segs : List Seg)
  | flush (arms tfrom cmd : Nat)
  | target (arm dur cmd : Nat) (pos : List Int)
  deriving DecidableEq, Repr

/-- A conveyor frame (R51): latch count, displacement count and speed latched at S + 60 µs. -/
structure ConvFrame where
  kid : Nat
  fbch : Nat
  origin : Option Int
  disp : Int
  speed : Int
  deriving DecidableEq, Repr

/-- What the assembled problem was built from, compared at the check point (R81). -/
structure UsedInputs where
  /-- Per track index: sensor, TID and foot point; per held commons: arm and state. -/
  tracks : List (Nat × List Int)
  grants : List (Nat × Nat × HoldSt)
  retreats : List Retreat
  /-- Creep, ride-through, stop branch. -/
  mode : List Bool
  budgets : List Nat
  tools : List (Option Nat)
  present : Nat
  x0 : List (Nat × Int × Int × Int)
  knots : Nat
  objw : Nat
  deriving DecidableEq, Repr

/-- The Kiln's own state. -/
structure KilnSt where
  active : Option Model
  staged : Option Model
  /-- A MODEL_LOAD being fetched; an accepted activation awaiting its latch, with its time of acceptance. -/
  loading : Option Nat
  activating : Option (Nat × Nat)
  refs : List ArmRef
  changes : List RefChange
  limits : List Limits
  limitsPend : List (Nat × Nat × Nat × Limits)
  group : List GroupPrep
  convs : List ConvFrame
  /-- Active tool per arm: tool index, or none. -/
  tools : List (Option Nat)
  /-- Arms present at the last check point. -/
  present : Nat
  used : Option UsedInputs
  /-- KLN_CTRL, KLN_SPECTOL, KLN_TRKTOL and KLN_COLACT in force since the last assembly start; KLN_KNOTS and KLN_OBJW
  in force since the last check point. -/
  ctrl : Nat
  spectol : Nat
  trktol : Nat
  colact : Nat
  knots : Nat
  objw : Nat
  /-- Assembly of the next problem has begun; a rebuild is under way; its last block was delivered. -/
  assembling : Bool
  rebuilding : Bool
  delivered : Bool
  refetch : List Nat
  /-- ROW_TRUNC has been raised in this stride (R78). -/
  truncSeen : Bool
  /-- Of the problem in solution, once the next assembly has begun: final epoch, blocks delivered, rebuilt. -/
  last : Option (Nat × Bool × Bool)
  /-- The problem assembled last, with the cell time its assembly began. -/
  prob : Option Problem
  asmAt : Nat
  /-- Normals of the rows of that problem, under their identities, and of the problem before it (R71). -/
  normals : List ((Nat × Nat × Nat × Nat) × V3)
  oldNormals : List ((Nat × Nat × Nat × Nat) × V3)
  /-- Block that saturated when the pipes evaluated the state of the last latch (R79). -/
  latchSat : Option (Nat × Nat)
  /-- KLN_KNOTS or KLN_OBJW has been written since the last check point (R81). -/
  written : Bool
  /-- Solutions of the latest commits, newest first. -/
  sols : List Sol
  deriving DecidableEq, Repr

end Sys2Proof.Machine
end

