-- ==== Sys2Proof/Machine/RegTable.lean ====
section
/-! DEFINITION. Every register of BAR0 with its offset, fields, access types and reset values, block by block, as the
register tables of the chapters give them (R4, R30). Reserved bits are the bits no field names. -/

namespace Sys2Proof.Machine

def rw (hi lo reset : Nat) : Field := ⟨hi, lo, .rw, reset, .any⟩
def rwIn (hi lo reset mn mx : Nat) : Field := ⟨hi, lo, .rw, reset, .range mn mx⟩
def rwSigned (hi lo reset : Nat) (mn mx : Int) : Field := ⟨hi, lo, .rw, reset, .srange mn mx⟩
def ro (hi lo reset : Nat) : Field := ⟨hi, lo, .ro, reset, .any⟩
def w1c (hi lo : Nat) : Field := ⟨hi, lo, .w1c, 0, .any⟩
def wo (hi lo : Nat) : Field := ⟨hi, lo, .wo, 0, .any⟩

def reg (name : String) (base : Nat) (fields : List Field) : RegDesc := ⟨name, base, 4, 1, .plain, fields⟩
def regs (name : String) (base stride count : Nat) (fields : List Field) : RegDesc :=
  ⟨name, base, stride, count, .plain, fields⟩
def counters (name : String) (base stride count : Nat) : RegDesc :=
  ⟨name, base, stride, count, .counter, [rw 30 0 0, ro 31 31 0]⟩
def counter (name : String) (base : Nat) : RegDesc := counters name base 4 1
def low64 (name : String) (base stride count : Nat) (f : Field) : RegDesc := ⟨name, base, stride, count, .low64, [f]⟩
def high64 (name : String) (base stride count : Nat) (f : Field) : RegDesc := ⟨name, base, stride, count, .high64, [f]⟩

/-- Block 0x0000: identity and global. -/
def glbRegs : List RegDesc := [
  reg "GLB_ID" 0x0000 [ro 15 0 0x0860, ro 23 16 0xA2, ro 27 24 1],
  reg "GLB_RST" 0x0004 [wo 0 0, wo 31 16],
  reg "GLB_RSTCAUSE" 0x0008 [ro 2 0 0],
  reg "GLB_REGERR" 0x0010 [w1c 15 0],
  reg "GLB_TEMP" 0x0014 [ro 15 0 0, w1c 16 16]]

/-- Block 0x1000: host queue engine. Rings: command 0x1100, completion 0x1300, event 0x1500, telemetry 0x1600. -/
def hqeRegs : List RegDesc := [
  reg "HQE_CTRL" 0x1000 [wo 0 0],
  reg "HQE_STAT" 0x1004 [ro 2 0 0, ro 3 3 0, ro 4 4 0, w1c 5 5, ro 26 16 0],
  reg "HQE_HB" 0x1008 [ro 15 0 0, ro 16 16 0],
  reg "HQE_HBAGE" 0x100C [ro 15 0 0],
  reg "HQE_COAL" 0x1010 [rw 7 0 1, rw 23 8 0],
  reg "HQE_FWVER" 0x1014 [ro 31 0 0],
  counter "HQE_DBERRN" 0x1040, counter "HQE_EVDROPN" 0x1044, counter "HQE_TLDROPN" 0x1048,
  counter "HQE_DMAERRN" 0x104C, counter "HQE_HOSTLOSSN" 0x1050]

/-- The four registers of a ring at `base + 0x10·r`. `vecMax`: the greatest value of CQVEC. -/
def ringRegs (kind : String) (base count vecMax : Nat) : List RegDesc := [
  low64 (kind ++ ".BASEL") base 0x10 count (rw 31 12 0),
  high64 (kind ++ ".BASEH") (base + 4) 0x10 count (rw 31 0 0),
  regs (kind ++ ".CFG") (base + 8) 0x10 count [rwIn 4 0 0 4 16, rw 8 8 0, w1c 9 9, rwIn 21 16 0 0 vecMax, rw 31 24 0],
  regs (kind ++ ".IDX") (base + 12) 0x10 count [ro 15 0 0, ro 31 16 0]]

def hqeRingRegs : List RegDesc :=
  ringRegs "HQE_CMD" 0x1100 32 31 ++ ringRegs "HQE_CPL" 0x1300 32 63 ++ ringRegs "HQE_EVT" 0x1500 1 63 ++
    ringRegs "HQE_TEL" 0x1600 8 63

/-- Block 0x2000: clocks, reset and power. -/
def clkRegs : List RegDesc := [
  reg "CLK_STAT" 0x2000 [ro 0 0 0, ro 1 1 0, ro 2 2 0, ro 3 3 0, ro 4 4 0, ro 5 5 0, ro 6 6 0, ro 7 7 0]]

/-- Block 0x3000: time and sync. -/
def timRegs : List RegDesc := [
  reg "TIM_CTRL" 0x3000 [rw 0 0 0, rw 1 1 1, rw 2 2 1, rw 3 3 0, rw 5 4 0, rw 6 6 1],
  reg "TIM_DOM" 0x3004 [rwIn 7 0 0 0 127, rwIn 15 8 1 0 127],
  reg "TIM_SERVO" 0x3008 [rwIn 11 0 0x064 1 4095, rwIn 15 12 8 1 15, rwIn 18 16 2 0 6, rwIn 22 20 3 0 6,
    rwIn 28 24 0x14 1 20],
  low64 "TIM_CLKIDL" 0x300C 4 1 (rw 31 0 0), high64 "TIM_CLKIDH" 0x3010 4 1 (rw 31 0 0),
  regs "TIM_LAT" 0x3014 4 2 [rw 15 0 0, rw 31 16 0],
  low64 "TIM_NOWL" 0x3020 4 1 (ro 31 0 0), high64 "TIM_NOWH" 0x3024 4 1 (ro 31 0 0),
  reg "TIM_NOWF" 0x3028 [ro 15 0 0],
  reg "TIM_PLSECH" 0x302C [ro 15 0 0],
  reg "TIM_PLSECL" 0x3030 [ro 31 0 0],
  reg "TIM_PLNS" 0x3034 [ro 31 0 0],
  low64 "TIM_EPOCHL" 0x3038 4 1 (ro 31 0 0), high64 "TIM_EPOCHH" 0x303C 4 1 (ro 31 0 0),
  reg "TIM_ADJ" 0x3040 [ro 15 0 0, ro 16 16 0, ro 17 17 0, ro 18 18 0, ro 19 19 1],
  reg "TIM_RESID" 0x3044 [ro 31 0 0],
  regs "TIM_DSTAT" 0x3060 0x20 2 [ro 2 0 0, ro 3 3 0, ro 23 16 0, ro 31 24 0],
  low64 "TIM_DOFSL" 0x3064 0x20 2 (ro 31 0 0), high64 "TIM_DOFSH" 0x3068 0x20 2 (ro 31 0 0),
  regs "TIM_DMPD" 0x306C 0x20 2 [ro 31 0 0],
  regs "TIM_DRATE" 0x3070 0x20 2 [ro 31 0 0],
  low64 "TIM_DGMIDL" 0x3074 0x20 2 (ro 31 0 0), high64 "TIM_DGMIDH" 0x3078 0x20 2 (ro 31 0 0),
  regs "TIM_DRSV" 0x307C 0x20 2 [],
  counter "TCFWD0" 0x30A0, counter "TCFWD1" 0x30A4, counter "TCCORR" 0x30A8, counter "TCDROP" 0x30AC,
  counter "PTPERR" 0x30B0]

/-- Block 0x4000: Heathline. -/
def htlRegs : List RegDesc := [
  reg "HTL_ETYPE" 0x4000 [rw 15 0 0x88B5],
  reg "HTL_CTRL" 0x4004 [rw 3 0 0, rw 7 4 0xF],
  reg "HTL_CFG" 0x4008 [rwIn 4 0 4 1 31, rwIn 15 8 0x10 4 255],
  reg "HTL_SCHED" 0x400C [ro 31 0 0],
  reg "HTL_BEAT" 0x4010 [ro 31 0 0],
  regs "HTL_PSTAT" 0x4020 4 4 [ro 2 0 0, ro 3 3 0, ro 4 4 0, ro 5 5 0, ro 12 8 0, ro 31 16 0],
  reg "HTL_MSWST" 0x4030 [ro 1 0 0, ro 7 4 0],
  regs "HTL_MSWMISS" 0x4034 4 3 [ro 31 0 0],
  counters "HTL_PERR" 0x4100 4 32,
  regs "HTL_NODE" 0x4400 8 96 [ro 2 0 0, ro 5 4 0, ro 15 8 0, ro 19 16 0],
  regs "HTL_NODE1" 0x4404 8 96 [ro 15 0 0, ro 31 16 0]]

/-- Block 0x5000, Kiln. -/
def klnRegs : List RegDesc := [
  reg "KLN_CTRL" 0x5000 [rw 0 0 1],
  reg "KLN_SPECTOL" 0x5004 [rw 15 0 0x20C5, rw 31 16 0x0148],
  reg "KLN_TRKTOL" 0x5008 [rw 15 0 0x0140],
  reg "KLN_COLACT" 0x500C [rw 15 0 0x0C80],
  reg "KLN_KNOTS" 0x5010 [rwIn 4 0 0x10 1 31, rwIn 11 8 2 1 8, rwIn 18 12 0x10 1 64],
  reg "KLN_OBJW" 0x5014 [rwSigned 7 0 0x0A (-16) 16, rwSigned 15 8 2 (-16) 16, rwSigned 23 16 0xFC (-16) 16,
    rwSigned 31 24 0xF4 (-16) 16],
  reg "KLN_EPOCH" 0x5020 [ro 15 0 0],
  counter "KLN_SQUASHN" 0x5024,
  reg "KLN_SQCAUSE" 0x5028 [w1c 7 0],
  reg "KLN_ROWS0" 0x5030 [ro 15 0 0, ro 31 16 0],
  reg "KLN_ROWS1" 0x5034 [ro 11 0 0, ro 31 12 0],
  reg "KLN_TRUNC" 0x5038 [w1c 0 0, w1c 1 1, w1c 2 2, w1c 3 3, w1c 4 4],
  reg "KLN_WARM" 0x503C [ro 9 0 0, ro 16 16 0],
  counter "KLN_COLDN" 0x5040,
  reg "KLN_ASMT" 0x5044 [ro 31 0 0],
  reg "KLN_STOPT" 0x5048 [ro 19 0 0],
  reg "KLN_MDLSTAT" 0x5100 [ro 1 0 0, ro 3 2 0, ro 4 4 0, ro 5 5 0],
  regs "KLN_MDLACT" 0x5104 4 4 [ro 31 0 0],
  reg "KLN_BOUNDST" 0x5118 [w1c 7 0, w1c 8 8],
  counters "KLN_BOUNDX" 0x5120 4 8]

/-- Block 0x5000, solver walls and commit. -/
def slvRegs : List RegDesc := [
  reg "SLV_CTRL" 0x5200 [rw 0 0 1, rw 1 1 1],
  reg "SLV_RHO" 0x5204 [rwSigned 7 0 0 (-16) 16, rwSigned 15 8 0xF4 (-16) 16, rwSigned 23 16 0x0C (-16) 16,
    rwIn 27 24 8 1 15, rwIn 30 28 3 1 7],
  reg "SLV_SCALE" 0x5208 [rwSigned 7 0 0xEC (-30) (-8), rw 11 8 0xA],
  reg "SLV_TOL" 0x520C [rwIn 4 0 0x10 4 28, rwIn 12 8 0x0E 4 28, rwIn 20 16 0x0A 4 28, rwIn 28 24 0x0C 4 28],
  reg "SLV_ITER" 0x5210 [rwIn 7 0 0x40 8 255, rwIn 11 8 8 1 8, rwIn 20 16 0x14 8 30],
  regs "SLV_WSTAT" 0x5300 0x80 2 [ro 1 0 0, ro 4 2 0, ro 10 8 0, ro 31 16 0],
  regs "SLV_COURSE" 0x5308 0x80 2 [ro 15 0 0],
  counters "SLV_PIVFLOOR" 0x5310 0x80 2, counters "SLV_PCDIAG" 0x5314 0x80 2, counters "SLV_BRK" 0x5318 0x80 2,
  counters "SLV_QOVF" 0x531C 0x80 2, counters "SLV_SATN" 0x5320 0x80 2, counters "SLV_RESMIS" 0x5324 0x80 2,
  counters "SLV_RETIRE" 0x5328 0x80 2, counters "SLV_PARITY" 0x532C 0x80 2, counters "SLV_ABANDON" 0x5330 0x80 2,
  reg "SLV_TIMING" 0x5400 [rw 9 0 0x0FA, rw 19 10 0x096, rw 29 20 0x064],
  reg "SLV_REDUN" 0x5404 [rw 0 0 0, rwIn 2 1 1 0 2, rwIn 11 4 0x14 5 60, wo 16 16, wo 17 17],
  reg "SLV_MISSCFG" 0x5408 [rwIn 7 0 8 1 254, rwIn 15 8 0x40 2 255, rwIn 23 16 0x20 1 255],
  reg "SLV_CMTTOL" 0x540C [rw 15 0 0x10, rw 31 16 0x10],
  reg "SLV_PLCTRL" 0x5410 [wo 0 0],
  reg "SLV_PLSTAT" 0x5414 [ro 2 0 0, ro 15 8 0, ro 16 16 0, ro 17 17 0, ro 18 18 0, ro 19 19 1],
  reg "SLV_AUTH" 0x5418 [ro 15 0 0],
  reg "SLV_CMTSEQ" 0x541C [ro 31 0 0],
  reg "SLV_LASTCMT" 0x5420 [ro 1 0 3, ro 15 8 0, ro 16 16 0, ro 31 24 0],
  counter "SLV_MISSN" 0x5430, counter "SLV_BESTN" 0x5434, counter "SLV_TAKEOVER" 0x5438,
  counter "SLV_PORTDROP" 0x543C, counter "SLV_CMTREJ" 0x5440, counter "SLV_STALE" 0x5444,
  counter "SLV_SLOTEMPTY" 0x5448]

/-- Block 0x6000: servo wall. -/
def srvRegs : List RegDesc := [
  reg "SRV_STAT" 0x6000 [ro 0 0 0, ro 1 1 0, ro 2 2 0, ro 3 3 0],
  reg "SRV_PARAMID" 0x6004 [ro 31 0 0],
  reg "SRV_ENGSTAT" 0x6008 [ro 15 0 0],
  reg "SRV_REJOIN" 0x600C [wo 15 0],
  low64 "SRV_FEWARNL" 0x6010 4 1 (w1c 31 0), high64 "SRV_FEWARNH" 0x6014 4 1 (w1c 27 0),
  low64 "SRV_FEFLTL" 0x6018 4 1 (w1c 31 0), high64 "SRV_FEFLTH" 0x601C 4 1 (w1c 27 0),
  reg "SRV_TRAP" 0x6020 [ro 3 0 0, ro 6 4 0, ro 11 8 0, ro 29 16 0],
  reg "SRV_CYCMAX" 0x6024 [rw 17 0 0, ro 29 24 0],
  counter "SRV_SPLATE" 0x6040, counter "SRV_FEWN" 0x6044, counter "SRV_FEFN" 0x6048, counter "SRV_FBMISS" 0x604C,
  counter "SRV_SATN" 0x6050, counter "SRV_RESMIS" 0x6054, counter "SRV_ENGFAIL" 0x6058,
  counter "SRV_MIGRATE" 0x605C, counter "SRV_CMINV" 0x6060, counter "SRV_TRAPN" 0x6064,
  counter "SRV_NESTN" 0x6068, counter "SRV_COSTX" 0x606C,
  regs "SRV_ALLOC" 0x6100 4 15 [ro 7 0 0xFF, ro 15 8 0xFF, ro 23 16 0xFF, ro 31 24 0xFF]]

/-- Block 0x7000: commons and separation. -/
def cmnRegs : List RegDesc := [
  reg "CMN_CCFG" 0x7000 [rwIn 7 0 0xA0 16 255, rw 15 8 0x14],
  reg "CMN_SEPCFG" 0x7004 [rw 15 0 0, rw 23 16 0x0A, rwIn 30 24 0x32 0 100],
  reg "CMN_SEPACT" 0x7008 [rw 15 0 0x1F40],
  reg "CMN_TRKCFG" 0x700C [rwIn 7 0 0x10 1 255],
  regs "CMN_INTR" 0x7010 4 4 [rw 15 0 0, rw 31 16 0],
  reg "CMN_SEPPCRC" 0x7020 [ro 31 0 0],
  reg "CMN_STAT" 0x7024 [ro 0 0 0, ro 15 8 0, ro 22 16 0],
  reg "CMN_LASTYLD" 0x7028 [ro 2 0 0, ro 3 3 0, ro 9 4 0, ro 10 10 0, ro 23 16 0],
  regs "CMN_HOLD" 0x7040 4 16 [ro 31 0 0],
  low64 "CMN_REQL" 0x7080 8 8 (ro 31 0 0), high64 "CMN_REQH" 0x7084 8 8 (ro 31 0 0),
  low64 "CMN_WFGL" 0x70C0 4 1 (ro 31 0 0), high64 "CMN_WFGH" 0x70C4 4 1 (ro 31 0 0),
  low64 "CMN_TRKLIVEL" 0x70C8 4 1 (ro 31 0 0), high64 "CMN_TRKLIVEH" 0x70CC 4 1 (ro 31 0 0),
  low64 "CMN_TRKCOASTL" 0x70D0 4 1 (ro 31 0 0), high64 "CMN_TRKCOASTH" 0x70D4 4 1 (ro 31 0 0),
  regs "CMN_VMIN" 0x70E0 4 8 [ro 31 0 0xFFFFFFFF],
  counter "CMN_GRANTN" 0x7100, counter "CMN_YIELDN" 0x7104, counter "CMN_TMON" 0x7108, counter "CMN_INTRN" 0x710C,
  counter "CMN_TRKNEWN" 0x7110, counter "CMN_TRKDROPN" 0x7114, counter "CMN_SNSLOSTN" 0x7118,
  counter "CMN_RECLATEN" 0x711C, counter "CMN_VZERON" 0x7120,
  regs "CMN_TRK0" 0x7800 16 64 [ro 2 0 0, ro 15 8 0, ro 17 16 0, ro 31 24 0],
  regs "CMN_TRKX" 0x7804 16 64 [ro 31 0 0],
  regs "CMN_TRKY" 0x7808 16 64 [ro 31 0 0],
  regs "CMN_TRKZ" 0x780C 16 64 [ro 15 0 0, ro 31 16 0]]

/-- The status registers of one safety channel: 0x8000 for channel A, mirrored at 0x9000 for the Hedge (R259). -/
def safRegs (p : String) (base : Nat) : List RegDesc := [
  reg (p ++ "_STAT") base [ro 0 0 0, ro 1 1 0, ro 2 2 0, ro 3 3 0],
  reg (p ++ "_SETCRC") (base + 0x04) [ro 31 0 0],
  reg (p ++ "_PAIR") (base + 0x08) [ro 31 0 0xFFFFFFFF],
  reg (p ++ "_ARM") (base + 0x0C) [ro 31 0 0xBBBBBBBB],
  reg (p ++ "_OUT") (base + 0x10) [ro 15 0 0, ro 31 16 0],
  reg (p ++ "_FAULT") (base + 0x14) [ro 10 0 0],
  reg (p ++ "_TE") (base + 0x18) [ro 31 0 0xFFFFFFFF],
  reg (p ++ "_ACK") (base + 0x1C) [wo 0 0],
  counter (p ++ "_DISCN") (base + 0x40), counter (p ++ "_TGERRN") (base + 0x44),
  counter (p ++ "_TGMMN") (base + 0x48), counter (p ++ "_OUTFN") (base + 0x4C),
  counter (p ++ "_SPDVN") (base + 0x50), counter (p ++ "_XCHKN") (base + 0x54),
  counter (p ++ "_VERMISSN") (base + 0x58)]

/-- Blocks 0x8000 and 0x9000. -/
def safetyRegs : List RegDesc :=
  safRegs "SAFA" 0x8000 ++ safRegs "HDG" 0x9000 ++ [
  reg "HDG_HCYC" 0x9060 [ro 15 0 0],
  reg "HDG_UNLOCK" 0x9080 [wo 15 0, ro 16 16 0]]

/-- Block 0xA000: feedback channels, emulation outputs, auxiliary axes. -/
def fioRegs : List RegDesc := [
  regs "FIO_CFG" 0xA000 0x40 24 [rwIn 2 0 0 0 3, rw 3 3 0, rw 4 4 0, rwIn 6 5 0 0 2, rwIn 13 8 4 1 63,
    rwIn 23 16 0x0A 1 255, rwIn 31 24 0x32 1 255],
  regs "FIO_SSI" 0xA004 0x40 24 [rwIn 5 0 0x1A 8 40, rw 6 6 1, rw 7 7 0, rwIn 17 8 0x00A 10 1000, rw 23 18 0],
  regs "FIO_JUMP" 0xA008 0x40 24 [rw 31 0 0],
  low64 "FIO_SCALEL" 0xA00C 0x40 24 (rw 31 0 0), high64 "FIO_SCALEH" 0xA010 0x40 24 (rw 31 0 0),
  low64 "FIO_OFFSL" 0xA014 0x40 24 (rw 31 0 0), high64 "FIO_OFFSH" 0xA018 0x40 24 (rw 31 0 0),
  regs "FIO_PRESET" 0xA01C 0x40 24 [wo 31 0],
  regs "FIO_CNT" 0xA020 0x40 24 [ro 31 0 0],
  regs "FIO_SPD" 0xA024 0x40 24 [ro 31 0 0],
  regs "FIO_ZCAP" 0xA028 0x40 24 [ro 31 0 0],
  regs "FIO_STAT" 0xA02C 0x40 24 [ro 1 0 0, ro 3 2 1, w1c 4 4, w1c 5 5, ro 7 6 0, ro 10 8 0],
  regs "FIO_CTRL" 0xA030 0x40 24 [wo 0 0],
  counters "FIO_QERRCNT" 0xA034 0x40 24,
  reg "FIO_FAULT" 0xA700 [ro 23 0 0],
  reg "FIO_QERRSUM" 0xA704 [w1c 23 0],
  regs "FIO_EECFG" 0xA600 0x20 8 [rw 1 0 0, rw 9 4 0, rwIn 19 12 0x0A 10 255, rw 20 20 0],
  low64 "FIO_EEKL" 0xA604 0x20 8 (rw 31 0 0), high64 "FIO_EEKH" 0xA608 0x20 8 (rw 31 0 0),
  regs "FIO_EECNT" 0xA60C 0x20 8 [ro 31 0 0],
  regs "FIO_EESTAT" 0xA610 0x20 8 [ro 15 0 0, w1c 16 16],
  regs "AUX_CFG" 0xA800 0x40 16 [rwIn 7 0 0x0A 10 30, rwIn 15 8 0x0A 10 255, rw 16 16 0, rw 17 17 0, rw 19 18 3,
    rw 29 20 0],
  regs "AUX_DSTOP" 0xA804 0x40 16 [rw 31 0 0x001E8480],
  regs "AUX_CTRL" 0xA808 0x40 16 [rw 0 0 0, rw 1 1 0, rw 2 2 0, wo 3 3],
  regs "AUX_STAT" 0xA80C 0x40 16 [ro 2 0 0, ro 3 3 0, w1c 4 4, ro 5 5 0, ro 17 8 0],
  low64 "AUX_POSL" 0xA810 0x40 16 (ro 31 0 0), high64 "AUX_POSH" 0xA814 0x40 16 (ro 31 0 0),
  regs "AUX_VEL" 0xA818 0x40 16 [ro 31 0 0],
  low64 "AUX_TGTL" 0xA81C 0x40 16 (ro 31 0 0), high64 "AUX_TGTH" 0xA820 0x40 16 (ro 31 0 0),
  regs "AUX_VMAX" 0xA824 0x40 16 [ro 31 0 0x0061A800],
  regs "AUX_AMAX" 0xA828 0x40 16 [ro 31 0 0x001E8480],
  regs "AUX_DMAX" 0xA82C 0x40 16 [ro 31 0 0x001E8480],
  regs "AUX_STEPCNT" 0xA830 0x40 16 [ro 31 0 0],
  counter "AUX_OVSN" 0xAC00, counter "AUX_SEGEMPTYN" 0xAC04, counter "AUX_LAGN" 0xAC08, counter "AUX_LOSTN" 0xAC0C]

/-- Block 0xB000: hysteretic loops. -/
def hysRegs : List RegDesc := [
  regs "HYS_CFG" 0xB000 0x20 32 [rw 0 0 0, rw 1 1 0, rw 2 2 0, rw 3 3 0, rw 6 4 0, rwIn 31 16 0x00C8 200 65535],
  regs "HYS_SP" 0xB004 0x20 32 [rw 15 0 0],
  regs "HYS_BAND" 0xB008 0x20 32 [rwIn 15 0 0 0 0x7FFF, rw 31 16 0],
  regs "HYS_LIM" 0xB00C 0x20 32 [rw 15 0 0, rw 31 16 0],
  regs "HYS_TMIN" 0xB010 0x20 32 [rw 15 0 0, rw 31 16 0],
  regs "HYS_IN" 0xB014 0x20 32 [rw 15 0 0, rw 23 16 0],
  regs "HYS_STAT" 0xB018 0x20 32 [ro 0 0 0, w1c 1 1, ro 2 2 0, ro 3 3 0, ro 31 16 0],
  regs "HYS_SWCNT" 0xB01C 0x20 32 [ro 31 0 0],
  counter "HYS_FLTN" 0xB400, counter "HYS_CLAMPN" 0xB404]

/-- Block 0xB800: supply and mains monitor. -/
def mnsRegs : List RegDesc := [
  reg "MNS_MODCFG" 0xB800 [rwIn 1 0 2 0 2, rwIn 3 2 2 0 2, rw 7 4 2, rwIn 15 8 0x14 8 255],
  regs "MNS_GAIN" 0xB810 8 8 [rw 31 0 0],
  regs "MNS_OFS" 0xB814 8 8 [rw 31 0 0],
  reg "MNS_MAINS" 0xB850 [rw 0 0 0, rw 1 1 0, rw 2 2 0, rw 6 4 0, rw 10 8 1, rw 14 12 2, rw 31 16 0x00E6],
  reg "MNS_DIPCFG" 0xB854 [rw 9 0 0x384, rw 19 10 0x44C, rw 29 20 0x1F4],
  reg "MNS_RTCFG" 0xB858 [rw 0 0 1, rwIn 10 1 0x014 1 1000, rwIn 16 11 0x0A 1 63],
  reg "MNS_LIM" 0xB85C [rw 15 0 0x0014, rw 23 16 0x64],
  reg "MNS_CHOPCFG" 0xB860 [rw 7 0 0x28, rw 15 8 0x0A, rw 23 16 2, rw 31 24 2],
  reg "MNS_DIPCLS0" 0xB870 [rw 9 0 800, rw 31 16 5000],
  reg "MNS_DIPCLS1" 0xB874 [rw 9 0 700, rw 31 16 500],
  reg "MNS_DIPCLS2" 0xB878 [rw 9 0 400, rw 31 16 200],
  reg "MNS_DIPCLS3" 0xB87C [rw 9 0 50, rw 31 16 20],
  reg "MNS_STAT" 0xB880 [ro 1 0 0, ro 2 2 0, ro 3 3 0, ro 6 4 0, ro 15 8 0, ro 19 16 0, ro 23 20 0],
  regs "MNS_AMP" 0xB884 4 3 [ro 15 0 0],
  reg "MNS_FREQ" 0xB890 [ro 31 0 0],
  regs "MNS_VBUS" 0xB8A0 8 4 [ro 31 0 0],
  regs "MNS_EG" 0xB8A4 8 4 [ro 31 0 0],
  low64 "MNS_DIPRECL" 0xB8C0 4 1 (ro 31 0 0), high64 "MNS_DIPRECH" 0xB8C4 4 1 (ro 31 0 0),
  reg "MNS_DIPREC2" 0xB8C8 [ro 15 0 0, ro 25 16 0, ro 28 26 0],
  reg "MNS_DIPREC3" 0xB8CC [ro 3 0 0],
  reg "MNS_RAIL" 0xB8E0 [ro 4 0 0x1F, ro 10 8 7, w1c 11 11, w1c 12 12],
  reg "MNS_HIB" 0xB8E4 [wo 15 0, ro 16 16 0],
  counter "MNS_DIPN" 0xB900, counter "MNS_SWELLN" 0xB904, counter "MNS_FDEVN" 0xB908, counter "MNS_RTN" 0xB90C,
  counter "MNS_RTSTOPN" 0xB910, counter "MNS_MODFN" 0xB914,
  regs "MNS_RETJ" 0xBA00 8 60 [ro 31 0 0],
  regs "MNS_RETJ1" 0xBA04 8 60 [ro 15 0 0, ro 31 31 0]]

/-- Block 0xC000: event controller. -/
def evcRegs : List RegDesc := [
  regs "EVC_PEND" 0xC100 4 8 [ro 31 0 0],
  regs "EVC_ACT" 0xC120 4 8 [ro 31 0 0],
  regs "EVC_UNDEL" 0xC140 4 8 [w1c 31 0],
  regs "EVC_LFILT" 0xC160 4 3 [rw 31 0 0x22222222],
  reg "EVC_ENGPRI" 0xC170 [rw 27 0 0x4C88888, ro 31 28 0],
  regs "EVC_FILT" 0xC200 4 32 [rw 31 0 0],
  regs "EVC_TGT" 0xC400 4 224 [ro 1 0 0, ro 7 4 0, ro 23 8 0, rw 29 24 0, rw 30 30 0, rw 31 31 0],
  reg "EVC_TGT224" 0xC780 [ro 1 0 0, ro 7 4 0, ro 23 8 0, ro 29 24 0, ro 30 30 1, rw 31 31 0],
  regs "EVC_TGT_HI" 0xC784 4 31 [ro 1 0 0, ro 7 4 0, ro 23 8 0, rw 29 24 0, rw 30 30 0, rw 31 31 0],
  counters "EVC_CNT" 0xC800 4 256,
  counter "EVC_MERGEN" 0xCC00, counter "EVC_UNDELN" 0xCC04]

/-- Block 0xD000: Hod. -/
def hodRegs : List RegDesc := [
  reg "HOD_CFG" 0xD000 [rwIn 9 0 0x064 1 1000, rw 19 10 0x384, rwIn 31 20 0x3E8 1 4095],
  regs "HOD_CORE" 0xD010 4 8 [ro 2 0 0, ro 15 8 0, ro 20 16 0, ro 27 24 0],
  regs "HOD_LOAD" 0xD030 4 8 [ro 9 0 0, ro 25 16 0],
  regs "HOD_QDEPTH" 0xD050 4 8 [ro 31 0 0],
  regs "HOD_WAITMAX" 0xD080 4 32 [ro 31 0 0],
  counter "HOD_SWITCHN" 0xD100, counter "HOD_PREEMPTN" 0xD104, counter "HOD_TMON" 0xD108,
  counter "HOD_WAITLIMN" 0xD10C]

/-- Block 0xE000: check units. -/
def chkRegs : List RegDesc := [
  reg "CHK_CTRL" 0xE000 [wo 0 0, ro 1 1 0],
  reg "CHK_STAT" 0xE004 [ro 15 0 0],
  counters "CHK_ERR" 0xE040 4 16]

/-- Block 0xF000: fabric, errors and test. -/
def fabRegs : List RegDesc := [
  reg "FAB_LOCKCFG" 0xF000 [rwIn 7 0 0x40 16 255, rwIn 17 8 0x100 64 1023, rwIn 29 18 0x400 256 4095],
  reg "FAB_HANGCFG" 0xF004 [rwIn 11 0 0x800 512 4095, rwIn 25 16 0x014 2 1000],
  low64 "FAB_PORTSTL" 0xF010 4 1 (ro 31 0 0), high64 "FAB_PORTSTH" 0xF014 4 1 (ro 6 0 0),
  reg "FAB_ERRSEQ" 0xF018 [ro 31 0 0xFFFFFFFF],
  counter "FAB_LKTMON" 0xF040, counter "FAB_REVOKEN" 0xF044, counter "FAB_HANGN" 0xF048,
  counter "FAB_PORTDROPN" 0xF04C, counter "FAB_PARITYN" 0xF050, counter "FAB_RFFAILN" 0xF054,
  regs "FAB_ERRLOG" 0xF400 4 256 [ro 31 0 0],
  reg "TST_BOOTST" 0xF800 [ro 3 0 0, ro 11 8 0],
  reg "TST_MBIST" 0xF804 [ro 5 0 0],
  reg "TST_LANE" 0xF808 [ro 1 0 0, ro 31 16 0]]

/-- The sixteen blocks of BAR0 in offset order (Table — BAR0 blocks, R30). -/
def regTable : List RegDesc :=
  glbRegs ++ hqeRegs ++ hqeRingRegs ++ clkRegs ++ timRegs ++ htlRegs ++ klnRegs ++ slvRegs ++ srvRegs ++ cmnRegs ++
    safetyRegs ++ fioRegs ++ hysRegs ++ mnsRegs ++ evcRegs ++ hodRegs ++ chkRegs ++ fabRegs

/-- The registers of one 4 KiB block. -/
def blockRegs (blk : Nat) : List RegDesc :=
  match blk with
  | 0x0 => glbRegs
  | 0x1 => hqeRegs ++ hqeRingRegs
  | 0x2 => clkRegs
  | 0x3 => timRegs
  | 0x4 => htlRegs
  | 0x5 => klnRegs ++ slvRegs
  | 0x6 => srvRegs
  | 0x7 => cmnRegs
  | 0x8 => safRegs "SAFA" 0x8000
  | 0x9 => safetyRegs.drop 15
  | 0xA => fioRegs
  | 0xB => hysRegs ++ mnsRegs
  | 0xC => evcRegs
  | 0xD => hodRegs
  | 0xE => chkRegs
  | 0xF => fabRegs
  | _ => []

/-- The descriptor of the register at a BAR0 offset, if one occupies it. -/
def findReg (off : Nat) : Option RegDesc :=
  (blockRegs (off / 0x1000)).find? (fun d => d.covers off)

/-- The reset value of a descriptor's word: each field's reset value in its place. -/
def resetWord (d : RegDesc) : Word :=
  BitVec.ofNat 32 (d.fields.foldl (fun a f => a + f.reset * 2 ^ f.lo) 0)

/-- The reset value of the register at an offset (0 where no register is). -/
def resetOf (off : Nat) : Word :=
  match findReg off with
  | some d => resetWord d
  | none => 0

end Sys2Proof.Machine
end

