-- ==== Sys2Proof/Machine/Regs.lean ====
section
/-! DEFINITION. The register fields that operations read or publish, by the names the spec gives them, as positions in
BAR0. -/

namespace Sys2Proof.Machine

/-- Bits [hi:lo] of the register at a BAR0 offset. -/
structure Fld where
  off : Nat
  hi : Nat
  lo : Nat
  deriving DecidableEq, Repr

def GLB_HDGREV : Fld := ⟨0x0000, 27, 24⟩
def GLB_RSTCAUSE : Fld := ⟨0x0008, 2, 0⟩
def GLB_BLKERR (n : Nat) : Fld := ⟨0x0010, n, n⟩
def GLB_TEMP : Fld := ⟨0x0014, 15, 0⟩
def GLB_TEMP_OVER : Fld := ⟨0x0014, 16, 16⟩
def HQE_STATE : Fld := ⟨0x1004, 2, 0⟩
def HQE_RSTBUSY : Fld := ⟨0x1004, 3, 3⟩
def HQE_CPLHELD : Fld := ⟨0x1004, 4, 4⟩
def HQE_JOVF : Fld := ⟨0x1004, 5, 5⟩
def HQE_JNL : Fld := ⟨0x1004, 26, 16⟩
def HQE_HBTMO : Fld := ⟨0x1008, 15, 0⟩
def HQE_REACT : Fld := ⟨0x1008, 16, 16⟩
def HQE_HBAGE : Fld := ⟨0x100C, 15, 0⟩
def HQE_CTHR : Fld := ⟨0x1010, 7, 0⟩
def HQE_CTIME : Fld := ⟨0x1010, 23, 8⟩
def HQE_FWVER : Fld := ⟨0x1014, 31, 0⟩
/-- Base offset of a ring's registers; rings are numbered command 0 to 31, completion 32 to 63, event 64,
telemetry 65 to 72. -/
def ringBase (r : Nat) : Nat :=
  if r < 32 then 0x1100 + 0x10 * r
  else if r < 64 then 0x1300 + 0x10 * (r - 32)
  else if r = 64 then 0x1500
  else 0x1600 + 0x10 * (r - 65)
def RING_BASEL (r : Nat) : Fld := ⟨ringBase r, 31, 0⟩
def RING_BASEH (r : Nat) : Fld := ⟨ringBase r + 4, 31, 0⟩
def RING_LOG2SZ (r : Nat) : Fld := ⟨ringBase r + 8, 4, 0⟩
def RING_EN (r : Nat) : Fld := ⟨ringBase r + 8, 8, 8⟩
def RING_ERR (r : Nat) : Fld := ⟨ringBase r + 8, 9, 9⟩
def RING_CQVEC (r : Nat) : Fld := ⟨ringBase r + 8, 21, 16⟩
def RING_GEN (r : Nat) : Fld := ⟨ringBase r + 8, 31, 24⟩
def RING_DEVIDX (r : Nat) : Fld := ⟨ringBase r + 12, 15, 0⟩
def RING_HOSTIDX (r : Nat) : Fld := ⟨ringBase r + 12, 31, 16⟩
def CLK_CORELK : Fld := ⟨0x2000, 0, 0⟩
def CLK_SERVOLK : Fld := ⟨0x2000, 1, 1⟩
def CLK_SAFALK : Fld := ⟨0x2000, 2, 2⟩
def CLK_TIMELK : Fld := ⟨0x2000, 3, 3⟩
def CLK_TREFOK : Fld := ⟨0x2000, 4, 4⟩
def CLK_TREF25 : Fld := ⟨0x2000, 5, 5⟩
def CLK_TIMEHOLD : Fld := ⟨0x2000, 6, 6⟩
def CLK_XDIE : Fld := ⟨0x2000, 7, 7⟩
def TIM_REFDOM : Fld := ⟨0x3000, 0, 0⟩
def TIM_AUTOSW : Fld := ⟨0x3000, 1, 1⟩
def TIM_SWMODE : Fld := ⟨0x3000, 2, 2⟩
def TIM_ALIGN : Fld := ⟨0x3000, 3, 3⟩
def TIM_SLVEN (d : Nat) : Fld := ⟨0x3000, 4 + d, 4 + d⟩
def TIM_SLVENS : Fld := ⟨0x3000, 5, 4⟩
def TIM_TCEN : Fld := ⟨0x3000, 6, 6⟩
def TIM_DOMNO (d : Nat) : Fld := ⟨0x3004, 7 + 8 * d, 8 * d⟩
def TIM_LOCKTHR : Fld := ⟨0x3008, 11, 0⟩
def TIM_LOCKN : Fld := ⟨0x3008, 15, 12⟩
def TIM_PTAU : Fld := ⟨0x3008, 18, 16⟩
def TIM_FAVG : Fld := ⟨0x3008, 22, 20⟩
def TIM_SLEW : Fld := ⟨0x3008, 28, 24⟩
def TIM_CLKIDL : Fld := ⟨0x300C, 31, 0⟩
def TIM_CLKIDH : Fld := ⟨0x3010, 31, 0⟩
def TIM_RXLAT (p : Nat) : Fld := ⟨0x3014 + 4 * p, 15, 0⟩
def TIM_TXLAT (p : Nat) : Fld := ⟨0x3014 + 4 * p, 31, 16⟩
def TIM_NOWL : Fld := ⟨0x3020, 31, 0⟩
def TIM_NOWH : Fld := ⟨0x3024, 31, 0⟩
def TIM_NOWF : Fld := ⟨0x3028, 15, 0⟩
def TIM_PLSECH : Fld := ⟨0x302C, 15, 0⟩
def TIM_PLSECL : Fld := ⟨0x3030, 31, 0⟩
def TIM_PLNS : Fld := ⟨0x3034, 31, 0⟩
def TIM_ADJ : Fld := ⟨0x3040, 15, 0⟩
def TIM_HOLD : Fld := ⟨0x3040, 16, 16⟩
def TIM_SLEWING : Fld := ⟨0x3040, 17, 17⟩
def TIM_RUNNING : Fld := ⟨0x3040, 18, 18⟩
def TIM_FREERUN : Fld := ⟨0x3040, 19, 19⟩
def TIM_EPOCH : Nat := 0x3038
def TIM_DOFS (d : Nat) : Nat := 0x3064 + 0x20 * d
def TIM_RESID : Fld := ⟨0x3044, 31, 0⟩
def TIM_DSTATE (d : Nat) : Fld := ⟨0x3060 + 0x20 * d, 2, 0⟩
def TIM_DPORT (d : Nat) : Fld := ⟨0x3060 + 0x20 * d, 3, 3⟩
def TIM_DLOGSYNC (d : Nat) : Fld := ⟨0x3060 + 0x20 * d, 23, 16⟩
def TIM_DSTEPS (d : Nat) : Fld := ⟨0x3060 + 0x20 * d, 31, 24⟩
def TIM_DMPD (d : Nat) : Fld := ⟨0x306C + 0x20 * d, 31, 0⟩
def TIM_DRATE (d : Nat) : Fld := ⟨0x3070 + 0x20 * d, 31, 0⟩
def TIM_DGMIDL (d : Nat) : Fld := ⟨0x3074 + 0x20 * d, 31, 0⟩
def TIM_DGMIDH (d : Nat) : Fld := ⟨0x3078 + 0x20 * d, 31, 0⟩
def HTL_PEN : Fld := ⟨0x4004, 3, 0⟩
def HTL_PENP (p : Nat) : Fld := ⟨0x4004, p, p⟩
def HTL_JOINEN (p : Nat) : Fld := ⟨0x4004, 4 + p, 4 + p⟩
def HTL_NODEMISS : Fld := ⟨0x4008, 4, 0⟩
def HTL_JOINGOOD : Fld := ⟨0x4008, 15, 8⟩
def HTL_ETYPE : Fld := ⟨0x4000, 15, 0⟩
def HTL_SCHED : Fld := ⟨0x400C, 31, 0⟩
def HTL_BEAT : Fld := ⟨0x4010, 31, 0⟩
def HTL_MODE (p : Nat) : Fld := ⟨0x4020 + 4 * p, 2, 0⟩
def HTL_RUN (p : Nat) : Fld := ⟨0x4020 + 4 * p, 3, 3⟩
def HTL_SWPEND (p : Nat) : Fld := ⟨0x4020 + 4 * p, 4, 4⟩
def HTL_BKUP (p : Nat) : Fld := ⟨0x4020 + 4 * p, 5, 5⟩
def HTL_NJOINED (p : Nat) : Fld := ⟨0x4020 + 4 * p, 12, 8⟩
def HTL_BEATEND (p : Nat) : Fld := ⟨0x4020 + 4 * p, 31, 16⟩
def HTL_MSWRES : Fld := ⟨0x4030, 1, 0⟩
def HTL_MSWPORTS : Fld := ⟨0x4030, 7, 4⟩
def HTL_MSWMISS (a : Nat) : Fld := ⟨0x4034 + 4 * ((a - 1) / 32), (a - 1) % 32, (a - 1) % 32⟩
def HTL_NSTATE (a : Nat) : Fld := ⟨0x4400 + 8 * (a - 1), 2, 0⟩
def HTL_NPORT (a : Nat) : Fld := ⟨0x4400 + 8 * (a - 1), 5, 4⟩
def HTL_NMISSC (a : Nat) : Fld := ⟨0x4400 + 8 * (a - 1), 15, 8⟩
def HTL_NJREFC (a : Nat) : Fld := ⟨0x4400 + 8 * (a - 1), 19, 16⟩
def HTL_NRTD (a : Nat) : Fld := ⟨0x4404 + 8 * (a - 1), 15, 0⟩
def HTL_NSTATION (a : Nat) : Fld := ⟨0x4404 + 8 * (a - 1), 31, 16⟩
/-- Counter k of port p (Table — Port error counters). -/
def HTL_PERR (p k : Nat) : Nat := 0x4100 + 0x20 * p + 4 * k
def CHK_DONE : Fld := ⟨0xE000, 1, 1⟩
def CHK_FAIL : Fld := ⟨0xE004, 15, 0⟩
def CHK_FAILC (c : Nat) : Fld := ⟨0xE004, c, c⟩
def KLN_SPECEN : Fld := ⟨0x5000, 0, 0⟩
def KLN_EPOCH : Fld := ⟨0x5020, 15, 0⟩
def KLN_SQCAUSE : Fld := ⟨0x5028, 7, 0⟩
def KLN_TRUNC (n : Nat) : Fld := ⟨0x5038, n, n⟩
def KLN_ASMT : Fld := ⟨0x5044, 31, 0⟩
def KLN_TSTOP : Fld := ⟨0x5048, 19, 0⟩
def KLN_MATCH : Fld := ⟨0x503C, 9, 0⟩
def KLN_COLD : Fld := ⟨0x503C, 16, 16⟩
def KLN_ACTV : Fld := ⟨0x5100, 1, 0⟩
def KLN_STGV : Fld := ⟨0x5100, 3, 2⟩
def KLN_ACTPEND : Fld := ⟨0x5100, 4, 4⟩
def KLN_LOADBUSY : Fld := ⟨0x5100, 5, 5⟩
def KLN_MDLACT (n : Nat) : Fld := ⟨0x5104 + 4 * n, 31, 0⟩
def KLN_BOUND (k : Nat) : Fld := ⟨0x5118, k, k⟩
def SLV_ROLE (w : Nat) : Fld := ⟨0x5300 + 0x80 * w, 1, 0⟩
def SLV_PHASE (w : Nat) : Fld := ⟨0x5300 + 0x80 * w, 4, 2⟩
def SLV_LASTOUT (w : Nat) : Fld := ⟨0x5300 + 0x80 * w, 10, 8⟩
def SLV_WEPOCH (w : Nat) : Fld := ⟨0x5300 + 0x80 * w, 31, 16⟩
def SLV_CSTATE (w c : Nat) : Fld := ⟨0x5308 + 0x80 * w, 2 * c + 1, 2 * c⟩
def SLV_PRIMARY : Fld := ⟨0x5404, 0, 0⟩
def SLV_SBMODE : Fld := ⟨0x5404, 2, 1⟩
def SLV_MCREEP : Fld := ⟨0x5408, 7, 0⟩
def SLV_MSTOP : Fld := ⟨0x5408, 15, 8⟩
def SLV_MEXIT : Fld := ⟨0x5408, 23, 16⟩
def SLV_CQTOL : Fld := ⟨0x540C, 15, 0⟩
def SLV_CVTOL : Fld := ⟨0x540C, 31, 16⟩
def SLV_PLSTATE : Fld := ⟨0x5414, 2, 0⟩
def SLV_MISSC : Fld := ⟨0x5414, 15, 8⟩
def SLV_WINDOW : Fld := ⟨0x5414, 16, 16⟩
def SLV_RECOV : Fld := ⟨0x5414, 17, 17⟩
def SLV_ACTWALL : Fld := ⟨0x5414, 18, 18⟩
def SLV_NOSB : Fld := ⟨0x5414, 19, 19⟩
def SLV_AUTH : Fld := ⟨0x5418, 15, 0⟩
def SLV_CMTSEQ : Fld := ⟨0x541C, 31, 0⟩
def SRV_PVALID : Fld := ⟨0x6000, 0, 0⟩
def SRV_PPEND : Fld := ⟨0x6000, 1, 1⟩
def SRV_STOPBR : Fld := ⟨0x6000, 2, 2⟩
def SRV_UNBOUND : Fld := ⟨0x6000, 3, 3⟩
def SRV_PSETID : Fld := ⟨0x6004, 31, 0⟩
def SRV_FAILED (e : Nat) : Fld := ⟨0x6008, e, e⟩
def SRV_FEWARN (j : Nat) : Fld := ⟨0x6010 + 4 * (j / 32), j % 32, j % 32⟩
def SRV_FEFLT (j : Nat) : Fld := ⟨0x6018 + 4 * (j / 32), j % 32, j % 32⟩
def SRV_BIND (j : Nat) : Fld := ⟨0x6100 + 4 * (j / 4), 8 * (j % 4) + 7, 8 * (j % 4)⟩
def SRV_CYC : Fld := ⟨0x6024, 17, 0⟩
def SRV_CYCGJ : Fld := ⟨0x6024, 29, 24⟩
def CMN_RETREAT : Fld := ⟨0x7000, 7, 0⟩
def CMN_CFMARG : Fld := ⟨0x7000, 15, 8⟩
def CMN_TRADD : Fld := ⟨0x7004, 15, 0⟩
def CMN_ZR : Fld := ⟨0x7004, 23, 16⟩
def CMN_CONFMIN : Fld := ⟨0x7004, 30, 24⟩
def CMN_SEPACT : Fld := ⟨0x7008, 15, 0⟩
def CMN_COAST : Fld := ⟨0x700C, 7, 0⟩
/-- Intrusion distance of sensor s. -/
def CMN_INTRD (s : Nat) : Fld := ⟨0x7010 + 4 * (s / 2), 16 * (s % 2) + 15, 16 * (s % 2)⟩
def SAFA_UNLOCKED : Fld := ⟨0x8000, 3, 3⟩
def HDG_UNLOCKED : Fld := ⟨0x9080, 16, 16⟩
/-- Word k of feedback channel n, auxiliary axis a, emulation output m, hysteretic loop l. -/
def fioReg (n k : Nat) : Nat := 0xA000 + 0x40 * n + k
def auxReg (a k : Nat) : Nat := 0xA800 + 0x40 * a + k
def eeReg (m k : Nat) : Nat := 0xA600 + 0x20 * m + k
def hysReg (l k : Nat) : Nat := 0xB000 + 0x20 * l + k
def FIO_STATE (n : Nat) : Fld := ⟨fioReg n 0x2C, 1, 0⟩
def FIO_SPDST (n : Nat) : Fld := ⟨fioReg n 0x2C, 3, 2⟩
def FIO_QERR (n : Nat) : Fld := ⟨fioReg n 0x2C, 4, 4⟩
def FIO_ZSEEN (n : Nat) : Fld := ⟨fioReg n 0x2C, 5, 5⟩
def FIO_FCAUSE (n : Nat) : Fld := ⟨fioReg n 0x2C, 7, 6⟩
def FIO_LEVEL (n : Nat) : Fld := ⟨fioReg n 0x2C, 10, 8⟩
def FIO_FAULTB (n : Nat) : Fld := ⟨0xA700, n, n⟩
def FIO_QSUM (n : Nat) : Fld := ⟨0xA704, n, n⟩
def AUX_STATE (a : Nat) : Fld := ⟨auxReg a 0x0C, 2, 0⟩
def AUX_LAG (a : Nat) : Fld := ⟨auxReg a 0x0C, 3, 3⟩
def AUX_RETAINED (a : Nat) : Fld := ⟨auxReg a 0x0C, 4, 4⟩
def AUX_TQ (a : Nat) : Fld := ⟨auxReg a 0x0C, 5, 5⟩
def AUX_SEG (a : Nat) : Fld := ⟨auxReg a 0x0C, 17, 8⟩
def AUX_DIRSU (a : Nat) : Fld := ⟨auxReg a 0, 15, 8⟩
def AUX_STOPSRC (a : Nat) : Fld := ⟨auxReg a 0, 19, 18⟩
def AUX_RSTPH (a : Nat) : Fld := ⟨auxReg a 0, 29, 20⟩
def AUX_DSTOP (a : Nat) : Fld := ⟨auxReg a 4, 31, 0⟩
def AUX_DRVOFF (a : Nat) : Fld := ⟨auxReg a 8, 0, 0⟩
def AUX_PHSKIP (a : Nat) : Fld := ⟨auxReg a 8, 1, 1⟩
def AUX_EN (a : Nat) : Fld := ⟨auxReg a 8, 2, 2⟩
def AUX_VMAX (a : Nat) : Fld := ⟨auxReg a 0x24, 31, 0⟩
def AUX_AMAX (a : Nat) : Fld := ⟨auxReg a 0x28, 31, 0⟩
def AUX_DMAX (a : Nat) : Fld := ⟨auxReg a 0x2C, 31, 0⟩
def EE_LAG (m : Nat) : Fld := ⟨eeReg m 0x10, 15, 0⟩
def EE_OVR (m : Nat) : Fld := ⟨eeReg m 0x10, 16, 16⟩
def HYS_EN (l : Nat) : Fld := ⟨hysReg l 0, 0, 0⟩
def HYS_POL (l : Nat) : Fld := ⟨hysReg l 0, 1, 1⟩
def HYS_SRC (l : Nat) : Fld := ⟨hysReg l 0, 2, 2⟩
def HYS_SAFE (l : Nat) : Fld := ⟨hysReg l 0, 3, 3⟩
def HYS_MODCH (l : Nat) : Fld := ⟨hysReg l 0, 6, 4⟩
def HYS_SP (l : Nat) : Fld := ⟨hysReg l 4, 15, 0⟩
def HYS_HB (l : Nat) : Fld := ⟨hysReg l 8, 15, 0⟩
def HYS_KI (l : Nat) : Fld := ⟨hysReg l 8, 31, 16⟩
def HYS_ILO (l : Nat) : Fld := ⟨hysReg l 0xC, 15, 0⟩
def HYS_IHI (l : Nat) : Fld := ⟨hysReg l 0xC, 31, 16⟩
def HYS_TMINON (l : Nat) : Fld := ⟨hysReg l 0x10, 15, 0⟩
def HYS_TMINOFF (l : Nat) : Fld := ⟨hysReg l 0x10, 31, 16⟩
def HYS_IN (l : Nat) : Fld := ⟨hysReg l 0x14, 15, 0⟩
def HYS_STALE (l : Nat) : Fld := ⟨hysReg l 0x14, 23, 16⟩
def HYS_OUT (l : Nat) : Fld := ⟨hysReg l 0x18, 0, 0⟩
def HYS_CLAMP (l : Nat) : Fld := ⟨hysReg l 0x18, 1, 1⟩
def HYS_FLT (l : Nat) : Fld := ⟨hysReg l 0x18, 2, 2⟩
def HYS_OWNED (l : Nat) : Fld := ⟨hysReg l 0x18, 3, 3⟩
def HYS_IQ (l : Nat) : Fld := ⟨hysReg l 0x18, 31, 16⟩
def MNS_GAIN (c : Nat) : Fld := ⟨0xB810 + 8 * c, 31, 0⟩
def MNS_OFS (c : Nat) : Fld := ⟨0xB814 + 8 * c, 31, 0⟩
def MNS_EN : Fld := ⟨0xB850, 0, 0⟩
def MNS_SINGLE : Fld := ⟨0xB850, 1, 1⟩
def MNS_FNOM : Fld := ⟨0xB850, 2, 2⟩
/-- Channel of phase p. -/
def MNS_PH (p : Nat) : Fld := ⟨0xB850, 4 * p + 6, 4 * p + 4⟩
def MNS_UNOM : Fld := ⟨0xB850, 31, 16⟩
def MNS_DIPTHR : Fld := ⟨0xB854, 9, 0⟩
def MNS_SWLTHR : Fld := ⟨0xB854, 19, 10⟩
def MNS_PLTHR : Fld := ⟨0xB854, 29, 20⟩
def MNS_RTEN : Fld := ⟨0xB858, 0, 0⟩
def MNS_TRT : Fld := ⟨0xB858, 10, 1⟩
def MNS_RTEND : Fld := ⟨0xB858, 16, 11⟩
def MNS_URTMARG : Fld := ⟨0xB85C, 15, 0⟩
def MNS_FDEV : Fld := ⟨0xB85C, 23, 16⟩
def MNS_CHMARG : Fld := ⟨0xB860, 7, 0⟩
def MNS_CHHB : Fld := ⟨0xB860, 15, 8⟩
def MNS_LEVEL (k : Nat) : Fld := ⟨0xB870 + 4 * k, 9, 0⟩
def MNS_DUR (k : Nat) : Fld := ⟨0xB870 + 4 * k, 31, 16⟩
def MNS_MSTATE : Fld := ⟨0xB880, 1, 0⟩
def MNS_RT : Fld := ⟨0xB880, 2, 2⟩
def MNS_FDEVF : Fld := ⟨0xB880, 3, 3⟩
def MNS_PLOSS (p : Nat) : Fld := ⟨0xB880, 4 + p, 4 + p⟩
def MNS_STUCK (c : Nat) : Fld := ⟨0xB880, 8 + c, 8 + c⟩
def MNS_BUSUV (g : Nat) : Fld := ⟨0xB880, 16 + g, 16 + g⟩
def MNS_BUSOV (g : Nat) : Fld := ⟨0xB880, 20 + g, 20 + g⟩
def MNS_AMP (p : Nat) : Fld := ⟨0xB884 + 4 * p, 15, 0⟩
def MNS_FREQ : Fld := ⟨0xB890, 31, 0⟩
def MNS_VBUS (g : Nat) : Fld := ⟨0xB8A0 + 8 * g, 31, 0⟩
def MNS_EG (g : Nat) : Fld := ⟨0xB8A4 + 8 * g, 31, 0⟩
def MNS_DIPDUR : Fld := ⟨0xB8C8, 15, 0⟩
def MNS_RESID : Fld := ⟨0xB8C8, 25, 16⟩
def MNS_PHASES : Fld := ⟨0xB8C8, 28, 26⟩
def MNS_CLASSES : Fld := ⟨0xB8CC, 3, 0⟩
def MNS_INRANGE (n : Nat) : Fld := ⟨0xB8E0, n, n⟩
def MNS_LASTCAUSE : Fld := ⟨0xB8E0, 10, 8⟩
def MNS_SEQERR : Fld := ⟨0xB8E0, 11, 11⟩
def MNS_HIBWOKE : Fld := ⟨0xB8E0, 12, 12⟩
def MNS_HIBRDY : Fld := ⟨0xB8E4, 16, 16⟩
def EVC_PEND (s : Nat) : Fld := ⟨0xC100 + 4 * (s / 32), s % 32, s % 32⟩
def EVC_ACT (s : Nat) : Fld := ⟨0xC120 + 4 * (s / 32), s % 32, s % 32⟩
def EVC_UNDEL (s : Nat) : Fld := ⟨0xC140 + 4 * (s / 32), s % 32, s % 32⟩
def EVC_LFILT (n : Nat) : Fld := ⟨0xC160 + 4 * (n / 8), 4 * (n % 8) + 3, 4 * (n % 8)⟩
def EVC_ENGPRI (v : Nat) : Fld := ⟨0xC170, 4 * v + 3, 4 * v⟩
def EVC_FILT (s : Nat) : Fld := ⟨0xC200 + 4 * (s / 8), 4 * (s % 8) + 3, 4 * (s % 8)⟩
def EVC_KIND (s : Nat) : Fld := ⟨0xC400 + 4 * s, 1, 0⟩
def EVC_PRI (s : Nat) : Fld := ⟨0xC400 + 4 * s, 7, 4⟩
def EVC_TIDX (s : Nat) : Fld := ⟨0xC400 + 4 * s, 23, 8⟩
def EVC_HVEC (s : Nat) : Fld := ⟨0xC400 + 4 * s, 29, 24⟩
def EVC_HVEN (s : Nat) : Fld := ⟨0xC400 + 4 * s, 30, 30⟩
def EVC_LOG (s : Nat) : Fld := ⟨0xC400 + 4 * s, 31, 31⟩
def HOD_LWIN : Fld := ⟨0xD000, 9, 0⟩
def HOD_LOADLIM : Fld := ⟨0xD000, 19, 10⟩
def HOD_WAITLIM : Fld := ⟨0xD000, 31, 20⟩
def HOD_STATE (c : Nat) : Fld := ⟨0xD010 + 4 * c, 2, 0⟩
def HOD_TASK (c : Nat) : Fld := ⟨0xD010 + 4 * c, 15, 8⟩
def HOD_TPRI (c : Nat) : Fld := ⟨0xD010 + 4 * c, 20, 16⟩
def HOD_LVL (c : Nat) : Fld := ⟨0xD010 + 4 * c, 27, 24⟩
def HOD_LOADF (c : Nat) : Fld := ⟨0xD030 + 4 * c, 9, 0⟩
def HOD_IRQLOAD (c : Nat) : Fld := ⟨0xD030 + 4 * c, 25, 16⟩
def HOD_DEPTH (p : Nat) : Fld := ⟨0xD050 + 4 * (p / 4), 8 * (p % 4) + 7, 8 * (p % 4)⟩
def HOD_WMAX (p : Nat) : Fld := ⟨0xD080 + 4 * p, 31, 0⟩
def FAB_CLOSED (p : Nat) : Fld := ⟨0xF010 + 4 * (p / 32), p % 32, p % 32⟩
def TST_STAGE : Fld := ⟨0xF800, 3, 0⟩
def TST_CAUSE : Fld := ⟨0xF800, 11, 8⟩
def TST_MFAIL : Fld := ⟨0xF804, 5, 0⟩
def TST_WFAIL : Fld := ⟨0xF808, 1, 0⟩
def TST_EFAIL : Fld := ⟨0xF808, 31, 16⟩

end Sys2Proof.Machine
end

