-- ==== Sys2Proof/Machine/SafetyTypes.lean ====
section
/-! DEFINITION. The state of the two safety channels beside their registers (R215 to R260): the safety parameter set, and
per channel its pairs, arms, axes, output sides and faults. -/

namespace Sys2Proof.Machine

/-- Function state of an arm in one channel (R233, R234). -/
inductive FState where
  | run | hold | ss1 | sto
  deriving DecidableEq, Repr

def FState.code : FState → Nat
  | .run => 0 | .hold => 1 | .ss1 => 2 | .sto => 3

def fstateOf (n : Nat) : FState := if n = 0 then .run else if n = 1 then .hold else if n = 2 then .ss1 else .sto

/-- The stricter of two states (R234). -/
def FState.stricter (a b : FState) : FState := if a.code < b.code then b else a

/-- States of a two-hand control (R226). -/
inductive TwoHand where
  | off | arming (first : Nat) | on | blocked
  deriving DecidableEq, Repr

/-- Input pair entry (Table — Input pair entry), with its bytes for the comparison of R225. -/
structure SafPair where
  type : Nat
  react : Nat
  armmask : Nat
  autorest : Bool
  filt : Nat
  tdisc : Nat
  tpmax : Nat
  tsync : Nat
  bytes : List Byte
  deriving DecidableEq, Repr

structure SafArm where
  arm : Nat
  nj : Nat
  firstj : Nat
  tss1 : Nat
  tramp : Nat
  basepos : List Int
  baserot : List Int
  deriving DecidableEq, Repr

structure SafJoint where
  gj : Nat
  node : Nat
  axis : Nat
  prismatic : Bool
  amon : Nat
  vss : Nat
  vtol : Nat
  vsls : Nat
  pwin : Nat
  ppos : List Int
  prot : List Int
  deriving DecidableEq, Repr

structure SafSphere where
  arm : Nat
  aj : Nat
  offs : List Int
  rad : Nat
  h0 : Nat
  lev : List Nat
  deriving DecidableEq, Repr

structure SafSensor where
  sid : Nat
  node : Nat
  pos : List Int
  rot : List Int
  deriving DecidableEq, Repr

/-- A safety parameter set, checked and parsed (R252). -/
structure SafSet where
  setid : Nat
  setcrc : Nat
  tb : Nat
  strb : Nat
  tgmiss : Nat
  hostack : Bool
  top : Nat
  seppcrc : Nat
  utol : Nat
  hvhb : Nat
  thr : Nat
  hcoast : Nat
  hblind : Nat
  pairs : List SafPair
  arms : List SafArm
  joints : List SafJoint
  spheres : List SafSphere
  sensors : List SafSensor
  deriving DecidableEq, Repr

/-- One input pair in one channel. -/
structure PairRt where
  /-- Accepted level of the own signal. -/
  level : Bool
  /-- Arms for which a demand of the pair is latched: a request of its REACT (R223). -/
  lat : Nat
  fault : Bool
  /-- Way out of FAULT: 0, 1 both reported the demanding level, 2 and later both the OK level (R223). -/
  faultStep : Nat
  /-- STARTTEST in progress, and whether the low level has been accepted in it (R225). -/
  startTest : Bool
  sawLow : Bool
  /-- The levels differed at the last cross-check point. -/
  disc : Bool
  two : TwoHand
  /-- A RESET press of valid length has ended, and cross-check points for which it is still kept. -/
  press : Nat
  deriving DecidableEq, Repr

/-- One arm in one channel. -/
structure ArmRt where
  st : FState
  /-- A request of another source than an input pair is latched. -/
  latched : Bool
  /-- The SS1 request covers the arm: it ends in STO (R236, R238). -/
  covered : Bool
  /-- Beats at standstill in a row. -/
  still : Nat
  /-- Outputs: 0 off, 1 torque at the next cross-check point, 2 torque on and brake in 20 ms, 3 both on (R251). -/
  phase : Nat
  deriving DecidableEq, Repr

/-- One safety axis in one channel. -/
structure SafAxis where
  gj : Nat
  pos : Int
  spd : Int
  seq : Option Nat
  /-- A sub-telegram was accepted in this beat, one was counted as refused, and what an acceptance of this beat replaced. -/
  got : Bool
  err : Bool
  back : Option (Int × Int)
  /-- Beats in a row refused or missing, the axis is lost, and beats in a row accepted. -/
  refused : Nat
  lost : Bool
  okRun : Nat
  /-- Beats in a row in which exactly one channel accepted it. -/
  oneSided : Nat
  v0 : Int
  deriving DecidableEq, Repr

/-- A track of the Hedge (R244): missed strides, growth in 2^−16 mm · 10^−9. -/
structure HTrack where
  sid : Nat
  tid : Nat
  x : Int
  y : Int
  ztop : Nat
  rad : Nat
  missed : Nat
  growth : Nat
  deriving DecidableEq, Repr

/-- A sensor of the set in one channel: its newest counter, sub-telegrams of this stride, strides lost in a row. -/
structure SafSnsRt where
  sid : Nat
  seq : Option Nat
  subs : List (List Byte)
  lostN : Nat
  deriving DecidableEq, Repr

/-- One safety channel. -/
structure Channel where
  /-- The set in force or kept, and one accepted that waits for its cross-check point. -/
  set : Option SafSet
  next : Option SafSet
  pairs : List PairRt
  arms : List ArmRt
  axes : List SafAxis
  /-- Sides in an off-pulse test, sides with an output fault, sides in their clearing test, readbacks, commands. -/
  pulse : Nat
  outFlt : Nat
  clearing : Nat
  rb : Nat
  cmd : Nat
  /-- Per fault class, the arms whose reset has still to clear it (R250, R251). -/
  flt : List Nat
  /-- Beat of the last stop-branch entry, and ramp start of the SS1 in progress. -/
  te : Option Nat
  t0 : Option Nat
  /-- The speeds at ramp start have been latched. -/
  v0set : Bool
  failed : Bool
  /-- Verdicts missing in a row, and the last one received. -/
  verMiss : Nat
  lastVerdict : List Byte
  /-- Cycles counted between the last two beat ticks. -/
  cyc : Nat
  /-- The axes of this beat have been judged for R220, and axes missing in a beat that ended unjudged. -/
  judged : Bool
  owed : Nat
  /-- Arms with a violation in the last monitoring (R251), and the sphere check of the Hedge in progress at a 62.5 µs beat:
  the arm of a sphere too near (R243). -/
  viol : Nat
  sphere : Option Nat
  sensors : List SafSnsRt
  tracks : List HTrack
  /-- Safety sub-telegrams handed over and not yet taken, the oldest first: node, beat of arrival and the 32 bytes (R271). -/
  tel : List (Nat × Nat × List Byte)
  deriving DecidableEq, Repr

structure SafetySt where
  a : Channel
  b : Channel
  /-- The set is in force in both channels (R254). -/
  inForce : Bool
  /-- A SAFETY_PARAM_LOAD in progress: its command, the bytes, and each channel's finding (faulty sections). -/
  load : Option (Nat × List Byte)
  loadA : Option Nat
  loadB : Option Nat
  /-- Arms a reset covers, to be applied at the next cross-check point. -/
  resetArms : Nat
  /-- Group 8 sources to raise at the next refresh of the mirror (R260), and the Hedge's seven counters. -/
  hdgEv : List (Nat × Nat)
  hdgCnt : List Word
  /-- First key of the unlock sequence written; the window is unlocked (R258). -/
  keySeen : Bool
  unlocked : Bool
  /-- Separation records accepted by channel A, newest first; beat boundaries in a row without one in force. -/
  recs : List SepRecord
  noRec : Nat
  /-- SS1 requests of the main die not yet taken by the two channels (R236). -/
  ss1A : Bool
  ss1B : Bool
  deriving DecidableEq, Repr

end Sys2Proof.Machine
end

