-- ==== Sys2Proof/Machine/ServoTypes.lean ====
section
/-! DEFINITION. The servo wall beside its registers: parameter sets, engines with their banks and memories, and the
chain state of each joint (R140 to R183). -/

namespace Sys2Proof.Machine

/-- One entry of the parameter set, as its 256 bytes and its user parameter block (R148, R180). -/
structure ServoEnt where
  gj : Nat
  bytes : List Byte
  user : List Byte
  /-- PROGID of the joint's program; 0 is the default chain. -/
  prog : Nat
  deriving DecidableEq, Repr

/-- A program of the container (Table — Program directory entry) with its images as words. -/
structure Prog where
  id : Nat
  base : Bool
  nstate : Nat
  cmoff : Nat
  cmlen : Nat
  woff : Nat
  wlen : Nat
  eoff : Nat
  elen : Nat
  entry : Nat
  beatent : Nat
  cost : Nat
  cm : List Word
  wm : List Word
  em : List Word
  deriving DecidableEq, Repr

/-- A parameter set: entries, programs and the binding of joints to engine and slot (R140, R180). -/
structure ParamSet where
  psetid : Nat
  crc : Nat
  tb : Nat
  entries : List ServoEnt
  progs : List Prog
  /-- (joint, engine, slot). -/
  binding : List (Nat × Nat × Nat)
  deriving DecidableEq, Repr

/-- One register bank of an engine (Table — Engine registers). Data registers hold 32 bits; accumulators the integer they
stand for in units of 2^−46; pointers 14 bits. -/
structure Bank where
  d : List Word
  a : List Int
  p : List Nat
  pd : List Word
  b : List Nat
  z : Bool
  n : Bool
  sv : Bool
  av : Bool
  la : Bool
  cv : Bool
  slot : Nat
  shift : Nat
  grow : Nat
  bexp : Int
  lc : Nat
  ls : Nat
  le : Nat
  stack : List Nat
  pc : Nat
  deriving DecidableEq, Repr

/-- A handler in progress: bank, vector, priority (R177). -/
structure Handler where
  bank : Nat
  vec : Nat
  prio : Nat
  /-- The first handler instruction has not run yet. -/
  entering : Bool
  /-- SERVO cycles since the handler's entry (R179). -/
  cycles : Nat
  /-- Copies of state area and input words taken at handler entry (R168). -/
  saved : List (Nat × Word)
  deriving DecidableEq, Repr

/-- One servo engine beside SRV_ENGSTAT. -/
structure Engine where
  banks : List Bank
  handlers : List Handler
  /-- Vectors pending, as a mask. -/
  pend : Nat
  asleep : Bool
  /-- Bank whose loop body the cache holds (R170). -/
  cacheOwner : Option Nat
  cm : List (Nat × Word)
  wm : List (Nat × Word)
  em : List (Nat × Word)
  /-- Residue mismatches of this beat (R154). -/
  mism : Nat
  /-- Pending vectors already counted under NEST_FULL. -/
  nestSeen : Nat
  /-- A lane test of a rejoin is under way (R157). -/
  testing : Bool
  /-- Rejoined: it takes no joints until the next change of binding (R157). -/
  spare : Bool
  deriving DecidableEq, Repr

/-- State of one biquad (R146). -/
structure BqSt where
  x1 : Int
  x2 : Int
  y1 : Int
  y2 : Int
  deriving DecidableEq, Repr

/-- The state words of the default chain of one joint (R164), Q1.23 integers. -/
structure ChainSt where
  integ : Int
  bq : List BqSt
  dhat : Int
  vprev : Option Int
  deriving DecidableEq, Repr

/-- A checkpoint of a joint (R153, R164): its beat, PSETID, chain state with the previous VMEAS, FELIM run, block position, and
the words of the state area. -/
structure Ckpt where
  beat : Nat
  psetid : Nat
  chain : ChainSt
  feRun : Nat
  pos : Nat
  words : List Word
  deriving DecidableEq, Repr

/-- A complete condition-monitoring block: its samples of vibration, current and motor speed (unit 2^−32 rad/s), the missing
samples, the block number, and the cell time of its last sample. -/
structure CmBlock where
  vib : List Int
  cur : List Int
  spd : List Int
  miss : Nat
  seq : Nat
  tend : Nat
  deriving DecidableEq, Repr

/-- One joint of the parameter set in force. -/
structure JointRt where
  gj : Nat
  chain : ChainSt
  /-- Checkpoints of the last two beats (R153, R155), newest first. -/
  ckpt : List Ckpt
  feRun : Nat
  feAbove : Bool
  feFault : Bool
  /-- Setpoints in the transmit buffer for the next beat, those last sent, and the stale flag (R28). -/
  tx : Option (Int × Int)
  sent : Option (Int × Int)
  stale : Bool
  /-- Hold reference of R145: the latched position, s64 in units of 2^−40. -/
  hold : Option Int
  /-- Feedback of the current beat, predicted where it is missing (R152): q (2^−40), v, τ, missing. -/
  qmeas : Int
  /-- q of the beat before, and the turn count of a multi-turn joint (R143). -/
  qprev : Int
  turn : Int
  vmeas : Int
  tmeas : Int
  vib : Int
  cur : Int
  missing : Bool
  delivering : Bool
  done : Bool
  /-- Following error of this beat, units of 2^−40. -/
  fe : Int
  /-- Consecutive beats with a trap, and a trap in this beat (R178). -/
  trapped : Nat
  trapNow : Bool
  /-- Condition monitoring: samples of vibration, current and motor speed of the block, missing samples, block number; the
  block whose record is being formed. -/
  cmVib : List Int
  cmCur : List Int
  cmSpd : List Int
  cmMiss : Nat
  blkseq : Nat
  cmDone : Option CmBlock
  /-- Moved to a new engine: starts there in the next beat. -/
  moved : Bool
  deriving DecidableEq, Repr

structure ServoSt where
  params : Option ParamSet
  pending : Option (ParamSet × Nat × Nat)
  loading : Option Nat
  engines : List Engine
  joints : List JointRt
  unbound : List Nat
  /-- SETPOINT late already counted this beat. -/
  frozen : Bool
  deriving DecidableEq, Repr

/-- Word where the ROM of the default chain and its background begins. -/
def romEntry : Nat := 0x2000

end Sys2Proof.Machine
end

