-- ==== Sys2Proof/Machine/TimeTypes.lean ====
section
/-! DEFINITION. The state of the Time and Sync unit beside its registers (R291 to R308). -/

namespace Sys2Proof.Machine

/-- A foreign master of a domain, seen on one port (R296). The data set is that of its last Announce. -/
structure Foreign where
  port : Nat
  /-- sourcePortIdentity of the Announce, as a number. -/
  ident : Nat
  /-- The compared members of the data set in the order IEEE 1588-2019 compares them: priority1, clockClass,
  clockAccuracy, offsetScaledLogVariance, priority2, grandmasterIdentity. -/
  gm : List Nat
  steps : Nat
  logAnn : Int
  /-- Cell times of its last Announces, newest first (at most 4 kept). -/
  times : List Nat
  deriving DecidableEq, Repr

/-- A Sync whose Follow_Up has not come yet. -/
structure PendSync where
  seq : Nat
  t2 : Int
  corr : Int
  deriving DecidableEq, Repr

/-- One PTP slave domain beside its TIM_DSTAT words. -/
structure Domain where
  foreign : List Foreign
  /-- Port and identity of the chosen master. -/
  master : Option (Nat × Nat)
  pend : Option PendSync
  /-- t1, t2 and c_S of the last complete Sync. -/
  last : Option (Int × Int × Int)
  /-- t3 and sequence of the last Delay_Req sent. -/
  req : Option (Nat × Int)
  reqSeq : Nat
  delays : List Int
  gotResp : Bool
  /-- Consecutive Syncs within LOCKTHR, and beyond 8 LOCKTHR. -/
  good : Nat
  bad : Nat
  theta : Int
  /-- Origin and cell time of the last two Syncs give the rate. -/
  prev : Option (Int × Int)
  deriving DecidableEq, Repr

/-- A beat layout: TB, STRB and BPHASE (R293, R294). -/
structure Layout where
  tb : Nat
  strb : Nat
  bphase : Nat
  deriving DecidableEq, Repr

/-- The beat of a TB code in ns (Table — Beat frame payload). -/
def beatNs (tb : Nat) : Nat := if tb = 0 then 62500 else if tb = 1 then 125000 else 250000

/-- Beat and stride durations. -/
def Layout.beat (l : Layout) : Nat := beatNs l.tb
def Layout.stride (l : Layout) : Nat := l.beat * l.strb

structure TimeSt where
  /-- Cell time: whole ns, and the fraction in units of 2^−48 ns (R291). -/
  now : Nat
  frac : Nat
  /-- PLL_TIME has locked: cell time runs. -/
  started : Bool
  layout : Layout
  /-- An accepted TIME_CONFIG: its layout, the earliest instant, its command. -/
  pending : Option (Layout × Nat × Nat)
  /-- Cell time of the last beat tick and of the last stride tick; beat in stride. -/
  beatAt : Nat
  strideAt : Nat
  bis : Nat
  ticked : Bool
  /-- f of R299 in ppb, Syncs counted, current phase slew. -/
  f : Int
  nSync : Nat
  domains : List Domain
  /-- Reference domain in force, and one selected by a write whose Sync has not come yet. -/
  ref : Nat
  refNext : Option Nat
  /-- E has been captured; the offset of a switch is being slewed (SWMODE 1). -/
  captured : Bool
  slewing : Bool
  holdFrom : Option Nat
  holdLong : Bool
  plantUp : List Bool
  /-- TC_DROP raised in this beat. -/
  dropSeen : Bool
  deriving DecidableEq, Repr

end Sys2Proof.Machine
end

