-- ==== Sys2Proof/Machine/Device.lean ====
section
/-! DEFINITION. The device: the register file and every unit's own state, as plain data, and its state after power-on. -/

namespace Sys2Proof.Machine

/-- What the block puts on its interfaces during one command. -/
inductive Output where
  /-- Data returned by a BAR0 read. -/
  | readData (v : Word)
  /-- A write to host memory. -/
  | hostWrite (addr : Nat) (bytes : List Byte)
  /-- An MSI-X message of a vector. -/
  | msix (vec : Nat)
  /-- A frame on Heathline port p: the Heathline header and payload with the CRC-32C. -/
  | heathFrame (port : Nat) (bytes : List Byte)
  /-- A Delay_Req on plant port p of domain d with a sequence number. -/
  | delayReq (port dom seq : Nat)
  /-- A frame forwarded to plant port p, its correctionField (2^−16 ns) where it is a PTP message. -/
  | forward (port : Nat) (corr : Option Int)
  /-- Step pulses of an auxiliary axis and edges of an emulation output, signed by direction; the edges are `gap` FIELD cycles
  apart. -/
  | steps (axis : Nat) (n : Int)
  | emuEdges (ch : Nat) (n : Int) (gap : Nat)
  /-- A verdict sent over the cross-die link by channel A (false) or the Hedge (true). -/
  | verdict (hedge : Bool) (bytes : List Byte)
  deriving DecidableEq, Repr

/-- Resets, clocks, boot and test access beside their registers (R438 to R452). -/
structure BootSt where
  /-- PERST# is asserted; a main rail is out of range; TESTEN is high; VAUX is in range. -/
  perst : Bool
  railsOut : Bool
  testen : Bool
  vaux : Bool
  /-- Hibernate: 0 off, 1 being armed, 2 armed (HIBRDY), 3 entered (R422, R423). -/
  hib : Nat
  /-- Instruction registers of the Hedge and the main-die TAPs, and an intrusive main-die instruction not yet followed by a
  non-intrusive one at Update-IR (R449, R450). -/
  irHedge : Nat
  irMain : Nat
  intrusive : Bool
  /-- PLL_SERVO or PLL_SAFA did not lock; a part needed to run failed its test (R441, R445). -/
  pllFail : Bool
  partFail : Bool
  /-- XDIE_DOWN has been raised since the link last came up. -/
  xdieLost : Bool
  /-- The next start follows hibernate; rails rose out of order (R418, R424). -/
  woke : Bool
  seqErr : Bool
  /-- Parts whose lane test has not completed: bits 0 and 1 the walls, bits 2 to 17 the engines (R446). -/
  laneLeft : Nat
  deriving DecidableEq, Repr

structure Dev where
  /-- The register file: words that differ from their reset value, ascending in offset. -/
  regs : List (Nat × Word)
  /-- Low-word holding registers that differ from their reset value (R7). -/
  hold : List (Nat × Word)
  /-- High words latched by a low-word read and not yet read, by the high word's offset (R7). -/
  latch : List (Nat × Word)
  /-- What the last command put on the interfaces. -/
  out : List Output
  /-- Requests for event sources held high by their units: source and DETAIL0 (R381). -/
  evReq : List (Nat × Nat)
  /-- Free values used so far; the model's own counter. -/
  freeCtr : Nat
  boot : BootSt
  time : TimeSt
  host : HostSt
  hod : HodSt
  engSrcs : List EngSrc
  heath : HeathSt
  kiln : KilnSt
  planner : PlannerSt
  servo : ServoSt
  commons : CommonsSt
  safety : SafetySt
  field : FieldSt
  /-- The last feedback of every joint (R271, R321). -/
  fbs : List JointFb
  ret : RetSt
  fabric : FabricSt
  mains : MainsSt
  deriving DecidableEq, Repr

end Sys2Proof.Machine
end

