-- ==== Sys2Proof/Machine/Zero.lean ====
section
/-! DEFINITION. The device right after a power-on reset: every field at the value the spec gives for reset, or at the value the
assumption log names (R420, R440). -/

namespace Sys2Proof.Machine

/-- The reset value of a register's word as a number. -/
def resetNat (off : Nat) : Nat := (resetOf off).toNat

def Bank.zero (slot : Nat) : Bank :=
  { d := List.replicate 8 0, a := List.replicate 4 0, p := List.replicate 8 0, pd := List.replicate 8 0,
    b := List.replicate 8 0, z := false, n := false, sv := false, av := false, la := false, cv := false, slot := slot,
    shift := 0, grow := 0, bexp := 0, lc := 0, ls := 0, le := 0, stack := [], pc := romEntry }

def Engine.zero : Engine :=
  { banks := [Bank.zero 7, Bank.zero 7, Bank.zero 7], handlers := [], pend := 0, asleep := false, cacheOwner := none,
    cm := [], wm := [], em := [], mism := 0, nestSeen := 0, testing := false, spare := false }

def SolveCfg.zero : SolveCfg :=
  { relax := true, carry := true, rinit := 0, rmin := -12, rmax := 12, rhoint := 8, rhoth := 3, sigma := -20, eqsh := 10,
    tolp := 16, told := 14, tolv := 10, cgtol := 12, itcap := 64, inner := 8, cgeps := 20 }

def WallSt.zero : WallSt :=
  { avail := false, problem := none, next := none, refactor := false, solveRec := none, sol := none, cfg := SolveCfg.zero, cur := ⟨[], [], []⟩, pc := [], r := 0, carried := 0, iters := 0,
    finalIters := 0, folded := false, foldDue := none, iterating := false, converged := false, capped := false,
    abandoned := 0, best := none, innerN := 0, tconv := none, prim := 0, dual := 0, pivf := 0, pcdiagn := 0, brkn := 0,
    qovfn := 0, resmisn := 0, parityN := 0, sat := none, rhoclamp := false, brkFlag := false, qovfFlag := false,
    pcdiagFlag := false, pivFlag := false, parityFlag := false, mismatches := [], retired := [], cand := none, ran := false,
    token := 0, portClosed := false, doubled := false, record := none, held := false, rejCounted := false, staleCounted := false,
    testing := false, claimed := false }

def Receiver.zero : Receiver := ⟨none, none, false⟩

def PlannerSt.zero : PlannerSt :=
  { servo := Receiver.zero, chanA := Receiver.zero, endPlan := none, phase := 0, lastSeq := 0, lastToken := 0, counted := none, beatPlan := none, beatTe := none, stopReq := false, te := none,
    restart := none, standBeats := 0, exitRun := 0, window := none, recov := none, timing := resetNat 0x5400,
    redun := resetNat 0x5404, walls := [WallSt.zero, WallSt.zero] }

def KilnSt.zero : KilnSt :=
  { active := none, staged := none, loading := none, activating := none, refs := [], changes := [],
    limits := List.replicate 8 ⟨65536, 65536, 65536, 65536⟩, limitsPend := [], group := [], convs := [], tools := List.replicate 8 none,
    present := 0, used := none, ctrl := resetNat 0x5000, spectol := resetNat 0x5004, trktol := resetNat 0x5008,
    colact := resetNat 0x500C, knots := resetNat 0x5010, objw := resetNat 0x5014, assembling := false, rebuilding := false,
    delivered := false, refetch := [], truncSeen := false, last := none, prob := none, asmAt := 0, normals := [], oldNormals := [],
    latchSat := none, written := false, sols := [] }

def Domain.zero : Domain :=
  { foreign := [], master := none, pend := none, last := none, req := none, reqSeq := 0, delays := [], gotResp := false,
    good := 0, bad := 0, theta := 0, prev := none }

/-- The beat layout after reset: 125 µs, 8 beats, phase 0 (Table — Main figures). -/
def Layout.zero : Layout := ⟨1, 8, 0⟩

def TimeSt.zero : TimeSt :=
  { now := 0, frac := 0, started := false, layout := Layout.zero, pending := none, beatAt := 0, strideAt := 0, bis := 0,
    ticked := false, f := 0, nSync := 0, domains := [Domain.zero, Domain.zero], ref := 0, refNext := none, captured := false,
    slewing := false, holdFrom := none, holdLong := false, plantUp := [false, false], dropSeen := false }

def HostSt.zero : HostSt :=
  { cmds := [], nextId := 0, rr := 0, phases := List.replicate 41 false, unsig := List.replicate 41 0, cplQ := [],
    drops := none, log := [], evOut := [], evSeq := 0, ringSeq := 0xFFFFFFFF, unsent := 0, telOut := [], telCfg := [], jointMask := 0,
    telSeq := List.replicate 8 0, telDrop := List.replicate 8 false, copies := [], attaching := none, digest := [],
    tloss := 0, tatt := 0, reactRun := 0, stateRead := [], hbAt := 0, freshRings := 0, ringStop := 0 }

def Mason.zero : Mason := ⟨[], none, true, false, false, 0, 0, 0⟩

def HodSt.zero : HodSt :=
  { tasks := [], ready := List.replicate 32 [], delays := [], sems := List.replicate 64 0, posts := [],
    masons := List.replicate 8 Mason.zero, qmax := List.replicate 32 0, wmax := List.replicate 32 0, switches := 0,
    preempts := 0, timeouts := 0, undels := 0, tick := 0, winAt := 0, waits := 0 }

def PortRt.zero : PortRt := ⟨false, false, false, 0, none, false, false, false, []⟩

def HeathSt.zero : HeathSt :=
  { sched := none, loading := none, awaiting := none, nodes := [],
    ports := List.replicate 4 PortRt.zero, switch := none, chkSeen := false, cfg := resetNat 0x4008 }

def CommonsSt.zero : CommonsSt :=
  { holds := [], reqs := [], queue := [], retreats := [], cfps := [], tracks := [], sensors := [], rseq := 0, built := none,
    sent := [], lateAt := none, sepact := resetNat 0x7008, sepcfg := resetNat 0x7004, intrs := List.replicate 8 0 }

/-- A channel at reset: every arm in STO, every side low, no set (R216). -/
def Channel.zero : Channel :=
  { set := none, next := none, pairs := List.replicate 16 ⟨false, 0, false, 0, false, false, false, .off, 0⟩,
    arms := List.replicate 8 ⟨.sto, true, false, 0, 0⟩, axes := [], pulse := 0, outFlt := 0, clearing := 0, rb := 0, cmd := 0,
    flt := List.replicate 11 0, te := none, t0 := none, v0set := false, failed := false, verMiss := 0, lastVerdict := [], cyc := 0, judged := false,
    owed := 0, viol := 0, sphere := none, sensors := [], tracks := [], tel := [] }

def SafetySt.zero : SafetySt :=
  { a := Channel.zero, b := Channel.zero, inForce := false, load := none, loadA := none, loadB := none, resetArms := 0,
    hdgEv := [], hdgCnt := List.replicate 7 0, keySeen := false, unlocked := false, recs := [], noRec := 0, ss1A := false,
    ss1B := false }

def FbRt.zero : FbRt :=
  { cfg := ⟨0, 0, 0, 0, 0⟩, x := 0, latched := 0, hist := [], rev := false, illegal := [], spd := 0, preset := none,
    word := none, good := 0, bad := 0, tLatch := 0, tWord := 0, spdSsi := none, pos := 0 }

def AuxRt.zero : AuxRt :=
  { pos := 0, vel := 0, tgt := 0, cmd := none, ovr := false, next := none, run := none, seg := 0, wait := none,
    stopDue := false, emitted := 0, dir := 0, since := 2000, rephaseEnd := 0, driven := false }

def FieldSt.zero : FieldSt :=
  { fb := List.replicate 24 FbRt.zero, ee := List.replicate 8 ⟨0, 0, 0, 0, false⟩, aux := List.replicate 16 AuxRt.zero,
    hys := List.replicate 32 ⟨0, 0, 0, 0, false, false, 0⟩, hl := none, mod := List.replicate 8 0 }

def FabricSt.zero : FabricSt := { paths := [], order := 0, seqs := [], queues := [], lktSeen := false }

def MainsSt.zero : MainsSt :=
  { precise := List.replicate 8 0, dip := none, swell := false, swlCalm := 0, fdevCalm := 0, rt := none, chop := [],
    ovSeen := false }

/-- VAUX has just come into range: the main rails are not there yet and PERST# is asserted (R418, R420). -/
def BootSt.zero : BootSt :=
  { perst := true, railsOut := true, testen := false, vaux := true, hib := 0, irHedge := 2, irMain := 2, intrusive := false,
    pllFail := false, partFail := false, xdieLost := false, woke := false, seqErr := false, laneLeft := 2 ^ 18 - 1 }

/-- The device right after a power-on reset: every register at its reset value, but that GLB_ID.HDGREV reads 0 while the
cross-die link is not established (R34). -/
def Dev.zero : Dev :=
  { regs := [(0x0000, 0x00A20860)], hold := [], latch := [], out := [], evReq := [], freeCtr := 0, boot := BootSt.zero,
    time := TimeSt.zero, host := HostSt.zero, hod := HodSt.zero, engSrcs := [], heath := HeathSt.zero, kiln := KilnSt.zero,
    planner := PlannerSt.zero,
    servo := { params := none, pending := none, loading := none, engines := List.replicate 16 Engine.zero, joints := [],
               unbound := [], frozen := false },
    commons := CommonsSt.zero, safety := SafetySt.zero, field := FieldSt.zero, fbs := [],
    ret := { aux := List.replicate 16 none, log := [] }, fabric := FabricSt.zero, mains := MainsSt.zero }

end Sys2Proof.Machine
end

