-- ==== Sys2Proof/Machine/Ops.lean ====
section
/-! DEFINITION. The operations every unit shares: reading and writing register fields, counting, raising event sources,
the register-error indication, outputs, free values, completions and master copies. -/

namespace Sys2Proof.Machine

/-! Sparse word files, ascending in address. -/

/-- The word at an address, or what an unlisted address reads as. -/
def fileGet (dflt : Nat → Word) : List (Nat × Word) → Nat → Word
  | [], a => dflt a
  | (k, v) :: rest, a => if k = a then v else fileGet dflt rest a

/-- Remove an address. -/
def fileDel : List (Nat × Word) → Nat → List (Nat × Word)
  | [], _ => []
  | (k, v) :: rest, a => if k = a then fileDel rest a else (k, v) :: fileDel rest a

/-- Enter a word at its place. -/
def fileIns : List (Nat × Word) → Nat → Word → List (Nat × Word)
  | [], a, w => [(a, w)]
  | (k, v) :: rest, a, w =>
    if a < k then (a, w) :: (k, v) :: rest else if a = k then (a, w) :: rest else (k, v) :: fileIns rest a w

/-- Write a word: an entry equal to what an unlisted address reads as is removed. -/
def filePut (dflt : Nat → Word) (f : List (Nat × Word)) (a : Nat) (w : Word) : List (Nat × Word) :=
  if w = dflt a then fileDel f a else fileIns f a w

/-! Registers. -/

/-- The word of the register at a BAR0 offset. -/
def Dev.reg (d : Dev) (off : Nat) : Word := fileGet resetOf d.regs off

/-- Set the word of the register at a BAR0 offset. -/
def Dev.setReg (d : Dev) (off : Nat) (w : Word) : Dev := { d with regs := filePut resetOf d.regs off w }

/-- The unsigned value of a field. -/
def Dev.get (d : Dev) (f : Fld) : Nat := (d.reg f.off).toNat / 2 ^ f.lo % 2 ^ (f.hi - f.lo + 1)

/-- The two's complement value of a field. -/
def Dev.getS (d : Dev) (f : Fld) : Int := signed (f.hi - f.lo + 1) (d.get f)

/-- A one-bit field as a truth value. -/
def Dev.is (d : Dev) (f : Fld) : Bool := d.get f == 1

/-- A word with bits [hi:lo] replaced. -/
def insField (w : Word) (hi lo v : Nat) : Word :=
  let n := 2 ^ (hi - lo + 1)
  BitVec.ofNat 32 (w.toNat % 2 ^ lo + (v % n) * 2 ^ lo + w.toNat / 2 ^ (hi + 1) * 2 ^ (hi + 1))

/-- Set a field. -/
def Dev.put (d : Dev) (f : Fld) (v : Nat) : Dev := d.setReg f.off (insField (d.reg f.off) f.hi f.lo v)

/-- Set a one-bit field. -/
def Dev.putB (d : Dev) (f : Fld) (b : Bool) : Dev := d.put f (if b then 1 else 0)

/-- Set a 64-bit value held in the word at an offset and the next (R7). -/
def Dev.put64 (d : Dev) (off v : Nat) : Dev :=
  (d.setReg off (BitVec.ofNat 32 v)).setReg (off + 4) (BitVec.ofNat 32 (v / 2 ^ 32))

/-- The 64-bit value held in the word at an offset and the next. -/
def Dev.get64 (d : Dev) (off : Nat) : Nat := (d.reg off).toNat + 2 ^ 32 * (d.reg (off + 4)).toNat

/-- A counter word after one increment: it stops at all ones and sets SAT (R12). -/
def bumpWord (w : Word) : Word :=
  let c := w.toNat % 2 ^ 31
  if c ≥ 2 ^ 31 - 2 then 0xFFFFFFFF else BitVec.ofNat 32 (c + 1 + w.toNat / 2 ^ 31 * 2 ^ 31)

/-- Increment the event-class counter at an offset (R12). -/
def Dev.bump (d : Dev) (off : Nat) : Dev := d.setReg off (bumpWord (d.reg off))

/-- Increment a counter `n` times. -/
def Dev.bumpN (d : Dev) (off : Nat) : Nat → Dev
  | 0 => d
  | n + 1 => (d.bump off).bumpN off n

/-! Events and errors. -/

/-- DETAIL0 where the raising rule names no index (Table — Event entry). -/
def noDetail : Nat := 0xFFFFFFFF

/-- A unit raises source `src` with an index (R379, R381): its request goes high and waits to be accepted. -/
def Dev.raise (d : Dev) (src det : Nat) : Dev := { d with evReq := d.evReq ++ [(src, det)] }

/-- Source `s` of group `g`. -/
def srcNo (g s : Nat) : Nat := 16 * g + s

/-- Set a block's bit of GLB_REGERR.BLKERR; a bit that goes from 0 to 1 raises REG_ERROR (R35). -/
def Dev.regErr (d : Dev) (blk : Nat) : Dev :=
  if d.is (GLB_BLKERR blk) then d else (d.putB (GLB_BLKERR blk) true).raise (srcNo 1 0) noDetail

/-- Put something on an interface. -/
def Dev.send (d : Dev) (o : Output) : Dev := { d with out := d.out ++ [o] }

/-- The free values used up: the next use draws another. -/
def Dev.draw (d : Dev) : Dev := { d with freeCtr := d.freeCtr + 1 }

/-! What state the device is in. -/

/-- The main die is out of reset and its CORE domain is clocked. -/
def Dev.up (d : Dev) : Bool := d.get TST_STAGE != 0 && d.is CLK_CORELK

/-- The Hedge is powered: VAUX is present and hibernate not entered (R420, R423). -/
def Dev.hedgeUp (d : Dev) : Bool := d.boot.vaux && d.boot.hib != 3

/-- The Hedge holds every SOB side low: TESTEN is high, or an intrusive instruction is in its TAP (R449, R451). -/
def Dev.hedgeHeld (d : Dev) : Bool := d.boot.testen || d.boot.irHedge == 0 || d.boot.irHedge == 3 || d.boot.irHedge == 4

/-- The PCI Express link is trained and BAR0 acts: from BOOT on, and in a boot that a failed part has stopped, whose ATTACH
is still answered (R441, R443, Table — Built-in test failures). -/
def Dev.linked (d : Dev) : Bool := d.up && (decide (5 ≤ d.get TST_STAGE) || d.boot.partFail)

/-- Planner states (R111). -/
def Dev.plState (d : Dev) : Nat := d.get SLV_PLSTATE
def Dev.idleOrStopped (d : Dev) : Bool := d.plState == 0 || d.plState == 4

/-- Session states (R371). -/
def Dev.session (d : Dev) : Nat := d.get HQE_STATE

/-- Cell time in ns. -/
def Dev.now (d : Dev) : Nat := d.time.now

/-- Let cell time reach an instant, fraction 0; cell time never moves backward (R9). -/
def Dev.reach (d : Dev) (t : Nat) : Dev :=
  if t ≤ d.time.now then d else { d with time := { d.time with now := t, frac := 0 } }

/-- Duration of the stride in force, and start S of the stride in progress (R22). -/
def Dev.ts (d : Dev) : Nat := d.time.layout.stride
def Dev.s (d : Dev) : Nat := d.time.strideAt

/-- SEQ of the plan in force, 0 when there is none (Table — Event entry). -/
def Dev.planSeq (d : Dev) : Nat := match d.planner.servo.inForce with | some p => p.seq | none => 0

/-! Commands in progress. -/

/-- Change the journal entry of a command. -/
def Dev.updCmd (d : Dev) (id : Nat) (f : Cmd → Cmd) : Dev :=
  { d with host := { d.host with cmds := d.host.cmds.map (fun c => if c.id = id then f c else c) } }

/-- The journal entry of a command. -/
def Dev.cmd? (d : Dev) (id : Nat) : Option Cmd := d.host.cmds.find? (fun c => c.id == id)

/-- A master copy's registration under a command is dropped (R363). -/
def Dev.dropCopy (d : Dev) (id : Nat) : Dev :=
  { d with host := { d.host with copies := d.host.copies.filter (fun m => m.cmd != some id) } }

/-- Complete a command with a status, PROGRESS, PARTS and results; the completion waits to be written (R357, R361). A
rejected command releases the master copy it registered (R363). What completes in HOSTLOST, or was fetched there, goes to the
journal only, but for an ATTACH (R371, R374). -/
def Dev.complete (d : Dev) (id : Nat) (st : Status) (progress parts res0 res1 : Nat) : Dev :=
  match d.cmd? id with
  | none => d
  | some c =>
    if c.done.isSome then d
    else
      let d := d.updCmd id (fun c => { c with started := true, progress := progress,
                                              done := some ⟨st, progress, parts, res0, res1⟩ })
      let d := if c.opcode ≠ 1 ∧ (c.journalOnly ∨ d.session = 4) then d
        else { d with host := { d.host with cplQ := d.host.cplQ ++ [id] } }
      if st = .ok then d else d.dropCopy id

/-- Complete with a bare status. -/
def Dev.finish (d : Dev) (id : Nat) (st : Status) : Dev := d.complete id st 0 0 0 0

/-- Unsigned parameter field of `n` bytes at an offset of the command entry (Table — Command parameters). -/
def Cmd.u (c : Cmd) (off n : Nat) : Nat := uAt c.param (off - 0x18) n
def Cmd.i (c : Cmd) (off n : Nat) : Int := sAt c.param (off - 0x18) n

/-- The objects a command acts on, each as a kind (1 arm, 2 commons, 3 axis, 4 loop, 5 slot, 6 port) and its number (R360). -/
def Cmd.objects (c : Cmd) : List (Nat × Nat) :=
  match c.opcode with
  | 0x10 => [(5, 2)]
  | 0x11 => [(5, 1), (5, 2)]
  | 0x12 => [(5, 3)]
  | 0x13 => [(5, 4)]
  | 0x14 => (bitsOf (c.u 0x18 1) 8).map (fun p => (6, p))
  | 0x20 | 0x22 => [(1, c.u 0x18 1)]
  | 0x21 | 0x23 | 0x24 => (bitsOf (c.u 0x18 1) 8).map (fun a => (1, a))
  | 0x28 | 0x29 => [(2, c.u 0x19 1)]
  | 0x30 | 0x31 => [(3, c.u 0x18 1)]
  | 0x38 => (bitsOf (c.u 0x18 4) 32).map (fun l => (4, l))
  | 0x50 => [(5, 5)]
  | _ => []

/-- An earlier command that has not started acts on an object of this one: they take effect in order of acceptance (R360). -/
def Cmd.behind (c e : Cmd) : Bool :=
  decide (e.id < c.id) && !e.started && e.done.isNone && e.objects.any (fun o => c.objects.contains o)

/-- The oldest accepted command of an opcode that may start now: it is the first of its ring not started, no command before it
that acts on one of its objects still waits, and with FENCE every earlier command of its ring is complete (R356, R360). -/
def startable (cmds : List Cmd) (op : Nat) : Option Cmd :=
  cmds.find? (fun c =>
    c.opcode == op && !c.started && c.done.isNone && !cmds.any c.behind &&
    cmds.all (fun e => !(e.id < c.id && e.ring == c.ring) || (e.started && (!c.fence || e.done.isSome))))

/-- Run the start of a command of an opcode, if one may start. -/
def Dev.start (d : Dev) (op : Nat) (f : Dev → Cmd → Dev) : Dev :=
  if d.up then
    match startable d.host.cmds op with
    | none => d
    | some c => f (d.updCmd c.id (fun c => { c with started := true })) c
  else d

/-- Register a master copy for a command in progress (R363). -/
def Dev.registerCopy (d : Dev) (c : Cmd) (kind index : Nat) : Dev :=
  { d with host := { d.host with copies := d.host.copies ++ [⟨kind, index, c.addr, c.len, 0, 0, some c.id, false⟩] } }

/-- The copy a command registered comes into force under a kind: what that kind held before is released. -/
def Dev.adoptCopy (d : Dev) (id kind index mid crc : Nat) : Dev :=
  let kept := d.host.copies.filter (fun m => !(m.cmd.isNone && m.kind == kind && m.index == index))
  let take := fun (m : MCopy) =>
    if m.cmd = some id then { m with cmd := none, kind := kind, index := index, mid := mid, crc := crc } else m
  { d with host := { d.host with copies := kept.map take } }

/-- Release the master copy of a kind and index. -/
def Dev.releaseCopy (d : Dev) (kind index : Nat) : Dev :=
  { d with host := { d.host with
      copies := d.host.copies.filter (fun m => !(m.cmd.isNone && m.kind == kind && m.index == index)) } }

/-- A transfer to or from host memory failed on PCI Express (R363, R472). -/
def Dev.dmaError (d : Dev) : Dev := (d.bump 0x104C).raise (srcNo 0 8) noDetail

/-- UNIT_FAULT with RESULT0 [7:0] (Table — Status meanings). -/
def Dev.unitFault (d : Dev) (id which : Nat) : Dev := d.complete id .unitFault 0 0 which 0

/-- A transfer for a command, which stops in HOSTLOST (R371). -/
def Dev.served (d : Dev) (f : Fetch) : Fetch := if d.session = 4 then .failed else f

/-- A transfer for a command did not take place: one that failed on PCI Express is counted (R361, R363). -/
def Dev.hostFault (d : Dev) (id which : Nat) : Dev := (if d.session = 4 then d else d.dmaError).unitFault id which

/-! Walls. -/

def Dev.wall (d : Dev) (w : Nat) : WallSt := d.planner.walls.getD w WallSt.zero

def Dev.updW (d : Dev) (w : Nat) (f : WallSt → WallSt) : Dev :=
  { d with planner := { d.planner with walls := updAt d.planner.walls w f } }

/-- ROLE of a wall: 0 none, 1 active, 2 hot, 3 warm. -/
def Dev.role (d : Dev) (w : Nat) : Nat := d.get (SLV_ROLE w)

/-- A wall holds nothing of a problem's run: the counts of its record start anew (R109). -/
def WallSt.fresh (x : WallSt) : WallSt :=
  { x with iters := 0, finalIters := 0, foldDue := none, converged := false, capped := false, abandoned := 0, best := none,
           refactor := false, innerN := 0, tconv := none, prim := 0, dual := 0, pivf := 0, pcdiagn := 0, brkn := 0, qovfn := 0,
           resmisn := 0, parityN := 0, sat := none, rhoclamp := false, brkFlag := false, qovfFlag := false, pcdiagFlag := false,
           pivFlag := false, parityFlag := false, cur := ⟨[], [], []⟩, pc := [] }

/-- Both walls discard what they hold of the old epoch (R82, R83). -/
def Dev.dropOld (d : Dev) : Dev :=
  [0, 1].foldl (fun (d : Dev) w =>
    let d := d.updW w (fun x => { x.fresh with problem := none, iterating := false, folded := false })
    if d.role w = 0 then d else d.put (SLV_PHASE w) 1) d

end Sys2Proof.Machine
end

