-- ==== Sys2Proof/Machine/Flags.lean ====
section
/-! DEFINITION. The arithmetic of a servo engine and every flag it sets: Z, N, the sticky SV and AV, and the growth class
of block scaling (R165, R166, R173, R175). A Q1.23 value is the integer it is in steps of 2^−23; an accumulator the
integer it is in steps of 2^−46. -/

namespace Sys2Proof.Machine

def q23Max : Int := 8388607
def q23Min : Int := -8388608
def accMax : Int := 36028797018963967
def accMin : Int := -36028797018963968

/-- Right shift with rounding to nearest, ties to even; a negative amount shifts left (R105, R166). -/
def shrRne (v : Int) (s : Int) : Int :=
  if s ≤ 0 then v * 2 ^ s.natAbs else divRne v (2 ^ s.natAbs)

/-- Saturate to Q1.23; the truth value says whether it did (R166). -/
def satQ23 (v : Int) : Int × Bool := (clampInt v q23Min q23Max, decide (v < q23Min ∨ q23Max < v))

/-- Saturate to the accumulator range (R166). -/
def satAcc (v : Int) : Int × Bool := (clampInt v accMin accMax, decide (v < accMin ∨ accMax < v))

/-- The Q1.23 operand in bits [23:0] of a data register. -/
def q23 (w : Word) : Int := signed 24 w.toNat

/-- A data register holding a Q1.23 result, bits [31:24] sign-extended. -/
def ofQ23 (v : Int) : Word := BitVec.ofInt 32 v

/-- The shift of a format-G operand: s8 in bits [31:24] (R146). -/
def gainShift (w : Word) : Int := signed 8 (w.toNat / 2 ^ 24)

/-- A product of an operand and a format-G gain in accumulator units, before saturation (R166). -/
def gainProd (x g : Word) : Int := shrRne (q23 x * q23 g) (-gainShift g)

/-- An accumulator rounded to Q1.23 with `extra` more bits of right shift in the same step (R166). -/
def roundQ23 (acc : Int) (extra : Nat) : Int × Bool := satQ23 (shrRne acc (23 + (extra : Int)))

/-- Z and N from a result (R165). -/
def Bank.flags (b : Bank) (v : Int) : Bank := { b with z := decide (v = 0), n := decide (v < 0) }

/-- SV is sticky (R165). -/
def Bank.stickySv (b : Bank) (s : Bool) : Bank := { b with sv := b.sv || s }

/-- AV is sticky (R165). -/
def Bank.stickyAv (b : Bank) (s : Bool) : Bank := { b with av := b.av || s }

/-- Headroom of a stored Q1.23 value, counted up to 2, gives the growth class 2 less it (R175). -/
def growClass (v : Int) : Nat :=
  if decide (-2097152 ≤ v) && decide (v < 2097152) then 0
  else if decide (-4194304 ≤ v) && decide (v < 4194304) then 1 else 2

/-- A block-scaled store raises GROW to the class of the value stored (R175). -/
def Bank.growTo (b : Bank) (v : Int) : Bank := { b with grow := max b.grow (growClass v) }

/-- Absolute value of a Q1.23 operand. -/
def absInt (v : Int) : Int := if v < 0 then -v else v

/-- The quotient of R173 in Q1.23. -/
def divQ23 (x y : Int) : Int × Bool :=
  if y = 0 then
    if x = 0 then (0, false) else if 0 < x then (q23Max, true) else (q23Min, true)
  else
    let n := x * 8388608
    satQ23 (if 0 < y then divRne n y.natAbs else divRne (-n) y.natAbs)

/-- The sign of R172's SGN: −1, 0 or 1 − 2^−23. -/
def sgnQ23 (x : Int) : Int := if x = 0 then 0 else if x < 0 then q23Min else q23Max

/-- ST as MVST reads it (Table — Status register). -/
def Bank.status (b : Bank) (bank : Nat) : Word :=
  let bit := fun (t : Bool) (n : Nat) => if t then 2 ^ n else 0
  BitVec.ofNat 32 (bit b.z 0 + bit b.n 1 + bit b.sv 2 + bit b.av 3 + bit b.la 8 + bit b.cv 9 + bank * 1024
    + b.slot * 4096)

/-- BSR as MVBS reads it (R175). -/
def Bank.bsr (b : Bank) : Word := BitVec.ofNat 32 (b.shift + b.grow * 4 + encSigned 8 b.bexp * 256)

end Sys2Proof.Machine
end

