-- ==== Sys2Proof/Machine/Operands.lean ====
section
/-! DEFINITION. Memory operands of a servo engine: address modes and post-modifies (R171), the memory map (R162), the
regions a program may touch and the traps of R178. -/

namespace Sys2Proof.Machine

/-- The trap causes of SRV_TRAP (R178). -/
def trapOpcode : Nat := 1
def trapFetch : Nat := 2
def trapData : Nat := 3
def trapWrite : Nat := 4
def trapOver : Nat := 5
def trapUnder : Nat := 6

/-- What an unwritten word of code memory reads as: RAM is zero after the memory test (R445), the ROM is fixed. -/
def cmDefault (a : Nat) : Word := if a < 0x2000 then 0 else Config.romWord a
def ramDefault (_ : Nat) : Word := 0

/-! The instruction word (R171, R172). -/

/-- Bits [31:24] of an instruction word. -/
def opcodeOf (w : Word) : Nat := w.toNat / 2 ^ 24

/-- Is the opcode in Table — Instruction set? -/
def opDefined (op : Nat) : Bool :=
  decide (op ≤ 0x26) || (decide (0x30 ≤ op) && decide (op ≤ 0x33)) || op == 0x38 || op == 0x39 ||
    (decide (0x40 ≤ op) && decide (op ≤ 0x49))

/-- Bits [11:10] of an instruction word (R171). -/
def postBits (pm : PostMod) : Nat := match pm with | .none => 0 | .inc => 1 | .dec => 2 | .step => 3

/-- Does a word spell an instruction: its opcode and, where it names one memory operand, the post-modify? The encodings of the
other operands are not the spec's to give (R172). -/
def spells (w : Word) (op : Nat) (pm : Option PostMod) : Bool :=
  opcodeOf w == op && pm.all (fun p => w.toNat / 2 ^ 10 % 4 == postBits p)

/-- Reverse the low `w` bits. -/
def revBits : Nat → Nat → Nat
  | 0, _ => 0
  | w + 1, v => v % 2 * 2 ^ w + revBits w (v / 2)

def pdMode (pd : Word) : Nat := pd.toNat % 4
def pdLen (pd : Word) : Nat := pd.toNat / 4 % 4096
def pdStep (pd : Word) : Int := signed 8 (pd.toNat / 2 ^ 16)

/-- A pointer modified by m under its descriptor (Table — Address modes); reserved MODE traps. A circular step must be
shorter than the buffer and a reverse-carry width at most 12: beyond, the pointer is a free value. -/
def modPtr (p : Nat) (pd : Word) (b : Nat) (m : Int) : Option Nat :=
  let i : Int := (p : Int) - b
  if pdMode pd = 0 then some (encSigned 14 ((p : Int) + m))
  else if pdMode pd = 1 then
    if m.natAbs < pdLen pd + 1 then some (encSigned 14 ((b : Int) + (i + m) % ((pdLen pd : Int) + 1)))
    else some (Config.freePtr p pd b m % 2 ^ 14)
  else if pdMode pd = 2 then
    if m = 1 then
      let w := pdLen pd + 1
      if 12 < w then some (Config.freePtr p pd b m % 2 ^ 14)
      else some (encSigned 14 ((b : Int) + revBits w ((revBits w (encSigned w i) + 1) % 2 ^ w)))
    else some (encSigned 14 ((p : Int) + m))
  else none

/-- The amount of a post-modify (R171). -/
def postAmount (pm : PostMod) (pd : Word) : Int :=
  match pm with
  | .none => 0
  | .inc => 1
  | .dec => -1
  | .step => pdStep pd

/-- Apply a post-modify to pointer n of a bank. -/
def Bank.post (b : Bank) (n : Nat) (pm : PostMod) : Option Bank :=
  let pd := b.pd.getD n 0
  match pm with
  | .none => if pdMode pd = 3 then none else some b
  | _ => (modPtr (b.p.getD n 0) pd (b.b.getD n 0) (postAmount pm pd)).map
      (fun v => { b with p := updAt b.p n (fun _ => v) })

/-- Data register n, accumulator n, pointer n. -/
def Bank.dr (b : Bank) (n : Nat) : Word := b.d.getD n 0
def Bank.acc (b : Bank) (n : Nat) : Int := b.a.getD n 0
def Bank.ptr (b : Bank) (n : Nat) : Nat := b.p.getD n 0
def Bank.setD (b : Bank) (n : Nat) (w : Word) : Bank := { b with d := updAt b.d n (fun _ => w) }
def Bank.setA (b : Bank) (n : Nat) (v : Int) : Bank := { b with a := updAt b.a n (fun _ => v) }
def Bank.setP (b : Bank) (n v : Nat) : Bank := { b with p := updAt b.p n (fun _ => v) }

/-- An ALU result: saturated, written to a data register, with Z, N and the sticky SV (R165, R166). -/
def Bank.alu (b : Bank) (n : Nat) (v : Int) : Bank :=
  let r := satQ23 v
  ((b.setD n (ofQ23 r.1)).flags r.1).stickySv r.2

/-- An accumulator result: saturated, with Z, N and the sticky AV. -/
def Bank.accum (b : Bank) (n : Nat) (v : Int) : Bank :=
  let r := satAcc v
  ((b.setA n r.1).flags r.1).stickyAv r.2

/-- The regions of the program a bank runs: its code, west and east regions (R162, R178, R180). The default chain and its
background run in the ROM over the reserved areas. -/
structure Regions where
  cmLo : Nat
  cmHi : Nat
  wLo : Nat
  wHi : Nat
  eLo : Nat
  eHi : Nat
  entry : Nat
  deriving DecidableEq, Repr

def romRegions : Regions := ⟨0x2000, 0x3000, 0x3000, 0x4000, 0x3000, 0x3B00, romEntry⟩

def Prog.regions (p : Prog) : Regions :=
  ⟨p.cmoff, p.cmoff + p.cmlen, p.woff, p.woff + p.wlen, p.eoff, p.eoff + p.elen, p.entry⟩

/-- The joint bound to a slot of an engine. -/
def Dev.slotJoint (d : Dev) (e s : Nat) : Option Nat :=
  d.servo.params.bind (fun ps => (ps.binding.find? (fun b => b.2.1 == e && b.2.2 == s)).map (·.1))

/-- The program of a joint, none for the default chain. -/
def ParamSet.progOf (ps : ParamSet) (gj : Nat) : Option Prog :=
  (ps.entries.find? (fun x => x.gj == gj)).bind (fun x => ps.progs.find? (fun p => p.id == x.prog))

/-- The program that runs in a slot, or at the base level (slot 7): none stands for the ROM. -/
def Dev.slotProg (d : Dev) (e s : Nat) : Option Prog :=
  d.servo.params.bind (fun ps =>
    if s = 7 then ps.progs.find? (fun p => p.base)
    else (d.slotJoint e s).bind ps.progOf)

def Dev.regions (d : Dev) (e s : Nat) : Regions := match d.slotProg e s with | some p => p.regions | none => romRegions

/-- Base of a slot window in EM (R163). -/
def windowBase (s : Nat) : Nat := 0x3B00 + 0x100 * s

/-- May the program touch this WM word? (R178) -/
def okWm (r : Regions) (a : Nat) : Bool := r.wLo ≤ a && a < r.wHi

/-- May the program touch this EM word: its own region or its slot window? -/
def okEm (r : Regions) (slot a : Nat) : Bool :=
  (r.eLo ≤ a && a < r.eHi) || (slot < 5 && windowBase slot ≤ a && a < windowBase slot + 0x100)

/-- Is the EM word one the engine writes in the slot window (R163)? -/
def engineWord (slot a : Nat) : Bool :=
  slot < 5 && windowBase slot ≤ a &&
    (a < windowBase slot + 0x80 || (windowBase slot + 0xA0 ≤ a && a < windowBase slot + 0xAA))

/-- May the program read this CM word through P7: its own region or the ROM? -/
def okCm (r : Regions) (a : Nat) : Bool := (r.cmLo ≤ a && a < r.cmHi) || (0x2000 ≤ a && a < 0x3000)

/-- What an instruction works on: the engine, its current bank, and the regions of the program in it. -/
structure Ctx where
  eng : Engine
  bank : Bank
  reg : Regions
  deriving DecidableEq, Repr

/-- Read WM through a pointer, without the post-modify; a trap cause where the access is not allowed. -/
def Ctx.readW (c : Ctx) (n : Nat) : Except Nat Word :=
  if pdMode (c.bank.pd.getD n 0) = 3 then .error trapData
  else if okWm c.reg (c.bank.ptr n) then .ok (fileGet ramDefault c.eng.wm (c.bank.ptr n)) else .error trapData

def Ctx.readE (c : Ctx) (n : Nat) : Except Nat Word :=
  if pdMode (c.bank.pd.getD n 0) = 3 then .error trapData
  else if okEm c.reg c.bank.slot (c.bank.ptr n) then .ok (fileGet ramDefault c.eng.em (c.bank.ptr n))
  else .error trapData

def Ctx.readC (c : Ctx) (a : Nat) : Except Nat Word :=
  if pdMode (c.bank.pd.getD 7 0) = 3 then .error trapData
  else if okCm c.reg a then .ok (fileGet cmDefault c.eng.cm a) else .error trapData

/-- Write WM and EM at an address. -/
def Ctx.writeW (c : Ctx) (a : Nat) (w : Word) : Except Nat Ctx :=
  if okWm c.reg a then .ok { c with eng := { c.eng with wm := filePut ramDefault c.eng.wm a w } } else .error trapData

def Ctx.writeE (c : Ctx) (a : Nat) (w : Word) : Except Nat Ctx :=
  if okEm c.reg c.bank.slot a then
    if engineWord c.bank.slot a then .error trapWrite
    else .ok { c with eng := { c.eng with em := filePut ramDefault c.eng.em a w } }
  else .error trapData

/-- Apply a post-modify; the reserved MODE traps (R171). -/
def Ctx.post (c : Ctx) (n : Nat) (pm : PostMod) : Except Nat Ctx :=
  match c.bank.post n pm with
  | some b => .ok { c with bank := b }
  | none => .error trapData

/-- A store through a pointer checks its descriptor like a read. -/
def Ctx.modeOk (c : Ctx) (n : Nat) : Except Nat Unit :=
  if pdMode (c.bank.pd.getD n 0) = 3 then .error trapData else .ok ()

end Sys2Proof.Machine
end

