-- ==== Sys2Proof/Machine/Traj.lean ====
section
/-! DEFINITION. Knot times (R65), the planned trajectory between and beyond the knots (R67, R142, R143), the stop branch
(R72, R144) and the choice of T_stop (R73). Positions in 2^−24 units inside a plan, 2^−40 where the servo wall
interpolates; times in ns. -/

namespace Sys2Proof.Machine

/-- Δ_k in strides (R65). -/
def knotGap (nfine dfine dcoarse k : Nat) : Nat := if k < nfine then dfine else dcoarse

/-- t_k in strides after knot 0 (R65). -/
def knotAt (nfine dfine dcoarse k : Nat) : Nat := min k nfine * dfine + (k - nfine) * dcoarse

/-- Δ_k and t_k of a plan in ns, and its horizon H. -/
def Plan.gap (p : Plan) (k : Nat) : Nat := knotGap p.nfine p.dfine p.dcoarse k * p.ts
def Plan.time (p : Plan) (k : Nat) : Nat := knotAt p.nfine p.dfine p.dcoarse k * p.ts
def Plan.horizon (p : Plan) : Nat := p.time 31 + p.gap 31

/-- The arrays of one joint. -/
def Plan.joint (p : Plan) (gj : Nat) : Option JointPlan := p.joints.find? (fun j => j.gj == gj)

/-- Does the plan list the joint as present? -/
def Plan.has (p : Plan) (gj : Nat) : Bool := p.joints.any (fun j => j.gj == gj)

/-- The constant-jerk cubic of R67 after `dt` ns, in the units of Table — Model units, rounded to nearest. -/
def cubicAt (n : Knot) (dt : Nat) (jerk : Int) : Knot :=
  let t : Int := dt
  { q := divRne (n.q * 6000000000000000000000000000 + n.v * 1536000000000000000000 * t
                  + n.a * 12288000000000 * t * t + jerk * 65536 * t * t * t) 6000000000000000000000000000
    v := divRne (n.v * 2000000000000000000 + n.a * 32000000000 * t + jerk * 256 * t * t) 2000000000000000000
    a := divRne (n.a * 1000000000 + jerk * 16 * t) 1000000000
    j := jerk }

/-- The state at the end of the horizon, `g` ns after knot 31 under its jerk, continued at zero jerk for `t` ns more (R67), in the
units of Table — Model units, rounded once. -/
def tailAt (n : Knot) (g t : Nat) : Knot :=
  let u : Int := g + t
  let w : Int := (g * g + 2 * g * t : Nat)
  { q := divRne (n.q * 6000000000000000000000000000 + n.v * 1536000000000000000000 * u
                  + n.a * 12288000000000 * u * u + n.j * 65536 * g * (w + t * (g + 3 * t))) 6000000000000000000000000000
    v := divRne (n.v * 2000000000000000000 + n.a * 32000000000 * u + n.j * 256 * w) 2000000000000000000
    a := divRne (n.a * 1000000000 + n.j * 16 * g) 1000000000
    j := 0 }

/-- The interval of the horizon a time lies in: the last knot at or before it. -/
def Plan.knotOf (p : Plan) (u : Nat) : Nat :=
  ((List.range 32).filter (fun k => p.time k ≤ u)).foldl max 0

/-- The planned trajectory of a joint at `u` ns after knot 0 of the source, in plan units (R67). -/
def Plan.eval (p : Plan) (gj u : Nat) : Option Knot :=
  (p.joint gj).map (fun j =>
    let z : Knot := ⟨0, 0, 0, 0⟩
    if p.horizon ≤ u then tailAt (j.knots.getD 31 z) (p.gap 31) (u - p.horizon)
    else
      let k := p.knotOf u
      let n := j.knots.getD k z
      cubicAt n (u - p.time k) n.j)

/-- τ(t) of R72 for t ns after the entry, T_stop in ns. -/
def warp (tstop t : Nat) : Nat :=
  if tstop = 0 then 0 else if tstop ≤ t then tstop / 2 else t - t * t / (2 * tstop)

/-- What the servo wall follows at cell time t: the plan in force and, once entered, its stop branch from t_e (R128).
Answers position, velocity and acceleration in plan units. -/
def followAt (p : Plan) (te : Option Nat) (gj t : Nat) : Option Knot :=
  let u := fun (x : Nat) => x - p.tsolved
  match te with
  | none => p.eval gj (u t)
  | some te =>
    if t < te then p.eval gj (u t)
    else
      let ts := p.tstop * 1000
      let dt := t - te
      (p.eval gj (u (te + warp ts dt))).map (fun k =>
        if ts ≤ dt then ⟨k.q, 0, 0, 0⟩
        else
          let w : Int := ts - dt
          ⟨k.q, divRne (k.v * w) ts,
           divRne (k.a * w * w * 16 - k.v * 1000000000 * ts) (16 * ts * ts), 0⟩)

/-! The quintic of R142 in units of 2^−40. Polynomials in s are lists of coefficients, constant first; s has 40 fraction
bits. -/

/-- Value of a polynomial of degree at most 5 at s = x/2^40, times 2^200. -/
def polyAt (cs : List Int) (x : Int) : Int :=
  (List.range 6).foldl (fun a i => a + cs.getD i 0 * x ^ i * (2 : Int) ^ (40 * (5 - i))) 0

/-- Derivative of a polynomial. -/
def polyDiff (cs : List Int) : List Int :=
  (List.range (cs.length - 1)).map (fun i => cs.getD (i + 1) 0 * ((i : Int) + 1))

def quinticH0 : List Int := [1, 0, 0, -10, 15, -6]
def quinticH1 : List Int := [0, 0, 0, 10, -15, 6]
def quinticG0 : List Int := [0, 1, 0, -6, 8, -3]
def quinticG1 : List Int := [0, 0, 0, -4, 7, -3]
/-- Twice k0 and twice k1. -/
def quinticK0 : List Int := [0, 0, 1, -3, 3, -1]
def quinticK1 : List Int := [0, 0, 0, 1, -2, 1]

/-- Position, velocity and acceleration in units of 2^−40 rad, rad/s and rad/s². -/
structure Ref40 where
  q : Int
  v : Int
  a : Int
  deriving DecidableEq, Repr

/-- The quintic between two knots, `dt` ns into an interval of `dk` ns (R142). -/
def quinticAt (n0 n1 : Knot) (dt dk : Nat) : Ref40 :=
  if dk = 0 then ⟨n0.q * 65536, n0.v * 16777216, n0.a * 268435456⟩
  else
    let s : Int := ((dt * 2 ^ 40 / dk : Nat) : Int)
    let k : Int := dk
    let g : Int := 1000000000
    let val := fun (f : List Int → List Int) =>
      (polyAt (f quinticH0) s * n0.q + polyAt (f quinticH1) s * n1.q,
       polyAt (f quinticG0) s * n0.v + polyAt (f quinticG1) s * n1.v,
       polyAt (f quinticK0) s * n0.a + polyAt (f quinticK1) s * n1.a)
    let p0 := val id
    let p1 := val polyDiff
    let p2 := val (fun c => polyDiff (polyDiff c))
    let one : Nat := 2 ^ 200
    ⟨divRne (p0.1 * 65536 * 2 * g * g + p0.2.1 * 16777216 * 2 * g * k + p0.2.2 * 268435456 * k * k)
        (one * 2 * 1000000000000000000),
     divRne (p1.1 * 65536 * 2 * g * g + p1.2.1 * 16777216 * 2 * g * k + p1.2.2 * 268435456 * k * k)
        (one * 2 * 1000000000 * dk),
     divRne (p2.1 * 65536 * 2 * g * g + p2.2.1 * 16777216 * 2 * g * k + p2.2.2 * 268435456 * k * k)
        (one * 2 * dk * dk)⟩

/-- A knot's cubic in units of 2^−40. -/
def cubic40 (n : Knot) (dt : Nat) (jerk : Int) : Ref40 :=
  let t : Int := dt
  ⟨divRne (n.q * 65536 * 6000000000000000000000000000 + n.v * 16777216 * 6000000000000000000 * t
      + n.a * 268435456 * 3000000000 * t * t + jerk * 4294967296 * t * t * t) 6000000000000000000000000000,
   divRne (n.v * 16777216 * 2000000000000000000 + n.a * 268435456 * 2000000000 * t + jerk * 4294967296 * t * t)
     2000000000000000000,
   divRne (n.a * 268435456 * 1000000000 + jerk * 4294967296 * t) 1000000000⟩

/-- `tailAt` in units of 2^−40. -/
def tail40 (n : Knot) (g t : Nat) : Ref40 :=
  let u : Int := g + t
  let w : Int := (g * g + 2 * g * t : Nat)
  ⟨divRne (n.q * 65536 * 6000000000000000000000000000 + n.v * 16777216 * 6000000000000000000 * u
      + n.a * 268435456 * 3000000000 * u * u + n.j * 4294967296 * g * (w + t * (g + 3 * t))) 6000000000000000000000000000,
   divRne (n.v * 16777216 * 2000000000000000000 + n.a * 268435456 * 2000000000 * u + n.j * 4294967296 * w)
     2000000000000000000,
   divRne (n.a * 268435456 * 1000000000 + n.j * 4294967296 * g) 1000000000⟩

/-- The nominal reference of R142 at `u` ns after TSOLVED. -/
def nominal40 (p : Plan) (j : JointPlan) (u : Nat) : Ref40 :=
  let z : Knot := ⟨0, 0, 0, 0⟩
  if p.kind = 3 then ⟨(j.knots.getD 0 z).q * 65536, 0, 0⟩
  else if p.horizon ≤ u then tail40 (j.knots.getD 31 z) (p.gap 31) (u - p.horizon)
  else
    let k := p.knotOf u
    if k ≥ 31 then cubic40 (j.knots.getD 31 z) (u - p.time 31) (j.knots.getD 31 z).j
    else quinticAt (j.knots.getD k z) (j.knots.getD (k + 1) z) (u - p.time k) (p.gap k)

/-- The reference of a joint at cell time t: nominal, or the stop branch entered at t_e (R142, R144). -/
def reference40 (p : Plan) (te : Option Nat) (gj t : Nat) : Option Ref40 :=
  (p.joint gj).map (fun j =>
    match te with
    | none => nominal40 p j (t - p.tsolved)
    | some te =>
      if t < te then nominal40 p j (t - p.tsolved)
      else
        let ts := p.tstop * 1000
        let dt := t - te
        let r := nominal40 p j (te + warp ts dt - p.tsolved)
        if ts ≤ dt then ⟨r.q, 0, 0⟩
        else
          let w : Int := ts - dt
          ⟨r.q, divRne (r.v * w) ts, divRne (r.a * w * w - r.v * ts * 1000000000) (ts * ts)⟩)

/-! The stop time (R73). -/

/-- T_max in µs: min(512 ms, 2H). -/
def tMax (horizonNs : Nat) : Nat := min 512000 (2 * horizonNs / 1000)

/-- Both conditions of R73 for a joint with DMON in 2^−12 rad/s², v in 2^−16, a in 2^−12, T_stop in µs. -/
def stopFits (dmon : Nat) (v a : Int) (us : Nat) : Bool :=
  -- |v|/T ≤ DMON/2, and |a − v/T| ≤ DMON, cleared of denominators
  decide (v.natAbs * 2 * 1000000 ≤ dmon * 16 * us) &&
  decide ((a * 16 * us - v * 1000000).natAbs ≤ dmon * 16 * us)

/-- The smallest multiple of 2 ms from 16 ms to T_max that every joint (DMON, v, a) admits, in µs, and whether one did. -/
def chooseTstop (tmax : Nat) (js : List (Nat × Int × Int)) : Nat × Bool :=
  match ((List.range (tmax / 2000 + 1)).map (· * 2000)).find?
      (fun us => decide (16000 ≤ us) && js.all (fun j => stopFits j.1 j.2.1 j.2.2 us)) with
  | some us => (us, true)
  | none => (tmax, false)

/-- The 16 stop points of a joint under R72: position at τ_m and q̇_s = v(τ_m)(1 − t_m/T_stop). -/
def stopArray (ev : Nat → Knot) (tstopNs : Nat) : List (Int × Int) :=
  (List.range 16).map (fun i =>
    let m := i + 1
    let t := m * tstopNs / 16
    let k := ev (warp tstopNs t)
    (k.q, divRne (k.v * ((16 - m : Nat) : Int)) 16))

end Sys2Proof.Machine
end

