-- ==== Sys2Proof/Machine/ServoOps.lean ====
section
/-! DEFINITION. What the servo wall does for a joint and for an engine: the default chain (R146, R147), following-error
monitoring (R151), checkpoints (R153), engine cost and binding (R140, R141), failure and migration (R155, R156), and the
interrupt model of an engine (R177, R178). -/

namespace Sys2Proof.Machine

/-! The parameter entry (Table — Servo parameter entry). -/

def ServoEnt.u (s : ServoEnt) (off n : Nat) : Nat := uAt s.bytes off n
def ServoEnt.i (s : ServoEnt) (off n : Nat) : Int := sAt s.bytes off n
def ServoEnt.w (s : ServoEnt) (off : Nat) : Word := BitVec.ofNat 32 (uAt s.bytes off 4)
/-- Bits [23:0] of a coefficient or limit. -/
def ServoEnt.m (s : ServoEnt) (off : Nat) : Int := q23 (s.w off)
def ServoEnt.flag (s : ServoEnt) (n : Nat) : Bool := bitOf (s.u 1 1) n
def ServoEnt.doben (s : ServoEnt) : Bool := s.flag 0
def ServoEnt.cmen (s : ServoEnt) : Bool := s.flag 1
def ServoEnt.resetFlag (s : ServoEnt) : Bool := s.flag 2
def ServoEnt.fereact (s : ServoEnt) : Bool := s.flag 3
def ServoEnt.pexp (s : ServoEnt) : Int := s.i 4 1
def ServoEnt.vexp (s : ServoEnt) : Int := s.i 5 1
def ServoEnt.aexp (s : ServoEnt) : Int := s.i 6 1
def ServoEnt.texp (s : ServoEnt) : Int := s.i 7 1
def ServoEnt.cmblk (s : ServoEnt) : Nat := s.u 0x9C 1

/-- A running Q1.23 value with the mark of a saturation on the way. -/
structure Sat where
  v : Int
  s : Bool
  deriving DecidableEq, Repr

def Sat.of (v : Int) : Sat := let r := satQ23 v; ⟨r.1, r.2⟩
def Sat.add (a b : Sat) : Sat := let r := satQ23 (a.v + b.v); ⟨r.1, a.s || b.s || r.2⟩
def Sat.sub (a b : Sat) : Sat := let r := satQ23 (a.v - b.v); ⟨r.1, a.s || b.s || r.2⟩

/-- mul_g of R146: a Q1.23 value times a format-G gain, rounded to Q1.23. -/
def mulG (g : Word) (x : Int) : Sat :=
  let a := satAcc (shrRne (x * q23 g) (-gainShift g))
  let r := roundQ23 a.1 0
  ⟨r.1, a.2 || r.2⟩

/-- One biquad in direct form I (R146): coefficients Q2.22, output rounded to Q1.23. -/
def biquad (s : ServoEnt) (i : Nat) (st : BqSt) (x : Int) : Sat × BqSt :=
  let o := 0x30 + 20 * i
  let acc := s.m o * x + s.m (o + 4) * st.x1 + s.m (o + 8) * st.x2 - s.m (o + 12) * st.y1 - s.m (o + 16) * st.y2
  let a := satAcc (2 * acc)
  let r := roundQ23 a.1 0
  (⟨r.1, a.2 || r.2⟩, ⟨x, st.x1, r.1, st.y1⟩)

/-- Up to four biquads in series; one whose bit in BQEN is 0 passes its input and keeps states at 0 (R146). -/
def biquads (s : ServoEnt) (en : Nat) : Nat → List BqSt → Sat → Sat × List BqSt
  | _, [], x => (x, [])
  | i, st :: rest, x =>
    if bitOf en i then
      let r := biquad s i st x.v
      let r2 := biquads s en (i + 1) rest ⟨r.1.v, x.s || r.1.s⟩
      (r2.1, r.2 :: r2.2)
    else
      let r2 := biquads s en (i + 1) rest x
      (r2.1, ⟨0, 0, 0, 0⟩ :: r2.2)

/-- What one joint's computation starts from; `inSat` says that a value saturated where it was formed. -/
structure ChainIn where
  e : Int
  inSat : Bool
  vref : Int
  aref : Int
  vmeas : Int
  tmeas : Int
  missing : Bool
  tb : Nat
  deriving DecidableEq, Repr

/-- What it gives: velocity and torque commands in Q1.23, the new state, and whether a value saturated. -/
structure ChainOut where
  vcmd : Int
  tcmd : Int
  st : ChainSt
  sat : Bool
  deriving DecidableEq, Repr

/-- The disturbance observer (R147): d̂ holds while a value is missing and in the beat after. -/
def observer (s : ServoEnt) (st : ChainSt) (i : ChainIn) : Sat :=
  match i.missing, st.vprev with
  | false, some vp =>
    if s.doben then
      let acc := Sat.of (shrRne (divRne ((i.vmeas - vp) * 1000000000) i.tb) (s.aexp - s.vexp))
      let mg := mulG (s.w 0x8C) acc.v
      let raw := Sat.sub ⟨i.tmeas, acc.s⟩ mg
      let dif := Sat.sub raw ⟨st.dhat, false⟩
      let step := roundQ23 (s.m 0x90 * dif.v) 0
      let nd := Sat.add ⟨st.dhat, dif.s⟩ ⟨step.1, step.2⟩
      ⟨clampInt nd.v (-(absInt (s.m 0x94))) (absInt (s.m 0x94)), nd.s⟩
    else ⟨0, false⟩
  | _, _ => ⟨if s.doben then st.dhat else 0, false⟩

/-- The default chain of R146 for one joint in one beat. -/
def chain (s : ServoEnt) (st : ChainSt) (i : ChainIn) : ChainOut :=
  let kp := mulG (s.w 0x08) i.e
  let vpi := Sat.add kp ⟨st.integ, false⟩
  let ff := mulG (s.w 0x14) i.vref
  let vcmd0 := Sat.add ff vpi
  let vcl := clampInt vcmd0.v (-(s.m 0x18)) (s.m 0x18)
  let ki := mulG (s.w 0x0C) i.e
  let wind := decide (vcl ≠ vcmd0.v) && decide (sgnQ23 i.e = sgnQ23 vcmd0.v)
  let sum := Sat.add ⟨st.integ, false⟩ ki
  let hold := i.missing || wind
  let integ := if hold then st.integ else clampInt sum.v (-(s.m 0x10)) (s.m 0x10)
  let bq := biquads s (s.u 0x89 1) 0 st.bq ⟨vcl, false⟩
  let dh := observer s st i
  let acc := mulG (s.w 0x1C) i.aref
  let vis := mulG (s.w 0x20) i.vref
  let cf : Int := if i.vref = 0 then 0 else if i.vref < 0 then -(s.m 0x24) else s.m 0x24
  let tff := Sat.add (Sat.add (Sat.add acc vis) (Sat.of cf)) ⟨s.m 0x28, false⟩
  let tff := if s.doben then Sat.sub tff ⟨dh.v, dh.s⟩ else tff
  let tcmd := clampInt tff.v (-(s.m 0x2C)) (s.m 0x2C)
  { vcmd := bq.1.v, tcmd := tcmd,
    st := { integ := integ, bq := bq.2, dhat := dh.v, vprev := if i.missing then none else some i.vmeas },
    sat := i.inSat || vcmd0.s || (!hold && sum.s) || bq.1.s || tff.s }

/-- A cleared chain state. -/
def ChainSt.zero : ChainSt := ⟨0, List.replicate 4 ⟨0, 0, 0, 0⟩, 0, none⟩

/-- The 19 state words of the default chain (R164): the integrator, four words per biquad, d̂ and the previous measured speed,
which is 0 where there is none. -/
def ChainSt.words (c : ChainSt) : List Word :=
  ([c.integ] ++ c.bq.flatMap (fun b => [b.x1, b.x2, b.y1, b.y2]) ++ [c.dhat, c.vprev.getD 0]).map ofQ23

/-- The chain state a state area holds. -/
def ChainSt.ofWords (ws : List Word) : ChainSt :=
  let w := fun (i : Nat) => q23 (ws.getD i 0)
  ⟨w 0, (List.range 4).map (fun b => ⟨w (4 * b + 1), w (4 * b + 2), w (4 * b + 3), w (4 * b + 4)⟩), w 17, some (w 18)⟩

/-- Conversion of vcmd and tcmd to drive units by shifts (R146). -/
def driveUnits (s : ServoEnt) (vcmd tcmd : Int) : Int × Int :=
  (satS 32 (shrRne vcmd (7 - s.vexp)), satS 32 (shrRne tcmd (13 - s.texp)))

/-! Joints. -/

def Dev.jrt (d : Dev) (gj : Nat) : Option JointRt := d.servo.joints.find? (fun j => j.gj == gj)

def Dev.updJ (d : Dev) (gj : Nat) (f : JointRt → JointRt) : Dev :=
  { d with servo := { d.servo with joints := d.servo.joints.map (fun j => if j.gj = gj then f j else j) } }

/-- The parameter entry in force of a joint. -/
def Dev.entry (d : Dev) (gj : Nat) : Option ServoEnt :=
  d.servo.params.bind (fun ps => ps.entries.find? (fun e => e.gj == gj))

/-- A joint of the set that has run nothing yet. -/
def JointRt.fresh (gj : Nat) : JointRt :=
  { gj := gj, chain := ChainSt.zero, ckpt := [], feRun := 0, feAbove := false, feFault := false,
    tx := none, sent := none, stale := false, hold := none, qmeas := 0, qprev := 0, turn := 0, vmeas := 0, tmeas := 0, vib := 0,
    cur := 0, missing := false, delivering := false, done := false, fe := 0, trapped := 0, trapNow := false, cmVib := [], cmCur := [], cmSpd := [], cmMiss := 0, blkseq := 0, cmDone := none, moved := false }

/-- Reference of a joint at a cell time: the plan followed, or the hold reference of R145. -/
def Dev.reference (d : Dev) (gj t : Nat) : Option Ref40 :=
  match d.planner.beatPlan.bind (fun p => reference40 p d.planner.beatTe gj t) with
  | some r => some r
  | none => (d.jrt gj).bind (fun j => j.hold.map (fun q => ⟨q, 0, 0⟩))

/-- PLANEV's values for a joint (R146, R176): the s64 reference and error at B, and E, VREF and AREF with the marks of a
saturated E and of a saturated VREF or AREF. -/
structure PlanVals where
  qref : Int
  fe : Int
  e : Int
  esat : Bool
  vref : Int
  aref : Int
  refSat : Bool
  deriving DecidableEq, Repr

/-- The feedback that R152 predicts for a missing beat: qmeas(B − T_b) + vcmd·T_b. -/
def JointRt.predicted (j : JointRt) (tb : Nat) : Int := j.qprev + divRne ((j.sent.getD (0, 0)).1 * 16777216 * tb) 1000000000

/-- The s64 of a position of the joint: a multi-turn joint carries its turn count in the bits above the s48 position (R143). The
reference and the feedback carry the same count, which cancels in their difference. -/
def JointRt.s64 (j : JointRt) (q : Int) : Int := q + j.turn * 2 ^ 48

def Dev.planVals (d : Dev) (gj : Nat) : Option PlanVals :=
  match d.jrt gj, d.entry gj with
  | some j, some s =>
    let b := d.time.beatAt
    let tb := d.time.layout.beat
    match d.reference gj b, d.reference gj (b + tb) with
    | some r0, some r1 =>
      let fe := j.s64 r0.q - j.s64 j.qmeas
      let e := satQ23 (shrRne fe (17 + s.pexp))
      let v := satQ23 (shrRne r1.v (17 + s.vexp))
      let a := satQ23 (shrRne r1.a (17 + s.aexp))
      some ⟨j.s64 r0.q, fe, e.1, e.2, v.1, a.1, v.2 || a.2⟩
    | _, _ => none
  | _, _ => none

/-- Measured speed and torque in Q1.23 (R163), each with the mark of a saturation. -/
def JointRt.vQ (j : JointRt) (s : ServoEnt) : Int × Bool := satQ23 (shrRne j.vmeas (s.vexp - 7))
def JointRt.tQ (j : JointRt) (s : ServoEnt) : Int × Bool := satQ23 (shrRne j.tmeas (s.texp - 13))

/-- A GROUP_MOVE between its two phases ends ABORTED; PARTS names its arms (R366). -/
def Dev.abortGroups (d : Dev) : Dev :=
  let gs := d.kiln.group
  gs.foldl (fun (d : Dev) (g : GroupPrep) => d.complete g.cmd .aborted 1 (maskOf (g.segs.map (fun (x : Nat × List Seg) => x.1))) 0 0)
    { d with kiln := { d.kiln with group := [] } }

/-- A stop request under R128 reaches the servo wall; it aborts a prepared GROUP_MOVE (R366). -/
def Dev.stopRequest (d : Dev) : Dev := { d with planner := { d.planner with stopReq := true } }.abortGroups

/-- The planner side requests SS1 from both safety channels. -/
def Dev.requestSs1 (d : Dev) : Dev := { d with safety := { d.safety with ss1A := true, ss1B := true } }

/-- Raise a source of a wall's event group. -/
def Dev.raiseW (d : Dev) (w s : Nat) : Dev := d.raise (srcNo (3 + w) s) noDetail

/-- Stop request, SS1 request and STOP_BRANCH (R123, R137). -/
def Dev.planStop (d : Dev) : Dev := (d.stopRequest.requestSs1).raiseW (d.get SLV_ACTWALL) 15

/-- The planner plans motion: RUNNING or CREEP. -/
def Dev.planning (d : Dev) : Bool := d.plState == 1 || d.plState == 2

/-- Following-error monitoring of one joint (R151), on the s64 error; a missing beat leaves FETIME as it is (R152). -/
def Dev.followCheck (d : Dev) (gj : Nat) (fe : Int) (missing : Bool) : Dev :=
  match d.entry gj, d.jrt gj with
  | some s, some j =>
    if missing then d
    else
      let mag := fe.natAbs
      let warn := decide (mag > s.u 0x80 4 * 65536)
      let ovr := decide (mag > s.u 0x84 4 * 65536)
      let run := if ovr then min (j.feRun + 1) 256 else 0
      let d := d.updJ gj (fun j => { j with feAbove := warn, feRun := run })
      let d :=
        if warn then
          let d := (d.putB (SRV_FEWARN gj) true).bump 0x6044
          if j.feAbove then d else d.raise (srcNo 5 1) gj
        else d
      if ovr && run == s.u 0x88 1 then
        let d := ((d.putB (SRV_FEFLT gj) true).bump 0x6048).raise (srcNo 5 2) gj
        if s.fereact && d.plState != 3 && d.plState != 4 then d.stopRequest else d
      else d
  | _, _ => d

/-- A saturation of the chain or of a program is reported once per computation (R146, R167). -/
def Dev.reportSat (d : Dev) (gj : Nat) (sat : Bool) : Dev :=
  if sat then (d.bump 0x6050).raise (srcNo 5 4) gj else d

/-- The previous sample of a signal, in this block or the last of the block before. -/
def JointRt.lastSample (block prev : List Int) : Int := (block.getLast?).getD ((prev.getLast?).getD 0)

/-- One sample of condition monitoring, at cell time t (R158): a missing one repeats the previous one and is counted. -/
def JointRt.sample (j : JointRt) (s : ServoEnt) (missing : Bool) (t : Nat) : JointRt :=
  if !s.cmen then j
  else
    let prev := fun (f : CmBlock → List Int) => (j.cmDone.map f).getD []
    let v := if missing then JointRt.lastSample j.cmVib (prev (·.vib)) else j.vib
    let c := if missing then JointRt.lastSample j.cmCur (prev (·.cur)) else j.cur
    let sp := if missing then JointRt.lastSample j.cmSpd (prev (·.spd)) else absInt j.vmeas * (s.u 0x98 4 : Int)
    let vib := j.cmVib ++ [v]
    let cur := j.cmCur ++ [c]
    let spd := j.cmSpd ++ [sp]
    let miss := if missing then j.cmMiss + 1 else j.cmMiss
    if vib.length ≥ 2 ^ s.cmblk then
      { j with cmVib := [], cmCur := [], cmSpd := [], cmMiss := 0, cmDone := some ⟨vib, cur, spd, miss, j.blkseq, t⟩,
               blkseq := j.blkseq + 1 }
    else { j with cmVib := vib, cmCur := cur, cmSpd := spd, cmMiss := miss }

/-- The sample a joint took in this beat is withdrawn with the rest of the beat: its block stands where the checkpoint before
left it (R160). -/
def JointRt.unsample (j : JointRt) (s : ServoEnt) : JointRt :=
  let miss := if j.missing then 1 else 0
  if !s.cmen then j
  else
    match j.cmVib, j.cmDone with
    | [], some b =>
      { j with cmVib := b.vib.dropLast, cmCur := b.cur.dropLast, cmSpd := b.spd.dropLast, cmMiss := b.miss - miss,
               blkseq := b.seq, cmDone := none }
    | _, _ => { j with cmVib := j.cmVib.dropLast, cmCur := j.cmCur.dropLast, cmSpd := j.cmSpd.dropLast, cmMiss := j.cmMiss - miss }

/-- The computation of a joint ends with a setpoint and a checkpoint (R146, R153, R176). `words` is its state area. -/
def Dev.jointDone (d : Dev) (gj : Nat) (st : ChainSt) (vcmd tcmd : Int) (words : List Word) : Dev :=
  match d.entry gj with
  | none => d
  | some s =>
    let u := driveUnits s vcmd tcmd
    let beat := d.get HTL_BEAT
    d.updJ gj (fun j =>
      let j := { j.sample s j.missing d.time.beatAt with chain := st, done := true, tx := if d.servo.frozen then j.tx else some u }
      { j with ckpt := ((⟨beat, d.get SRV_PSETID, st, j.feRun, j.cmVib.length, words⟩ : Ckpt) :: j.ckpt).take 2 })

/-! Slot windows (R163). -/

/-- Write words of a slot window of an engine. -/
def Engine.putWindow (g : Engine) (slot : Nat) (ws : List (Nat × Word)) : Engine :=
  { g with em := ws.foldl (fun m w => filePut ramDefault m (windowBase slot + w.1) w.2) g.em }

def Dev.engine (d : Dev) (e : Nat) : Option Engine := d.servo.engines[e]?

def Dev.updE (d : Dev) (e : Nat) (f : Engine → Engine) : Dev :=
  { d with servo := { d.servo with engines := updAt d.servo.engines e f } }

/-- Engine and slot of a joint in a set. -/
def ParamSet.place (ps : ParamSet) (gj : Nat) : Option (Nat × Nat) := (ps.binding.find? (fun x => x.1 == gj)).map (·.2)

/-- Write words of the window of a joint's slot. -/
def Dev.putSlot (d : Dev) (gj : Nat) (ws : List (Nat × Word)) : Dev :=
  match d.servo.params.bind (fun ps => ps.place gj) with
  | some (e, slot) => d.updE e (fun g => g.putWindow slot ws)
  | none => d

/-- The state area, from its first word. -/
def stateWords (ws : List Word) : List (Nat × Word) := (List.range 24).map (fun i => (0x80 + i, ws.getD i 0))

/-- The input words the engine writes: VMEAS, TMEAS, VIB, CUR and FBFLAGS. -/
def Dev.windowInputs (d : Dev) (gj : Nat) : List (Nat × Word) :=
  match d.jrt gj, d.entry gj with
  | some j, some s =>
    let hold := !d.planner.beatPlan.any (fun p => p.has gj) && j.hold.isSome
    let fl := (if j.missing then 1 else 0) + (if d.is SRV_STOPBR then 2 else 0) + (if hold then 8 else 0)
    [(0xA5, ofQ23 (j.vQ s).1), (0xA6, ofQ23 (j.tQ s).1), (0xA7, ofQ23 j.vib), (0xA8, ofQ23 j.cur),
     (0xA9, BitVec.ofNat 32 fl)]
  | _, _ => []

/-- The words PLANEV writes beside FBFLAGS.ESAT: QREF, E, VREF and AREF. -/
def PlanVals.window (v : PlanVals) : List (Nat × Word) :=
  let q := encSigned 64 v.qref
  [(0xA0, BitVec.ofNat 32 q), (0xA1, BitVec.ofNat 32 (q / 2 ^ 32)), (0xA2, ofQ23 v.e), (0xA3, ofQ23 v.vref), (0xA4, ofQ23 v.aref)]

/-- FBFLAGS with ESAT as PLANEV leaves it. -/
def Engine.withEsat (g : Engine) (slot : Nat) (esat : Bool) : Engine :=
  g.putWindow slot [(0xA9, BitVec.ofNat 32 (setBit (fileGet ramDefault g.em (windowBase slot + 0xA9)).toNat 2 esat))]

/-- The engine-written entry words and user parameters of a window (R163), and the state area as it starts there. -/
def ServoEnt.window (s : ServoEnt) (state : List Word) : List (Nat × Word) :=
  (List.range 64).map (fun i => (i, BitVec.ofNat 32 (uAt s.bytes (4 * i) 4))) ++
  (List.range 64).map (fun i => (0x40 + i, BitVec.ofNat 32 (uAt s.user (4 * i) 4))) ++ stateWords state

/-- The feedback of a joint is not delivering: it gets no setpoint, and its chain states and state area are cleared (R145). -/
def Dev.clearChain (d : Dev) (gj : Nat) : Dev :=
  (d.updJ gj (fun j => { j with chain := ChainSt.zero, tx := none })).putSlot gj (stateWords [])

/-- The default chain of one joint for its slot vector (R145, R146), in its window like a program's (R163). -/
def Dev.slotCompute (d : Dev) (gj : Nat) : Dev :=
  match d.entry gj, d.jrt gj, d.planVals gj with
  | some s, some j, some v =>
    if !j.delivering then d.clearChain gj
    else
      let vm := j.vQ s
      let tm := j.tQ s
      let o := chain s j.chain ⟨v.e, v.esat || v.refSat || vm.2 || tm.2, v.vref, v.aref, vm.1, tm.1, j.missing, d.time.layout.beat⟩
      let d := d.putSlot gj (d.windowInputs gj ++ v.window ++ stateWords o.st.words ++ [(0xC0, ofQ23 o.vcmd), (0xC1, ofQ23 o.tcmd)])
      let d := match d.servo.params.bind (fun ps => ps.place gj) with
        | some (e, slot) => d.updE e (fun g => g.withEsat slot v.esat)
        | none => d
      let d := d.reportSat gj o.sat
      let d := d.followCheck gj v.fe j.missing
      (d.updJ gj (fun j => { j with fe := v.fe })).jointDone gj o.st o.vcmd o.tcmd o.st.words
  | _, some j, none => if j.delivering then d else d.clearChain gj
  | _, _, _ => d

/-! Cost and binding (R140, R141, R181). -/

/-- Cycles per beat of one entry. -/
def entryCost (progs : List Prog) (s : ServoEnt) : Nat :=
  match progs.find? (fun p => p.id == s.prog) with
  | some p => p.cost
  | none => 1600 + (if s.doben then 200 else 0) + (if s.cmen then 400 else 0)

/-- Cycles an engine has in a beat, (T_b − 20 µs) × 800 MHz; the budget is less the reserve of 4,000 (R141). -/
def beatCycles (tb : Nat) : Nat := (beatNs tb - 20000) * 4 / 5
def budget (tb : Nat) : Nat := beatCycles tb - 4000

def engineCost (progs : List Prog) (ents : List ServoEnt) (b : List (Nat × Nat × Nat)) (e : Nat) : Nat :=
  ((b.filter (fun x => x.2.1 == e)).map (fun x =>
    match ents.find? (fun s => s.gj == x.1) with | some s => entryCost progs s | none => 0)).foldl (· + ·) 0

/-- Lowest free slot of an engine. -/
def freeSlot (b : List (Nat × Nat × Nat)) (e : Nat) : Option Nat :=
  (List.range 5).find? (fun s => !b.any (fun x => x.2.1 == e && x.2.2 == s))

def boundCount (b : List (Nat × Nat × Nat)) (e : Nat) : Nat := (b.filter (fun x => x.2.1 == e)).length

/-- The least element of a list under a key, the earlier one on a tie. -/
def leastBy (key : Nat → Nat) : List Nat → Option Nat
  | [] => none
  | x :: xs => match leastBy key xs with | none => some x | some y => if key y < key x then some y else some x

/-- Bind the unpinned entries in ascending joint order (R140); the joints no engine takes are answered. -/
def bindRest (progs : List Prog) (all : List ServoEnt) (limit : Nat) :
    List ServoEnt → List (Nat × Nat × Nat) → List Nat → List (Nat × Nat × Nat) × List Nat
  | [], b, bad => (b, bad)
  | s :: rest, b, bad =>
    let fits := fun e => (freeSlot b e).isSome && engineCost progs all b e + entryCost progs s ≤ limit
    let home := s.gj % 16
    let pick := if fits home then some home else leastBy (boundCount b) ((List.range 16).filter fits)
    match pick with
    | some e => bindRest progs all limit rest (b ++ [(s.gj, e, (freeSlot b e).getD 0)]) bad
    | none => bindRest progs all limit rest b (bad ++ [s.gj])

/-- The binding of a set, and the joints at fault: pinned twice to one slot, pinned over budget, or unplaced (R140). -/
def bindAll (progs : List Prog) (ents : List ServoEnt) (tb : Nat) : List (Nat × Nat × Nat) × List Nat :=
  let pinned := (ents.filter (fun s => s.u 3 1 != 0xFF)).map (fun s => (s.gj, s.u 3 1 / 16, s.u 3 1 % 8))
  let clash := (pinned.filter (fun x => pinned.any (fun y => y.1 != x.1 && y.2 == x.2))).map (·.1)
  let ovr := (pinned.filter (fun x => engineCost progs ents pinned x.2.1 > budget tb)).map (·.1)
  let r := bindRest progs ents (budget tb) (ents.filter (fun s => s.u 3 1 == 0xFF)) pinned []
  (r.1, (clash ++ ovr ++ r.2).eraseDups)

/-- Publish the binding in SRV_ALLOC (R140). -/
def Dev.publishAlloc (d : Dev) : Dev :=
  let b := match d.servo.params with | some ps => ps.binding | none => []
  (List.range 60).foldl (fun d j =>
    match b.find? (fun x => x.1 == j) with
    | some x => d.put (SRV_BIND j) (x.2.1 * 16 + x.2.2)
    | none => d.put (SRV_BIND j) 0xFF) d

/-! Engines, failure and migration (R155, R156). -/

/-- Move one joint of a failed engine: to the engine with the fewest bound joints, the other course preferred, but to none that
rejoined since the last change of binding (R157). Its states come from its newest checkpoint of an earlier beat, or are clear
where there is none; the checkpoint and the sample of the failing beat are withdrawn, and the beat misses a sample (R160). -/
def Dev.migrate (d : Dev) (e gj : Nat) : Dev :=
  match d.servo.params, d.entry gj with
  | some ps, some s =>
    let b := ps.binding.filter (fun x => x.1 != gj)
    let c := entryCost ps.progs s
    let ok := fun x => !d.is (SRV_FAILED x) && !(d.engine x).any (·.spare) && (freeSlot b x).isSome &&
      engineCost ps.progs ps.entries b x + c ≤ beatCycles ps.tb
    let other := (List.range 16).filter (fun x => ok x && x / 8 != e / 8)
    let same := (List.range 16).filter (fun x => ok x && x / 8 == e / 8)
    let pick := match leastBy (boundCount b) other with
      | some x => some x
      | none => leastBy (boundCount b) same
    match pick with
    | some x =>
      let slot := (freeSlot b x).getD 0
      let ps := { ps with binding := b ++ [(gj, x, slot)] }
      let beat := d.get HTL_BEAT
      let ks := ((d.jrt gj).map (fun (j : JointRt) => j.ckpt.filter (fun k => k.beat != beat))).getD []
      let k := ks.head?
      let d := { d with servo := { d.servo with params := some ps } }
      let d := d.updJ gj (fun j =>
        let j := if j.done && !j.trapNow then j.unsample s else j
        { j with moved := true, done := false, ckpt := ks, chain := (k.map (·.chain)).getD ChainSt.zero,
                 feRun := (k.map (·.feRun)).getD 0 })
      let d := d.updE x (fun g => g.putWindow slot (s.window ((k.map (·.words)).getD [])))
      (d.bump 0x605C).raise (srcNo 5 8) gj
    | none =>
      let ps := { ps with binding := b }
      let d := { d with servo := { d.servo with params := some ps, unbound := d.servo.unbound ++ [gj] } }
      let d := (d.putB SRV_UNBOUND true).raise (srcNo 5 9) gj
      d.stopRequest.requestSs1
  | _, _ => d

/-- An assertion for a powered-off target (R390). -/
def Dev.undeliverable (d : Dev) (src : Nat) : Dev :=
  let had := d.is (EVC_UNDEL src)
  let d := (d.putB (EVC_UNDEL src) true).bump 0xCC04
  let d := { d with hod := { d.hod with undels := d.hod.undels + 1 } }
  if had then d else d.raise (srcNo 14 0) src

/-- The sources whose handler an engine runs return to PENDING there (R399). -/
def Dev.sourcesBack (d : Dev) (e : Nat) : Dev :=
  { d with engSrcs := d.engSrcs.map (fun (x : EngSrc) => if x.eng = e ∧ x.act then { x with pend := true, act := false } else x) }

/-- An engine is powered off: its handlers are lost, and the sources ACTIVE there are undeliverable (R390, R399). -/
def Dev.engineOff (d : Dev) (e : Nat) : Dev :=
  let lost := (d.engSrcs.filter (fun x => x.eng == e && x.act)).map (·.src)
  let d := (d.sourcesBack e).updE e (fun g => { g with handlers := [] })
  lost.foldl Dev.undeliverable d

/-- An engine fails (R155): its setpoints are withdrawn, its joints rebound in ascending slot order. -/
def Dev.engineFail (d : Dev) (e : Nat) : Dev :=
  if d.is (SRV_FAILED e) then d
  else
    let js := (List.range 5).filterMap (d.slotJoint e)
    let d := js.foldl (fun (d : Dev) (gj : Nat) => d.updJ gj (fun j => { j with tx := none })) d
    let d := (((d.putB (SRV_FAILED e) true).bump 0x6058).raise (srcNo 5 7) e).engineOff e
    let d := js.foldl (fun (d : Dev) (gj : Nat) => d.migrate e gj) d
    d.publishAlloc

/-! The interrupt model (R177). -/

/-- Bank in use: that of the innermost handler, or bank 0. -/
def Engine.curBank (g : Engine) : Nat := match g.handlers with | h :: _ => h.bank | [] => 0

/-- Priority of the running level: −1 stands for the base level. -/
def Engine.level (g : Engine) : Int := match g.handlers with | h :: _ => h.prio | [] => -1

/-- The pending vector of highest priority above a level; the lower vector on a tie. -/
def Dev.nextVector (d : Dev) (g : Engine) (level : Int) : Option Nat :=
  let c := (List.range 7).filter (fun v => bitOf g.pend v && decide (level < d.get (EVC_ENGPRI v)))
  leastBy (fun v => 15 - d.get (EVC_ENGPRI v)) c

/-- Put a bank at the start of a vector's handler: P6 and ST.SLOT for a slot vector, the entry of its program. -/
def Dev.enterBank (d : Dev) (e v : Nat) (b : Bank) : Bank :=
  if v < 5 then
    { b with p := updAt b.p 6 (fun _ => windowBase v), slot := v, pc := (d.regions e v).entry }
  else
    let pc := match d.slotProg e 7 with | some p => p.beatent | none => romEntry
    { b with slot := 7, pc := pc }

/-- The loop cache holds the loop body of a bank only while no other bank has taken it (R170). -/
def Engine.cached (g : Engine) (n : Nat) (b : Bank) : Bank := { b with cv := b.cv && g.cacheOwner == some n }

/-- Take vector v in a bank: for a slot vector the input words are written and copied (R163, R168). -/
def Dev.takeVector (d : Dev) (e v bank : Nat) (below : List Handler) : Dev :=
  let ins := if v < 5 then ((d.slotJoint e v).map d.windowInputs).getD [] else []
  let d := if v ≠ 6 then d
    else { d with engSrcs := d.engSrcs.map (fun (x : EngSrc) =>
      if x.eng = e ∧ x.pend then { x with pend := false, act := true } else x) }
  d.updE e (fun g =>
    let g := if v < 5 then g.putWindow v ins else g
    let saved := if v < 5 then
      (List.range 0x2A).map (fun i => (windowBase v + 0x80 + i, fileGet ramDefault g.em (windowBase v + 0x80 + i)))
      else []
    { g with pend := setBit g.pend v false, asleep := false, nestSeen := setBit g.nestSeen v false,
             banks := updAt g.banks bank (fun b => d.enterBank e v (g.cached bank b)),
             handlers := ⟨bank, v, d.get (EVC_ENGPRI v), true, 0, saved⟩ :: below })

/-- Does a vector run the default chain of the ROM? -/
def Dev.romSlot (d : Dev) (e v : Nat) : Bool := decide (v < 5) && (d.slotProg e v).isNone

/-- A vector that runs the default chain is served: its joint is computed. -/
def Dev.romVector (d : Dev) (e v : Nat) : Dev :=
  let d := d.updE e (fun g => { g with pend := setBit g.pend v false, nestSeen := setBit g.nestSeen v false })
  match d.slotJoint e v with
  | some gj => d.slotCompute gj
  | none => d

/-- Take a vector: a default-chain slot computes its joint at once (R146); any other vector enters its handler. -/
def Dev.serveVector (d : Dev) (e v bank : Nat) (below : List Handler) : Dev :=
  if d.romSlot e v then d.romVector e v else d.takeVector e v bank below

/-- Swap back to the interrupted bank: a cache it has lost is refilled, at one cycle per instruction of the body (R170, R177). -/
def Engine.swapBack (g : Engine) (rest : List Handler) : Engine :=
  let g := { g with handlers := rest }
  match g.banks[g.curBank]? with
  | some b =>
    if b.cv && g.cacheOwner != some g.curBank then
      let more := fun (h : Handler) => { h with cycles := h.cycles + (b.le + 1 - b.ls) }
      { g with cacheOwner := some g.curBank, handlers := match rest with | h :: t => more h :: t | [] => [] }
    else g
  | none => g

/-- Tail-chain to the pending vectors above the level returned to, each in the same bank; then swap back (R177). A vector of the
default chain is computed at once. -/
def Dev.chainOn (e bank : Nat) (rest : List Handler) : Nat → Dev → Dev
  | 0, d => d.updE e (·.swapBack rest)
  | n + 1, d =>
    match d.engine e with
    | none => d
    | some g =>
      match d.nextVector g ({ g with handlers := rest }.level) with
      | none => d.updE e (·.swapBack rest)
      | some v => if d.romSlot e v then Dev.chainOn e bank rest n (d.romVector e v) else d.takeVector e v bank rest

/-- Leave the innermost handler (R177): tail-chain to a pending event above the level returned to, or swap back. -/
def Dev.leaveHandler (d : Dev) (e : Nat) : Dev :=
  match (d.engine e).bind (fun g => g.handlers.head?.map (fun h => (h, g.handlers.tail))) with
  | none => d
  | some (h, rest) =>
    let d := if h.vec ≠ 6 then d
      else { d with engSrcs := d.engSrcs.map (fun (x : EngSrc) => if x.eng = e then { x with act := false } else x) }
    Dev.chainOn e h.bank rest 8 d

/-- A program traps (R178): two consecutive beats with a trap of a joint cause a stop request. -/
def Dev.trap (d : Dev) (e cause pc : Nat) : Dev :=
  match d.engine e with
  | none => d
  | some g =>
    let bank := g.curBank
    let slot := ((g.banks[bank]?).map (·.slot)).getD 7
    let d := d.setReg 0x6020 (BitVec.ofNat 32 (e + slot * 16 + cause * 256 + pc * 65536))
    let d := (d.bump 0x6064).raise (srcNo 5 12) e
    if slot < 5 then
      let d := match d.slotJoint e slot with
        | none => d
        | some gj =>
          let n := ((d.jrt gj).map (fun (j : JointRt) => if j.trapNow then j.trapped else j.trapped + 1)).getD 0
          let d := d.updJ gj (fun j => { j with tx := none, done := true, trapped := n, trapNow := true })
          if n ≥ 2 then d.stopRequest else d
      d.leaveHandler e
    else if g.handlers.isEmpty then
      d.updE e (fun g => { g with banks := updAt g.banks bank (fun b => { b with pc := (d.regions e 7).entry }) })
    else d.leaveHandler e

end Sys2Proof.Machine
end

