-- ==== Sys2Proof/Machine/Measure.lean ====
section
/-! DEFINITION. The measured state of the cell: the last feedback of every joint, which joints deliver and which arms are
present (R44, R272, R321), and the delivery of feedback to the servo wall (R152, R271). -/

namespace Sys2Proof.Machine

def Dev.fb? (d : Dev) (gj : Nat) : Option JointFb := d.fbs.find? (fun f => f.gj == gj)

/-- Last measured position of a joint in plan units, 2^−24. -/
def Dev.measQ (d : Dev) (gj : Nat) : Int := ((d.fb? gj).map (fun f => divRne f.q 65536)).getD 0

/-- Last measured velocity in 2^−16 per second. -/
def Dev.measV (d : Dev) (gj : Nat) : Int := ((d.fb? gj).map (·.v)).getD 0

/-- The slots of the mode in force on a port. -/
def Dev.modeSlots (d : Dev) (p : Nat) : List SlotEnt :=
  match d.heath.sched with
  | none => []
  | some s => match (s.ports.getD p none) with
    | none => []
    | some ps => ps.modes.getD (d.get (HTL_MODE p)) []

/-- The slot of the mode in force with FLAGS.PLAN that carries an axis of a node: its axes follow those of the node's lower
slots in the mode. -/
def Dev.axisSlot (d : Dev) (laddr axis : Nat) : Option SlotEnt :=
  let ss := (d.modeSlots (d.get (HTL_NPORT laddr))).filter (fun s => s.laddr == laddr)
  let f := fun (acc : Nat × Option SlotEnt) (s : SlotEnt) =>
    (acc.1 + s.nax, if acc.2.isNone && acc.1 ≤ axis && axis < acc.1 + s.nax then some s else acc.2)
  ((ss.foldl f (0, none)).2).filter (·.plan)

/-- A joint delivers: its node is JOINED and its axis carried and not missing for NODEMISS beats (R272), or its local
channel is in RUN (R319). -/
def Dev.jointDelivers (d : Dev) (j : JointEnt) : Bool :=
  if j.fbsrc = 0 then
    d.get (HTL_NSTATE j.fbaddr) == 6 && (d.axisSlot j.fbaddr j.axis).isSome &&
      (match (d.heath.nodes.find? (fun n => n.laddr == j.fbaddr)).bind (fun n => n.axes.find? (fun a => a.axis == j.axis)) with
      | some a => decide (a.missing < d.heath.cfg % 32)
      | none => false)
  else d.get (FIO_STATE j.fbaddr) == 2

/-- Arm presence under a model (R44). -/
def Dev.armPresent (d : Dev) (m : Model) (a : Nat) : Bool :=
  match m.arms.find? (fun x => x.armid == a) with
  | none => false
  | some x => (m.joints.filter (fun j => x.firstj ≤ j.gj && j.gj < x.firstj + x.nj)).all d.jointDelivers

/-- Presence of all arms as a mask. -/
def Dev.presence (d : Dev) (m : Model) : Nat := maskOf ((m.arms.map (·.armid)).filter (d.armPresent m))

/-- The model whose accepted activation the check point of this stride latches (R61). -/
def Dev.modelDue (d : Dev) : Option Model :=
  match d.kiln.activating with
  | some (_, acc) => if acc + 20000 ≤ d.s + 70000 then d.kiln.staged else none
  | none => none

/-- The slot vector of a joint is raised in its engine (R271, R321). A joint that does not deliver runs no computation (R140), and
one that moved to a new engine starts there in the next beat (R155). -/
def Dev.slotReady (d : Dev) (gj : Nat) : Dev :=
  match d.servo.params.bind (fun ps => ps.place gj) with
  | some (e, s) =>
    if !(d.jrt gj).any (fun j => j.delivering && !j.moved) then d
    else d.updE e (fun g => { g with pend := setBit g.pend s true, asleep := false })
  | none => d

/-- Feedback of a joint goes to mortar memory and to its servo slot (R271). -/
def Dev.feed (d : Dev) (f : JointFb) : Dev :=
  let d := { d with fbs := d.fbs.filter (fun (x : JointFb) => x.gj != f.gj) ++ [f] }
  let multi := d.kiln.active.any (fun m => m.joints.any (fun k => k.gj == f.gj && bitOf k.type 7))
  let d := d.updJ f.gj (fun j => { j with qmeas := f.q, turn := if multi then f.turn else 0, vmeas := f.v, tmeas := f.trq,
                                          vib := f.vib, cur := f.cur, missing := false })
  d.putSlot f.gj (d.windowInputs f.gj)

/-- Feedback of a joint is delivered: its slot vector is raised. A joint that no plan lists latches its hold reference at its first
beat of delivery (R145). -/
def Dev.deliver (d : Dev) (f : JointFb) : Dev :=
  let d := d.feed f
  let planned := d.planner.beatPlan.any (fun p => p.has f.gj)
  let d := d.updJ f.gj (fun j =>
    { j with hold := if planned then none else some (j.hold.getD f.q), delivering := true, done := false })
  d.slotReady f.gj

/-- The joint's feedback is no longer delivering: its chain states are cleared and its hold reference goes (R145). -/
def Dev.stopDelivering (d : Dev) (gj : Nat) : Dev :=
  (d.clearChain gj).updJ gj (fun j => { j with delivering := false, hold := none, sent := none, stale := false })

/-- A joint is missing in this beat (R152): its feedback is predicted, and the miss counted and raised. Its slot vector is still to
be raised. -/
def Dev.markMissing (d : Dev) (gj : Nat) : Dev :=
  let d := { d with fbs := d.fbs.map (fun (x : JointFb) => if x.gj = gj then { x with missing := true } else x) }
  match d.jrt gj with
  | none => d
  | some _ => ((d.updJ gj (fun j =>
      { j with missing := true, done := false, qmeas := j.predicted d.time.layout.beat })).bump 0x604C).raise (srcNo 5 3) gj

/-- A joint is missing in this beat, and its slot vector is raised at once with MISSING set. -/
def Dev.missJoint (d : Dev) (gj : Nat) : Dev := (d.markMissing gj).slotReady gj

/-- The retention bank's joint entries are written for every delivering joint (R421). -/
def Dev.retainJoints (d : Dev) : Dev :=
  match d.kiln.active with
  | none => d
  | some m =>
    (m.joints.filter (fun j => d.jointDelivers j && decide (j.gj < 60))).foldl (fun (d : Dev) j =>
      let turn := ((d.fb? j.gj).map (·.turn)).getD 0
      (d.setReg (0xBA00 + 8 * j.gj) (BitVec.ofInt 32 (d.measQ j.gj))).setReg (0xBA04 + 8 * j.gj)
        (BitVec.ofNat 32 (encSigned 16 turn + 2 ^ 31))) d

end Sys2Proof.Machine
end

