-- ==== Sys2Proof/Machine/RegWrite.lean ====
section
/-! DEFINITION. How a BAR0 write acts on a register by the access type of each field (R4 to R7, R12, R13). -/

namespace Sys2Proof.Machine

/-- May a value be written to the field (R5)? -/
def fieldAdmits (f : Field) (v : Nat) : Bool :=
  match f.legal with
  | .any => true
  | .range lo hi => decide (lo ≤ v) && decide (v ≤ hi)
  | .srange lo hi => decide (lo ≤ signed (f.hi - f.lo + 1) v) && decide (signed (f.hi - f.lo + 1) v ≤ hi)

/-- The value written to a field. -/
def fieldOf (f : Field) (w : Word) : Nat := w.toNat / 2 ^ f.lo % 2 ^ (f.hi - f.lo + 1)

/-- Bits of a number cleared by those of another. -/
def clearBits (v m : Nat) : Nat := Nat.xor v (Nat.land v m)

/-- One field of a word under a write: the new word, and whether the write gave a reserved encoding. `keep` holds the bits
the device sets in the same cycle: the set wins, and they read 1 afterwards (R6). -/
def writeField (keep : Word) (w : Word) (acc : Word × Bool) (f : Field) : Word × Bool :=
  let v := fieldOf f w
  match f.access with
  | .rw => if fieldAdmits f v then (insField acc.1 f.hi f.lo v, acc.2) else (acc.1, true)
  | .w1c => (insField acc.1 f.hi f.lo (Nat.lor (clearBits (fieldOf f acc.1) v) (fieldOf f keep)), acc.2)
  | .w1s => (insField acc.1 f.hi f.lo (Nat.lor (fieldOf f acc.1) v), acc.2)
  | .ro | .wo => acc

def writeWord (fields : List Field) (keep old w : Word) : Word × Bool := fields.foldl (writeField keep w) (old, false)

/-- The low word of a 64-bit RW value as a write leaves it in its holding register (R7). -/
def Dev.holding (d : Dev) (off : Nat) : Word := fileGet (fun _ => 0) d.hold off

/-- A write of `w` to the register of descriptor `r` at an offset, by access types alone. -/
def Dev.writeReg (d : Dev) (r : RegDesc) (off : Nat) (w keep : Word) : Dev :=
  let rw64 := r.fields.any (fun f => f.access == .rw)
  match r.kind with
  | .counter => if w.toNat % 2 ^ 31 = 0 then d.setReg off (if keep = 0 then 0 else BitVec.ofNat 32 1) else d
  | .low64 => if rw64 then { d with hold := filePut (fun _ => 0) d.hold off (writeWord r.fields 0 0 w).1 }
      else d.setReg off (writeWord r.fields keep (d.reg off) w).1
  | .high64 =>
    if rw64 then (d.setReg (off - 4) (d.holding (off - 4))).setReg off w
    else d.setReg off (writeWord r.fields keep (d.reg off) w).1
  | .plain =>
    let v := writeWord r.fields keep (d.reg off) w
    let d := d.setReg off v.1
    if v.2 then d.regErr (off / 4096) else d

/-- A write to a register that has no rule beyond its access types; an offset no register occupies changes nothing. -/
def Dev.writeAt (d : Dev) (off : Nat) (w keep : Word) : Dev :=
  match findReg off with
  | some r => d.writeReg r off w keep
  | none => d

end Sys2Proof.Machine
end

