-- ==== Sys2Proof/Machine/State.lean ====
section
/-! DEFINITION. The machine: the queue of waiting commands and the device, the reasons a step can stop, and the machine
right after reset. -/

namespace Sys2Proof.Machine

/-- The machine: the commands that are waiting, first in first out, and the device. -/
structure State where
  pending : List Instr
  dev : Dev
  deriving DecidableEq, Repr

/-- The machine right after a power-on reset: no command waits. -/
def State.reset : State := ⟨[], Dev.zero⟩

/-- No command of this block stops the machine: the type has no constructor. -/
inductive Fault
  deriving DecidableEq, Repr

/-- Why a command has no meaning. -/
inductive Refusal where
  /-- Raised by no meaning: it names a command the model would not cover. Safe: nothing is claimed of it. -/
  | notModelled (mnemonic : String)
  deriving DecidableEq, Repr

/-- The outcome of a command. -/
abbrev Out := Host.Outcome State Fault Refusal

/-- A command's effect on the device: the interfaces' output starts empty, and the queue is untouched. -/
def State.run (s : State) (f : Dev → Dev) : Out := .next { s with dev := f { s.dev with out := [] } }

end Sys2Proof.Machine
end

