-- ==== Sys2Proof/Machine/Field.lean ====
section
/-! DEFINITION. Feedback channels and encoder emulation (R310 to R327). Times of edges and latches are FIELD cycles of
5 ns. -/

namespace Sys2Proof.Machine

def Dev.fbRt (d : Dev) (n : Nat) : Option FbRt := d.field.fb[n]?

def Dev.updFb (d : Dev) (n : Nat) (f : FbRt → FbRt) : Dev :=
  { d with field := { d.field with fb := updAt d.field.fb n f } }

/-! Configuration in force (R346). -/

def FbCfg.mode (c : FbCfg) : Nat := c.cfg % 8
def FbCfg.dir (c : FbCfg) : Bool := bitOf c.cfg 3
def FbCfg.refn (c : FbCfg) : Bool := bitOf c.cfg 4
def FbCfg.zmode (c : FbCfg) : Nat := c.cfg / 32 % 4
def FbCfg.tstill (c : FbCfg) : Nat := c.cfg / 2 ^ 16 % 256
def FbCfg.twin (c : FbCfg) : Nat := c.cfg / 2 ^ 24
def FbCfg.nbits (c : FbCfg) : Nat := c.ssi % 64
def FbCfg.gray (c : FbCfg) : Bool := bitOf c.ssi 6
def FbCfg.par (c : FbCfg) : Bool := bitOf c.ssi 7

/-- The registers of a channel as a configuration. -/
def Dev.fbCfg (d : Dev) (n : Nat) : FbCfg :=
  ⟨(d.reg (fioReg n 0)).toNat, (d.reg (fioReg n 4)).toNat, (d.reg (fioReg n 8)).toNat,
   signed 64 (d.get64 (fioReg n 0xC)), signed 64 (d.get64 (fioReg n 0x14))⟩

/-- The joint of the active model a channel serves (FBSRC 1). -/
def Dev.channelJoint (d : Dev) (n : Nat) : Option JointEnt :=
  d.kiln.active.bind (fun m => m.joints.find? (fun j => j.fbsrc == 1 && j.fbaddr == n))

/-- Put a channel into RUN (R319). -/
def Dev.fbRun (d : Dev) (n : Nat) : Dev := (d.put (FIO_STATE n) 2).raise (srcNo 11 2) n

/-- Enable a channel: history cleared, count 0, and the state R319 gives. The configuration written takes effect at the next
beat instant (R33, R346). -/
def Dev.fbEnable (d : Dev) (n : Nat) : Dev :=
  let c := d.fbCfg n
  let d := d.updFb n (fun r => { r with x := 0, hist := [], rev := false, illegal := [], word := none, good := 0,
                                         bad := 0, spdSsi := none })
  let d := (d.putB (FIO_FAULTB n) false).put (FIO_STATE n) 1
  if c.mode = 0 then d.put (FIO_STATE n) 0
  else if c.refn || c.mode == 3 then d
  else d.fbRun n

/-- A channel faults with a cause (R314). -/
def Dev.fbFault (d : Dev) (n cause : Nat) : Dev :=
  if d.get (FIO_STATE n) = 3 then d
  else (((d.put (FIO_STATE n) 3).put (FIO_FCAUSE n) cause).putB (FIO_FAULTB n) true).raise (srcNo 11 1) n

/-- An illegal transition at FIELD cycle t (R313, R314). -/
def Dev.fbIllegal (d : Dev) (n t : Nat) : Dev :=
  let d := (((d.bump (fioReg n 0x34)).putB (FIO_QERR n) true).putB (FIO_QSUM n) true).raise (srcNo 11 0) n
  let old := ((d.fbRt n).map (·.illegal)).getD []
  let d := d.updFb n (fun r => { r with illegal := (t :: old).take 3 })
  match old with
  | [_, _, t0] => if t ≤ t0 + 200000 then d.fbFault n 0 else d
  | _ => d

/-- Enter an edge into the history: a reversal clears it and stays alone (R322, R323). Edges older than the longest TWIN,
beside the one before the newest, are dropped. -/
def addEdge (t : Nat) (δ : Int) (r : FbRt) : FbRt :=
  match r.hist with
  | [] => { r with hist := [(t, δ)], rev := false }
  | (t1, δ1) :: rest =>
    if δ1 ≠ δ then { r with hist := [(t, δ)], rev := true }
    else { r with hist := (t, δ) :: (t1, δ1) :: rest.filter (fun e => t ≤ e.1 + 51000), rev := false }

/-- A counted edge. -/
def Dev.fbCount (d : Dev) (n t : Nat) (δ : Int) : Dev :=
  d.updFb n (fun r => let δ := if r.cfg.dir then -δ else δ
                      addEdge t δ { r with x := r.x + δ })

/-- Place of a quadrature level pair in the upward sequence 00, 10, 11, 01 (R312). -/
def quadPos (lv : Nat) : Nat := match lv % 4 with | 0 => 0 | 1 => 1 | 3 => 2 | _ => 3

/-- Place of a Hall code in the forward sequence 1, 3, 2, 6, 4, 5; none for 0 and 7 (R315). -/
def hallPos (lv : Nat) : Option Nat :=
  match lv with | 1 => some 0 | 3 => some 1 | 2 => some 2 | 6 => some 3 | 4 => some 4 | 5 => some 5 | _ => none

/-- New filtered levels of FBA, FBB and FBZ of a channel at FIELD cycle t (R312 to R315). -/
def Dev.fbEdge (d : Dev) (n lv t : Nat) : Dev :=
  match d.fbRt n with
  | none => d
  | some r =>
    let old := d.get (FIO_LEVEL n)
    let d := d.put (FIO_LEVEL n) lv
    let live := d.get (FIO_STATE n) == 1 || d.get (FIO_STATE n) == 2
    if !live then d
    else if r.cfg.mode = 1 then
      match (quadPos lv + 4 - quadPos old) % 4 with
      | 1 => d.fbCount n t 1
      | 3 => d.fbCount n t (-1)
      | 2 => d.fbIllegal n t
      | _ => d
    else if r.cfg.mode = 2 then
      if lv = old then d
      else match hallPos old, hallPos lv with
        | some a, some b =>
          match (b + 6 - a) % 6 with
          | 1 => d.fbCount n t 1
          | 5 => d.fbCount n t (-1)
          | _ => d.fbIllegal n t
        | _, _ => d.fbIllegal n t
    else d

/-- Speed status and speed in 2^−4 count/s at latch time t (Table — Speed estimator). -/
def speedAt (r : FbRt) (t : Nat) : Nat × Int :=
  match r.hist with
  | [] => (1, 0)
  | [_] => (if r.rev then 3 else 2, 0)
  | (tn, δ) :: rest =>
    let win := rest.filter (fun e => decide (tn ≤ e.1 + r.cfg.twin * 200))
    let k := max 1 win.length
    let tm := ((rest[k - 1]?).map (·.1)).getD tn
    if (t - tn) * k > tn - tm then (0, divRne (δ * 3200000000) (t - tn))
    else (0, divRne (δ * k * 3200000000) (tn - tm))

/-- Position delivered, none where it leaves the s64 range (R318). -/
def fbPos (c : FbCfg) (x : Int) : Option Int :=
  let p := c.offs + divRne (x * c.scale) 65536
  if decide (-(2 ^ 63) ≤ p) && decide (p < 2 ^ 63) then some p else none

/-- Deliver the position and speed of a channel to its joint, or a missing value where it is not in RUN (R321). -/
def Dev.fbDeliver (d : Dev) (n : Nat) (spd : Int) : Dev :=
  match d.channelJoint n, d.fbRt n with
  | some j, some r =>
    if d.get (FIO_STATE n) = 2 then
      d.deliver ⟨j.gj, r.pos, divRne (spd * r.cfg.scale) (2 ^ 44), 0, 0, 0, d.time.beatAt, 0, false⟩
    else d.missJoint j.gj
  | _, _ => d

/-- Compute the position of a channel that counts; out of range it faults with cause RANGE (R318). A conveyor's channel delivers
no position: its SCALE and OFFS are not used (R325). -/
def Dev.fbPosition (d : Dev) (n : Nat) : Dev :=
  match d.fbRt n with
  | none => d
  | some r =>
    if d.get (FIO_STATE n) = 3 ∨ d.kiln.convs.any (fun c => c.fbch == n) then d
    else match fbPos r.cfg r.x with
    | some p => d.updFb n (fun r => { r with pos := p })
    | none => (d.raise (srcNo 11 5) n).fbFault n 2

/-- The latch of one channel at FIELD cycle t (R319, R321, R322). -/
def Dev.fbLatchOne (d : Dev) (t n : Nat) : Dev :=
  match d.fbRt n with
  | none => d
  | some r =>
    let d := match r.preset with
      | some v =>
        let d := d.updFb n (fun r => { r with x := v, preset := none })
        if d.get (FIO_STATE n) = 1 then d.fbRun n else d
      | none => d
    if d.get (FIO_STATE n) = 0 then
      match d.channelJoint n with | some j => d.missJoint j.gj | none => d
    else
      let d := d.updFb n (fun r =>
        let idle := match r.hist with | (tn, _) :: _ => decide (tn + r.cfg.tstill * 200000 ≤ t) | [] => false
        { r with latched := r.x, tLatch := t, hist := if idle then [] else r.hist })
      let r := (d.fbRt n).getD r
      let d := d.setReg (fioReg n 0x20) (BitVec.ofInt 32 r.latched)
      if r.cfg.mode = 3 then d
      else
        let s := speedAt r t
        let d := (d.updFb n (fun r => { r with spd := s.2 })).put (FIO_SPDST n) s.1
        let d := d.setReg (fioReg n 0x24) (BitVec.ofInt 32 (satS 32 s.2))
        (d.fbPosition n).fbDeliver n s.2

/-- Gray code to binary. -/
def grayDecode : Nat → Nat → Nat
  | 0, _ => 0
  | n + 1, g => Nat.xor g (grayDecode n (g / 2))

/-- Does an SSI word fail (R317)? `high`: FBB was high at the start; `par`: the parity sample. -/
def ssiFails (c : FbCfg) (last : Option Nat) (high par : Bool) (raw w : Nat) : Bool :=
  !high || (c.par && (popCount 64 raw + (if par then 1 else 0)) % 2 == 1) ||
  (match last with
   | some q => c.jump != 0 && decide ((signed c.nbits ((w + (2 ^ c.nbits - q)) % 2 ^ c.nbits)).natAbs > c.jump)
   | none => false)

/-- An SSI transfer completes with its samples (R316 to R318, R324). -/
def Dev.ssiWord (d : Dev) (n raw : Nat) (high par : Bool) : Dev :=
  match d.fbRt n with
  | none => d
  | some r =>
    if r.cfg.mode ≠ 3 ∨ d.get (FIO_STATE n) = 0 then d
    else
      let nb := r.cfg.nbits
      let raw := raw % 2 ^ nb
      let w := if r.cfg.gray then grayDecode nb raw else raw
      if ssiFails r.cfg r.word high par raw w then
        let d := (d.bump (fioReg n 0x34)).raise (srcNo 11 4) n
        let d := d.updFb n (fun r => { r with bad := r.bad + 1, good := 0 })
        let d := if r.bad + 1 ≥ 4 then d.fbFault n 1 else d
        match d.channelJoint n with | some j => d.missJoint j.gj | none => d
      else
        let x := match r.word with
          | some q => r.x + signed nb ((w + (2 ^ nb - q)) % 2 ^ nb)
          | none => (w : Int)
        let spd := match r.word with
          | some _ => if r.tWord < r.tLatch then divRne ((x - r.x) * 3200000000) (r.tLatch - r.tWord) else 0
          | none => 0
        let d := d.updFb n (fun r => { r with x := x, word := some w, good := r.good + 1, bad := 0, tWord := r.tLatch,
                                               spd := spd })
        let d := (d.put (FIO_SPDST n) (if r.word.isSome then 0 else 2)).setReg (fioReg n 0x24) (BitVec.ofInt 32 (satS 32 spd))
        let d := if d.get (FIO_STATE n) = 1 && !r.cfg.refn && decide (r.good + 1 ≥ 2) then d.fbRun n else d
        (d.fbPosition n).fbDeliver n spd

/-- A rising edge of Z (R320, R325). -/
def Dev.indexEdge (d : Dev) (n : Nat) : Dev :=
  match d.fbRt n with
  | none => d
  | some r =>
    let live := d.get (FIO_STATE n) == 1 || d.get (FIO_STATE n) == 2
    if !live || r.cfg.mode != 1 || r.cfg.zmode == 0 then d
    else
      let d := ((d.setReg (fioReg n 0x28) (BitVec.ofInt 32 r.x)).putB (FIO_ZSEEN n) true).raise (srcNo 11 3) n
      let latchConv := d.kiln.convs.any (fun c => c.fbch == n && c.origin.isNone)
      let cap := signed 32 (encSigned 32 r.x)
      let flagged := (d.kiln.active.map (fun m => m.convs.any (fun e => e.fbch == n && bitOf e.flags 1))).getD false
      let d :=
        if latchConv && flagged then
          let d := { d with kiln := { d.kiln with convs := d.kiln.convs.map (fun (c : ConvFrame) =>
            if c.fbch = n ∧ c.origin = none then { c with origin := some cap } else c) } }
          d.raise (srcNo 11 6) n
        else d
      if r.cfg.zmode = 2 && d.get (FIO_STATE n) = 1 && r.preset.isNone then
        (d.updFb n (fun r => { r with x := 0 })).fbRun n
      else d

/-! Encoder emulation (R326, R327). -/

def Dev.eeCfg (d : Dev) (m : Nat) : Nat := (d.reg (eeReg m 0)).toNat

/-- Position of an emulation source now (R326). -/
def Dev.eeSource (d : Dev) (cfg : Nat) : Int :=
  let idx := cfg / 16 % 64
  match cfg % 4 with
  | 1 => ((d.fbRt idx).map (·.x)).getD 0
  | 2 => match d.fb? idx with
    | some f =>
      let dt := min (d.now - f.time) d.time.layout.beat
      f.q + divRne (f.v * 16777216 * dt) 1000000000
    | none => 0
  | 3 => ((d.field.aux[idx]?).map (·.pos)).getD 0
  | _ => 0

/-- Configurations of channels and outputs written before take effect at the beat instant; an output switched on takes its
source position as origin (R326, R346). -/
def Dev.fieldBeat (d : Dev) : Dev :=
  let d := (List.range 24).foldl (fun (d : Dev) n =>
    let c := d.fbCfg n
    let was : Nat := ((d.fbRt n).map (fun r => r.cfg.mode)).getD 0
    let d := d.updFb n (fun r => { r with cfg := c })
    if d.get (FIO_STATE n) = 3 then d
    else if was = 0 ∧ c.mode ≠ 0 then (if d.get (FIO_STATE n) = 0 then d.fbEnable n else d)
    else if c.mode = 0 ∧ was ≠ 0 then d.put (FIO_STATE n) 0 else d) d
  (List.range 8).foldl (fun (d : Dev) m =>
    let c := d.eeCfg m
    let k := signed 64 (d.get64 (eeReg m 4))
    let src := d.eeSource c
    { d with field := { d.field with ee := updAt d.field.ee m (fun r =>
        if r.cfg % 1024 ≠ c % 1024 ∧ c % 4 ≠ 0 then { r with cfg := c, k := k, p0 := src, emitted := 0, ovr := false }
        else { r with cfg := c, k := k }) } }) d

/-- One emulation output at a whole microsecond. -/
def Dev.eeTick (d : Dev) (m : Nat) : Dev :=
  match d.field.ee[m]? with
  | none => d
  | some r =>
    if r.cfg % 4 = 0 then d
    else
      let gap := max 1 (r.cfg / 4096 % 256)
      let tgt := divRne ((d.eeSource r.cfg - r.p0) * r.k) (2 ^ 48)
      let δ := tgt - r.emitted
      let n := min δ.natAbs (200 / gap)
      let sn : Int := if δ < 0 then -(n : Int) else n
      let out : Int := if bitOf r.cfg 20 then -sn else sn
      let lag := δ.natAbs - n
      let ovr := decide (65535 < lag)
      let d := { d with field := { d.field with ee := updAt d.field.ee m (fun r =>
          { r with emitted := r.emitted + sn, ovr := ovr }) } }
      let d := d.setReg (eeReg m 0xC) (BitVec.ofInt 32 (r.emitted + sn))
      let d := d.put (EE_LAG m) (min lag 65535)
      let d := if ovr && !r.ovr then (d.putB (EE_OVR m) true).raise (srcNo 11 7) m
        else if ovr then d.putB (EE_OVR m) true else d
      if n = 0 then d else d.send (.emuEdges m out (max gap (200 / n)))

/-! The commands. -/

/-- The channel feeds a joint of the active model and the planner runs: its configuration is not written (R346). -/
def Dev.fbLocked (d : Dev) (n : Nat) : Bool := (d.channelJoint n).isSome && !d.idleOrStopped

/-- A write of FIO_CFG: one that changes MODE from off enables the channel (R319), which leaves FAULT through CLRFLT only (R314). -/
def Dev.writeFioCfg (d : Dev) (n : Nat) (w : Word) : Dev :=
  if d.fbLocked n then d.regErr 10
  else
    let was := (d.reg (fioReg n 0)).toNat % 8
    let d := d.writeAt (fioReg n 0) w 0
    if was = 0 ∧ (d.reg (fioReg n 0)).toNat % 8 ≠ 0 ∧ d.get (FIO_STATE n) ≠ 3 then d.fbEnable n else d

def execFeedbackEnable (n : Fin 24) (w : Word) (s : State) : Out :=
  s.run (fun d => if d.linked then d.writeFioCfg n w else d)

/-- CLRFLT takes a channel out of FAULT (R314). -/
def Dev.clearFbFault (d : Dev) (n : Nat) : Dev := if d.get (FIO_STATE n) = 3 then d.fbEnable n else d

def execFeedbackClearFault (n : Fin 24) (s : State) : Out := s.run (fun d => if d.linked then d.clearFbFault n else d)

/-- FIO_PRESET acts at the next latch (R319). -/
def Dev.presetFb (d : Dev) (n : Nat) (v : Word) : Dev := d.updFb n (fun r => { r with preset := some v.toInt })

def execFeedbackPreset (n : Fin 24) (v : Word) (s : State) : Out := s.run (fun d => if d.linked then d.presetFb n v else d)

def execFeedbackEdge (n : Fin 24) (lv : BitVec 3) (t : Nat) (s : State) : Out :=
  s.run (fun d => if d.up then d.fbEdge n lv.toNat t else d)

def execIndexEdge (n : Fin 24) (s : State) : Out := s.run (fun d => if d.up then d.indexEdge n else d)

def execFeedbackLatch (t : Nat) (s : State) : Out :=
  s.run (fun d => if d.up then (List.range 24).foldl (fun (d : Dev) n => d.fbLatchOne t n) d else d)

def execSsiWordComplete (n : Fin 24) (word : BitVec 40) (high par : Bool) (s : State) : Out :=
  s.run (fun d => if d.up then d.ssiWord n word.toNat high par else d)

/-- TSTILL without an edge clears the history (R323). -/
def execSpeedStillTimeout (n : Fin 24) (s : State) : Out :=
  s.run (fun d => if d.up then d.updFb n (fun r => { r with hist := [], rev := false }) else d)

/-- Emulation acts at the next whole microsecond of cell time (R326). -/
def execEmulationTick (s : State) : Out :=
  s.run (fun d =>
    if d.up && d.time.started then
      let d := d.reach ((d.now / 1000 + 1) * 1000)
      (List.range 8).foldl (fun (d : Dev) m => d.eeTick m) d
    else d)

end Sys2Proof.Machine
end

