-- ==== Sys2Proof/Machine/AuxAxes.lean ====
section
/-! DEFINITION. Auxiliary axes (R328 to R339) and hysteretic loops (R340 to R343). Positions in 2^−16 microstep, speeds in
2^−16 microstep/s; a profile tick is 10 µs. -/

namespace Sys2Proof.Machine

def Dev.axis (d : Dev) (a : Nat) : Option AuxRt := d.field.aux[a]?

def Dev.updAx (d : Dev) (a : Nat) (f : AuxRt → AuxRt) : Dev :=
  { d with field := { d.field with aux := updAt d.field.aux a f } }

/-- The retained position of an axis, or none where its mark is cleared (R339). -/
def Dev.retainAxis (d : Dev) (a : Nat) (v : Option Int) : Dev :=
  { d with ret := { d.ret with aux := updAt d.ret.aux a (fun _ => v) } }

/-- Change the state of an axis; entering IDLE or DRVOFF retains its position, leaving IDLE for motion clears the mark
(R339). -/
def Dev.axState (d : Dev) (a st : Nat) : Dev :=
  let was := d.get (AUX_STATE a)
  let d := d.put (AUX_STATE a) st
  if st = 1 ∨ st = 6 then d.retainAxis a ((d.axis a).map (·.pos))
  else if was = 1 ∧ (st = 2 ∨ st = 3 ∨ st = 4) then d.retainAxis a none
  else d

/-- Sign as ±1 or 0, with the amount v·T and a·T for T = 10 µs. -/
def sgnI (x : Int) : Int := if x < 0 then -1 else if x = 0 then 0 else 1
def perTick (v : Int) : Int := divRne v 100000

/-- Speeds and accelerations of registers in 2^−16 units. -/
def vmax16 (r : Nat) : Int := (r : Int) * 256
def acc16 (r : Nat) : Int := (r : Int) * 65536

/-- One tick of target mode (R330): new position and speed, whether it settled, whether it passed the target. -/
def targetTick (p v tgt : Int) (vmax amax dmax : Int) : Int × Int × Bool × Bool :=
  let δ := tgt - p
  if absInt δ * 100000 ≤ absInt v ∧ absInt v * 100000 ≤ dmax then (tgt, 0, true, false)
  else
    let vs := sgnI δ * min vmax (Nat.sqrt (2 * dmax * absInt δ).toNat : Int)
    let vn :=
      if v ≠ 0 ∧ sgnI v ≠ sgnI δ then v - sgnI v * min (absInt v) (perTick dmax)
      else if absInt v ≤ absInt vs then v + clampInt (vs - v) (-(perTick amax)) (perTick amax)
      else v - sgnI v * min (absInt v - absInt vs) (perTick dmax)
    let p' := satS 64 (p + divRne (v + vn) 200000)
    (p', vn, false, decide (sgnI (tgt - p') = -(sgnI δ) ∧ δ ≠ 0))

/-- Position and speed of a table `m` ticks into a segment of `n` ticks (R334). -/
def hermite (p0 v0 p1 v1 : Int) (m n : Nat) : Int × Int :=
  if n = 0 then (p1, v1)
  else
    let a : Int := m
    let b : Int := n
    let h00 := 2 * a ^ 3 - 3 * a ^ 2 * b + b ^ 3
    let h10 := a ^ 3 - 2 * a ^ 2 * b + a * b ^ 2
    let h01 := 3 * a ^ 2 * b - 2 * a ^ 3
    let h11 := a ^ 3 - a ^ 2 * b
    let p := divRne ((h00 * p0 + h01 * p1) * 100000 + (h10 * v0 + h11 * v1) * b) (n ^ 3 * 100000)
    let v := divRne ((6 * a ^ 2 - 6 * a * b) * (p0 - p1) * 100000 +
      ((3 * a ^ 2 - 4 * a * b + b ^ 2) * v0 + (3 * a ^ 2 - 2 * a * b) * v1) * b) (n ^ 3)
    (p, v)

/-- The steps of an axis within a tick: steps emitted, direction and FIELD cycle of the last (from the tick's start, negative
before it), and how often the lag has become non-zero. -/
structure StepWalk where
  emitted : Int
  dir : Int
  last : Int
  lags : Nat
  deriving DecidableEq, Repr

/-- FIELD cycle, from the tick's start, at which the step from `e` in direction `sg` falls due while the position runs linearly
from `p` to `q` in 2,000 cycles; negative for a step that was due before the tick (R328). -/
def stepDue (p q e sg : Int) : Int :=
  if 0 < sg then (if (e + 1) * 65536 ≤ p then -1 else ((e + 1) * 65536 - p) * 2000 / (q - p))
  else (if p < e * 65536 then -1 else (p - e * 65536) * 2000 / (p - q))

/-- Emit the steps due in a tick from `p` to `q`, each at least 40 FIELD cycles after the one before and, where AXDIR turns, DIRSU
before and after its change; a step that cannot be emitted when due is a lag (R328). -/
def stepWalk (p q : Int) (dirsu : Nat) : Nat → StepWalk → StepWalk
  | 0, w => w
  | f + 1, w =>
    let sg := sgnI (q / 65536 - w.emitted)
    if sg = 0 then w
    else
      let due := stepDue p q w.emitted sg
      let apart : Int := if w.dir ≠ 0 ∧ w.dir ≠ sg then max 40 (2 * dirsu) else 40
      let at_ := max (max due 0) (w.last + apart)
      let lags := if 0 ≤ due ∧ w.last ≤ due ∧ due < at_ then w.lags + 1 else w.lags
      if 2000 ≤ at_ then { w with lags := lags }
      else stepWalk p q dirsu f ⟨w.emitted + sg, sg, at_, lags⟩

/-- Emit the steps of a tick in which the position ran from `p` (R328). AUX_LAG is raised each time the lag becomes non-zero. -/
def Dev.axSteps (d : Dev) (a : Nat) (p : Int) : Dev :=
  match d.axis a with
  | none => d
  | some r =>
    let w := stepWalk p r.pos (d.get (AUX_DIRSU a)) 51 ⟨r.emitted, r.dir, -(r.since : Int), 0⟩
    let sn := w.emitted - r.emitted
    let d := d.updAx a (fun r => { r with emitted := w.emitted, dir := w.dir, since := min 2000 (2000 - w.last).toNat })
    let d := d.setReg (auxReg a 0x30) (d.reg (auxReg a 0x30) + BitVec.ofInt 32 sn)
    let d := d.putB (AUX_LAG a) (decide (w.emitted ≠ r.pos / 65536))
    let d := (List.range w.lags).foldl (fun (d : Dev) _ => (d.bump 0xAC08).raise (srcNo 12 3) a) d
    if sn = 0 then d else d.send (.steps a sn)

/-! The levels of AXDIR and AXEN (R328): low until AUX_CFG is written. -/

def Dev.axdir (d : Dev) (a : Nat) : Bool :=
  (d.axis a).any (fun r => r.driven && (decide (0 < r.dir) != bitOf (d.reg (auxReg a 0)).toNat 16))

def Dev.axen (d : Dev) (a : Nat) : Bool :=
  let st := d.get (AUX_STATE a)
  (d.axis a).any (fun r => r.driven && ((decide (1 ≤ st) && decide (st ≤ 4)) != bitOf (d.reg (auxReg a 0)).toNat 17))

/-- Publish position, speed and target. -/
def Dev.axPublish (d : Dev) (a : Nat) : Dev :=
  match d.axis a with
  | none => d
  | some r =>
    let d := d.put64 (auxReg a 0x10) (encSigned 64 r.pos)
    let d := d.setReg (auxReg a 0x18) (BitVec.ofInt 32 (satS 32 (divRne r.vel 256)))
    let d := d.put64 (auxReg a 0x1C) (encSigned 64 r.tgt)
    (d.putB (AUX_TQ a) r.wait.isSome).put (AUX_SEG a) r.seg

/-- Complete the running AUX_TARGET of an axis, if any. -/
def Dev.axEnd (d : Dev) (a : Nat) (st : Status) : Dev :=
  match (d.axis a).bind (·.cmd) with
  | some c => (d.finish c st).updAx a (fun r => { r with cmd := none })
  | none => d

/-- Drop the table waiting, its command completing with a status. -/
def Dev.dropWait (d : Dev) (a : Nat) (st : Status) : Dev :=
  match (d.axis a).bind (·.wait) with
  | some t => (d.finish t.cmd st).updAx a (fun r => { r with wait := none })
  | none => d

/-- End the target that waits for the tick and the table that waits for its start. -/
def Dev.axDrop (d : Dev) (a : Nat) (st : Status) : Dev :=
  let d := d.dropWait a st
  match (d.axis a).bind (·.next) with
  | some t => (d.finish t.cmd st).updAx a (fun r => { r with next := none })
  | none => d

/-- The point where a stop ramp comes to rest: p + sgn(v)·v²/(2·DSTOP) (R337). -/
def Dev.axRest (d : Dev) (a : Nat) (r : AuxRt) : Int :=
  satS 64 (r.pos + sgnI r.vel * divRne (r.vel * r.vel) (2 * max 1 (d.get (AUX_DSTOP a)) * 65536))

/-- Enter STOPPING (R337): the stop ramp to p + sgn(v)·v²/(2·DSTOP); commands running or waiting are aborted. -/
def Dev.axStop (d : Dev) (a : Nat) : Dev :=
  let st := d.get (AUX_STATE a)
  let d := d.updAx a (fun r => { r with stopDue := false })
  let d := d.axDrop a .aborted
  if st = 2 ∨ st = 3 then
    let d := d.axEnd a .aborted
    let d := if st = 3 then d.releaseCopy 6 a else d
    let d := d.updAx a (fun r => { r with run := none, tgt := d.axRest a r })
    d.axState a 4
  else d

/-- Start the table waiting when its TSTART has come, or at once where it follows a table that has run out (R334, R335). A table
running is replaced. -/
def Dev.axTable (d : Dev) (a t : Nat) : Dev :=
  match d.axis a with
  | none => d
  | some r =>
    match r.wait with
    | none => d
    | some w =>
      if (w.follow && r.run.isNone) || (!w.follow && decide (w.start ≤ t)) then
        let d := d.axEnd a .superseded
        let d := d.updAx a (fun r => { r with run := some { w with start := t, p0 := r.pos, v0 := r.vel }, wait := none,
                                               seg := 0, next := r.next })
        let d := (d.axState a 3).raise (srcNo 12 7) a
        (d.adoptCopy w.cmd 6 a 0 0).complete w.cmd .ok 0 0 t 0
      else d

/-- End of a table (R335): a waiting table starts at once, whatever its TSTART. -/
def Dev.tableEnd (d : Dev) (a t : Nat) (lastV : Int) : Dev :=
  let d := (d.updAx a (fun r => { r with run := none, seg := 0 })).releaseCopy 6 a
  if ((d.axis a).bind (·.wait)).isSome then
    (d.updAx a (fun r => { r with wait := r.wait.map (fun (w : AuxTable) => { w with follow := true }) })).axTable a t
  else if lastV = 0 then (d.axState a 1).raise (srcNo 12 0) a
  else
    let d := (d.bump 0xAC04).raise (srcNo 12 2) a
    let d := d.updAx a (fun r => { r with tgt := d.axRest a r })
    d.axState a 4

/-- The segment a table is in `n` ticks after its start, with where it began. -/
def tableSeg (t : AuxTable) (n : Nat) : List AuxSeg → Nat → Nat → Int → Int → Option (Nat × Nat × Int × Int × AuxSeg)
  | [], _, _, _, _ => none
  | s :: rest, k, t0, p, v => if n < s.tend then some (k, t0, p, v, s) else tableSeg t n rest (k + 1) s.tend s.p (s.v * 256)

/-- Motion of an axis in one tick. -/
def Dev.axMove (d : Dev) (a t : Nat) : Dev :=
  match d.axis a with
  | none => d
  | some r =>
    let st := d.get (AUX_STATE a)
    if st = 2 ∨ st = 4 then
      let dm := if st = 4 then d.get (AUX_DSTOP a) else d.get (AUX_DMAX a)
      let n := targetTick r.pos r.vel r.tgt (vmax16 (d.get (AUX_VMAX a))) (acc16 (d.get (AUX_AMAX a))) (acc16 dm)
      let d := d.updAx a (fun r => { r with pos := n.1, vel := n.2.1 })
      if n.2.2.1 then
        if st = 4 then (d.axState a 1).raise (srcNo 12 4) a
        else ((d.axState a 1).axEnd a .ok).raise (srcNo 12 0) a
      else if n.2.2.2 && st == 2 then
        -- OVERSHOOT is raised at most once per AUX_TARGET (R332)
        let d := (d.updAx a (fun r => { r with ovr := true })).bump 0xAC00
        if r.ovr then d else d.raise (srcNo 12 1) a
      else d
    else if st = 3 then
      match r.run with
      | none => d
      | some tb =>
        let n := (t - tb.start) / 10000
        match tableSeg tb n tb.segs 0 0 tb.p0 tb.v0 with
        | some (k, t0, p, v, s) =>
          let q := hermite p v s.p (s.v * 256) (n - t0) (s.tend - t0)
          d.updAx a (fun r => { r with pos := satS 64 q.1, vel := q.2, seg := k })
        | none =>
          let l := tb.segs.getLast?.getD ⟨r.pos, 0, 0⟩
          (d.updAx a (fun r => { r with pos := l.p, vel := l.v * 256 })).tableEnd a t l.v
    else d

/-- A target that arrived takes effect (R330, R336): it replaces the target before it, and discards the running and the waiting
table where the axis runs one. -/
def Dev.axTarget (d : Dev) (a : Nat) : Dev :=
  match (d.axis a).bind (·.next) with
  | none => d
  | some n =>
    let d := d.axEnd a .superseded
    let d := if d.get (AUX_STATE a) = 3 then (d.dropWait a .superseded).releaseCopy 6 a else d
    let keep := fun (v off : Nat) (d : Dev) => if v = 0 then d else d.setReg (auxReg a off) (BitVec.ofNat 32 v)
    let d := keep n.dmax 0x2C (keep n.amax 0x28 (keep n.vmax 0x24 d))
    let d := d.updAx a (fun r => { r with next := none, run := none, seg := 0, tgt := n.tgt, cmd := some n.cmd, ovr := false })
    d.axState a 2

/-- One axis at a profile tick of cell time t (R329): what was commanded takes effect, the axis moves, and a table whose TSTART
has come starts from the position and speed reached. -/
def Dev.axTick (d : Dev) (t a : Nat) : Dev :=
  let st := d.get (AUX_STATE a)
  let d :=
    if st = 0 && d.is (AUX_EN a) then d.axState a 1
    else if st = 1 && !d.is (AUX_EN a) then (d.axState a 0).axDrop a .aborted else d
  let p := ((d.axis a).map (·.pos)).getD 0
  let d := match d.axis a with
    | some r => if r.stopDue then d.axStop a else d.axTarget a
    | none => d
  let d := d.axMove a t
  let d := if 1 ≤ d.get (AUX_STATE a) ∧ d.get (AUX_STATE a) ≤ 3 then d.axTable a t else d
  if d.get (AUX_STATE a) = 5 ∨ d.get (AUX_STATE a) = 6 then d.axPublish a else (d.axSteps a p).axPublish a

/-- A stop of every axis whose STOPSRC selects the source: bit 0 planner stop, bit 1 host loss (R337). -/
def Dev.stopAxes (d : Dev) (src : Nat) : Dev :=
  (List.range 16).foldl (fun (d : Dev) a =>
    if bitOf (d.get (AUX_STOPSRC a)) src then d.updAx a (fun r => { r with stopDue := true }) else d) d

/-! The commands of the axes. -/

def Dev.auxStop (d : Dev) (a : Nat) : Dev := d.updAx a (fun r => { r with stopDue := true })

def execAuxStop (a : Fin 16) (s : State) : Out := s.run (fun d => if d.linked then d.auxStop a else d)

/-- A write that sets DRVOFF (R338). A target or table that waits in IDLE is aborted. -/
def Dev.auxDriverOff (d : Dev) (a : Nat) : Dev :=
  if d.get (AUX_STATE a) = 1 ∨ d.get (AUX_STATE a) = 0 then ((d.putB (AUX_DRVOFF a) true).axState a 6).axDrop a .aborted
  else d.regErr 10

def execAuxDriverOff (a : Fin 16) (s : State) : Out := s.run (fun d => if d.linked then d.auxDriverOff a else d)

/-- Steps of the re-phase: ((φ − RSTPH + 512) mod 1,024) − 512 (R338). -/
def rephaseSteps (pos : Int) (rstph : Nat) : Int := (pos / 65536 % 1024 - rstph + 512) % 1024 - 512

/-- DRVOFF is cleared: the re-phase, or IDLE at once with PHSKIP (R338). The re-phase takes its steps at 20 kHz and 1 ms more; its
steps count in AUX_STEPCNT and leave the position and the lag. -/
def Dev.auxDriverOn (d : Dev) (a : Nat) : Dev :=
  if d.get (AUX_STATE a) = 6 then
    let d := d.putB (AUX_DRVOFF a) false
    if d.is (AUX_PHSKIP a) then d.axState a 1
    else
      let k := rephaseSteps (((d.axis a).map (·.pos)).getD 0) (d.get (AUX_RSTPH a))
      let d := (d.axState a 5).updAx a (fun r =>
        { r with rephaseEnd := d.now + k.natAbs * 50000 + 1000000, dir := if k = 0 then r.dir else sgnI k, since := 2000 })
      let d := d.setReg (auxReg a 0x30) (d.reg (auxReg a 0x30) + BitVec.ofInt 32 k)
      if k = 0 then d else d.send (.steps a k)
  else d

def execAuxDriverOn (a : Fin 16) (s : State) : Out := s.run (fun d => if d.linked then d.auxDriverOn a else d)

def execRephaseDone (a : Fin 16) (s : State) : Out :=
  s.run (fun d => if d.up && d.get (AUX_STATE a) == 5 then
    ((d.reach (((d.axis a).map (·.rephaseEnd)).getD 0)).axState a 1).raise (srcNo 12 5) a else d)

/-- AUX_TARGET: checked, then planned from the next tick (R330, R331). -/
def execAuxTarget (s : State) : Out :=
  s.run (fun d => d.start 0x31 (fun d c =>
    let a := c.u 0x18 1
    let vmax := c.u 0x28 4
    let dmax := c.u 0x30 4
    if 16 ≤ a ∨ vmax > 5000000 * 256 ∨ (dmax ≠ 0 ∧ dmax < d.get (AUX_DSTOP a)) then d.finish c.id .rejectedParam
    else
      let st := d.get (AUX_STATE a)
      if st = 1 ∨ st = 2 ∨ st = 3 then
        let d := match (d.axis a).bind (·.next) with | some t => d.finish t.cmd .superseded | none => d
        d.updAx a (fun r => { r with next := some ⟨c.i 0x20 8, vmax, c.u 0x2C 4, dmax, c.id⟩ })
      else d.finish c.id .rejectedState))

/-- The entries of a segment table. -/
def auxSegs (b : List Byte) (n : Nat) : List AuxSeg :=
  (List.range n).map (fun i => ⟨sAt b (16 * i) 8, sAt b (16 * i + 8) 4, uAt b (16 * i + 12) 4⟩)

/-- Content of a table: TEND strictly rising from at least 1, no |V| above VMAX (R333). -/
def auxTableOk (vmax : Nat) : Nat → List AuxSeg → Bool
  | _, [] => true
  | t, s :: rest => decide (t < s.tend) && decide (s.v.natAbs ≤ vmax) && auxTableOk vmax s.tend rest

/-- AUX_PROFILE: registered, checked, and waiting for its start (R333). -/
def execAuxProfile (f : Fetch) (s : State) : Out :=
  s.run (fun d => d.start 0x30 (fun d c =>
    let a := c.u 0x18 1
    let n := c.u 0x1A 2
    let ts := c.u 0x20 8
    let ones := ts = 0xFFFFFFFFFFFFFFFF
    if 16 ≤ a ∨ n = 0 ∨ 1024 < n ∨ c.len ≠ 16 * n ∨ (ts ≠ 0 ∧ !ones ∧ ts < c.accepted + 20000) then
      d.finish c.id .rejectedParam
    else
      let r := d.axis a
      let run := (r.bind (·.run)).isSome
      let waits := (r.bind (·.wait)).isSome
      let st := d.get (AUX_STATE a)
      if !(st = 1 ∨ st = 2 ∨ st = 3) ∨ (run ∧ waits) ∨ (ones ∧ !run) then d.finish c.id .rejectedState
      else
        let d := d.registerCopy c 6 a
        match d.served f with
        | .failed => d.hostFault c.id 1
        | .bytes b =>
          let segs := auxSegs b n
          if b.length ≠ c.len ∨ !auxTableOk (d.get (AUX_VMAX a)) 0 segs then d.finish c.id .rejectedParam
          else
            let d := d.dropWait a .superseded
            let start := if ts = 0 then (d.now / 10000 + 1) * 10000 else (ts + 9999) / 10000 * 10000
            d.updAx a (fun r => { r with wait := some ⟨segs, start, ones, 0, 0, c.id⟩ })))

/-- Every axis at the next whole 10 µs of cell time (R329). -/
def execAuxProfileTick (s : State) : Out :=
  s.run (fun d =>
    if d.up && d.time.started then
      let t := (d.now / 10000 + 1) * 10000
      (List.range 16).foldl (fun (d : Dev) a => d.axTick t a) (d.reach t)
    else d)

/-! Hysteretic loops (R340 to R344). -/

def Dev.updHys (d : Dev) (l : Nat) (f : HysRt → HysRt) : Dev :=
  { d with field := { d.field with hys := updAt d.field.hys l f } }

/-- A write to HYS_IN gives a fresh input; an owned loop ignores it (R342, R344). -/
def Dev.writeHysIn (d : Dev) (l : Nat) (w : Word) : Dev :=
  if d.is (HYS_OWNED l) then d.regErr 11
  else (d.writeAt (hysReg l 0x14) w 0).updHys l (fun r => if d.is (HYS_SRC l) then { r with fresh := true } else r)

def execHysInputWrite (l : Fin 32) (w : Word) (s : State) : Out := s.run (fun d => if d.linked then d.writeHysIn l w else d)

/-- An HL_SETPOINT's value for a loop at this update, if it is due (R343). -/
def Dev.hlTake (d : Dev) (l : Nat) : Dev :=
  match d.field.hl with
  | none => d
  | some h =>
    if h.left.contains l && decide (h.at_ ≤ d.now) then
      let v := ((h.sps.find? (fun x => x.1 == l)).map (·.2)).getD 0
      let left := h.left.filter (· != l)
      let d := d.put (HYS_SP l) v
      if left.isEmpty then
        let d := { d with field := { d.field with hl := none } }
        d.complete h.cmd .ok h.sps.length 0 0 0
      else { d with field := { d.field with hl := some { h with left := left } } }
    else d

/-- One update of a loop (R340 to R342). -/
def Dev.hysUpdate (d : Dev) (l : Nat) : Dev :=
  match d.field.hys[l]? with
  | none => d
  | some r =>
    if !d.is (HYS_EN l) then d
    else
      let d := d.hlTake l
      let sel := (d.reg (hysReg l 0)).toNat / 4 % 2 + (d.reg (hysReg l 0)).toNat / 16 % 8 * 2
      let acc0 := if sel = r.sel then r.acc else 0
      let stale := if r.fresh then 0 else r.stale + 1
      let lim := d.get (HYS_STALE l)
      if lim ≠ 0 ∧ lim ≤ stale then
        let d := if d.is (HYS_FLT l) then d
          else ((((d.putB (HYS_FLT l) true).bump 0xB400).raise (srcNo 12 8) l).updHys l (fun r => { r with nOn := 0, nOff := 0 }))
        let safe := d.is (HYS_SAFE l)
        let d := if d.is (HYS_OUT l) = safe then d
          else d.setReg (hysReg l 0x1C) (BitVec.ofNat 32 ((d.reg (hysReg l 0x1C)).toNat + 1))
        (d.putB (HYS_OUT l) safe).updHys l (fun r =>
          { r with stale := min stale 65535, fresh := false, sel := sel, acc := acc0, nOn := min 65535 (r.nOn + 1),
                   nOff := min 65535 (r.nOff + 1) })
      else
        let acc0 := if d.is (HYS_FLT l) then 0 else acc0
        let d := d.putB (HYS_FLT l) false
        let inp := if d.is (HYS_SRC l) then signed 16 (d.get (HYS_IN l)) else d.field.mod.getD (d.get (HYS_MODCH l)) 0
        let sp := signed 16 (d.get (HYS_SP l))
        let e := satS 16 (if d.is (HYS_POL l) then inp - sp else sp - inp)
        let lo := signed 16 (d.get (HYS_ILO l)) * 32768
        let hi := signed 16 (d.get (HYS_IHI l)) * 32768
        let raw := acc0 + e * signed 16 (d.get (HYS_KI l))
        let acc := clampInt raw lo hi
        let clamp := decide (raw < lo ∨ hi < raw)
        let u := satS 16 (e + divRne acc 32768)
        let hb : Int := d.get (HYS_HB l)
        let out := d.is (HYS_OUT l)
        let on := !out && decide (hb < u) && decide (d.get (HYS_TMINOFF l) ≤ r.nOff)
        let off := out && decide (u < -hb) && decide (d.get (HYS_TMINON l) ≤ r.nOn)
        let out' := if on then true else if off then false else out
        let d := if clamp && !r.clamped then ((d.putB (HYS_CLAMP l) true).bump 0xB404).raise (srcNo 12 9) l
          else if clamp then d.putB (HYS_CLAMP l) true else d
        let d := if on || off then d.setReg (hysReg l 0x1C) (BitVec.ofNat 32 ((d.reg (hysReg l 0x1C)).toNat + 1)) else d
        let d := (d.putB (HYS_OUT l) out').put (HYS_IQ l) (encSigned 16 (divRne acc 32768))
        d.updHys l (fun r => { r with
          acc := acc, clamped := clamp, sel := sel, stale := stale, fresh := false,
          nOn := min 65535 ((if on then 0 else r.nOn) + 1), nOff := min 65535 ((if off then 0 else r.nOff) + 1) })

/-- The on-share of a chopper loop is counted per update (R436). -/
def Dev.dutyCount (d : Dev) (l : Nat) : Dev :=
  { d with mains := { d.mains with chop := d.mains.chop.map (fun (c : Chopper) =>
      if c.loop = l then { c with on := c.on + d.get (HYS_OUT l), all := c.all + 1 } else c) } }

def execHysUpdate (l : Fin 32) (s : State) : Out :=
  s.run (fun d => if d.up then (d.hysUpdate l).dutyCount l else d)

/-- HL_SETPOINT: 32 s16 setpoints for the loops of the mask (R343). -/
def execHlSetpoint (f : Fetch) (s : State) : Out :=
  s.run (fun d => d.start 0x38 (fun d c =>
    let loops := bitsOf (c.u 0x18 4) 32
    if c.len ≠ 64 then d.finish c.id .rejectedParam
    else if loops.any (fun l => !d.is (HYS_EN l) || d.is (HYS_OWNED l)) || d.field.hl.isSome then
      d.finish c.id .rejectedState
    else match d.served f with
      | .failed => d.hostFault c.id 1
      | .bytes b =>
        if loops.isEmpty then d.finish c.id .ok
        else { d with field := { d.field with
            hl := some ⟨c.id, loops, c.u 0x20 8, loops.map (fun l => (l, uAt b (2 * l) 2))⟩ } }))

end Sys2Proof.Machine
end

