-- ==== Sys2Proof/Machine/Fixed.lean ====
section
/-! DEFINITION. The fixed-point arithmetic of the solver walls (R90 to R93): mantissas with range classes, s72 accumulators,
write-back, dot products and the divider. A saturation is carried along as a flag. -/

namespace Sys2Proof.Machine

/-- A number with the mark that computing it saturated. -/
structure Fx where
  v : Int
  s : Bool
  deriving DecidableEq, Repr

def Fx.pure (v : Int) : Fx := ⟨v, false⟩

/-- Keep a value within a signed width, with the mark. -/
def fxSat (w : Nat) (v : Int) : Fx := ⟨satS w v, satS w v != v⟩

/-- Division of integers rounded to nearest, ties to even, for a divisor of either sign. -/
def divInt (n d : Int) : Int := if d < 0 then divRne (-n) d.natAbs else divRne n d.natAbs

/-- The value n/den · 2^exp in units of 2^u, rounded to nearest. -/
def inUnits (n : Int) (den : Nat) (exp u : Int) : Int :=
  if 0 ≤ exp - u then divRne (n * 2 ^ (exp - u).toNat) den else divRne n (den * 2 ^ (u - exp).toNat)

/-- The mantissa of n/den · 2^exp in a block of class e, saturated to s32. -/
def mantissa (n : Int) (den : Nat) (exp e : Int) : Fx := fxSat 32 (inUnits n den exp (e - 30))

/-- Align n/den · 2^exp to the accumulator of a destination of class e (R90). -/
def align (n : Int) (den : Nat) (exp e : Int) : Fx := fxSat 72 (inUnits n den exp (e - 62))

/-- Accumulate (R90). -/
def Fx.acc (a b : Fx) : Fx := let r := fxSat 72 (a.v + b.v); ⟨r.v, r.s || a.s || b.s⟩

def Fx.neg (a : Fx) : Fx := ⟨-a.v, a.s⟩

/-- Write an accumulator back to s32 (R90). -/
def Fx.wb (a : Fx) : Fx := let r := fxSat 32 (shrRne a.v 32); ⟨r.v, r.s || a.s⟩

/-- A product of mantissas of classes ea and eb, aligned to class e. -/
def mulTo (a : Int) (ea : Int) (b : Int) (eb e : Int) : Fx := align (a * b) 1 (ea + eb - 60) e

/-- A mantissa of class ea times 2^k, aligned to class e. -/
def shiftTo (a : Int) (ea k e : Int) : Fx := align a 1 (ea - 30 + k) e

/-- A dot product: an s72 in units of 2^(top − 56), top the largest class sum (R91). -/
def dotUnits (terms : List (Int × Int × Int)) (top : Int) : Int :=
  terms.foldl (fun (a : Int) (x : Int × Int × Int) => a + shrRne (x.1 * x.2.1) (top - x.2.2 + 4)) 0

/-- The divider (R92) on n·2^k / d: none when the quotient overflows. A positive quotient that only rounding takes to 512 has
no place in the scalars' range either and overflows too (DEDUCED). -/
def divide (n d k : Int) : Option Int :=
  if n = 0 then some 0
  else if d = 0 then none
  else
    -- magnitude at least 512: |n|·2^k ≥ 512·|d|
    let big := if 0 ≤ k then decide (512 * d.natAbs ≤ n.natAbs * 2 ^ k.toNat)
      else decide (512 * d.natAbs * 2 ^ (-k).toNat ≤ n.natAbs)
    if big then none
    else
      let q := if 0 ≤ k + 22 then divInt (n * 2 ^ (k + 22).toNat) d else divInt n (d * 2 ^ (-(k + 22)).toNat)
      if q = 2 ^ 31 then none else some q

/-- Largest magnitude of a list. -/
def maxMag (l : List Int) : Nat := l.foldl (fun a x => max a x.natAbs) 0

/-- A residual: the largest magnitude, an integer from 0 to 2^31 − 1 (R96). -/
def residual (l : List Int) : Nat := min (maxMag l) (2 ^ 31 - 1)

/-! Residues mod 7 (R105). -/

def res7 (v : Int) : Int := v % 7

/-- The residue a lane's check unit expects of the result of an operation, formed from the operands' residues alone. 4 is the
inverse of 2 mod 7; `dropped` are the bits a right shift loses, with the round-up. -/
def laneExpected : LaneOp → Int
  | .product a b => res7 (res7 a * res7 b)
  | .accumulate l => res7 ((l.map res7).foldl (· + ·) 0)
  | .shl x s => res7 (res7 x * res7 (2 ^ s))
  | .shr x s => res7 (res7 (x - x % 2 ^ s) * res7 (4 ^ s) + (if shrRne x s = x / 2 ^ s then 0 else 1))
  | .div n _ _ => res7 n

/-- What the lane computes, before any saturation: the value whose residue is compared. -/
def laneValue : LaneOp → Int
  | .product a b => a * b
  | .accumulate l => l.foldl (· + ·) 0
  | .shl x s => x * 2 ^ s
  | .shr x s => shrRne x s
  | .div n d q => q * d + (n - q * d)

/-- Does the check flag the operation when bit `bit` of its result is wrong? -/
def laneFlags (o : LaneOp) (bit : Nat) (up : Bool) : Bool :=
  res7 (laneValue o + (if up then 2 ^ bit else -(2 ^ bit))) != laneExpected o

end Sys2Proof.Machine
end

