-- ==== Sys2Proof/Machine/ModelCheck.lean ====
section
/-! DEFINITION. Parsing a model blob and the checks MODEL_LOAD makes of it (R37 to R54). -/

namespace Sys2Proof.Machine

/-! Layout. -/

/-- Entry counts by section (Table — Model blob header). -/
def blobCounts (b : List Byte) : List Nat :=
  [uAt b 0x18 1, uAt b 0x19 1, uAt b 0x1E 1, uAt b 0x20 2, uAt b 0x22 2, uAt b 0x1C 1, uAt b 0x1A 1, uAt b 0x1B 1,
   uAt b 0x1D 1, uAt b 0x24 2]

/-- Entry sizes and count limits by section (Table — Model sections). -/
def sectionSizes : List Nat := [64, 128, 64, 32, 8, 256, 64, 32, 64, 8]
def sectionLimits : List (Nat × Nat) :=
  [(1, 8), (1, 60), (0, 32), (1, 1024), (0, 4096), (0, 64), (0, 8), (0, 4), (0, 8), (1, 4096)]

def blobCount (b : List Byte) (n : Nat) : Nat := (blobCounts b).getD n 0
def secOff (b : List Byte) (n : Nat) : Nat := uAt b (0x30 + 8 * n) 4
def secLen (b : List Byte) (n : Nat) : Nat := uAt b (0x34 + 8 * n) 4

/-- Entry i of section n. -/
def blobEntry (b : List Byte) (n i : Nat) : List Byte :=
  let z := sectionSizes.getD n 0
  bytesAt b (secOff b n + z * i) z

def blobEntries (b : List Byte) (n : Nat) : List (List Byte) := (List.range (blobCount b n)).map (blobEntry b n)

/-- End of the non-empty sections before section n: where section n may begin at the earliest. -/
def secFloor (b : List Byte) : Nat → Nat
  | 0 => 0x80
  | n + 1 => if secLen b n = 0 then secFloor b n else max (secFloor b n) (secOff b n + secLen b n)

/-- Count limit and section layout of R39. -/
def layoutOk (b : List Byte) (n : Nat) : Bool :=
  let c := blobCount b n
  let lim := sectionLimits.getD n (0, 0)
  (lim.1 ≤ c && c ≤ lim.2) && secLen b n == c * sectionSizes.getD n 0 &&
    (if c = 0 then secOff b n == 0
     else secOff b n % 64 == 0 && decide (secFloor b n ≤ secOff b n) && decide (secOff b n + secLen b n ≤ uAt b 8 4))

/-- MAGIC, FORMAT, HDRSIZE and BLOBSIZE: without them no section can be found. -/
def magicOk (b : List Byte) (len : Nat) : Bool :=
  uAt b 0 4 == 0x444D4243 && uAt b 4 2 == 0x0102 && uAt b 6 2 == 0x80 && uAt b 8 4 == len && b.length == len &&
    decide (len ≤ 131072)

/-- The rest of the header: BLOBCRC, reserved bytes, HEADROOM. -/
def blobHeaderOk (b : List Byte) : Bool :=
  crc32c (b.drop 16) == uAt b 0x0C 4 && zeroAt b 0x1F 1 && zeroAt b 0x27 1 && zeroAt b 0x2C 4 && decide (uAt b 0x26 1 ≤ 6)

/-! Parsing. -/

def parseArm (e : List Byte) : ArmEnt :=
  { armid := uAt e 0 1, nj := uAt e 1 1, firstj := uAt e 2 1, toolsrc := uAt e 3 1, ntool := uAt e 0x20 1,
    firsttool := uAt e 0x21 1, dcbus := uAt e 0x22 1, tcpvb := uAt e 0x24 4, body := e }

def parseJoint (e : List Byte) : JointEnt :=
  { gj := uAt e 0 1, arm := uAt e 1 1, aj := uAt e 2 1, type := uAt e 3 1, qmin := sAt e 0x20 4, qmax := sAt e 0x24 4,
    vmax := uAt e 0x28 4, amax := uAt e 0x2C 4, dmon := uAt e 0x30 4, jmax := uAt e 0x34 4, tmax := uAt e 0x38 4,
    fbsrc := uAt e 0x3C 1, fbaddr := uAt e 0x3D 1, axis := uAt e 0x3E 1, vmeasb := uAt e 0x68 4, qdevb := uAt e 0x6C 4,
    tmeasb := uAt e 0x70 4, rotorj := uAt e 0x74 4, body := e }

def parseTool (e : List Byte) : ToolEnt :=
  { arm := uAt e 0 1, code := uAt e 1 1, firstcap := uAt e 2 2, ncap := uAt e 4 2, body := e }

def parseCap (e : List Byte) : CapEnt :=
  { owner := uAt e 2 1, tool := uAt e 3 1, p0 := vecAt e 4 3, p1 := vecAt e 0x10 3, radius := uAt e 0x1C 4 }

def parsePairEnt (e : List Byte) : PairEnt := ⟨uAt e 0 2, uAt e 2 2, uAt e 4 2, uAt e 6 2⟩

def parseCommons (e : List Byte) : CommonsEnt :=
  { cid := uAt e 0 1, armmask := uAt e 2 1, baseprio := (List.range 8).map (fun a => uAt e (0xD0 + a) 1), body := e }

def parseSensor (e : List Byte) : SensorEnt :=
  { sid := uAt e 0 1, node := uAt e 1 1, maxtr := uAt e 2 1, pos := vecAt e 4 3, rot := vecAt e 0x10 4, lat := uAt e 0x20 4,
    posunc := uAt e 0x24 4, vhb := uAt e 0x28 4 }

def parseBus (e : List Byte) : BusEnt :=
  { gid := uAt e 0 1, modch := uAt e 1 1, chophl := uAt e 2 1, cap := uAt e 4 4, vnom := uAt e 8 4, vuv := uAt e 0x0C 4,
    vov := uAt e 0x10 4, pmaxb := uAt e 0x14 4, jmask := uAt e 0x18 8 }

def parseConv (e : List Byte) : ConvEnt :=
  { kid := uAt e 0 1, fbch := uAt e 1 1, flags := uAt e 2 1, scale := uAt e 4 4, vconvb := uAt e 0x20 4, body := e }

def parseRange (e : List Byte) : RangeEnt := ⟨uAt e 0 2 / 4096, uAt e 0 2 % 4096, sAt e 3 1⟩

def parseModel (b : List Byte) : Model :=
  { modelid := uAt b 0x10 4, modelrev := uAt b 0x14 4, headroom := if uAt b 0x26 1 = 0 then 2 else uAt b 0x26 1,
    crc := uAt b 0x0C 4,
    arms := (blobEntries b 0).map parseArm, joints := (blobEntries b 1).map parseJoint,
    tools := (blobEntries b 2).map parseTool, caps := (blobEntries b 3).map parseCap,
    pairs := (blobEntries b 4).map parsePairEnt, commons := (blobEntries b 5).map parseCommons,
    sensors := (blobEntries b 6).map parseSensor, buses := (blobEntries b 7).map parseBus,
    convs := (blobEntries b 8).map parseConv, range := (blobEntries b 9).map parseRange }

/-! Rules of the entries. -/

def Model.arm? (m : Model) (a : Nat) : Option ArmEnt := m.arms.find? (fun x => x.armid == a)
def Model.joint? (m : Model) (gj : Nat) : Option JointEnt := m.joints.find? (fun j => j.gj == gj)

/-- The joints of an arm, in ascending order. -/
def Model.armJoints (m : Model) (a : Nat) : List JointEnt :=
  match m.arm? a with
  | none => []
  | some x => m.joints.filter (fun j => x.firstj ≤ j.gj && j.gj < x.firstj + x.nj)

/-- The arm a capsule belongs to: that of its joint or base; none for a cell-fixed one. -/
def Model.capArm (m : Model) (c : CapEnt) : Option Nat :=
  if c.owner < 60 then (m.joint? c.owner).map (·.arm)
  else if 0xF0 ≤ c.owner ∧ c.owner < 0xF8 then some (c.owner - 0xF0)
  else none

/-- Strictly ascending. -/
def ascending : List Nat → Bool
  | x :: y :: rest => decide (x < y) && ascending (y :: rest)
  | _ => true

/-- No two equal. -/
def allDistinct (l : List Nat) : Bool := l.eraseDups.length == l.length

/-- Arms (R41): section 0. FIRSTTOOL of an arm without tool entries is not looked at (DESIGN CHOICE). -/
def armsOk (m : Model) (ents : List (List Byte)) : Bool :=
  ascending (m.arms.map (·.armid)) &&
  (m.arms.zip ents).all (fun x =>
    let a := x.1
    let e := x.2
    decide (a.armid ≤ 7) && (1 ≤ a.nj && a.nj ≤ 12) && decide (a.firstj + a.nj ≤ m.joints.length) && decide (a.toolsrc ≤ 96) &&
    unitNorm (vecAt e 0x10 4) && decide (a.ntool ≤ 4) && a.ntool == (m.tools.filter (fun t => t.arm == a.armid)).length &&
    decide (a.firsttool + a.ntool ≤ m.tools.length ∨ a.ntool = 0) &&
    (a.dcbus == 0xFF || m.buses.any (fun g => g.gid == a.dcbus)) && zeroAt e 0x23 1 && zeroAt e 0x28 24 &&
    m.arms.all (fun y => y.armid == a.armid || y.firstj + y.nj ≤ a.firstj || a.firstj + a.nj ≤ y.firstj))

/-- Joints (R42): section 1. -/
def jointsOk (m : Model) (ents : List (List Byte)) : Bool :=
  (m.joints.zip ents).zipIdx.all (fun x =>
    let j := x.1.1
    let e := x.1.2
    j.gj == x.2 &&
    (match m.arm? j.arm with
     | some a => a.firstj ≤ j.gj && j.gj < a.firstj + a.nj && j.aj == j.gj - a.firstj
     | none => false) &&
    (j.type == 0 || j.type == 1 || j.type == 0x80) && unitNorm (vecAt e 0x10 4) && decide (j.qmin < j.qmax) &&
    decide (j.dmon ≤ j.amax) && decide (j.vmax ≤ j.vmeasb) && decide (j.tmax ≤ j.tmeasb) &&
    (if j.fbsrc = 0 then 1 ≤ j.fbaddr && j.fbaddr ≤ 96 && decide (j.axis ≤ 7)
     else j.fbsrc == 1 && decide (j.fbaddr ≤ 23) && j.axis == 0) &&
    zeroAt e 0x3F 1 && zeroAt e 0x78 8)

/-- Tools (R45): section 2. Each tool lies in its arm's range, which has as many places as the arm has tools (R41). -/
def toolsOk (m : Model) (ents : List (List Byte)) : Bool :=
  (m.tools.zip ents).zipIdx.all (fun x =>
    let t := x.1.1
    let e := x.1.2
    (match m.arm? t.arm with
     | some a =>
       a.firsttool ≤ x.2 && x.2 < a.firsttool + a.ntool &&
       (if a.toolsrc = 0 then t.code == 0
        else t.code != 0 && m.tools.zipIdx.all (fun y => y.2 == x.2 || y.1.arm != t.arm || y.1.code != t.code))
     | none => false) &&
    decide (t.firstcap + t.ncap ≤ m.caps.length) && zeroAt e 6 2 && unitNorm (vecAt e 0x14 4) && zeroAt e 0x34 12)

/-- Capsules (R47): section 3. -/
def capsOk (m : Model) (ents : List (List Byte)) : Bool :=
  (m.caps.zip ents).zipIdx.all (fun x =>
    let c := x.1.1
    uAt x.1.2 0 2 == x.2 && decide (0 < c.radius) &&
    (decide (c.owner < m.joints.length) || c.owner == 0xFE ||
      (0xF0 ≤ c.owner && c.owner < 0xF8 && (m.arm? (c.owner - 0xF0)).isSome)) &&
    (c.tool == 0xFF ||
      (match m.tools[c.tool]?, m.joint? c.owner with
       | some t, some j => t.arm == j.arm && ((m.arm? j.arm).map (fun a => a.firstj + a.nj)) == some (j.gj + 1)
       | _, _ => false)))

/-- Pairs (R48): section 4. -/
def pairsOk (m : Model) : Bool :=
  allDistinct (m.pairs.map (·.pairid)) &&
  m.pairs.all (fun p =>
    decide (p.pairid ≤ 4095) &&
    (match m.caps[p.capa]?, m.caps[p.capb]? with
     | some x, some y => x.owner != y.owner && (decide (x.owner < 60) || decide (y.owner < 60))
     | _, _ => false))

/-- Commons (R49): section 5. -/
def commonsOk (m : Model) (ents : List (List Byte)) : Bool :=
  (m.commons.zip ents).zipIdx.all (fun x =>
    let c := x.1.1
    let e := x.1.2
    let n := uAt e 1 1
    c.cid == x.2 && (1 ≤ n && n ≤ 4) && zeroAt e 3 13 && zeroAt e 0xD8 40 && c.baseprio.all (· ≤ 15) &&
    (bitsOf c.armmask 8).all (fun a => (m.arm? a).isSome) &&
    (List.range 4).all (fun i =>
      if i < n then
        (List.range 3).all (fun k => uAt e (0x1C + 48 * i + 4 * k) 4 != 0) && unitNorm (vecAt e (0x28 + 48 * i) 4) &&
        zeroAt e (0x38 + 48 * i) 8
      else zeroAt e (0x10 + 48 * i) 48))

/-- Sensors (R50): section 6. No two share a SID (DESIGN CHOICE: R50 does not say so). -/
def sensorsOk (m : Model) (ents : List (List Byte)) : Bool :=
  allDistinct (m.sensors.map (·.sid)) && decide ((m.sensors.map (·.maxtr)).foldl (· + ·) 0 ≤ 64) &&
  (m.sensors.zip ents).all (fun x =>
    let s := x.1
    decide (s.sid ≤ 7) && (1 ≤ s.node && s.node ≤ 96) && (1 ≤ s.maxtr && s.maxtr ≤ 64) && unitNorm s.rot &&
    zeroAt x.2 3 1 && zeroAt x.2 0x2C 20)

/-- DC-bus groups (R50): section 7. No two share a GID (DESIGN CHOICE: R50 does not say so). -/
def busesOk (m : Model) (ents : List (List Byte)) : Bool :=
  allDistinct (m.buses.map (·.gid)) &&
  (m.buses.zip ents).all (fun x =>
    let g := x.1
    decide (g.gid ≤ 3) && decide (g.modch ≤ 7) && (decide (g.chophl ≤ 31) || g.chophl == 0xFF) && zeroAt x.2 3 1 &&
    decide (g.vuv < g.vnom) && decide (g.vnom < g.vov) && decide (g.jmask < 2 ^ m.joints.length) &&
    (List.range 60).all (fun j => !bitOf g.jmask j || m.buses.all (fun h => h.gid == g.gid || !bitOf h.jmask j))) &&
  m.arms.all (fun a => (m.buses.filter (fun g => g.gid == a.dcbus)).all (fun g =>
    (m.armJoints a.armid).all (fun j => bitOf g.jmask j.gj)))

/-- Conveyors (R50): section 8. No two share a KID (DESIGN CHOICE: R50 does not say so). -/
def convsOk (m : Model) (ents : List (List Byte)) : Bool :=
  allDistinct (m.convs.map (·.kid)) &&
  (m.convs.zip ents).all (fun x =>
    let k := x.1
    decide (k.kid ≤ 7) && decide (k.fbch ≤ 23) && decide (k.flags ≤ 3) && zeroAt x.2 3 1 && unitNorm (vecAt x.2 0x14 3) &&
    zeroAt x.2 0x24 28 && m.joints.all (fun j => j.fbsrc != 1 || j.fbaddr != k.fbch))

/-! The range section (R54). -/

/-- Has the model an entry for a block? -/
def Model.hasRange (m : Model) (kind index : Nat) : Bool := m.range.any (fun r => r.kind == kind && r.index == index)

/-- Range class of a block, −32 when it has none. -/
def Model.rc (m : Model) (kind index : Nat) : Int :=
  ((m.range.find? (fun r => r.kind == kind && r.index == index)).map (·.rc)).getD (-32)

/-- Collision block index a of a pair: the arm of CAPA's owner, or 8 (R89). -/
def Model.pairArm (m : Model) (p : PairEnt) : Nat := (((m.caps[p.capa]?).bind m.capArm)).getD 8

/-- The blocks of Table — Required range blocks, as (kind, index). -/
def Model.required (m : Model) : List (Nat × Nat) :=
  let arms := m.arms.map (·.armid)
  let all3 : Nat → List (Nat × Nat) := fun i => [(0, i), (4, i), (2, i)]
  arms.flatMap (fun a => (List.range 3).flatMap (fun c => all3 (0x100 + 16 * c + a))) ++
  arms.flatMap (fun a => (List.range 4).flatMap (fun c => [(4, 0x140 + 16 * c + a), (2, 0x140 + 16 * c + a)])) ++
  arms.flatMap (fun a => all3 (0x60 + a)) ++
  ((m.pairs.map m.pairArm).eraseDups).flatMap (fun a => all3 (0x10 + a)) ++
  (if m.sensors.isEmpty then [] else arms.flatMap (fun a => all3 (0x20 + a) ++ all3 (0x30 + a))) ++
  (if m.commons.isEmpty then [] else arms.flatMap (fun a => all3 (0x40 + a))) ++
  m.buses.flatMap (fun g => [(7, g.gid), (4, 0x50 + g.gid), (2, 0x50 + g.gid)]) ++
  m.joints.flatMap (fun j => (List.range 4).flatMap (fun c => [(1, 4 * j.gj + c), (3, 4 * j.gj + c)])) ++
  m.joints.flatMap (fun j => (List.range 8).map (fun k => (5, 8 * j.gj + k))) ++
  arms.map (fun a => (6, a)) ++ (if m.caps.any (fun c => c.owner == 0xFE) then [(6, 8)] else [])

/-- SRC of a range entry names a declared bound and an entry that declares it (R40, R53, R54). The cell extent of kind 4 is
derived from several sections, so its index names none. -/
def Model.srcOk (m : Model) (src : Nat) : Bool :=
  let i := src % 4096
  match src / 4096 with
  | 0 | 1 | 2 | 3 => decide (i < m.joints.length)
  | 4 => true
  | 5 => decide (i < m.sensors.length)
  | 6 => decide (i < m.buses.length)
  | 7 => decide (i < m.convs.length)
  | _ => false

def rangeOk (m : Model) (ents : List (List Byte)) : Bool :=
  (m.range.zip ents).all (fun x =>
    let r := x.1
    decide (r.kind ≤ 7) && zeroAt x.2 2 1 && m.srcOk (uAt x.2 4 2) && decide (-32 ≤ r.rc) && decide (r.rc ≤ 31) && uAt x.2 6 1 == m.headroom &&
    zeroAt x.2 7 1) &&
  m.required.all (fun k => m.hasRange k.1 k.2)

/-- The part bitmap of a blob (R40, R54): 0 when every check passes. A section whose layout is wrong is not read further. -/
def checkModel (len : Nat) (b : List Byte) : Nat :=
  if !magicOk b len then 0x8000
  else
    let m := parseModel b
    let ok := fun (n : Nat) => match n with
      | 0 => armsOk m (blobEntries b 0)
      | 1 => jointsOk m (blobEntries b 1)
      | 2 => toolsOk m (blobEntries b 2)
      | 3 => capsOk m (blobEntries b 3)
      | 4 => pairsOk m
      | 5 => commonsOk m (blobEntries b 5)
      | 6 => sensorsOk m (blobEntries b 6)
      | 7 => busesOk m (blobEntries b 7)
      | 8 => convsOk m (blobEntries b 8)
      | _ => rangeOk m (blobEntries b 9)
    maskOf ((List.range 10).filter (fun n => !layoutOk b n || !ok n)) + (if blobHeaderOk b then 0 else 0x8000)

end Sys2Proof.Machine
end

