-- ==== Sys2Proof/Machine/Geo.lean ====
section
/-! DEFINITION. What the geometry pipes evaluate (R79): joint frames (R41, R42), capsule end points (R47, R202), closest
points, distances and normals of two capsules (R71), the signed distance of a capsule to a union of boxes (R49, R70), and
point Jacobians. The arithmetic is the model's own fixed point: lengths in units of 2^−62 mm, rotation entries and angles in
units of 2^−60, rounded to nearest; end points, distances, normals and gradients are then written in the range class of
their block of kind 6 (R79). -/

namespace Sys2Proof.Machine

/-! Vectors. -/

def V3.zero : V3 := ⟨0, 0, 0⟩
def V3.add (a b : V3) : V3 := ⟨a.x + b.x, a.y + b.y, a.z + b.z⟩
def V3.sub (a b : V3) : V3 := ⟨a.x - b.x, a.y - b.y, a.z - b.z⟩
def V3.neg (a : V3) : V3 := ⟨-a.x, -a.y, -a.z⟩
def V3.dot (a b : V3) : Int := a.x * b.x + a.y * b.y + a.z * b.z
def V3.cross (a b : V3) : V3 := ⟨a.y * b.z - a.z * b.y, a.z * b.x - a.x * b.z, a.x * b.y - a.y * b.x⟩
def V3.scale (k : Int) (a : V3) : V3 := ⟨k * a.x, k * a.y, k * a.z⟩
/-- Every component divided by 2^s, rounded to nearest. -/
def V3.shr (a : V3) (s : Nat) : V3 := ⟨shrRne a.x s, shrRne a.y s, shrRne a.z s⟩
/-- Every component divided by a positive or negative number, rounded to nearest. -/
def V3.div (a : V3) (d : Int) : V3 := ⟨divInt a.x d, divInt a.y d, divInt a.z d⟩

/-- A position of a model blob, unit 2^−16 mm (R37). -/
def V3.ofMm (l : List Int) : V3 := V3.scale (2 ^ 46) ⟨l.getD 0 0, l.getD 1 0, l.getD 2 0⟩
/-- A direction of a model blob, Q1.30 (R37). -/
def V3.ofDir (l : List Int) : V3 := V3.scale (2 ^ 30) ⟨l.getD 0 0, l.getD 1 0, l.getD 2 0⟩

/-- The integer part of a square root, bit by bit. -/
def isqrtBits (n : Nat) : Nat → Nat → Nat
  | 0, r => r
  | k + 1, r => isqrtBits n k (if (r + 2 ^ k) * (r + 2 ^ k) ≤ n then r + 2 ^ k else r)

def isqrt (n : Nat) : Nat := isqrtBits n (n.log2 / 2 + 1) 0

/-- Length of a vector, in its own unit. -/
def V3.len (a : V3) : Nat := isqrt (V3.dot a a).natAbs

/-- The unit vector of a direction, none for the zero vector. -/
def V3.unit (a : V3) : Option V3 :=
  if a = V3.zero then none
  else some ((V3.scale (2 ^ 124) a).div (isqrt ((V3.dot a a).natAbs * 2 ^ 128) : Nat))

/-! Frames. -/

/-- A rotation by its columns, the images of the axes. -/
structure Rot where
  cx : V3
  cy : V3
  cz : V3
  deriving DecidableEq, Repr

/-- A frame placed in the cell frame. -/
structure Frame where
  r : Rot
  p : V3
  deriving DecidableEq, Repr

def Rot.one : Rot := ⟨⟨2 ^ 60, 0, 0⟩, ⟨0, 2 ^ 60, 0⟩, ⟨0, 0, 2 ^ 60⟩⟩
def Frame.cell : Frame := ⟨Rot.one, V3.zero⟩

/-- A vector of the frame in the cell's axes. -/
def Rot.app (r : Rot) (v : V3) : V3 :=
  (V3.add (V3.add (V3.scale v.x r.cx) (V3.scale v.y r.cy)) (V3.scale v.z r.cz)).shr 60

/-- A vector of the cell's axes in the frame's. -/
def Rot.back (r : Rot) (v : V3) : V3 := V3.shr ⟨V3.dot r.cx v, V3.dot r.cy v, V3.dot r.cz v⟩ 60

/-- A point of the frame in the cell frame. -/
def Frame.at (f : Frame) (v : V3) : V3 := V3.add f.p (f.r.app v)

def Frame.mul (f g : Frame) : Frame := ⟨⟨f.r.app g.r.cx, f.r.app g.r.cy, f.r.app g.r.cz⟩, f.at g.p⟩

/-- The rotation of a unit quaternion (w, x, y, z) in Q1.30 (R37). -/
def quatRot (l : List Int) : Rot :=
  let w := l.getD 0 0
  let x := l.getD 1 0
  let y := l.getD 2 0
  let z := l.getD 3 0
  let one : Int := 2 ^ 60
  ⟨⟨one - 2 * (y * y + z * z), 2 * (x * y + w * z), 2 * (x * z - w * y)⟩,
   ⟨2 * (x * y - w * z), one - 2 * (x * x + z * z), 2 * (y * z + w * x)⟩,
   ⟨2 * (x * z + w * y), 2 * (y * z - w * x), one - 2 * (x * x + y * y)⟩⟩

/-! Sine and cosine, worked out in units of 2^−80. -/

/-- 2π in units of 2^−80. -/
def twoPi80 : Nat := 7595904947272677161575987

/-- The rest of a Taylor series: the term before, and the number its next divisor starts from. -/
def taylorRest (x2 : Int) : Nat → Nat → Int → Int
  | 0, _, t => t
  | n + 1, k, t => t + taylorRest x2 n (k + 2) (divRne (-(t * x2)) (2 ^ 80 * (k * (k + 1))))

/-- Sine and cosine in units of 2^−60 of an angle in units of 2^−80 rad. -/
def sinCosAt (a : Int) : Int × Int :=
  let x := a - twoPi80 * divRne a twoPi80
  let x2 := shrRne (x * x) 80
  (shrRne (taylorRest x2 24 2 x) 20, shrRne (taylorRest x2 24 1 (2 ^ 80)) 20)

/-- Sine and cosine of a joint position in units of 2^−24 rad. -/
def sinCos (q : Int) : Int × Int := sinCosAt (q * 2 ^ 56)

/-! Kinematics. -/

/-- A joint's frame in the cell frame, its position taken. -/
structure JointPose where
  gj : Nat
  prism : Bool
  f : Frame
  deriving DecidableEq, Repr

/-- Joint frames by joint, and base frames by arm. -/
structure Pose where
  joints : List JointPose
  bases : List (Nat × Frame)
  deriving DecidableEq, Repr

/-- BASEPOS and BASEROT (R41), PARENTPOS and PARENTROT (R42). -/
def ArmEnt.base (a : ArmEnt) : Frame := ⟨quatRot (vecAt a.body 0x10 4), V3.ofMm (vecAt a.body 4 3)⟩
def JointEnt.parent (j : JointEnt) : Frame := ⟨quatRot (vecAt j.body 0x10 4), V3.ofMm (vecAt j.body 4 3)⟩
def JointEnt.prism (j : JointEnt) : Bool := bitOf j.type 0

/-- A revolute joint turns about its z axis, a prismatic one slides along it. -/
def slideTurn (prism : Bool) (q : Int) : Frame :=
  if prism then ⟨Rot.one, ⟨0, 0, q * 1000 * 2 ^ 38⟩⟩
  else
    let s := sinCos q
    ⟨⟨⟨s.2, s.1, 0⟩, ⟨-s.1, s.2, 0⟩, ⟨0, 0, 2 ^ 60⟩⟩, V3.zero⟩

def JointEnt.motion (j : JointEnt) (q : Int) : Frame := slideTurn j.prism q

/-- The frames of the joints of an arm at joint positions in units of 2^−24 rad (or m), each in the frame before it. -/
def jointChain (q : Nat → Int) : Frame → List JointEnt → List JointPose
  | _, [] => []
  | f, j :: rest =>
    let g := (f.mul j.parent).mul (j.motion (q j.gj))
    ⟨j.gj, j.prism, g⟩ :: jointChain q g rest

def Model.pose (m : Model) (q : Nat → Int) : Pose :=
  ⟨m.arms.flatMap (fun a => jointChain q a.base (m.armJoints a.armid)), m.arms.map (fun a => (a.armid, a.base))⟩

def Pose.joint? (p : Pose) (gj : Nat) : Option JointPose := p.joints.find? (fun j => j.gj == gj)

/-- The frame of a capsule's owner (R47). -/
def Pose.owner (p : Pose) (o : Nat) : Frame :=
  if o < 60 then ((p.joint? o).map (·.f)).getD Frame.cell
  else if o = 0xFE then Frame.cell
  else ((p.bases.find? (fun b => b.1 == o - 0xF0)).map (·.2)).getD Frame.cell

/-! Pipe results (R79). -/

/-- A value in units of 2^−62 as the pipes write it in class e. -/
def pipe (e x : Int) : Fx :=
  let r := mantissa x 1 (-62) e
  ⟨r.v * 2 ^ (e + 32).toNat, r.s⟩

/-- A vector as the pipes write it, with the mark. -/
def pipeVec (e : Int) (v : V3) : V3 × Bool :=
  let x := pipe e v.x
  let y := pipe e v.y
  let z := pipe e v.z
  (⟨x.v, y.v, z.v⟩, x.s || y.s || z.s)

/-- A capsule placed in the cell: its end points and its radius. -/
structure CapPose where
  a : V3
  b : V3
  rad : Int
  deriving DecidableEq, Repr

/-- Index of a capsule's block of kind 6: its arm, or 8 (R89). -/
def Model.capBlk (m : Model) (i : Nat) : Nat := ((m.caps[i]?).bind m.capArm).getD 8

/-- A capsule of the model at a pose, with the mark. -/
def Model.capPose (m : Model) (p : Pose) (i : Nat) : CapPose × Bool :=
  match m.caps[i]? with
  | none => (⟨V3.zero, V3.zero, 0⟩, false)
  | some c =>
    let e := m.rc 6 (m.capBlk i)
    let f := p.owner c.owner
    let a := pipeVec e (f.at (V3.ofMm c.p0))
    let b := pipeVec e (f.at (V3.ofMm c.p1))
    (⟨a.1, b.1, (c.radius : Int) * 2 ^ 46⟩, a.2 || b.2)

/-! Closest points of two segments. -/

/-- A parameter along a segment: a fraction with a positive denominator, kept within 0 to 1. -/
def unitFrac (n d : Int) : Int × Int :=
  let x := if d < 0 then (-n, -d) else (n, d)
  if x.1 ≤ 0 then (0, 1) else if x.2 ≤ x.1 then (1, 1) else x

/-- The point of a segment at a parameter. -/
def alongSeg (a b : V3) (s : Int × Int) : V3 := V3.add a ((V3.scale s.1 (V3.sub b a)).div s.2)

/-- The parameter of the point of a segment closest to a point; the start of a segment of no length. -/
def footOn (a b p : V3) : Int × Int :=
  let u := V3.sub b a
  if V3.dot u u = 0 then (0, 1) else unitFrac (V3.dot u (V3.sub p a)) (V3.dot u u)

/-- The parameter on a first segment of the middle of its overlap with a parallel second one (R71); of its end nearest to the
second, where they do not overlap. -/
def overlapMid (a0 a1 b0 b1 : V3) : Int × Int :=
  let u := V3.sub a1 a0
  let aa := V3.dot u u
  let s0 := clampInt (V3.dot u (V3.sub b0 a0)) 0 aa
  let s1 := clampInt (V3.dot u (V3.sub b1 a0)) 0 aa
  unitFrac (s0 + s1) (2 * aa)

/-- The closest points of two segments (R71). -/
def closest (a0 a1 b0 b1 : V3) : V3 × V3 :=
  let u := V3.sub a1 a0
  let v := V3.sub b1 b0
  let r := V3.sub a0 b0
  let aa := V3.dot u u
  let ee := V3.dot v v
  let bb := V3.dot u v
  let cc := V3.dot u r
  let ff := V3.dot v r
  let den := aa * ee - bb * bb
  let viaA := fun (s : Int × Int) =>
    let p := alongSeg a0 a1 s
    (p, alongSeg b0 b1 (footOn b0 b1 p))
  let viaB := fun (s t : Int × Int) => (alongSeg a0 a1 s, alongSeg b0 b1 t)
  if aa = 0 then viaA (0, 1)
  else if ee = 0 then viaA (footOn a0 a1 b0)
  else if den = 0 then viaA (overlapMid a0 a1 b0 b1)
  else
    let s := unitFrac (bb * ff - cc * ee) den
    -- the parameter on the second segment before it is kept within it
    let tn := bb * s.1 + ff * s.2
    let td := ee * s.2
    if tn < 0 then viaB (footOn a0 a1 b0) (0, 1)
    else if td < tn then viaB (footOn a0 a1 b1) (1, 1)
    else viaB s (unitFrac tn td)

/-- Distance and normal of two bodies, the normal from the second to the first, with the closest point of each (of a box the
first's alone counts). -/
structure Gap where
  d : Int
  n : V3
  p : V3
  q : V3
  deriving DecidableEq, Repr

/-- R71: where the closest points coincide the normal is the one kept of the same identity, else the direction between the
midpoints, else +z. -/
def capGap (x y : CapPose) (old : Option V3) : Gap :=
  let c := closest x.a x.b y.a y.b
  let w := V3.sub c.1 c.2
  let n := match V3.unit w with
    | some n => n
    | none => match old with
      | some n => n
      | none => (V3.unit (V3.sub (V3.add x.a x.b) (V3.add y.a y.b))).getD ⟨0, 0, 2 ^ 60⟩
  ⟨(V3.len w : Int) - x.rad - y.rad, n, c.1, c.2⟩

/-! Boxes. -/

/-- An oriented box of a commons (R49). -/
structure Box where
  f : Frame
  half : V3
  deriving DecidableEq, Repr

def CommonsEnt.boxes (c : CommonsEnt) : List Box :=
  (List.range (uAt c.body 1 1)).map (fun i =>
    let h := fun k => (uAt c.body (0x1C + 48 * i + 4 * k) 4 : Int) * 2 ^ 46
    ⟨⟨quatRot (vecAt c.body (0x28 + 48 * i) 4), V3.ofMm (vecAt c.body (0x10 + 48 * i) 3)⟩, ⟨h 0, h 1, h 2⟩⟩)

/-- How far a point in a box's axes lies beyond each pair of faces. -/
def beyond (half p : V3) : V3 := ⟨p.x.natAbs - half.x, p.y.natAbs - half.y, p.z.natAbs - half.z⟩

/-- What orders points by their signed distance to a box: the squared distance outside, the depth below 0 inside. -/
def boxKey (e : V3) : Int :=
  if e.x ≤ 0 ∧ e.y ≤ 0 ∧ e.z ≤ 0 then max e.x (max e.y e.z)
  else max e.x 0 ^ 2 + max e.y 0 ^ 2 + max e.z 0 ^ 2

/-- The least i in a range at which a condition, false and then true, holds; the end where it never does. -/
def firstWhere (c : Nat → Bool) : Nat → Nat → Nat → Nat
  | 0, lo, _ => lo
  | k + 1, lo, hi =>
    if lo ≥ hi then lo
    else
      let mid := (lo + hi) / 2
      if c mid then firstWhere c k lo mid else firstWhere c k (mid + 1) hi

/-- Steps a segment is divided into to find its point nearest to a box. -/
def boxSteps : Nat := 2 ^ 40

/-- The middle of the steps at which a convex function of the step is least. -/
def convexMin (f : Nat → Int) : Nat :=
  let lo := firstWhere (fun i => decide (f i ≤ f (i + 1))) 41 0 boxSteps
  let hi := firstWhere (fun i => decide (f i < f (i + 1))) 41 0 boxSteps
  (lo + hi) / 2

/-- Signed distance of a segment to a box, positive outside, with the outward normal and the segment's point. -/
def segBox (b : Box) (p q : V3) : Gap :=
  let a := b.f.r.back (V3.sub p b.f.p)
  let u := b.f.r.back (V3.sub q p)
  let n : Int := boxSteps
  let half := V3.scale n b.half
  let pt := fun (i : Nat) => V3.add (V3.scale n a) (V3.scale (i : Int) u)
  let i := convexMin (fun i => boxKey (beyond half (pt i)))
  let x := pt i
  let e := beyond half x
  let sg := fun (v : Int) => if v < 0 then (-1 : Int) else 1
  let on := alongSeg p q ((i : Int), n)
  if e.x ≤ 0 ∧ e.y ≤ 0 ∧ e.z ≤ 0 then
    let m := max e.x (max e.y e.z)
    let dir : V3 := if e.x = m then ⟨sg x.x, 0, 0⟩ else if e.y = m then ⟨0, sg x.y, 0⟩ else ⟨0, 0, sg x.z⟩
    ⟨divInt m n, b.f.r.app (V3.scale (2 ^ 60) dir), on, on⟩
  else
    let w : V3 := ⟨max e.x 0 * sg x.x, max e.y 0 * sg x.y, max e.z 0 * sg x.z⟩
    ⟨divInt (V3.len w) n, b.f.r.app ((V3.unit w).getD V3.zero), on, on⟩

/-- The element of a list with the least value, the first of equals. -/
def leastOf {α : Type} (f : α → Int) : List α → Option α
  | [] => none
  | x :: xs =>
    match leastOf f xs with
    | none => some x
    | some y => if f y < f x then some y else some x

/-- Signed distance of a capsule to the union of boxes: the least over the boxes. -/
def capUnion (bs : List Box) (c : CapPose) : Option Gap :=
  (leastOf (fun g => g.d) (bs.map (fun b => segBox b c.a c.b))).map (fun g => { g with d := g.d - c.rad })

/-! Jacobians. -/

/-- n·J of a point that moves with a joint: per joint of the arm up to it, in units of 2^−62 mm per rad (or m). -/
def Model.gradient (m : Model) (p : Pose) (owner : Nat) (n pt : V3) : List (Nat × Int) :=
  match m.joint? owner with
  | none => []
  | some o => ((m.armJoints o.arm).filter (fun j => decide (j.gj ≤ owner))).filterMap (fun j =>
      (p.joint? j.gj).map (fun f =>
        let z := f.f.r.cz
        (j.gj, if f.prism then shrRne (V3.dot n z * 4000) 60
               else shrRne (V3.dot n ((V3.cross z (V3.sub pt f.f.p)).shr 60)) 60)))

/-- n·J of the first point less n·J of the second, per joint. -/
def gradDiff (a b : List (Nat × Int)) : List (Nat × Int) :=
  let js := (a ++ b).map (·.1) |>.eraseDups
  let v := fun (l : List (Nat × Int)) (gj : Nat) => ((l.find? (fun x => x.1 == gj)).map (·.2)).getD 0
  js.map (fun gj => (gj, v a gj - v b gj))

/-- A gradient as the pipes write it, with the mark. -/
def pipeGrad (e : Int) (g : List (Nat × Int)) : List (Nat × Int) × Bool :=
  (g.map (fun x => (x.1, (pipe e x.2).v)), g.any (fun x => (pipe e x.2).s))

/-- A distance with its normal and gradient as the pipes write them (R79). -/
structure Pipe where
  d : Int
  n : V3
  g : List (Nat × Int)
  sat : Bool
  deriving DecidableEq, Repr

/-- Normals are kept in units of 2^−60, written in the class like the rest. -/
def toPipe (e : Int) (x : Gap) (g : List (Nat × Int)) : Pipe :=
  let d := pipe e x.d
  let n := pipeVec e (V3.scale 4 x.n)
  let g := pipeGrad e g
  ⟨d.v, n.1.shr 2, g.1, d.s || n.2 || g.2⟩

end Sys2Proof.Machine
end

