-- ==== Sys2Proof/Machine/Separation.lean ====
section
/-! DEFINITION. Speed and separation: which capsules count (R48, R188), a track as a capsule (R202), the closest capsule of
an arm (R208), and the constants of the protective separation distance (R204, R206, R207, R210). -/

namespace Sys2Proof.Machine

/-! Capsules. -/

/-- Is a capsule present: permanent, or of the active tool of its arm (R48)? -/
def Dev.capPresent (d : Dev) (m : Model) (i : Nat) : Bool :=
  match m.caps[i]? with
  | none => false
  | some c => c.tool == 0xFF ||
    (match m.tools[c.tool]? with | some t => d.kiln.tools.getD t.arm none == some c.tool | none => false)

/-- The capsules of an arm that count (R188): owned by its joints or by its active tool, by ascending CAPID. -/
def Dev.counted (d : Dev) (m : Model) (arm : Nat) : List Nat :=
  (List.range m.caps.length).filter (fun i =>
    match m.caps[i]? with
    | some c => decide (c.owner < 60) && m.capArm c == some arm && d.capPresent m i
    | none => false)

/-- What the pipes hold of one configuration of the cell: the pose and every capsule in it. -/
structure Scene where
  pose : Pose
  caps : List (CapPose × Bool)
  deriving DecidableEq, Repr

def Model.scene (m : Model) (q : Nat → Int) : Scene :=
  let p := m.pose q
  ⟨p, (List.range m.caps.length).map (m.capPose p)⟩

def Scene.cap (x : Scene) (i : Nat) : CapPose := ((x.caps[i]?).map (·.1)).getD ⟨V3.zero, V3.zero, 0⟩

/-- Block of the first present capsule whose end points saturated (R58, R79). -/
def Dev.sceneSat (d : Dev) (m : Model) (x : Scene) : Option (Nat × Nat) :=
  (x.caps.zipIdx.find? (fun c => c.1.2 && d.capPresent m c.2)).map (fun c => (6, m.capBlk c.2))

/-- n·J of a point of a capsule of the model. -/
def Scene.grad (x : Scene) (m : Model) (i : Nat) (n p : V3) : List (Nat × Int) :=
  match m.caps[i]? with
  | some c => m.gradient x.pose c.owner n p
  | none => []

/-- Radius in use in mm, up to 65,535: as reported, and what it has grown since (R203). -/
def Track.radius (t : Track) : Nat := min 65535 (t.rad + (divRne t.growth 65536000000000).toNat)

/-- A track as a capsule: the reported radius places its end points, the radius in use surrounds them (R202, R203). -/
def Track.cap (t : Track) : CapPose :=
  let lo : Int := if t.ztop < 2 * t.rad then (t.ztop : Int) * 2 ^ 61 else (t.rad : Int) * 2 ^ 62
  let hi : Int := if t.ztop < 2 * t.rad then (t.ztop : Int) * 2 ^ 61 else ((t.ztop : Int) - t.rad) * 2 ^ 62
  ⟨⟨t.x * 2 ^ 58, t.y * 2 ^ 58, lo⟩, ⟨t.x * 2 ^ 58, t.y * 2 ^ 58, hi⟩, (t.radius : Int) * 2 ^ 62⟩

/-- The counted capsule of an arm closest to a track, ties to the lower CAPID (R208), as the pipes write it; none for an arm
with no such capsule. -/
def Dev.toTrack (d : Dev) (m : Model) (x : Scene) (arm : Nat) (t : Track) (old : Option V3) : Option Pipe :=
  (leastOf (fun (g : Nat × Gap) => g.2.d)
    ((d.counted m arm).map (fun i => (i, capGap (x.cap i) t.cap old)))).map (fun g =>
      toPipe (m.rc 6 arm) g.2 (x.grad m g.1 g.2.n g.2.p))

/-- The counted capsule of an arm nearest to a commons (R70, R188), as the pipes write it. -/
def Dev.toCommons (d : Dev) (m : Model) (x : Scene) (arm : Nat) (c : CommonsEnt) : Option Pipe :=
  (leastOf (fun (g : Nat × Gap) => g.2.d)
    ((d.counted m arm).filterMap (fun i => (capUnion c.boxes (x.cap i)).map (fun g => (i, g))))).map (fun g =>
      toPipe (m.rc 6 arm) g.2 (x.grad m g.1 g.2.n g.2.p))

/-! The terms (Table — Separation terms). CMN_SEPCFG and the intrusion distances are those in force since the last latch. -/

def Model.sensorOf (m : Model) (sid : Nat) : Option SensorEnt := m.sensors.find? (fun s => s.sid == sid)

/-- v_h of a sensor in 2^−16 mm/s; 0 selects 1,600 mm/s (R50, R212). -/
def SensorEnt.vh (s : SensorEnt) : Nat := if s.vhb = 0 then 0x06400000 else s.vhb

/-- TRADD in µs, ZR in mm and CONFMIN of a word of CMN_SEPCFG. -/
def sepTradd (w : Nat) : Nat := w % 65536
def sepZr (w : Nat) : Nat := w / 65536 % 256
def sepConfmin (w : Nat) : Nat := w / 2 ^ 24 % 128

/-- T_d and T_r in ns. -/
def Dev.sepTd (d : Dev) : Nat := if d.time.layout.beat = 62500 then 2 * d.time.layout.beat else d.time.layout.beat
def Dev.sepTr (d : Dev) : Nat := 3 * d.time.layout.beat + sepTradd d.commons.sepcfg * 1000

/-- C + Z_d + Z_r in units of 2^−16 mm, Z_d doubled below the confidence threshold (R204, R206). -/
def Dev.sepConst (d : Dev) (s : SensorEnt) (t : Track) : Nat :=
  (d.commons.intrs.getD s.sid 0 + sepZr d.commons.sepcfg) * 65536 +
    (if t.conf < sepConfmin d.commons.sepcfg then 2 * s.posunc else s.posunc)

/-- What every c_0 holds before its own time: L + T_d + T_r, in ns. -/
def Dev.sepLag (d : Dev) (s : SensorEnt) : Nat := s.lat * 1000 + d.sepTd + d.sepTr

/-- c_0 of R207 in units of 2^−62 mm from 32 times its time in ns, and 32 times the half interval or its like. -/
def Dev.rowC0 (d : Dev) (a : ArmEnt) (s : SensorEnt) (t : Track) (time32 half32 : Nat) : Int :=
  divRne (((s.vh * time32 + (a.tcpvb + s.vh) * half32) * 2 ^ 46 : Nat) : Int) 32000000000 + (d.sepConst s t : Int) * 2 ^ 46

/-- c_0 (2^−62 mm) and c_v (1/32 ns) of a row of kind 2 at a knot t_k ns after knot 0, with its interval, for T_stop in ns
(R207). -/
def Dev.sepKnot (d : Dev) (a : ArmEnt) (s : SensorEnt) (t : Track) (tstop tk gap : Nat) : Int × Nat :=
  (d.rowC0 a s t (32 * (d.sepLag s + 2 * d.ts + tstop + tk)) (16 * gap),
   32 * (d.sepTr + d.ts + d.sepTd) + 16 * tstop)

/-- The same of a row of kind 3 at stop point i. -/
def Dev.sepStop (d : Dev) (a : ArmEnt) (s : SensorEnt) (t : Track) (tstop i : Nat) : Int × Nat :=
  (d.rowC0 a s t (32 * (d.sepLag s + 2 * d.ts) + 2 * i * tstop) tstop, tstop)

/-! The record's constants (R210). -/

/-- T_stop in ns for the record: that of the plan in force, before the first plan that of the problem. -/
def Dev.sepTstop (d : Dev) : Nat :=
  (match d.planner.servo.inForce with | some p => p.tstop * 1000 | none => d.get KLN_TSTOP * 1000)

/-- C0 in units of 2^−4 mm, rounded to nearest. -/
def Dev.sepC0 (d : Dev) (s : SensorEnt) (t : Track) (tstop : Nat) : Nat :=
  (divRne (s.vh * (d.sepLag s + d.ts + tstop) + d.sepConst s t * 1000000000 : Nat) (4096 * 1000000000)).toNat

/-- CV in ns. -/
def Dev.sepCv (d : Dev) (tstop : Nat) : Nat := d.sepTr + tstop / 2 + d.ts + d.sepTd

/-- VLIM in 2^−16 mm/s. -/
def vlimOf (dist c0 cv : Nat) : Nat :=
  if dist ≤ c0 ∨ cv = 0 then 0 else (divRne ((dist - c0 : Nat) * 4096000000000 : Nat) cv).toNat

end Sys2Proof.Machine
end

