-- ==== Sys2Proof/Machine/Commons.lean ====
section
/-! DEFINITION. The Commons and Separation Unit: the stride latch (R185 to R199), person tracks (R200 to R205), and the
separation limit record (R206 to R212). -/

namespace Sys2Proof.Machine

/-! Requests and releases from the host (R186, R189, R193). -/

/-- COMMONS_REQUEST and COMMONS_RELEASE wait for their latch. -/
def Dev.queueCommons (d : Dev) (c : Cmd) (request : Bool) : Dev :=
  { d with commons := { d.commons with queue := d.commons.queue ++
      [⟨d.now, request, c.u 0x18 1, c.u 0x19 1, if request then c.u 0x1C 4 else 0, c.id⟩] } }

def Dev.hold? (d : Dev) (cid : Nat) : Option Hold := d.commons.holds.find? (fun h => h.cid == cid)

def Dev.setHolds (d : Dev) (hs : List Hold) : Dev := { d with commons := { d.commons with holds := hs } }
def Dev.setReqs (d : Dev) (rs : List CReq) : Dev := { d with commons := { d.commons with reqs := rs } }

/-- A source of group 6, at most once per latch (R214): a request of this latch already waiting is not doubled. -/
def raise6 (seen : List (Nat × Nat)) (s det : Nat) : List (Nat × Nat) :=
  if seen.any (fun x => x.1 == s) then seen else seen ++ [(s, det)]

/-- The latch in progress: the device, the sources to raise, the model it works from, the measured configuration at S, and
the signed distances of arms to commons in it (arm, commons, 2^−62 mm; none for an arm without a capsule that counts). -/
structure Latch where
  d : Dev
  ev : List (Nat × Nat)
  m : Model
  scene : Scene
  near : List (Nat × Nat × Option Int)
  t : Nat
  deriving DecidableEq, Repr

def Latch.mark (l : Latch) (s det : Nat) : Latch := { l with ev := raise6 l.ev s det }

/-- The latch opens: the pipes evaluate the measured state at S (R79, R188). -/
def Latch.open_ (d : Dev) (m : Model) (t : Nat) : Latch :=
  let x := m.scene d.measQ
  ⟨d, [], m, x, m.arms.flatMap (fun a => m.commons.map (fun c =>
    (a.armid, c.cid, (d.toCommons m x a.armid c).map (·.d)))), t⟩

/-- Signed distance of an arm to a commons in 2^−62 mm. -/
def Latch.dist (l : Latch) (arm cid : Nat) : Option Int :=
  (l.near.find? (fun x => x.1 == arm && x.2.1 == cid)).bind (·.2.2)

/-- The arm has cleared the commons (R188). -/
def Latch.cleared (l : Latch) (arm cid : Nat) : Bool :=
  match l.dist arm cid with | none => true | some v => decide (0 ≤ v)

def Latch.entry (l : Latch) (cid : Nat) : Option CommonsEnt := l.m.commons.find? (fun c => c.cid == cid)

/-- R199: a model activation latched in this stride acts on the commons first. Commons-free points go, and with them the
targets of the retreats in progress (R197). -/
def Latch.activation (l : Latch) : Latch :=
  let has := fun cid => (l.entry cid).isSome
  let allowed := fun cid arm => match l.entry cid with | some e => bitOf e.armmask arm | none => false
  let gone := l.d.commons.reqs.filter (fun r => !has r.cid)
  let lost := l.d.commons.holds.filter (fun h => !allowed h.cid h.arm)
  let d := gone.foldl (fun (d : Dev) (r : CReq) => d.complete r.cmd .superseded r.age 0 0 0) l.d
  let d := lost.foldl (fun (d : Dev) (h : Hold) => match h.release with | some c => d.finish c .aborted | none => d) d
  let d := d.setReqs (d.commons.reqs.filter (fun r => has r.cid))
  let d := d.setHolds (d.commons.holds.filter (fun h => allowed h.cid h.arm))
  let d := { d with commons := { d.commons with
    retreats := (d.commons.retreats.filter (fun r => has r.cid)).map (fun (r : Retreat) => { r with target := none }), cfps := [] } }
  { l with d := d }

/-! Tracks. -/

/-- One track as a sub-telegram reports it (Table — Track sub-telegram data). -/
structure TrackRep where
  tid : Nat
  conf : Nat
  gone : Bool
  x : Int
  y : Int
  vx : Int
  vy : Int
  ztop : Nat
  rad : Nat
  deriving DecidableEq, Repr

/-- Tracks of one sub-telegram of 32 bytes (SEQ, 26 data bytes, CRC). -/
def trackReps (b : List Byte) : List TrackRep :=
  let nt := uAt b 3 1 / 64
  (List.range (min nt 2)).map (fun i =>
    let o := 2 + 12 * i
    { tid := uAt b (o + 2) 1, conf := uAt b (o + 3) 1 % 128, gone := bitOf (uAt b (o + 3) 1) 7,
      x := sAt b (o + 4) 2, y := sAt b (o + 6) 2, vx := sAt b (o + 8) 2, vy := sAt b (o + 10) 2,
      ztop := 10 * uAt b (o + 12) 1, rad := 4 * uAt b (o + 13) 1 })

/-- CRC-32 of R218 over node address, SEQ and the 26 data bytes. -/
def subCrcOk (laddr : Nat) (b : List Byte) : Bool :=
  b.length == 32 && crc32 (BitVec.ofNat 8 laddr :: b.take 28) == uAt b 28 4

/-- What a sensor delivered in this stride (R201): the reports, or none where it is lost; whether it reported more tracks
than its MAXTR; the newest sequence counter accepted. -/
def sensorDelivery (s : SensorEnt) (last : Option Nat) (subs : List (List Byte)) :
    Option (List TrackRep) × Bool × Option Nat :=
  let ok := subs.filter (fun b =>
    subCrcOk s.node b && (match last with | none => true | some q => newer 16 (uAt b 0 2) q))
  match ok with
  | [] => (none, false, last)
  | b0 :: _ =>
    let nsub := uAt b0 2 1
    let total := (ok.map (fun b => min (uAt b 3 1 / 64) 2)).foldl (· + ·) 0
    let whole := (List.range nsub).all (fun i => ok.any (fun b => uAt b 3 1 % 64 == i)) &&
      ok.all (fun b => uAt b 2 1 == nsub) && decide (1 ≤ nsub)
    let seq := ok.foldl (fun q b => if newer 16 (uAt b 0 2) q then uAt b 0 2 else q) (uAt b0 0 2)
    let ovr := decide (s.maxtr < total)
    (if whole && !ovr then some (ok.flatMap trackReps) else none, ovr, some seq)

/-- Foot point of a track in the cell frame, units of 2^−4 mm; only cell x and y are kept (R202). -/
def footPoint (s : SensorEnt) (r : TrackRep) : Int × Int :=
  let o := quatRot s.rot
  (divRne (s.pos.getD 0 0 * 2 ^ 44 + o.cx.x * r.x + o.cy.x * r.y) (2 ^ 56),
   divRne (s.pos.getD 1 0 * 2 ^ 44 + o.cx.y * r.x + o.cy.y * r.y) (2 ^ 56))

/-- Velocity of a track in the cell frame, units of 2^−16 mm/s (R202). -/
def cellVelocity (s : SensorEnt) (r : TrackRep) : V3 :=
  let o := quatRot s.rot
  (V3.add (V3.scale r.vx o.cx) (V3.scale r.vy o.cy)).shr 44

/-- First index of a sensor's block: the MAXTR of the sensors with lower SID (R203). -/
def blockStart (m : Model) (sid : Nat) : Nat :=
  ((m.sensors.filter (fun s => s.sid < sid)).map (·.maxtr)).foldl (· + ·) 0

def setTracks (l : Latch) (ts : List Track) : Latch :=
  { l with d := { l.d with commons := { l.d.commons with tracks := ts } } }

def Latch.dropCount (l : Latch) : Latch := { l with d := l.d.bump 0x7114 }

/-- A track becomes COASTING (Table — Commons and separation event sources, TRACK_COAST). -/
def Latch.coast (l : Latch) (t : Track) (miss : Nat) : Latch × Track :=
  (if t.live then l.mark 7 t.idx else l, { t with live := false, miss := t.miss + miss })

/-- GONE, then the reported tracks of a sensor that live, of one delivery (first two rows). -/
def Latch.refresh (l : Latch) (s : SensorEnt) (reps : List TrackRep) : Latch :=
  let gone := fun (t : Track) => t.sid == s.sid && reps.any (fun r => r.tid == t.tid && r.gone)
  let n := (l.d.commons.tracks.filter gone).length
  let l := { l with d := l.d.bumpN 0x7114 n }
  let ts := l.d.commons.tracks.filter (fun t => !gone t)
  setTracks l (ts.map (fun t =>
    match (if t.sid == s.sid then reps.find? (fun r => r.tid == t.tid) else none) with
    | none => t
    | some r =>
      let p := footPoint s r
      let v := cellVelocity s r
      { t with conf := r.conf, live := true, age := 0, miss := 0, x := p.1, y := p.2, vx := v.x, vy := v.y, vz := v.z,
               ztop := r.ztop, rad := r.rad, growth := 0 }))

/-- Tracks of the block that the delivery does not report: coasting, and dropped at COAST misses (third row). -/
def Latch.unreported (l : Latch) (s : SensorEnt) (reps : List TrackRep) : List Track → Latch
  | [] => l
  | t :: rest =>
    if t.sid == s.sid && !reps.any (fun r => r.tid == t.tid && !r.gone) then
      let r := l.coast t 1
      if r.2.miss ≥ l.d.get CMN_COAST then
        let l := setTracks r.1 (r.1.d.commons.tracks.filter (fun (x : Track) => x.idx != t.idx))
        (l.mark 6 t.idx).dropCount.unreported s reps rest
      else
        (setTracks r.1 (r.1.d.commons.tracks.map (fun (x : Track) => if x.idx = t.idx then r.2 else x))).unreported s reps rest
    else l.unreported s reps rest

/-- Insert a track in ascending index. -/
def insTrack (t : Track) : List Track → List Track
  | [] => [t]
  | x :: xs => if t.idx < x.idx then t :: x :: xs else x :: insTrack t xs

/-- A new TID takes the lowest free index of the block, or that of the coasting track with the largest AGE (fourth row). -/
def Latch.newTids (l : Latch) (s : SensorEnt) : List TrackRep → Latch
  | [] => l
  | r :: rest =>
    if r.gone || l.d.commons.tracks.any (fun t => t.sid == s.sid && t.tid == r.tid) then l.newTids s rest
    else
      let b := blockStart l.m s.sid
      let used := fun i => l.d.commons.tracks.any (fun (t : Track) => t.idx == i)
      let enter := fun (l : Latch) (i : Nat) =>
        let p := footPoint s r
        let v := cellVelocity s r
        let t : Track := ⟨i, s.sid, r.tid, r.conf, true, 0, 0, p.1, p.2, v.x, v.y, v.z, r.ztop, r.rad, 0⟩
        let l := setTracks l (insTrack t l.d.commons.tracks)
        ({ l with d := l.d.bump 0x7110 }).mark 5 i
      match (List.range s.maxtr).find? (fun k => !used (b + k)) with
      | some k => (enter l (b + k)).newTids s rest
      | none =>
        let age := fun i => ((l.d.commons.tracks.find? (fun t => t.idx == i)).map (·.age)).getD 0
        let coasting := (l.d.commons.tracks.filter (fun t => t.sid == s.sid && !t.live)).map (·.idx)
        match leastBy (fun i => 255 - age i) coasting with
        | none => l.newTids s rest
        | some i =>
          let l := setTracks l (l.d.commons.tracks.filter (fun t => t.idx != i))
          (enter (l.mark 6 i).dropCount i).newTids s rest

/-- One sensor's turn (R201, R203). -/
def Latch.sensor (l : Latch) (s : SensorEnt) : Latch :=
  let rt := (l.d.commons.sensors.find? (fun r => r.sid == s.sid)).getD ⟨s.sid, false, none⟩
  let subs := ((l.d.heath.nodes.find? (fun n => n.laddr == s.node)).map (·.tracks)).getD []
  let v := sensorDelivery s rt.seq subs
  let put := fun (l : Latch) (lost : Bool) =>
    { l with d := { l.d with commons := { l.d.commons with
        sensors := l.d.commons.sensors.filter (fun (r : SensorRt) => r.sid != s.sid) ++ [(⟨s.sid, lost, v.2.2⟩ : SensorRt)] } } }
  let l := if v.2.1 then l.mark 10 s.sid else l
  match v.1 with
  | some reps =>
    let l := if rt.lost then l.mark 9 s.sid else l
    let l := (put l false).refresh s reps
    (l.unreported s reps l.d.commons.tracks).newTids s reps
  | none =>
    let l := if rt.lost then l else ({ l with d := l.d.bump 0x7118 }).mark 8 s.sid
    let l := put l true
    l.d.commons.tracks.foldl (fun (l : Latch) (t : Track) =>
      if t.sid == s.sid then
        let r := l.coast t 0
        setTracks r.1 (r.1.d.commons.tracks.map (fun (x : Track) => if x.idx = t.idx then r.2 else x))
      else l) l

/-- Every coasting track ages and grows by VHB × T_s (last row). -/
def Latch.grow (l : Latch) : Latch :=
  setTracks l (l.d.commons.tracks.map (fun t =>
    if t.live then t
    else { t with age := min 255 (t.age + 1),
                  growth := t.growth + (((l.m.sensorOf t.sid).map (·.vh)).getD 0) * l.d.ts }))

/-- Step `take_tracks`. Tracks of a sensor the model no longer has are dropped. -/
def Latch.takeTracks (l : Latch) : Latch :=
  let l := setTracks l (l.d.commons.tracks.filter (fun t => (l.m.sensorOf t.sid).isSome))
  let l := { l with d := { l.d with commons := { l.d.commons with
      sensors := l.d.commons.sensors.filter (fun r => (l.m.sensorOf r.sid).isSome) } } }
  (l.m.sensors.foldl (fun (l : Latch) (s : SensorEnt) => l.sensor s) l).grow

/-! Commons. -/

/-- Step `update_cfp` (R197). CFMARG is in mm. -/
def Latch.updateCfp (l : Latch) : Latch :=
  let marg : Int := l.d.get CMN_CFMARG * 2 ^ 62
  let free := fun (a : ArmEnt) => l.m.commons.all (fun c =>
    match l.dist a.armid c.cid with | none => true | some v => decide (marg ≤ v))
  let f := fun (cs : List (Nat × List Int)) (a : ArmEnt) =>
    if free a then
      cs.filter (fun x => x.1 != a.armid) ++ [(a.armid, (List.range a.nj).map (fun j => l.d.measQ (a.firstj + j)))]
    else cs
  { l with d := { l.d with commons := { l.d.commons with cfps := l.m.arms.foldl f l.d.commons.cfps } } }

/-- A commons becomes FREE: its release completes and RELEASE is raised (R193, R194). -/
def Latch.free (l : Latch) (h : Hold) : Latch :=
  let d := l.d.setHolds (l.d.commons.holds.filter (fun x => x.cid != h.cid))
  let d := match h.release with | some c => d.finish c .ok | none => d
  ({ l with d := d }).mark 1 h.arm

/-- Step `clear_yields_and_releases`. -/
def Latch.clearYields (l : Latch) : Latch :=
  let l := l.d.commons.holds.foldl (fun (l : Latch) (h : Hold) =>
    if h.st != .held && l.cleared h.arm h.cid then l.free h else l) l
  { l with d := { l.d with commons := { l.d.commons with
      retreats := l.d.commons.retreats.filter (fun r => !l.cleared r.arm r.cid) } } }

/-- One request at its latch (Table — Request outcomes). -/
def Latch.request (l : Latch) (r : HostReq) : Latch :=
  let on := fun (d : Dev) => { l with d := d }
  match l.entry r.cid with
  | none => on (l.d.finish r.cmd .rejectedParam)
  | some e =>
    if r.arm ≥ 8 || !bitOf e.armmask r.arm then on (l.d.finish r.cmd .rejectedParam)
    else if l.d.plState = 0 || !l.d.armPresent l.m r.arm then on (l.d.finish r.cmd .rejectedState)
    else
      let mine := l.d.commons.holds.find? (fun h => h.cid == r.cid && h.arm == r.arm)
      match mine with
      | some h =>
        match h.st with
        | .held => on (l.d.finish r.cmd .ok)
        | .relpend =>
          let d := match h.release with | some c => l.d.finish c .aborted | none => l.d
          let d := d.setHolds (d.commons.holds.map (fun x =>
            if x.cid = r.cid then { x with st := .held, release := none } else x))
          on (d.finish r.cmd .ok)
        | .yielding => on (l.d.finish r.cmd .rejectedState)
      | none =>
        match l.d.commons.reqs.find? (fun q => q.arm == r.arm && q.cid == r.cid) with
        | some q =>
          let d := l.d.complete q.cmd .superseded q.age 0 0 0
          on (d.setReqs (d.commons.reqs.map (fun x =>
            if x.arm = r.arm ∧ x.cid = r.cid then { x with tmo := r.tmo, since := l.t, cmd := r.cmd } else x)))
        | none => on (l.d.setReqs (l.d.commons.reqs ++ [⟨r.arm, r.cid, 0, r.tmo, l.t, r.cmd⟩]))

/-- One release at its latch (Table — Release outcomes). -/
def Latch.release (l : Latch) (r : HostReq) : Latch :=
  let on := fun (d : Dev) => { l with d := d }
  match l.d.commons.holds.find? (fun h => h.cid == r.cid && h.arm == r.arm) with
  | some h =>
    if h.st == .held then
      if l.cleared r.arm r.cid then
        let l := l.free h
        { l with d := l.d.finish r.cmd .ok }
      else
        on (l.d.setHolds (l.d.commons.holds.map (fun x =>
          if x.cid = r.cid then { x with st := .relpend, release := some r.cmd } else x)))
    else on (l.d.finish r.cmd .rejectedState)
  | none =>
    match l.d.commons.reqs.find? (fun q => q.arm == r.arm && q.cid == r.cid) with
    | some q =>
      let d := l.d.complete q.cmd .aborted q.age 0 0 0
      let d := d.setReqs (d.commons.reqs.filter (fun x => !(x.arm == r.arm && x.cid == r.cid)))
      on (d.finish r.cmd .ok)
    | none => on (l.d.finish r.cmd .rejectedState)

/-- Step `apply_host_commands`: what was received at least 10 µs before the latch, in order of receipt (R186). -/
def Latch.hostCommands (l : Latch) : Latch :=
  let due := l.d.commons.queue.filter (fun r => r.time + 10000 ≤ l.t)
  let l := { l with d := { l.d with commons := { l.d.commons with
      queue := l.d.commons.queue.filter (fun r => !(r.time + 10000 ≤ l.t)) } } }
  due.foldl (fun (l : Latch) (r : HostReq) => if r.request then l.request r else l.release r) l

/-- Effective priority of a pending request (R190). -/
def Latch.prio (l : Latch) (q : CReq) : Nat :=
  (((l.entry q.cid).map (fun c => c.baseprio.getD q.arm 0)).getD 0) + q.age

/-- The best of the waiting requests: highest effective priority, then lowest arm. -/
def Latch.best (l : Latch) : List CReq → Option CReq
  | [] => none
  | q :: rest =>
    match l.best rest with
    | none => some q
    | some r =>
      if l.prio r < l.prio q ∨ (l.prio r = l.prio q ∧ q.arm < r.arm) then some q else some r

/-- Step `grant` for one commons (R190, R198). -/
def Latch.grantOne (l : Latch) (cid : Nat) : Latch :=
  if (l.d.hold? cid).isSome then l
  else
    match l.best (l.d.commons.reqs.filter (fun q => q.cid == cid &&
        !l.d.commons.retreats.any (fun r => r.cid == cid && r.arm != q.arm))) with
    | none => l
    | some q =>
      let d := l.d.setHolds (l.d.commons.holds ++ [⟨cid, q.arm, .held, none⟩])
      let d := d.setReqs (d.commons.reqs.filter (fun x => !(x.arm == q.arm && x.cid == cid)))
      let d := (d.complete q.cmd .ok q.age 0 0 0).bump 0x7100
      ({ l with d := d }).mark 0 q.arm

def Latch.grant (l : Latch) : Latch :=
  l.m.commons.foldl (fun (l : Latch) (c : CommonsEnt) => l.grantOne c.cid) l

/-- Step `age` (R191). -/
def Latch.ageAll (l : Latch) : Latch :=
  { l with d := l.d.setReqs (l.d.commons.reqs.map (fun q => { q with age := min 255 (q.age + 1) })) }

/-- Step `expire_timeouts` (R192). -/
def Latch.timeouts (l : Latch) : Latch :=
  let out := fun (q : CReq) => q.tmo != 0 && decide (q.since + q.tmo * 1000000 ≤ l.t)
  let l := (l.d.commons.reqs.filter out).foldl (fun (l : Latch) (q : CReq) =>
    ({ l with d := (l.d.complete q.cmd .timeout q.age 0 0 0).bump 0x7108 }).mark 3 q.arm) l
  { l with d := l.d.setReqs (l.d.commons.reqs.filter (fun q => !out q)) }

/-! The wait-for graph (R195). -/

/-- Requests of arm a for commons that b holds in HELD or RELPEND. -/
def Latch.waits (l : Latch) (a b : Nat) : List CReq :=
  l.d.commons.reqs.filter (fun q => q.arm == a &&
    l.d.commons.holds.any (fun h => h.cid == q.cid && h.arm == b && h.st != .yielding))

def Latch.succs (l : Latch) (a : Nat) : List Nat := (List.range 8).filter (fun b => !(l.waits a b).isEmpty)

/-- Depth-first search for a cycle; `path` is the way here, newest first. -/
def findCycle (succs : Nat → List Nat) : Nat → List Nat → Option (List Nat)
  | 0, _ => none
  | _, [] => none
  | fuel + 1, a :: path =>
    (succs a).findSome? (fun b =>
      if (a :: path).contains b then some (((a :: path).takeWhile (· != b)) ++ [b]).reverse
      else findCycle succs fuel (b :: a :: path))

/-- The first cycle of the graph, in edge order. -/
def Latch.firstCycle (l : Latch) : Option (List Nat) :=
  (List.range 8).findSome? (fun a => findCycle l.succs 9 [a])

/-- Put an arm under retreat for a commons and record it (R196, R197). -/
def Latch.retreat (l : Latch) (arm cid cycle : Nat) (intr : Bool) : Latch :=
  let target := (l.d.commons.cfps.find? (fun x => x.1 == arm)).map (·.2)
  let time := l.d.s + l.d.ts + l.d.get CMN_RETREAT * 1000000
  let d := { l.d with commons := { l.d.commons with
      retreats := l.d.commons.retreats.filter (fun (r : Retreat) => !(r.arm == arm && r.cid == cid)) ++ [(⟨arm, cid, time, target⟩ : Retreat)] } }
  { l with d := d.setReg 0x7028 (BitVec.ofNat 32
      (arm + (if target.isNone then 8 else 0) + cid * 16 + (if intr then 1024 else 0) + cycle * 65536)) }

/-- One round of `break_cycles`. -/
def Latch.yieldOne (l : Latch) (cyc : List Nat) : Latch :=
  let next := fun a => match (cyc.dropWhile (· != a)).tail with | b :: _ => b | [] => cyc.headD 0
  let ep := fun a => ((l.waits a (next a)).map l.prio).foldl max 0
  match leastBy ep (cyc.mergeSort (fun a b => decide (b ≤ a))) with
  | none => l
  | some y =>
    let x := ((cyc.find? (fun a => next a == y)).getD 0)
    match leastBy id ((l.waits x y).map (·.cid)) with
    | none => l
    | some g =>
      let d := l.d.setHolds (l.d.commons.holds.map (fun h => if h.cid = g then { h with st := .yielding } else h))
      let l := (({ l with d := d.bump 0x7104 }).retreat y g (maskOf cyc) false)
      l.mark 2 y

/-- Step `break_cycles`: at most one yield per commons. -/
def Latch.breakCycles (l : Latch) : Nat → Latch
  | 0 => l
  | n + 1 => match l.firstCycle with | none => l | some cyc => (l.yieldOne cyc).breakCycles n

/-- Step `build_wfg`: CMN_WFG shows the graph before cycles are broken. -/
def Latch.buildWfg (l : Latch) : Latch :=
  let w := (List.range 8).foldl (fun a i => a + maskOf (l.succs i) * 2 ^ (8 * i)) 0
  { l with d := l.d.put64 0x70C0 w }

/-- Step `find_intruders` (R198), by arm, then by commons. -/
def Latch.intruders (l : Latch) : Latch :=
  l.near.foldl (fun (l : Latch) (x : Nat × Nat × Option Int) =>
    let held := l.d.commons.holds.any (fun h => h.cid == x.2.1 && h.arm == x.1)
    let under := l.d.commons.retreats.any (fun r => r.cid == x.2.1 && r.arm == x.1)
    if !l.cleared x.1 x.2.1 && !held && !under then
      (({ l with d := l.d.bump 0x710C }).retreat x.1 x.2.1 0 true).mark 4 x.1
    else l) l

/-! The separation limit record. -/

/-- SEPPCRC (R212) of a model's sensors under CMN_INTR and CMN_SEPCFG. -/
def Dev.seppcrc (d : Dev) (m : Option Model) : Nat :=
  let f := fun s => match m.bind (fun m => m.sensorOf s) with
    | some e => leBytes 4 e.vh ++ leBytes 4 e.lat ++ leBytes 4 e.posunc ++ leBytes 4 (d.get (CMN_INTRD s))
    | none => leBytes 16 0
  crc32c ((List.range 8).flatMap f ++ leBytes 4 (d.get CMN_TRADD) ++ leBytes 4 (d.get CMN_ZR))

/-- The entry of one arm and track, none where VLIM reaches the arm's declared bound. An arm inside a track's capsule is at
distance 0; an arm without a capsule that counts has no distance to be entered. -/
def Latch.sepEntry (l : Latch) (a : ArmEnt) (t : Track) : Option SepEntry :=
  match l.d.toTrack l.m l.scene a.armid t none, l.m.sensorOf t.sid with
  | some g, some s =>
    let ts := l.d.sepTstop
    let c0 := l.d.sepC0 s t ts
    let dist := (divRne g.d (2 ^ 58)).toNat
    let v := vlimOf dist c0 (l.d.sepCv ts)
    if a.tcpvb ≤ v then none
    else some ⟨a.armid, t.idx, a.nj, a.firstj, v, dist, c0, (List.range a.nj).map (fun j =>
      satS 32 (-(divRne (((g.g.find? (fun x => x.1 == a.firstj + j)).map (·.2)).getD 0) (2 ^ 46))))⟩
  | _, _ => none

/-! The record as bytes (R211). -/

def SepEntry.bytes (e : SepEntry) : List Byte :=
  leBytes 1 e.arm ++ leBytes 1 e.track ++ leBytes 1 e.nj ++ leBytes 1 e.firstj ++ leBytes 4 e.vlim ++ leBytes 4 e.dist ++
  leBytes 4 (encSigned 32 e.c0) ++ (List.range 12).flatMap (fun i => leBytes 4 (encSigned 32 (e.gains.getD i 0)))

/-- Bytes 0x00 to 0x1B of the header. -/
def SepRecord.head (r : SepRecord) : List Byte :=
  leBytes 8 r.tfrom ++ leBytes 8 r.tto ++ leBytes 4 r.rseq ++ leBytes 2 r.entries.length ++ leBytes 2 r.flags ++
  leBytes 4 r.seppcrc

def SepRecord.body (r : SepRecord) : List Byte := r.entries.flatMap SepEntry.bytes

/-- The record with its CRC-32C over the header before it and all entries. -/
def SepRecord.bytes (r : SepRecord) : List Byte := r.head ++ leBytes 4 (crc32c (r.head ++ r.body)) ++ r.body

/-- Consecutive pieces of at most n bytes. -/
def pieces (n : Nat) (b : List Byte) : List (List Byte) :=
  (List.range ((b.length + n - 1) / n)).map (fun i => (b.drop (n * i)).take n)

def sepParseEntry (b : List Byte) : SepEntry :=
  ⟨uAt b 0 1, uAt b 1 1, uAt b 2 1, uAt b 3 1, uAt b 4 4, uAt b 8 4, uAt b 0x0C 4, vecAt b 0x10 (uAt b 2 1)⟩

/-- A record gathered from its transfers; none where its length or its CRC is wrong. -/
def sepParse (b : List Byte) : Option SepRecord :=
  let n := uAt b 0x14 2
  if b.length != 32 + 64 * n || uAt b 0x1C 4 != crc32c (b.take 28 ++ b.drop 32) then none
  else some ⟨uAt b 0 8, uAt b 8 8, uAt b 0x10 4, uAt b 0x16 2, uAt b 0x18 4,
    (List.range n).map (fun i => sepParseEntry (bytesAt b (32 + 64 * i) 64))⟩

/-- Step `build_record` (R210 to R212). A parity error keeps the record from being complete (R211). -/
def Latch.buildRecord (parity : Bool) (l : Latch) : Latch :=
  let ents := (l.m.arms.filter (fun a => l.d.armPresent l.m a.armid)).flatMap (fun a =>
    l.d.commons.tracks.filterMap (fun t => l.sepEntry a t))
  let d := l.d
  let tfrom := d.s + d.sepTd
  let sepp := d.seppcrc (some l.m)
  let d := d.setReg 0x7020 (BitVec.ofNat 32 sepp)
  if parity then
    ({ l with d := { d with commons := { d.commons with built := none, lateAt := some tfrom } } }).mark 13 noDetail
  else
    let rseq := (d.commons.rseq + 1) % 2 ^ 32
    let fl := (if d.commons.sensors.any (·.lost) then 1 else 0) + (if d.commons.tracks.any (fun t => !t.live) then 2 else 0)
    let r : SepRecord := ⟨tfrom, tfrom + d.ts, rseq, fl, sepp, ents⟩
    let d := { d with commons := { d.commons with rseq := rseq, built := some r, lateAt := none } }
    let d := (List.range 8).foldl (fun (d : Dev) a =>
      let vs := (ents.filter (fun e => e.arm == a)).map (·.vlim)
      d.setReg (0x70E0 + 4 * a) (BitVec.ofNat 32 (vs.foldl min 0xFFFFFFFF))) d
    match ents.find? (fun e => e.vlim == 0) with
    | some e => ({ l with d := d.bump 0x7120 }).mark 11 e.arm
    | none => { l with d := d }

/-! Publication. -/

/-- The byte of a commons in CMN_HOLD. -/
def holdByte (h : Hold) : Nat :=
  h.arm + (if h.st = .yielding then 16 else 0) + (if h.st = .relpend then 32 else 0) + 128

/-- Track words of one index. -/
def Dev.publishTrack (d : Dev) (ts : List Track) (i : Nat) : Dev :=
  let b := 0x7800 + 16 * i
  match ts.find? (fun t => t.idx == i) with
  | none => (((d.setReg b 0).setReg (b + 4) 0).setReg (b + 8) 0).setReg (b + 12) 0
  | some t =>
    (((d.setReg b (BitVec.ofNat 32 (t.sid + t.tid * 256 + (if t.live then 1 else 2) * 65536 + t.age * 2 ^ 24))).setReg
      (b + 4) (BitVec.ofInt 32 t.x)).setReg (b + 8) (BitVec.ofInt 32 t.y)).setReg
      (b + 12) (BitVec.ofNat 32 (t.ztop + t.radius * 65536))

/-- What the registers show as of this latch. -/
def Latch.publish (l : Latch) (before : List Track) : Latch :=
  let d := l.d
  let ts := d.commons.tracks
  let d := (List.range 16).foldl (fun (d : Dev) k =>
    d.setReg (0x7040 + 4 * k) (BitVec.ofNat 32 ((List.range 4).foldl (fun a i =>
      a + (match d.commons.holds.find? (fun h => h.cid == 4 * k + i) with
           | some h => holdByte h | none => 0) * 2 ^ (8 * i)) 0))) d
  let d := (List.range 8).foldl (fun (d : Dev) a =>
    d.put64 (0x7080 + 8 * a) (maskOf ((d.commons.reqs.filter (fun q => q.arm == a)).map (·.cid)))) d
  let d := d.put64 0x70C8 (maskOf ((ts.filter (·.live)).map (·.idx)))
  let d := d.put64 0x70D0 (maskOf ((ts.filter (fun t => !t.live)).map (·.idx)))
  let lost := (d.commons.sensors.filter (·.lost)).map (·.sid)
  let d := d.setReg 0x7024 (BitVec.ofNat 32 ((if lost.isEmpty then 0 else 1) + maskOf lost * 256 + ts.length * 65536))
  let idxs := (before.map (·.idx) ++ ts.map (·.idx)).eraseDups
  let d := idxs.foldl (fun (d : Dev) i => d.publishTrack ts i) d
  { l with d := d }

/-- CMN_SEPACT, CMN_SEPCFG and CMN_INTR as written take effect. -/
def Dev.takeSepCfg (d : Dev) : Dev :=
  { d with commons := { d.commons with sepact := d.get CMN_SEPACT, sepcfg := (d.reg 0x7004).toNat,
                                       intrs := (List.range 8).map (fun s => d.get (CMN_INTRD s)) } }

/-- The latch of R185, in the order of its steps; in IDLE nothing is latched. `parity` is a parity error in the unit's
memory. -/
def Dev.csuLatch (d : Dev) (parity : Bool) : Dev :=
  if !d.up then d
  else
    let t := d.s + 60000
    let d := (d.reach t).retainJoints
    let m? := match d.modelDue with | some m => some m | none => d.kiln.active
    match m? with
    | none =>
      -- without a model every commons is unknown (R189)
      let d' := d.commons.queue.foldl (fun (d : Dev) (r : HostReq) =>
        d.finish r.cmd (if r.request then .rejectedParam else .rejectedState)) d
      { d' with commons := { d'.commons with queue := [] } }
    | some m =>
      if d.plState = 0 then
        -- with the planner IDLE no step runs; requests and releases are still answered (R189)
        (Latch.open_ d m t).hostCommands.d
      else
        let before := d.commons.tracks
        let l := Latch.open_ d.takeSepCfg m t
        let l := { l with d := { l.d with kiln := { l.d.kiln with latchSat := d.sceneSat m l.scene } } }
        let l := if d.modelDue.isSome then l.activation else l
        let l := l.takeTracks.updateCfp.clearYields.hostCommands.grant.ageAll.timeouts.buildWfg
        let l := ((l.breakCycles 64).intruders.buildRecord parity).publish before
        let clr := { l.d.heath with nodes := l.d.heath.nodes.map (fun n => { n with tracks := [] }) }
        l.ev.foldl (fun (d : Dev) (e : Nat × Nat) => d.raise (srcNo 6 e.1) e.2) { l.d with heath := clr }

/-! The commands. -/

/-- ARMMASK and CID are checked with the entry (R470 step 3); the rest waits for the latch (R189). -/
def execCommonsRequest (s : State) : Out :=
  s.run (fun d => d.start 0x28 (fun d c =>
    let ok := (d.kiln.active.bind (fun m => m.commons.find? (fun e => e.cid == c.u 0x19 1))).any (fun e =>
      decide (c.u 0x18 1 < 8) && bitOf e.armmask (c.u 0x18 1))
    if ok then d.queueCommons c true else d.finish c.id .rejectedParam))
def execCommonsRelease (s : State) : Out := s.run (fun d => d.start 0x29 (fun d c => d.queueCommons c false))

/-- The record built at the latch is transferred to channel A before its TFROM, in transfers of at most 4 KiB (R211). -/
def execSepRecordDeliver (s : State) : Out :=
  s.run (fun d =>
    match d.commons.built with
    | some r => if d.up && decide (d.now < r.tfrom) then
        { d with commons := { d.commons with built := none, sent := pieces 4096 r.bytes } } else d
    | none => d)

/-- REC_LATE at the TFROM of a record that could not be complete, or was not delivered by then (R211). -/
def execRecLate (s : State) : Out :=
  s.run (fun d =>
    let late := match d.commons.lateAt, d.commons.built with
      | some t, _ => some t
      | none, some r => some r.tfrom
      | none, none => none
    match late with
    | some t =>
      if d.up then
        let d := d.reach t
        let d := { d with commons := { d.commons with lateAt := none, built := none } }
        (d.bump 0x711C).raise (srcNo 6 12) noDetail
      else d
    | none => d)

end Sys2Proof.Machine
end

