-- ==== Sys2Proof/Machine/SafetySet.lean ====
section
/-! DEFINITION. The safety parameter set (R252): its layout and the checks each channel makes of it (R253). -/

namespace Sys2Proof.Machine

/-- Section offsets of a set: header, pairs, arms, joints, spheres, sensors. -/
structure SetLayout where
  narm : Nat
  njoint : Nat
  nsph : Nat
  nsns : Nat
  deriving DecidableEq, Repr

def setLayout (b : List Byte) : SetLayout := ⟨uAt b 0x16 1, uAt b 0x17 1, uAt b 0x18 1, uAt b 0x19 1⟩
def SetLayout.armOff (_ : SetLayout) (i : Nat) : Nat := 320 + 64 * i
def SetLayout.jointOff (l : SetLayout) (i : Nat) : Nat := l.armOff l.narm + 64 * i
def SetLayout.sphOff (l : SetLayout) (i : Nat) : Nat := l.jointOff l.njoint + 32 * i
def SetLayout.snsOff (l : SetLayout) (i : Nat) : Nat := l.sphOff l.nsph + 32 * i
def SetLayout.size (l : SetLayout) : Nat := l.snsOff l.nsns

/-- A value of 0 selects a default. -/
def orDefault (v dflt : Nat) : Nat := if v = 0 then dflt else v

def parsePair (b : List Byte) (i : Nat) : SafPair :=
  let o := 64 + 16 * i
  { type := uAt b o 1, react := uAt b (o + 1) 1, armmask := uAt b (o + 2) 1, autorest := bitOf (uAt b (o + 3) 1) 0,
    filt := orDefault (uAt b (o + 4) 2) 1000, tdisc := orDefault (uAt b (o + 6) 2) 50, tpmax := uAt b (o + 8) 2,
    tsync := orDefault (uAt b (o + 10) 2) 500, bytes := bytesAt b o 16 }

/-- The set the bytes spell. -/
def parseSet (b : List Byte) : SafSet :=
  let l := setLayout b
  { setid := uAt b 0x10 4, setcrc := uAt b 0x0C 4, tb := uAt b 0x14 1, strb := uAt b 0x15 1,
    tgmiss := orDefault (uAt b 0x1A 1) 2, hostack := bitOf (uAt b 0x1B 1) 0, top := orDefault (uAt b 0x1C 2) 300,
    seppcrc := uAt b 0x20 4, utol := uAt b 0x24 4, hvhb := orDefault (uAt b 0x28 4) 0x06400000, thr := uAt b 0x2C 4,
    hcoast := uAt b 0x30 1, hblind := uAt b 0x31 1,
    pairs := (List.range 16).map (parsePair b),
    arms := (List.range l.narm).map (fun i =>
      let o := l.armOff i
      ⟨uAt b o 1, uAt b (o + 1) 1, uAt b (o + 2) 1, uAt b (o + 4) 2, uAt b (o + 6) 2,
       vecAt b (o + 8) 3, vecAt b (o + 0x14) 4⟩),
    joints := (List.range l.njoint).map (fun i =>
      let o := l.jointOff i
      ⟨uAt b o 1, uAt b (o + 1) 1, uAt b (o + 2) 1, bitOf (uAt b (o + 3) 1) 0, uAt b (o + 4) 4, uAt b (o + 8) 4,
       uAt b (o + 12) 4, uAt b (o + 16) 4, uAt b (o + 20) 4, vecAt b (o + 0x18) 3, vecAt b (o + 0x24) 4⟩),
    spheres := (List.range l.nsph).map (fun i =>
      let o := l.sphOff i
      ⟨uAt b o 1, uAt b (o + 1) 1, (List.range 3).map (fun k => sAt b (o + 4 + 2 * k) 2), uAt b (o + 10) 2, uAt b (o + 12) 2,
       (List.range 12).map (fun k => uAt b (o + 14 + k) 1)⟩),
    sensors := (List.range l.nsns).map (fun i =>
      let o := l.snsOff i
      ⟨uAt b o 1, uAt b (o + 1) 1, vecAt b (o + 4) 3, vecAt b (o + 16) 4⟩) }

/-- A field is 0 or lies in a range. -/
def zeroOr (v lo hi : Nat) : Bool := v == 0 || (lo ≤ v && v ≤ hi)

def headerOk (b : List Byte) (len tb : Nat) : Bool :=
  uAt b 0 4 == 0x53464553 && uAt b 4 2 == 0x0103 && uAt b 6 2 == 0x40 &&
  uAt b 8 4 == (setLayout b).size && uAt b 8 4 == len && b.length == len && decide (len ≤ 8192) &&
  uAt b 0x0C 4 == crc32 (b.drop 0x10) && uAt b 0x14 1 == tb && (4 ≤ uAt b 0x15 1 && uAt b 0x15 1 ≤ 16) &&
  (1 ≤ uAt b 0x16 1 && uAt b 0x16 1 ≤ 8) && (1 ≤ uAt b 0x17 1 && uAt b 0x17 1 ≤ 60) &&
  decide (uAt b 0x18 1 ≤ 32) && decide (uAt b 0x19 1 ≤ 8) && decide (uAt b 0x1A 1 ≤ 8) && decide (uAt b 0x1B 1 ≤ 1) &&
  zeroOr (uAt b 0x1C 2) 100 1000 && zeroAt b 0x1E 2 && decide (1 ≤ uAt b 0x30 1) && decide (1 ≤ uAt b 0x31 1) &&
  zeroAt b 0x32 14

/-- An input pair entry, with R224, R226 and R227. -/
def pairOk (b : List Byte) (i : Nat) : Bool :=
  let o := 64 + 16 * i
  let t := uAt b o 1
  let prev := if i = 0 then 0 else uAt b (o - 16) 1
  (t ≤ 6 || t == 0xFF) && decide (uAt b (o + 1) 1 ≤ 1) && decide (uAt b (o + 3) 1 ≤ 1) &&
  zeroOr (uAt b (o + 4) 2) 100 16000 && zeroOr (uAt b (o + 6) 2) 1 1000 && decide (uAt b (o + 8) 2 ≤ 1000) &&
  zeroOr (uAt b (o + 10) 2) 1 500 && zeroAt b (o + 12) 4 &&
  (t == 4 || uAt b (o + 8) 2 == 0) &&
  (t != 1 || (uAt b (o + 3) 1 == 0 && uAt b (o + 2) 1 == 0xFF)) &&
  (t != 3 || (uAt b (o + 3) 1 == 0 && i % 2 == 0 && uAt b (o + 16) 1 == 0xFF)) &&
  (t != 0xFF || (i % 2 == 1 && prev == 3)) &&
  (t != 4 || decide (uAt b (o + 8) 2 ≤ orDefault (uAt b (o + 4) 2) 1000))

def safArmOk (b : List Byte) (o : Nat) : Bool :=
  decide (uAt b o 1 ≤ 7) && (1 ≤ uAt b (o + 1) 1 && uAt b (o + 1) 1 ≤ 12) &&
  decide (uAt b (o + 2) 1 + uAt b (o + 1) 1 ≤ 60) && zeroAt b (o + 3) 1 &&
  decide (uAt b (o + 6) 2 ≤ uAt b (o + 4) 2) && decide (uAt b (o + 4) 2 ≤ 10000) &&
  (16 ≤ uAt b (o + 6) 2 && uAt b (o + 6) 2 ≤ 2000) && unitNorm (vecAt b (o + 0x14) 4) && zeroAt b (o + 0x24) 28

/-- A joint entry; AMON is held against DMON of the active model (R43, R253). -/
def safJointOk (m : Option Model) (b : List Byte) (o : Nat) : Bool :=
  let dmon := m.bind (fun m => (m.joints.find? (fun j => j.gj == uAt b o 1)).map (·.dmon))
  decide (uAt b o 1 ≤ 59) && (1 ≤ uAt b (o + 1) 1 && uAt b (o + 1) 1 ≤ 96) && decide (uAt b (o + 2) 1 ≤ 7) &&
  decide (uAt b (o + 3) 1 ≤ 1) && unitNorm (vecAt b (o + 0x24) 4) && zeroAt b (o + 0x34) 12 &&
  (match dmon with | some x => decide (uAt b (o + 4) 4 ≤ x) | none => true)

def sphereOk (b : List Byte) (o : Nat) : Bool :=
  decide (uAt b o 1 ≤ 7) && decide (uAt b (o + 1) 1 ≤ 11) && zeroAt b (o + 2) 2 && decide (1 ≤ uAt b (o + 10) 2) &&
  zeroAt b (o + 0x1A) 6

def snsOk (b : List Byte) (o : Nat) : Bool :=
  decide (uAt b o 1 ≤ 7) && (1 ≤ uAt b (o + 1) 1 && uAt b (o + 1) 1 ≤ 96) && zeroAt b (o + 2) 2 &&
  unitNorm (vecAt b (o + 16) 4)

/-- The sections a channel finds faulty: bit 0 the header, then pairs, arms, joints, spheres, sensors (R253, R254). -/
def checkSet (m : Option Model) (len tb : Nat) (b : List Byte) : Nat :=
  let l := setLayout b
  let bit := fun (ok : Bool) (n : Nat) => if ok then 0 else 2 ^ n
  bit (headerOk b len tb) 0 +
  bit ((List.range 16).all (pairOk b)) 1 +
  bit ((List.range l.narm).all (fun i => safArmOk b (l.armOff i))) 2 +
  bit ((List.range l.njoint).all (fun i => safJointOk m b (l.jointOff i))) 3 +
  bit ((List.range l.nsph).all (fun i => sphereOk b (l.sphOff i))) 4 +
  bit ((List.range l.nsns).all (fun i => snsOk b (l.snsOff i))) 5

end Sys2Proof.Machine
end

