-- ==== Sys2Proof/Machine/SafetyOps.lean ====
section
/-! DEFINITION. What a safety channel does: its pairs, requests for arms, output sides, per-beat monitoring, verdicts and
resets (R215 to R257). Channel A is `false`, the Hedge `true`. -/

namespace Sys2Proof.Machine

/-! The two channels. -/

def Dev.ch (d : Dev) (h : Bool) : Channel := if h then d.safety.b else d.safety.a

def Dev.updCh (d : Dev) (h : Bool) (f : Channel → Channel) : Dev :=
  { d with safety := if h then { d.safety with b := f d.safety.b } else { d.safety with a := f d.safety.a } }

/-- The channel runs: channel A with the main die and its SAFA clock, the Hedge on VAUX (Table — Independence). -/
def Dev.chUp (d : Dev) (h : Bool) : Bool := if h then d.hedgeUp else d.up && d.is CLK_SAFALK

/-- Raise a safety source: group 7 at once, group 8 at the next refresh of the mirror (R260). -/
def Dev.raiseS (d : Dev) (h : Bool) (s det : Nat) : Dev :=
  if h then
    if d.safety.hdgEv.contains (s, det) then d
    else { d with safety := { d.safety with hdgEv := d.safety.hdgEv ++ [(s, det)] } }
  else d.raise (srcNo 7 s) det

/-- Increment counter k of a channel; the Hedge keeps its own and the mirror shows it (R259). -/
def Dev.countS (d : Dev) (h : Bool) (k : Nat) : Dev :=
  if h then { d with safety := { d.safety with hdgCnt := updAt d.safety.hdgCnt k bumpWord } }
  else d.bump (0x8040 + 4 * k)

/-- Bits of a mask that are not in another. -/
def minusMask (m n : Nat) : Nat := maskOf ((List.range 16).filter (fun i => bitOf m i && !bitOf n i))
def unionMask (m n : Nat) : Nat := maskOf ((List.range 16).filter (fun i => bitOf m i || bitOf n i))

/-- The fault classes latched (SAFA_FAULT). -/
def Channel.faults (c : Channel) : Nat := maskOf ((List.range 11).filter (fun n => c.flt.getD n 0 != 0))

/-- Latch a fault class, to be cleared by a reset of the arms of a mask (R250), or of every arm where the mask names none. -/
def Dev.fault (d : Dev) (h : Bool) (c mask : Nat) : Dev :=
  d.updCh h (fun ch => { ch with flt := (List.range 11).map (fun n =>
    let old := ch.flt.getD n 0
    if n = c then (if unionMask old mask = 0 then 0xFF else unionMask old mask) else old) })

/-- The set that governs a channel: none while no set is in force (R254). -/
def Dev.setOf (d : Dev) (h : Bool) : Option SafSet := if d.safety.inForce then (d.ch h).set else none

/-- Arms of the set, as a mask. -/
def SafSet.armMask (s : SafSet) : Nat := maskOf (s.arms.map (·.arm))

def Channel.arm (c : Channel) (a : Nat) : ArmRt := c.arms.getD a ⟨.sto, true, true, 0, 0⟩
def Channel.updArm (c : Channel) (a : Nat) (f : ArmRt → ArmRt) : Channel := { c with arms := updAt c.arms a f }
def Channel.pair (c : Channel) (i : Nat) : PairRt := c.pairs.getD i ⟨false, 0, false, 0, false, false, false, .off, 0⟩
def Channel.updPair (c : Channel) (i : Nat) (f : PairRt → PairRt) : Channel := { c with pairs := updAt c.pairs i f }
def Channel.axis (c : Channel) (gj : Nat) : Option SafAxis := c.axes.find? (fun x => x.gj == gj)
def Channel.updAxis (c : Channel) (gj : Nat) (f : SafAxis → SafAxis) : Channel :=
  { c with axes := c.axes.map (fun x => if x.gj = gj then f x else x) }

/-- A request for an arm is latched: by an input pair or by another source (R223, SAFA_ARM). -/
def Channel.latchedArm (c : Channel) (a : Nat) : Bool := (c.arm a).latched || c.pairs.any (fun p => bitOf p.lat a)

/-- Axes not accepted in this beat, as a mask of joints. -/
def Channel.missingAxes (c : Channel) : Nat := maskOf ((c.axes.filter (fun x => !x.got)).map (·.gj))

/-! Pairs (R222 to R229). -/

/-- The pair that carries the logic of pair i: the even pair of a two-hand control. -/
def SafSet.home (s : SafSet) (i : Nat) : Nat := if ((s.pairs[i]?).map (·.type)).getD 0 = 0xFF then i - 1 else i

/-- Does the pair demand on the channel's own signal (Table — Input pair types)? -/
def Channel.wants (c : Channel) (s : SafSet) (i : Nat) : Bool :=
  let k := s.home i
  let p := c.pair k
  match ((s.pairs[k]?).map (·.type)).getD 0 with
  | 1 | 4 | 6 => !p.level
  | 2 => !p.level || p.startTest
  | 3 => p.two != .on
  | _ => false

/-- State of a pair as SAFA_PAIR and the verdict code it: 0 OK, 1 DEMAND, 2 FAULT, 3 STARTTEST. -/
def Channel.pairCode (c : Channel) (s : SafSet) (i : Nat) : Nat :=
  let p := c.pair (s.home i)
  if p.fault then 2 else if p.startTest then 3 else if c.wants s i then 1 else 0

/-- All sixteen pair states; without a set every pair reads STARTTEST, as after reset. -/
def Channel.pairWord (c : Channel) (s : Option SafSet) : Nat :=
  match s with
  | none => 0xFFFFFFFF
  | some s => (List.range 16).foldl (fun a i => a + c.pairCode s i * 4 ^ i) 0

/-- Pairs whose demand is latched and acts on arms. -/
def latches (t : Nat) : Bool := 1 ≤ t && t ≤ 4

/-! Requests (R234 to R236). -/

/-- Arms present under the active model (R44). -/
def Dev.presentArms (d : Dev) : Nat := match d.kiln.active with | some m => d.presence m | none => 0

/-- Latch a request for the arms of a mask. -/
def Dev.latchArms (d : Dev) (h : Bool) (mask : Nat) : Dev :=
  d.updCh h (fun c => { c with arms := c.arms.mapIdx (fun a (r : ArmRt) => { r with latched := r.latched || bitOf mask a }) })

/-- Put the arms of a mask into STO (R235). -/
def Dev.toSto (d : Dev) (h : Bool) (mask : Nat) : Dev :=
  (bitsOf mask 8).foldl (fun (d : Dev) a =>
    let was := ((d.ch h).arm a).st
    let d := d.updCh h (fun c => c.updArm a (fun r => { r with st := .sto, phase := 0, still := 0 }))
    if was = .sto then d else d.raiseS h 2 a) d

/-- The stop request a channel issues with an SS1 request, unless a stop branch has been entered (R236). The Hedge's
crosses the cross-die link. -/
def Dev.stopFrom (d : Dev) (h : Bool) : Dev :=
  if d.up && (!h || d.is CLK_XDIE) && d.planner.te.isNone then d.stopRequest else d

/-- SS1 for the arms of a mask that are not in SS1 or STO, of which the request covers some, and the stop request (R236). -/
def Dev.enterSs1 (d : Dev) (h : Bool) (arms cov : Nat) : Dev :=
  let d := (bitsOf arms 8).foldl (fun (d : Dev) a =>
    let r := (d.ch h).arm a
    let d := d.updCh h (fun c => c.updArm a (fun r =>
      { r with st := r.st.stricter .ss1, covered := r.covered || bitOf cov a, still := if r.st = .ss1 then r.still else 0 }))
    if r.st.code < 2 then d.raiseS h 1 a else d) d
  d.stopFrom h

/-- Take up an SS1 request that covers the arms of a mask: the stop request, SS1 for these arms and for every present arm
not already in SS1 or STO, and STO at the end of the ramp for the arms covered (R234, R236, R238). -/
def Dev.toSs1 (d : Dev) (h : Bool) (mask : Nat) : Dev := d.enterSs1 h (unionMask mask d.presentArms) mask

/-- Requests that are latched for the arms they cover. -/
def Dev.reqSto (d : Dev) (h : Bool) (mask : Nat) : Dev := (d.latchArms h mask).toSto h mask
def Dev.reqSs1 (d : Dev) (h : Bool) (mask : Nat) : Dev := (d.latchArms h mask).toSs1 h mask

/-- A pair's request for the arms it covers: its REACT (R223). The pair itself holds the latch. -/
def Dev.reqPair (d : Dev) (h : Bool) (p : SafPair) : Dev := if p.react = 0 then d.toSto h p.armmask else d.toSs1 h p.armmask

/-- A pair demands: the demand is latched for its arms, and a new one requests its reaction. -/
def Dev.demand (d : Dev) (h : Bool) (k : Nat) (p : SafPair) (new : Bool) : Dev :=
  let fresh := new || minusMask p.armmask ((d.ch h).pair k).lat != 0
  let d := d.updCh h (fun c => c.updPair k (fun r => { r with lat := unionMask r.lat p.armmask }))
  if fresh then d.reqPair h p else d

/-- Re-evaluate a pair after its signal or test changed: a new demand is latched, requests its reaction and raises DEMAND;
a two-hand control that turns ON clears its latch (R223, R226). -/
def Dev.pairEval (d : Dev) (h : Bool) (i : Nat) (before : Nat) : Dev :=
  match d.setOf h with
  | none => d
  | some s =>
    let k := s.home i
    match s.pairs[k]? with
    | none => d
    | some p =>
      let code := (d.ch h).pairCode s k
      let d := if code != 0 && code != before && code != 3 then d.raiseS h 0 k else d
      if !latches p.type then d
      else if code != 0 then d.demand h k p (before == 0)
      else if p.type = 3 then d.updCh h (fun c => c.updPair k (fun r => { r with lat := 0 }))
      else d

/-! Outputs (R216, R221, R230 to R233, R251). -/

/-- An arm is safety-ready: every joint of it in the set has an axis that delivers accepted sub-telegrams (R221). -/
def Channel.ready (c : Channel) (s : SafSet) (a : Nat) : Bool :=
  match s.arms.find? (fun x => x.arm == a) with
  | none => false
  | some x => (s.joints.filter (fun j => x.firstj ≤ j.gj && j.gj < x.firstj + x.nj)).all (fun j =>
      match c.axis j.gj with | some r => r.seq.isSome && !r.lost | none => false)

/-- The channel may drive sides high at all. -/
def Dev.sidesFree (d : Dev) (h : Bool) : Bool :=
  d.chUp h && d.safety.inForce && (if h then !d.hedgeHeld && !(d.ch h).failed else true)

/-- The sides a channel commands high for its function states, before tests. -/
def Dev.wantSides (d : Dev) (h : Bool) : Nat :=
  match d.setOf h with
  | none => 0
  | some s =>
    if !d.sidesFree h then 0
    else
      let c := d.ch h
      (List.range 8).foldl (fun m a =>
        let r := c.arm a
        let on := c.ready s a && r.st != .sto
        let m := setBit m a (on && decide (2 ≤ r.phase) && !bitOf c.outFlt a)
        setBit m (8 + a) (on && r.phase == 3 && !bitOf c.outFlt (8 + a))) 0

/-- Drive the sides: commands less the sides in an off-pulse test, with the sides in their clearing test high; readbacks of
sides without a fault follow. A side in its test that its functions no longer want leaves the test (R257). An arm that is
not ready falls back to the start of its output sequence. -/
def Dev.drive (d : Dev) (h : Bool) : Dev :=
  let d : Dev := match d.setOf h with
    | none => d.updCh h (fun c => { c with arms := c.arms.map (fun (r : ArmRt) => { r with phase := min r.phase 1 }) })
    | some s => d.updCh h (fun c => { c with arms := c.arms.mapIdx (fun a (r : ArmRt) =>
        if r.st = .sto then { r with phase := 0 }
        else if c.ready s a then r else { r with phase := min r.phase 1 }) })
  let want := d.wantSides h
  d.updCh h (fun c =>
    let cmd := unionMask (minusMask want c.pulse) (if d.sidesFree h then c.clearing else 0)
    { c with cmd := cmd, pulse := minusMask c.pulse (minusMask c.pulse want), rb := unionMask (minusMask cmd c.outFlt) (maskOf ((bitsOf c.outFlt 16).filter (bitOf c.rb))) })

/-! Registers (SAFA_ block and its mirror, R259). -/

def armWord (c : Channel) : Nat :=
  (List.range 8).foldl (fun m a => m + ((c.arm a).st.code + (if c.latchedArm a then 8 else 0)) * 16 ^ a) 0

/-- Publish a channel's status registers at the base of its block. -/
def Dev.publishCh (d : Dev) (h : Bool) : Dev :=
  let base := if h then 0x9000 else 0x8000
  let c := d.ch h
  let bit := fun (b : Bool) (n : Nat) => if b then 2 ^ n else 0
  let d := d.setReg base (BitVec.ofNat 32 (bit c.set.isSome 0 + bit d.safety.inForce 1 + bit c.failed 2 +
    bit d.safety.unlocked 3))
  let d := d.setReg (base + 4) (BitVec.ofNat 32 (match d.setOf h with | some s => s.setcrc | none => 0))
  let d := d.setReg (base + 8) (BitVec.ofNat 32 (c.pairWord (d.setOf h)))
  let d := d.setReg (base + 12) (BitVec.ofNat 32 (armWord c))
  let d := d.setReg (base + 16) (BitVec.ofNat 32 (c.cmd + c.rb * 65536))
  let d := d.setReg (base + 20) (BitVec.ofNat 32 (c.faults % 2048))
  d.setReg (base + 24) (BitVec.ofNat 32 (c.te.getD 0xFFFFFFFF))

/-- Refresh the mirror of the Hedge: its registers, its counters, and the sources it raised since (R30, R259, R260). -/
def Dev.refreshMirror (d : Dev) : Dev :=
  if d.up && d.is CLK_XDIE && d.hedgeUp then
    let d := d.publishCh true
    let d := d.setReg 0x9060 (BitVec.ofNat 32 (d.safety.b.cyc % 65536))
    let d := (List.range 7).foldl (fun (d : Dev) k => d.setReg (0x9040 + 4 * k) (d.safety.hdgCnt.getD k 0)) d
    let evs := d.safety.hdgEv
    let d := { d with safety := { d.safety with hdgEv := [] } }
    evs.foldl (fun (d : Dev) e => d.raise (srcNo 8 e.1) e.2) d
  else d

/-- After an operation of a channel its sides follow; channel A's registers show it. -/
def Dev.settle (d : Dev) (h : Bool) : Dev := let d := d.drive h; if h then d else d.publishCh false

/-- An operation of a running channel. -/
def Dev.safe (d : Dev) (h : Bool) (f : Dev → Dev) : Dev := if d.chUp h then (f d).settle h else d

/-! Fault reactions (R220, R233, R247, R248, R250). -/

/-- STO of the arms of a mask and SS1 of all other arms, for which the fault asks no STO at the end. -/
def Dev.stoAndSs1 (d : Dev) (h : Bool) (mask : Nat) : Dev := (d.reqSto h mask).enterSs1 h (minusMask 0xFF mask) 0

/-- SS1 for all arms with STO at the end. -/
def Dev.ss1All (d : Dev) (h : Bool) : Dev := d.reqSs1 h 0xFF

/-- Every arm into STO at once; without a set the arms are there already. -/
def Dev.stoAll (d : Dev) (h : Bool) : Dev := d.reqSto h 0xFF

/-- The arm a joint of the set belongs to. -/
def SafSet.armOf (s : SafSet) (gj : Nat) : Option Nat :=
  (s.arms.find? (fun a => a.firstj ≤ gj && gj < a.firstj + a.nj)).map (·.arm)

/-- An axis is lost (R220). -/
def Dev.axisLost (d : Dev) (h : Bool) (s : SafSet) (gj : Nat) : Dev :=
  let d := d.updCh h (fun c => c.updAxis gj (fun x => { x with lost := true, okRun := 0 }))
  let mask := match s.armOf gj with | some a => 2 ^ a | none => 0
  ((d.fault h 1 mask).raiseS h 6 gj).stoAndSs1 h mask

/-- An axis sub-telegram counts as refused in this beat (R219, R246). -/
def Dev.telegramErr (d : Dev) (h : Bool) (gj : Nat) : Dev :=
  ((d.updCh h (fun c => c.updAxis gj (fun x => { x with err := true }))).countS h 1).raiseS h 5 gj

/-- One more beat in which an axis was refused or missing. -/
def Dev.axisRefused (d : Dev) (h : Bool) (s : SafSet) (gj : Nat) : Dev :=
  let d := d.updCh h (fun c => c.updAxis gj (fun x => { x with refused := x.refused + 1, okRun := 0 }))
  match (d.ch h).axis gj with
  | some x => if x.refused ≥ s.tgmiss && !x.lost then d.axisLost h s gj else d
  | none => d

/-- An output fault of side n (R233): the detecting side goes low and stays low. -/
def Dev.outputFault (d : Dev) (h : Bool) (n : Nat) : Dev :=
  let d := d.updCh h (fun c => { c with outFlt := setBit c.outFlt n true, pulse := setBit c.pulse n false,
                                        clearing := setBit c.clearing n false })
  let d := ((d.fault h 2 (2 ^ (n % 8))).countS h 3).raiseS h 7 n
  d.stoAndSs1 h (2 ^ (n % 8))

/-- The axes of a mask were refused or missing in a beat (R220). -/
def Dev.judgeAxes (d : Dev) (h : Bool) (mask : Nat) : Dev :=
  match d.setOf h with
  | none => d
  | some s => (bitsOf mask 60).foldl (fun (d : Dev) gj => d.axisRefused h s gj) d

/-- The axes of this beat are judged, once (R220). -/
def Dev.judgeBeat (d : Dev) (h : Bool) : Dev :=
  if (d.ch h).judged then d
  else (d.updCh h (fun c => { c with judged := true })).judgeAxes h (d.ch h).missingAxes

/-- A clock fault (R248). -/
def Dev.clockFault (d : Dev) (h : Bool) : Dev := ((d.fault h 8 0xFF).raiseS h 13 noDetail).stoAll h

/-- The channels disagree (R247). -/
def Dev.disagree (d : Dev) (h : Bool) : Dev := (((d.fault h 7 0xFF).countS h 5).raiseS h 12 noDetail).ss1All h

/-! Per-beat monitoring (R237 to R244). -/

/-- A violation of an arm is found: its fault class and its source, and the arm is marked (R251). -/
def Dev.violate (d : Dev) (h : Bool) (cls src a det : Nat) : Dev :=
  ((d.fault h cls (2 ^ a)).raiseS h src det).updCh h (fun c => { c with viol := setBit c.viol a true })

/-- Joints of an arm of the set. -/
def SafSet.jointsOf (s : SafSet) (a : Nat) : List SafJoint :=
  s.joints.filter (fun j => s.armOf j.gj == some a)

/-- The ramp of R237 `ns` after t0: is |v| ≤ max(0, |v0| − a_eff·t) + VTOL? -/
def rampOk (j : SafJoint) (tramp : Nat) (v0 v : Int) (ns : Nat) : Bool :=
  let m0 := v0.natAbs
  let own := j.amon * 16 * tramp ≤ m0 * 1000
  -- both slopes over a common denominator
  let num := if own then j.amon * 16 * ns * tramp else m0 * 1000 * ns
  let den := 1000000000 * tramp
  decide (v.natAbs * den ≤ (m0 * den - num) + j.vtol * den)

/-- SS1 and HOLD monitoring of one arm in one beat (R237, R238). `el` is the time since t0, once t0 is reached; an arm that
has no joint in the set is at standstill. -/
def Dev.armMonitor (d : Dev) (h : Bool) (s : SafSet) (a : Nat) (el : Option Nat) : Dev :=
  let c := d.ch h
  let r := c.arm a
  let tramp := ((s.arms.find? (fun x => x.arm == a)).map (·.tramp)).getD 16
  let js := (s.jointsOf a).filterMap (fun j => (c.axis j.gj).map (fun y => (j, y)))
  match r.st, el with
  | .ss1, some ns =>
    if js.any (fun p => !rampOk p.1 tramp p.2.v0 p.2.spd ns) then (d.violate h 3 8 a a).reqSto h (2 ^ a)
    else
      let slow := js.all (fun p => decide (p.2.spd.natAbs < p.1.vss))
      let n := if slow then r.still + 1 else 0
      let d := d.updCh h (fun c => c.updArm a (fun r => { r with still := n }))
      if n ≥ 3 && !(h = false && c.failed) then
        if r.covered then d.toSto h (2 ^ a) else d.updCh h (fun c => c.updArm a (fun r => { r with st := .hold }))
      else d
  | .hold, _ =>
    if js.any (fun p => decide (p.2.spd.natAbs > p.1.vss + p.1.vtol)) then (d.violate h 3 8 a a).reqSto h (2 ^ a)
    else d
  | _, _ => d

/-- Fixed SLS of one arm (R239). -/
def Dev.slsMonitor (d : Dev) (h : Bool) (s : SafSet) (x : SafArm) : Dev :=
  let c := d.ch h
  let sel := (List.range 16).any (fun i => match s.pairs[i]? with
    | some p => p.type == 6 && bitOf p.armmask x.arm && (!(c.pair i).level || (c.pair i).fault)
    | none => false)
  let bad := (s.jointsOf x.arm).any (fun j => j.vsls != 0 && (match c.axis j.gj with
    | some y => decide (y.spd.natAbs > j.vsls + j.vtol)
    | none => false))
  if sel && bad then ((d.violate h 4 9 x.arm x.arm).countS h 4).reqSs1 h (2 ^ x.arm) else d

/-- The record in force at B, the newest of those accepted (R240). -/
def Dev.recordAt (d : Dev) (t : Nat) : Option SepRecord :=
  d.safety.recs.find? (fun r => r.tfrom ≤ t && t < r.tto)

/-- Approach speeds against the record in force (R240), channel A. -/
def Dev.approachMonitor (d : Dev) (s : SafSet) (t : Nat) : Dev :=
  match d.recordAt t with
  | none => d
  | some r =>
    r.entries.foldl (fun (d : Dev) e =>
      let u := (List.range e.nj).foldl (fun (acc : Int) i =>
        acc + e.gains.getD i 0 * (((d.safety.a.axis (e.firstj + i)).map (·.spd)).getD 0)) 0
      if u > ((e.vlim + s.utol : Nat) : Int) * 65536 then
        ((d.violate false 4 9 e.arm e.arm).countS false 4).reqSs1 false (2 ^ e.arm)
      else d) d

/-- The plan window (R242), channel A, at the instant of the telegrams: against the plan in force in channel A, or its stop
branch. -/
def Dev.windowMonitor (d : Dev) (s : SafSet) (plan : Option Plan) (t : Nat) : Dev :=
  match plan with
  | none => d
  | some p =>
    s.joints.foldl (fun (d : Dev) j =>
      match s.armOf j.gj, d.safety.a.axis j.gj, followAt p d.planner.te j.gj t with
      | some a, some y, some k =>
        if y.seq.isSome && bitOf d.presentArms a && (d.safety.a.arm a).st != .sto && decide ((y.pos - k.q).natAbs > j.pwin) then
          ((d.violate false 5 10 a j.gj).countS false 4).reqSs1 false (2 ^ a)
        else d
      | _, _, _ => d) d

/-- Radius of a Hedge track in 2^−16 mm, with its growth. -/
def HTrack.radius16 (t : HTrack) : Nat := t.rad * 65536 + t.growth / 1000000000

/-- Position and speed of an axis as the beat before left them. -/
def SafAxis.before (x : SafAxis) : Int × Int := x.back.getD (x.pos, x.spd)

def Channel.posOf (c : Channel) (gj : Nat) : Int := ((c.axis gj).map (·.before.1)).getD 0
def Channel.spdOf (c : Channel) (gj : Nat) : Int := ((c.axis gj).map (·.before.2)).getD 0

/-- Joints of the set on an arm up to an index within the arm, in order. -/
def SafSet.upTo (s : SafSet) (a : SafArm) (aj : Nat) : List (Nat × SafJoint) :=
  (List.range (aj + 1)).filterMap (fun i => (s.joints.find? (fun j => j.gj == a.firstj + i)).map (fun j => (i, j)))

/-- Centre of a sphere: OFFS through the base pose and the joint frames of the set at the safe positions (R243). -/
def SafSet.centre (s : SafSet) (c : Channel) (a : SafArm) (σ : SafSphere) : V3 :=
  let f := (s.upTo a σ.aj).foldl (fun (f : Frame) x =>
      (f.mul ⟨quatRot x.2.prot, V3.ofMm x.2.ppos⟩).mul (slideTurn x.2.prismatic (c.posOf x.2.gj)))
    ⟨quatRot a.baserot, V3.ofMm a.basepos⟩
  f.at (V3.scale (2 ^ 62) ⟨σ.offs.getD 0 0, σ.offs.getD 1 0, σ.offs.getD 2 0⟩)

/-- Speed bound of a sphere in 2^−16 mm/s (R243). -/
def SafSet.sphereSpeed (s : SafSet) (c : Channel) (a : SafArm) (σ : SafSphere) : Nat :=
  (s.upTo a σ.aj).foldl (fun acc x =>
    let v := (c.spdOf x.2.gj).natAbs
    acc + (if x.2.prismatic then v * 1000 else σ.lev.getD x.1 0 * 16 * v)) 0

/-- A Hedge track's segment (R202, R244). -/
def HTrack.ends (t : HTrack) : V3 × V3 :=
  let z := fun (v : Int) => (⟨t.x * 2 ^ 58, t.y * 2 ^ 58, v⟩ : V3)
  if t.ztop < 2 * t.rad then (z ((t.ztop : Int) * 2 ^ 61), z ((t.ztop : Int) * 2 ^ 61))
  else (z ((t.rad : Int) * 2 ^ 62), z (((t.ztop : Int) - t.rad) * 2 ^ 62))

/-- Distance in units of 2^−62 mm from a point to a Hedge track's segment. -/
def HTrack.away (t : HTrack) (p : V3) : Nat :=
  let c := closest p p t.ends.1 t.ends.2
  V3.len (V3.sub c.1 c.2)

/-- Does a sphere keep its distance from a track (R243)? -/
def SafSet.sphereOk (s : SafSet) (c : Channel) (σ : SafSphere) (t : HTrack) : Bool :=
  match s.arms.find? (fun a => a.arm == σ.arm) with
  | none => true
  | some a =>
    let near := (σ.rad + σ.h0) * 65536 + t.radius16
    decide ((near * 1000000 + (s.hvhb + s.sphereSpeed c a σ) * s.thr) * 2 ^ 46 ≤ t.away (s.centre c a σ) * 1000000)

/-- The arm of the first sphere too near to a track. -/
def SafSet.sphereNear (s : SafSet) (c : Channel) : Option Nat :=
  (s.spheres.find? (fun σ => c.tracks.any (fun t => !s.sphereOk c σ t))).map (·.arm)

/-- The reaction to a sphere too near. -/
def Dev.sphereReact (d : Dev) (near : Option Nat) : Dev :=
  match near with
  | some a => (((d.fault true 5 0xFF).countS true 4).raiseS true 10 a).ss1All true
  | none => d

/-- The sphere check of the Hedge: every beat over the telegrams of the beat before; at a 62.5 µs beat begun in an even beat
and reported in the odd beat after it (R243). -/
def Dev.sphereMonitor (d : Dev) (s : SafSet) : Dev :=
  let c := d.safety.b
  let now := s.sphereNear c
  let even := d.get HTL_BEAT % 2 == 0
  let r := if s.tb ≠ 0 then now else c.sphere
  let d := d.updCh true (fun c => { c with sphere := if s.tb = 0 ∧ even then now else c.sphere,
                                           viol := if r.isSome then 0xFF else c.viol })
  if s.tb = 0 ∧ even then d else d.sphereReact r

/-! The Hedge's tracks (R244). -/

/-- Enter or refresh a track of the Hedge. -/
def hedgeTrack (ts : List HTrack) (n : HTrack) : List HTrack :=
  if ts.any (fun t => t.sid == n.sid && t.tid == n.tid) then
    ts.map (fun t => if t.sid = n.sid ∧ t.tid = n.tid then n else t)
  else if ts.length < 64 then ts ++ [n]
  else
    let worst := ((ts.map (·.missed)).foldl max 0)
    match ts.findIdx? (fun t => t.missed == worst) with
    | some i => updAt ts i (fun _ => n)
    | none => ts

/-! Verdicts (R245). -/

def Channel.tgok (c : Channel) (s : Option SafSet) : Nat :=
  match s with
  | none => 0
  | some s => maskOf ((s.joints.filter (fun j => match c.axis j.gj with | some x => x.got | none => false)).map (·.gj))

/-- The Hedge has no verdict of channel A for its last beat. -/
def Dev.hedgeAlone (d : Dev) : Bool := d.safety.b.lastVerdict.isEmpty || d.safety.b.verMiss != 0

/-- t_e as a channel knows it: channel A from the servo wall, the Hedge from the last verdict, without one from its own
beat (R236). -/
def Dev.learnTe (d : Dev) (h : Bool) : Option Nat :=
  let c := d.ch h
  let beat := d.get HTL_BEAT
  if h then
    let t := uAt c.lastVerdict 0x18 4
    if d.hedgeAlone then some beat else if t = 0xFFFFFFFF then none else some t
  else d.planner.te.bind (fun t =>
    if t ≤ d.time.beatAt then some ((beat + 2 ^ 32 - (d.time.beatAt - t) / d.time.layout.beat) % 2 ^ 32) else none)

/-- t_e as a channel reports it: of the stop branch entered, or of the one that a request at the servo wall will enter at the
next beat boundary (R128, R236). -/
def Dev.verdictTe (d : Dev) (h : Bool) : Nat :=
  match d.learnTe h with
  | some t => if h && d.hedgeAlone then (d.ch h).t0.getD 0xFFFFFFFF else t
  | none => if d.planner.stopReq && d.plState != 4 then (d.get HTL_BEAT + 1) % 2 ^ 32 else 0xFFFFFFFF

/-- The 64 bytes of a channel's verdict (Table — Verdict). -/
def Dev.verdict (d : Dev) (h : Bool) (snsok : Nat) : List Byte :=
  let c := d.ch h
  let s := d.setOf h
  let body :=
    leBytes 4 (d.get HTL_BEAT) ++ leBytes 4 (match s with | some x => x.setcrc | none => 0) ++
    leBytes 2 (maskOf ((List.range 16).filter (fun i => (c.pair i).level))) ++ leBytes 2 (if h then c.cyc else 0) ++
    leBytes 4 (c.pairWord s) ++
    (List.range 8).flatMap (fun a => leBytes 1 ((c.arm a).st.code + (if c.latchedArm a then 128 else 0))) ++
    leBytes 4 (d.verdictTe h) ++ leBytes 2 c.cmd ++ leBytes 2 c.rb ++ leBytes 8 (c.tgok s) ++ leBytes 1 snsok ++ leBytes 19 0 ++
    leBytes 2 c.faults
  body ++ leBytes 2 (crc16 body)

/-! Resets (R251). -/

/-- No cause of an arm demands in a channel: its inputs are OK or past their fault, its axes deliver, it broke no limit in the
last monitoring. -/
def Channel.causesGone (c : Channel) (s : SafSet) (a : Nat) : Bool :=
  (List.range 16).all (fun i => match s.pairs[i]? with
    | some p => p.type = 0 || p.type = 0xFF || !bitOf p.armmask a ||
        (!(latches p.type && c.wants s i) && (!(c.pair i).fault || (c.pair i).faultStep == 2))
    | none => true) &&
  !bitOf c.viol a &&
  (s.jointsOf a).all (fun j => match c.axis j.gj with
    | some x => x.got && (!x.lost || decide (8 ≤ x.okRun)) | none => false)

/-- Faulted sides of an arm in a channel. -/
def Channel.fltSides (c : Channel) (a : Nat) : List Nat := [a, 8 + a].filter (bitOf c.outFlt)

/-- The Hedge's oscillator as its last verdict shows it lies within 7 % of nominal (R248). -/
def oscOk (beat : Nat) (v : List Byte) : Bool :=
  decide (beat / 25 * 93 ≤ uAt v 0xA 2 * 100) && decide (uAt v 0xA 2 * 100 ≤ beat / 25 * 107)

/-- Clock check against the tick (R248): the Hedge within 0.90 to 1.10, channel A within 1,200 ppm of nominal. -/
def tickOk (h : Bool) (tb cyc : Nat) : Bool :=
  if h then decide (tb * 90 ≤ cyc * 2500) && decide (cyc * 2500 ≤ tb * 110)
  else
    let nom := tb / 2
    decide ((nom - cyc) * 1000000 ≤ nom * 1200) && decide ((cyc - nom) * 1000000 ≤ nom * 1200)

/-- The cause of a fault class of the whole channel stands: NOREC, XCHK, CLOCK, CHAN, missing verdict (R250). -/
def Dev.stands (d : Dev) (h : Bool) (n : Nat) : Bool :=
  let c := d.ch h
  match n with
  | 6 => if h then c.set.any (fun s => c.sensors.any (fun r => decide (s.hblind < r.lostN))) else decide (2 ≤ d.safety.noRec)
  | 7 => decide (2 ≤ c.verMiss) || c.axes.any (fun x => decide (3 ≤ x.oneSided))
  | 8 => (c.cyc != 0 && !tickOk h d.time.layout.beat c.cyc) ||
      (!h && !c.lastVerdict.isEmpty && !oscOk d.time.layout.beat c.lastVerdict)
  | 9 => c.failed
  | 10 => c.verMiss != 0
  | _ => false

/-- No cause of a reaction of the whole channel stands. -/
def Dev.calm (d : Dev) (h : Bool) : Bool := [6, 7, 8, 9].all (fun n => !d.stands h n)

/-- A fault class of an arm is left by its reset: a pair of the arm is still in FAULT, or the verdict is missing still. -/
def Channel.keepsFault (c : Channel) (s : SafSet) (a n : Nat) : Bool :=
  (n == 0 && (List.range 16).any (fun i => (c.pair i).fault && (s.pairs[i]?).any (fun p => bitOf p.armmask a))) ||
  (n == 10 && c.verMiss != 0)

/-- The fault classes an arm's reset clears (R250, R251). -/
def Channel.clearFaults (c : Channel) (s : SafSet) (a : Nat) : Channel :=
  { c with flt := c.flt.mapIdx (fun n m => if c.keepsFault s a n then m else setBit m a false) }

/-- The reset of one arm in a channel: back to RUN, its latched requests and faults cleared, pairs past their fault OK, its output
sequence started. -/
def Dev.resetArm (d : Dev) (h : Bool) (s : SafSet) (a : Nat) : Dev :=
  d.updCh h (fun c =>
    let c := c.updArm a (fun r => { r with st := .run, latched := false, covered := false, still := 0,
                                           phase := if r.st = .sto then 1 else max r.phase 1 })
    let c := (s.jointsOf a).foldl (fun (c : Channel) j => c.updAxis j.gj (fun x => { x with lost := false, refused := 0 })) c
    let c := { c with pairs := c.pairs.mapIdx (fun i (p : PairRt) => match s.pairs[i]? with
        | some e =>
          let p := { p with lat := setBit p.lat a false }
          if bitOf e.armmask a && p.faultStep == 2 then { p with fault := false, faultStep := 0 } else p
        | none => p) }
    c.clearFaults s a)

end Sys2Proof.Machine
end

