-- ==== Sys2Proof/Machine/Safety.lean ====
section
/-! DEFINITION. The commands of the safety channels: inputs, sub-telegrams, the beat, verdicts, outputs, faults, the set and
the unlock window (R215 to R260). -/

namespace Sys2Proof.Machine

/-! The set (R253 to R256). -/

/-- A torque-removal pair is on: both sides high (R216, R254). -/
def Dev.torqueOn (d : Dev) : Bool :=
  (List.range 8).any (fun a => bitOf d.safety.a.cmd a && bitOf d.safety.b.cmd a)

/-- A load is in progress: until the change over of R255. -/
def Dev.loading (d : Dev) : Bool := d.safety.load.isSome || (d.safety.a.next.isSome && d.safety.b.next.isSome)

/-- SAFETY_PARAM_LOAD (R254): refused in a wrong state, failed without the cross-die link, else fetched for both
channels. -/
def execSafetyParamLoad (f : Fetch) (s : State) : Out :=
  s.run (fun d => d.start 0x12 (fun d c =>
    let beatChange := match d.time.pending with | some (l, _, _) => l.tb != d.time.layout.tb | none => false
    if d.torqueOn || d.loading || beatChange then d.finish c.id .rejectedState
    else if !d.is CLK_XDIE then d.unitFault c.id 3
    else
      let d := d.registerCopy c 3 0
      match d.served f with
      | .failed => d.hostFault c.id 1
      | .bytes b => { d with safety := { d.safety with load := some (c.id, b), loadA := none, loadB := none } }))

/-- A channel has finished checking the set; with both findings the load is accepted or rejected (R253, R254). -/
def execSafetySetChecked (h : Bool) (s : State) : Out :=
  s.run (fun d =>
    match d.safety.load with
    | none => d
    | some (id, b) =>
      if !d.chUp h then d
      else
        let len := ((d.cmd? id).map (·.len)).getD b.length
        let f := checkSet d.kiln.active len d.time.layout.tb b
        let d := { d with safety := if h then { d.safety with loadB := some f } else { d.safety with loadA := some f } }
        let d := d.raiseS h 15 noDetail
        match d.safety.loadA, d.safety.loadB with
        | some fa, some fb =>
          let d := { d with safety := { d.safety with load := none, loadA := none, loadB := none } }
          if fa = 0 ∧ fb = 0 then
            let p := parseSet b
            let d := d.updCmd id (fun c => { c with progress := b.length })
            ((d.updCh false (fun c => { c with next := some p })).updCh true (fun c => { c with next := some p }))
          else d.complete id .rejectedParam b.length (fa + 256 * fb) 0 0
        | _, _ => d)

/-- A channel as it is when a set comes into force: latched requests and faults carry over, pairs whose entries changed start
their test again, axes of the set are kept where they were known (R225, R255). -/
def Channel.changeSet (c : Channel) (n : SafSet) : Channel :=
  let old := fun i => c.set.bind (fun s => (s.pairs[i]?).map (·.bytes))
  { c with
    set := some n, next := none,
    pairs := (List.range 16).map (fun i =>
      let p := c.pair i
      match n.pairs[i]? with
      | some e =>
        if old i = some e.bytes then p
        else { p with startTest := e.type == 2, sawLow := false, press := 0,
                      two := if p.level || (c.pair (i + 1)).level then .blocked else .off }
      | none => p),
    axes := n.joints.map (fun j => (c.axis j.gj).getD ⟨j.gj, 0, 0, none, false, false, none, 0, false, 0, 0, 0⟩),
    sensors := n.sensors.map (fun x => (c.sensors.find? (fun r => r.sid == x.sid)).getD ⟨x.sid, none, [], 0⟩),
    tracks := c.tracks.filter (fun t => n.sensors.any (fun x => x.sid == t.sid)) }

/-- The command whose set waits in a channel: the SAFETY_PARAM_LOAD started and not complete. -/
def Dev.setCmd (d : Dev) : Option Cmd := d.host.cmds.find? (fun c => c.opcode == 0x12 && c.started && c.done.isNone)

/-- Both channels change over at the cross-check point after both acceptances (R255). -/
def Dev.setChange (d : Dev) : Dev :=
  match d.safety.a.next, d.safety.b.next with
  | some na, some nb =>
    let quiet := fun (h : Bool) (i : Nat) => match d.setOf h with
      | some s => (d.ch h).pairCode s i == 0
      | none => true
    let d := (d.updCh false (fun c => c.changeSet na)).updCh true (fun c => c.changeSet nb)
    let d := { d with safety := { d.safety with inForce := na.setcrc == nb.setcrc } }
    let d := (d.raiseS false 15 noDetail).raiseS true 15 noDetail
    -- a demand under the outgoing set is that one (R257); a pair that begins to demand with the new set is latched at once
    let d := ((List.range 16).filter (fun i => na.home i == i)).foldl (fun (d : Dev) i =>
      let d := if quiet false i then d.pairEval false i 0 else d
      if quiet true i then d.pairEval true i 0 else d) d
    match d.setCmd with
    | some c => (d.adoptCopy c.id 3 0 na.setid na.setcrc).complete c.id .ok c.progress 0 na.setcrc na.setid
    | none => d
  | _, _ => d

/-! Inputs (R222 to R228). -/

/-- The two-hand control of pairs k and k + 1 after one of its signals changed (R226). -/
def twoHandNext (t : TwoHand) (i : Nat) (level l0 l1 : Bool) : TwoHand :=
  match t with
  | .off => if level then .arming i else .off
  | .arming f => if level then (if i = f then .arming f else .on)
    -- the other signal is low: through BLOCKED to OFF
    else if i = f then .off else .arming f
  | .on => if l0 && l1 then .on else .blocked
  | .blocked => if l0 || l1 then .blocked else .off

/-- A new level of a pair's own signal is accepted; `held` is how long the level before it had lasted, in µs (R222). -/
def Dev.inputAccept (d : Dev) (h : Bool) (i : Nat) (level : Bool) (held : Nat) : Dev :=
  match d.setOf h with
  | none => d.updCh h (fun c => c.updPair i (fun p => { p with level := level }))
  | some s =>
    let k := s.home i
    let before := (d.ch h).pairCode s k
    let was := ((d.ch h).pair i).level
    let t : Nat := ((s.pairs[k]?).map (·.type)).getD 0
    let d := d.updCh h (fun c => c.updPair i (fun p => { p with level := level }))
    let d : Dev :=
      if t = 5 then
        d.updCh h (fun c => c.updPair i (fun p =>
          { p with press := if level then 0 else if was && decide (100000 ≤ held) && decide (held ≤ 2000000) then 1 else 0 }))
      else if t = 2 then
        d.updCh h (fun c => c.updPair i (fun p =>
          if !level then { p with sawLow := p.startTest }
          else if p.startTest && p.sawLow then { p with startTest := false, sawLow := false } else p))
      else if t = 3 then
        d.updCh h (fun c => c.updPair k (fun p =>
          { p with two := twoHandNext p.two i level (c.pair k).level (c.pair (k + 1)).level }))
      else d
    d.pairEval h i before

def execSafetyInputAccept (h : Bool) (i : Fin 16) (level : Bool) (held : Nat) (s : State) : Out :=
  s.run (fun d => d.safe h (fun d => d.inputAccept h i level held))

/-- A discrepancy has lasted TDISC: the pair enters FAULT (R223); the odd pair of a two-hand control is its even pair. -/
def execDiscrepancyTimeout (h : Bool) (i : Fin 16) (s : State) : Out :=
  s.run (fun d => d.safe h (fun d =>
    match d.setOf h with
    | none => d
    | some st =>
      let k := st.home i
      match st.pairs[k]? with
      | none => d
      | some p =>
        if ((d.ch h).pair i).disc && !((d.ch h).pair k).fault && p.type != 0 then
          let new := (d.ch h).pairCode st k == 0
          let d := d.updCh h (fun c => c.updPair k (fun r => { r with fault := true, faultStep := 0, sawLow := false }))
          let d := (((d.fault h 0 p.armmask).countS h 0).raiseS h 4 k).raiseS h 0 k
          if latches p.type then d.demand h k p new else d
        else d))

/-- TSYNC expires in ARMING (R226). -/
def execTwohandSyncTimeout (h : Bool) (i : Fin 16) (s : State) : Out :=
  s.run (fun d => d.safe h (fun d =>
    match d.setOf h with
    | none => d
    | some st =>
      let k := st.home i
      let before := (d.ch h).pairCode st k
      match ((d.ch h).pair k).two with
      | .arming _ => (d.updCh h (fun c => c.updPair k (fun p => { p with two := .blocked }))).pairEval h i before
      | _ => d))

/-! Sub-telegrams (R219, R201, R244). -/

/-- A sub-telegram of an axis is accepted under R219: its position and speed become those of the axis. -/
def axisAccept (laddr : Nat) (b : List Byte) (x : SafAxis) : Bool :=
  subCrcOk laddr b &&
  (match x.seq with | none => true | some q => 1 ≤ ringDist 65536 (uAt b 0 2) q && ringDist 65536 (uAt b 0 2) q ≤ 3) &&
  uAt b 3 1 / 4 % 4 == 0

/-- A channel judges a sub-telegram of a node; `inSlot` says that it arrived in the node's slot in this beat. -/
def Dev.subReceive (d : Dev) (h : Bool) (laddr : Nat) (b : List Byte) (inSlot : Bool) : Dev :=
  match d.setOf h with
  | none => d
  | some s =>
    match s.joints.find? (fun j => j.node == laddr && j.axis == uAt b 2 1),
          s.sensors.find? (fun x => x.node == laddr) with
    | _, some x =>
      if inSlot then
        d.updCh h (fun c => { c with sensors := c.sensors.map (fun r =>
          if r.sid = x.sid then { r with subs := r.subs ++ [b] } else r) })
      else d
    | some j, none =>
      match (d.ch h).axis j.gj with
      | none => d
      | some x =>
        if inSlot && axisAccept laddr b x then
          d.updCh h (fun c => c.updAxis j.gj (fun x =>
            { x with pos := sAt b 6 4, spd := sAt b 10 4, seq := some (uAt b 0 2), got := true,
                     back := some (x.back.getD (x.pos, x.spd)) }))
        else d.telegramErr h j.gj
    | none, none => d

/-- SUBTELEGRAM_RECEIVE: a channel takes the oldest sub-telegram handed over to it. `lost`: the cross-die link frame of the Hedge's
copy fails its CRC, and the telegram is not received (R217). -/
def execSubtelegramReceive (h lost : Bool) (s : State) : Out :=
  s.run (fun d =>
    let next := (d.ch h).tel.head?
    (d.updCh h (fun c => { c with tel := c.tel.tail })).safe h (fun d =>
      match next with
      | some (a, beat, b) => if h && lost then d else d.subReceive h a b (beat == d.get HTL_BEAT)
      | none => d))

/-- What a sensor of the set delivered to a channel in this stride (R201); the set names no MAXTR. -/
def Channel.snsDelivery (c : Channel) (x : SafSensor) : Option (List TrackRep) × Option Nat :=
  let r := (c.sensors.find? (fun r => r.sid == x.sid)).getD ⟨x.sid, none, [], 0⟩
  let e : SensorEnt := ⟨x.sid, x.node, 64, x.pos, x.rot, 0, 0, 0⟩
  let v := sensorDelivery e r.seq r.subs
  (v.1, v.2.2)

/-- Bits of the sensors that delivered in this stride, 0 outside beat 0 (Table — Verdict). -/
def Dev.snsOk (d : Dev) (h : Bool) : Nat :=
  match d.setOf h with
  | none => 0
  | some s =>
    if d.time.bis = 0 then
      maskOf ((s.sensors.filter (fun x => ((d.ch h).snsDelivery x).1.isSome)).map (·.sid))
    else 0

/-- A sensor's tracks in the Hedge after beat 0 of a stride (R244). -/
def hedgeSensor (s : SafSet) (stride : Nat) (x : SafSensor) (reps : Option (List TrackRep)) (ts : List HTrack) : List HTrack :=
  let e : SensorEnt := ⟨x.sid, x.node, 64, x.pos, x.rot, 0, 0, 0⟩
  let grow := fun (t : HTrack) => { t with growth := t.growth + s.hvhb * stride }
  match reps with
  | none => ts.map (fun t => if t.sid = x.sid then grow t else t)
  | some rs =>
    let ts := ts.filter (fun t => !(t.sid == x.sid && rs.any (fun r => r.tid == t.tid && r.gone)))
    let ts := ts.map (fun t =>
      if t.sid = x.sid ∧ !rs.any (fun r => r.tid == t.tid) then { grow t with missed := t.missed + 1 } else t)
    let ts := ts.filter (fun t => !(t.sid == x.sid && decide (s.hcoast < t.missed)))
    (rs.filter (fun r => !r.gone)).foldl (fun ts r =>
      let p := footPoint e r
      hedgeTrack ts ⟨x.sid, r.tid, p.1, p.2, r.ztop, r.rad, 0, 0⟩) ts

/-- The sensors of a channel at the end of beat 0: counters taken up, and in the Hedge the tracks and the blind rule. -/
def Dev.snsStride (d : Dev) (h : Bool) (s : SafSet) : Dev :=
  s.sensors.foldl (fun (d : Dev) x =>
    let v := (d.ch h).snsDelivery x
    let d := d.updCh h (fun c => { c with
      tracks := if h then hedgeSensor s (s.strb * beatNs s.tb) x v.1 c.tracks else c.tracks,
      sensors := c.sensors.map (fun r =>
        if r.sid = x.sid then { r with seq := v.2, subs := [], lostN := if v.1.isSome then 0 else r.lostN + 1 } else r) })
    let n := (((d.ch h).sensors.find? (fun r => r.sid == x.sid)).map (·.lostN)).getD 0
    if h && decide (s.hblind < n) then ((d.fault true 6 0xFF).raiseS true 11 x.sid).ss1All true else d) d

/-! The beat (R231, R237 to R243, R248). -/

/-- Start the off-pulse of the sides whose test beat this is (R231). -/
def Dev.pulseStart (d : Dev) (h : Bool) : Dev :=
  let ns := 1000000000 / d.time.layout.beat
  let b := d.get HTL_BEAT % ns
  let due := (List.range 16).filter (fun n => b == (2 * n + (if h then 1 else 0)) * ns / 32 && bitOf (d.ch h).cmd n)
  d.updCh h (fun c => { c with pulse := unionMask c.pulse (maskOf due) })

/-- A channel takes up the stop branch: SAFA_TE holds its t_e, and the ramp of the arms in SS1 starts there; a later request
leaves it (R236). -/
def Dev.takeTe (d : Dev) (h : Bool) : Dev :=
  let ss1 := (d.ch h).arms.any (fun r => r.st == .ss1)
  let d := if ss1 then d else d.updCh h (fun c => { c with t0 := none, v0set := false })
  match d.learnTe h with
  | some t =>
    if h && !ss1 && d.hedgeAlone then d
    else d.updCh h (fun c => { c with te := some (if ss1 then c.t0.getD t else t), t0 := if ss1 then some (c.t0.getD t) else none })
  | none => d

/-- Time from t0 to beat `eb` in ns, once t0 is reached; v0 of every axis is latched in the first such beat (R237). -/
def Dev.rampTime (d : Dev) (h : Bool) (eb : Nat) : Dev × Option Nat :=
  match (d.ch h).t0 with
  | none => (d, none)
  | some t =>
    let n := ringDist (2 ^ 32) eb t
    if 2 ^ 31 ≤ n then (d, none)
    else
      let d := if (d.ch h).v0set then d
        else d.updCh h (fun c => { c with v0set := true, axes := c.axes.map (fun x => { x with v0 := x.spd }) })
      (d, some (n * d.time.layout.beat))

/-- A channel's own count of its cycles between two ticks, and the SS1 requests of the main die it takes up. -/
def Dev.beatChecks (d : Dev) (h : Bool) (cyc : Nat) : Dev :=
  let d := d.updCh h (fun c => { c with cyc := cyc, viol := 0 })
  let d := if tickOk h d.time.layout.beat cyc then d else d.clockFault h
  if if h then d.safety.ss1B && d.is CLK_XDIE else d.safety.ss1A then
    { d with safety := if h then { d.safety with ss1B := false } else { d.safety with ss1A := false } }.ss1All h
  else d

/-- Beat boundaries in a row without an accepted record in force while the planner is RUNNING or in CREEP (R241). -/
def Dev.countNoRec (d : Dev) : Dev :=
  let n := if (d.plState = 1 || d.plState = 2) && (d.recordAt d.time.beatAt).isNone then d.safety.noRec + 1 else 0
  { d with safety := { d.safety with noRec := n } }

/-- The limits of channel A and of the Hedge over the telegrams of the beat at `t`, in which `plan` was in force. -/
def Dev.limitChecks (d : Dev) (h : Bool) (s : SafSet) (plan : Option Plan) (t : Nat) : Dev :=
  let d := if d.time.bis = 1 then d.snsStride h s else d
  if h then d.sphereMonitor s else (d.approachMonitor s t).windowMonitor s plan t

/-- Demands not yet latched for all the arms of their pair: after a change of set the arms its new entry adds (R223, R257). -/
def Dev.relatch (d : Dev) (h : Bool) (s : SafSet) : Dev :=
  (List.range 16).foldl (fun (d : Dev) i => match s.pairs[i]? with
    | some p => if latches p.type && (d.ch h).pairCode s i != 0 then d.demand h i p false else d
    | none => d) d

/-- One beat of a channel. `cyc` is its count of its own cycles since the tick before. The telegrams judged are those of this
beat once one of them has been accepted, else those of the beat that ended at the tick. -/
def Dev.safetyBeat (d : Dev) (h : Bool) (cyc : Nat) : Dev :=
  let d := d.beatChecks h cyc
  let d := if h then d else d.countNoRec
  match d.setOf h with
  | none => d.takeTe h
  | some s =>
    let own := (d.ch h).axes.any (·.got)
    let eb := if own then d.get HTL_BEAT else (d.get HTL_BEAT + 2 ^ 32 - 1) % 2 ^ 32
    let t := if own then d.time.beatAt else d.time.beatAt - d.time.layout.beat
    let plan := if own then d.planner.chanA.inForce else d.planner.endPlan
    -- axes missing in a beat that ended without a cross-check point (R220)
    let owed := (d.ch h).owed
    let d := (d.updCh h (fun c => { c with owed := 0 })).judgeAxes h owed
    let r := ((d.relatch h s).takeTe h).rampTime h eb
    let d := s.arms.foldl (fun (d : Dev) x => d.slsMonitor h s x) r.1
    let d := (List.range 8).foldl (fun (d : Dev) a => d.armMonitor h s a r.2) d
    (d.limitChecks h s plan t).pulseStart h

def execSafetyBeat (h : Bool) (cyc : Nat) (s : State) : Out :=
  s.run (fun d => d.safe h (fun d => d.safetyBeat h cyc))

/-- No accepted record at two beat boundaries in a row (R241). -/
def execNoRecord (s : State) : Out :=
  s.run (fun d => d.safe false (fun d =>
    if d.safety.noRec ≥ 2 then ((d.fault false 6 0xFF).raiseS false 11 noDetail).ss1All false else d))

/-- No beat tick at the Hedge within 1.10 beats (R248). -/
def execHedgeTickTimeout (s : State) : Out := s.run (fun d => d.safe true (fun d => d.clockFault true))

/-- The last transfer of a separation record reaches channel A, which gathers them and checks the CRC (R211, R240); `intact`
says that the bytes arrived undamaged. -/
def execSepRecordReceive (intact : Bool) (s : State) : Out :=
  s.run (fun d => d.safe false (fun d =>
    match sepParse d.commons.sent.flatten with
    | none => { d with commons := { d.commons with sent := [] } }
    | some r =>
      let d := { d with commons := { d.commons with sent := [] } }
      let want := (d.setOf false).map (·.seppcrc)
      let newerSeq := match d.safety.recs with | q :: _ => newer 32 r.rseq q.rseq | [] => true
      if intact && newerSeq && want == some r.seppcrc then
        { d with safety := { d.safety with recs := (r :: d.safety.recs).take 2 } }
      else d))

/-! Cross-check (R245 to R247, R251). -/

/-- RESET presses seen by both channels give a reset for the arms of the pair (R228). -/
def Dev.matchPresses (d : Dev) : Dev :=
  match d.setOf false with
  | none => d
  | some s =>
    (List.range 16).foldl (fun (d : Dev) i =>
      match s.pairs[i]? with
      | some p =>
        if p.type = 5 && (d.safety.a.pair i).press != 0 && (d.safety.b.pair i).press != 0 then
          let d := (d.updCh false (fun c => c.updPair i (fun r => { r with press := 0 }))).updCh true
            (fun c => c.updPair i (fun r => { r with press := 0 }))
          { d with safety := { d.safety with resetArms := unionMask d.safety.resetArms p.armmask } }
        else d
      | none => d) d

/-- Apply the resets due: an arm whose causes are gone in both channels is reset in both; an arm with a faulted side starts
its clearing test instead (R233, R251). -/
def Dev.applyResets (d : Dev) : Dev :=
  match d.setOf false with
  | none => d
  | some s =>
    let arms := bitsOf d.safety.resetArms 8
    let d := { d with safety := { d.safety with resetArms := 0 } }
    let due := arms.filter (fun a => d.calm false && d.calm true && d.safety.a.causesGone s a && d.safety.b.causesGone s a)
    due.foldl (fun (d : Dev) a =>
        let fa := d.safety.a.fltSides a
        let fb := d.safety.b.fltSides a
        if fa.isEmpty && fb.isEmpty then (d.resetArm false s a).resetArm true s a
        else
          -- one side of a pair at a time: the other channel holds its side low
          (d.updCh false (fun c => { c with clearing := unionMask c.clearing (maskOf fa) })).updCh true
            (fun c => { c with clearing := unionMask c.clearing (maskOf (fb.filter (fun n => !fa.contains n))) })) d

/-- Torque pairs of arms reset before go on (R251); the reset of this very point comes on at the next. -/
def Dev.torqueUp (d : Dev) (h : Bool) : Dev :=
  match d.setOf h with
  | none => d
  | some s =>
    (bitsOf s.armMask 8).foldl (fun (d : Dev) a =>
      let r := (d.ch h).arm a
      if r.phase == 1 && r.st != .sto && (d.ch h).ready s a then
        (d.updCh h (fun c => c.updArm a (fun r => { r with phase := 2 }))).raiseS h 3 a
      else d) d

/-- The cross-check point: set change and resets seen by both, torque of arms reset before, then each channel's verdict and
the refresh of the mirror. -/
def Dev.crossCheck (d : Dev) : Dev :=
  let d := if d.up && d.time.started then d.reach (d.time.beatAt + d.time.layout.beat - 25000) else d
  let both := d.chUp false && d.chUp true && d.is CLK_XDIE
  -- the axes of the beat (R220)
  let d := if d.chUp false then d.judgeBeat false else d
  let d := if d.chUp true then d.judgeBeat true else d
  let d := if d.chUp false then d.torqueUp false else d
  let d := if d.chUp true then d.torqueUp true else d
  let d := if both then d.matchPresses.applyResets.setChange else d
  let d := if d.chUp false then d.settle false else d
  let d := if d.chUp true then d.settle true else d
  let d := if d.chUp false then d.send (.verdict false (d.verdict false (d.snsOk false))) else d
  let d := if d.chUp true then d.send (.verdict true (d.verdict true (d.snsOk true))) else d
  d.refreshMirror

/-- The function states and latch bits of a received verdict (R246): a latch bit of an arm on which a pair of the sender demands
is that pair's, so that an AUTOREST pair can drop it. -/
def Dev.mergeArms (d : Dev) (h : Bool) (s : Option SafSet) (v : List Byte) : Dev :=
  let st := fun a => fstateOf (uAt v (0x10 + a) 1 % 4)
  let arms := List.range 8
  let lat := maskOf (arms.filter (fun a => bitOf (uAt v (0x10 + a) 1) 7 && !(d.ch h).latchedArm a))
  let demand := fun i => uAt v 0xC 4 / 4 ^ i % 4 != 0
  let mine := (List.range 16).filterMap (fun i => match s.bind (fun s => s.pairs[i]?) with
    | some p => if latches p.type && demand i then some (i, p.armmask) else none
    | none => none)
  let d := mine.foldl (fun (d : Dev) x => d.updCh h (fun c => c.updPair x.1 (fun r =>
    { r with lat := unionMask r.lat (minusMask lat (minusMask lat x.2)) }))) d
  let d := d.latchArms h (mine.foldl (fun m x => minusMask m x.2) lat)
  let d := d.toSto h (maskOf (arms.filter (fun a => st a == .sto && ((d.ch h).arm a).st != .sto)))
  let up := maskOf (arms.filter (fun a => st a == .ss1 && ((d.ch h).arm a).st.code < 2))
  let d := if up = 0 then d else d.enterSs1 h (unionMask up d.presentArms) 0
  arms.foldl (fun (d : Dev) a => d.updCh h (fun c => c.updArm a (fun r =>
    { r with st := r.st.stricter (if st a = .hold then .hold else .run),
             covered := r.covered || (r.st == .ss1 && bitOf (uAt v (0x10 + a) 1) 7) }))) d

/-- The axes of a received verdict (R246): one accepted by one channel only counts as refused in both, and keeps the position
and speed accepted before (R220). -/
def Dev.mergeAxes (d : Dev) (h : Bool) (s : SafSet) (v : List Byte) : Dev :=
  let tg := uAt v 0x20 8
  s.joints.foldl (fun (d : Dev) j =>
    match (d.ch h).axis j.gj with
    | none => d
    | some x =>
      let one := x.got != bitOf tg j.gj
      let both := x.got && !one
      let old := x.back.getD (x.pos, x.spd)
      let d := d.updCh h (fun c => c.updAxis j.gj (fun x =>
        { x with oneSided := if one then x.oneSided + 1 else 0, refused := if both then 0 else x.refused,
                 okRun := if both then x.okRun + 1 else 0,
                 pos := if one then old.1 else x.pos, spd := if one then old.2 else x.spd }))
      let d := if one then d.countS h 2 else d
      let d := if one && !x.err then d.telegramErr h j.gj else d
      if one && x.got then d.axisRefused h s j.gj else d) d

/-- Merge a verdict (R246): states and latch bits, telegrams accepted by one channel only, faults of a class: these for the arms
the verdict shows latched, or for all. -/
def Dev.mergeVerdict (d : Dev) (h : Bool) (s : Option SafSet) (v : List Byte) : Dev :=
  let d := d.mergeArms h s v
  let d := match s with | some s => d.mergeAxes h s v | none => d
  let lat := maskOf ((List.range 8).filter (fun a => bitOf (uAt v (0x10 + a) 1) 7))
  (bitsOf (uAt v 0x3C 2) 11).foldl (fun (d : Dev) n =>
    if bitOf (d.ch h).faults n then d else d.fault h n (if lat = 0 then 0xFF else lat)) d

/-- Pairs in discrepancy, the way out of FAULT, and the latches an AUTOREST pair drops (R223). A pair reports the demanding level
while one of its signals is low. -/
def Dev.comparePairs (d : Dev) (h : Bool) (s : SafSet) (v : List Byte) : Dev :=
  let lv := uAt v 8 2
  let ps := uAt v 0xC 4
  let d := (List.range 16).foldl (fun (d : Dev) i =>
    d.updCh h (fun c => c.updPair i (fun r => { r with disc := r.level != bitOf lv i }))) d
  (List.range 16).foldl (fun (d : Dev) i =>
    let c := d.ch h
    let two := ((s.pairs[i]?).map (·.type)).getD 0 == 3
    let sig := fun (f : Nat → Bool) => f i && (!two || f (i + 1))
    let own := sig (fun n => (c.pair n).level)
    let other := sig (fun n => bitOf lv n)
    let code := ps / 4 ^ i % 4
    let auto := match s.pairs[i]? with
      | some e => e.autorest && latches e.type && c.pairCode s i == 0 && code == 0
      | none => false
    d.updCh h (fun c => c.updPair i (fun r =>
      let step :=
        if !r.fault then 0
        else if r.faultStep == 0 then (if !own && !other then 1 else 0)
        else if r.faultStep == 1 then (if own && other then 2 else 1)
        else r.faultStep
      { r with faultStep := step, lat := if auto then 0 else r.lat }))) d

/-- A disagreement found by a channel inside the recovery window of a takeover is a double fault: once, the stop request and the
SS1 requests of R137. The Hedge's crosses the cross-die link. -/
def Dev.doubleFault (d : Dev) (h : Bool) : Dev :=
  if d.up && (!h || d.is CLK_XDIE) && d.planning && d.planner.recov.isSome && !d.planner.stopReq then d.planStop else d

/-- A channel receives the other's verdict, or none that passes its CRC (R246, R247). -/
def Dev.verdictReceive (d : Dev) (h : Bool) (v : Option (List Byte)) : Dev :=
  let ok := v.filter (fun b => b.length == 64 && crc16 (b.take 62) == uAt b 62 2)
  let c := d.ch h
  let d := match ok with
    | some b => d.updCh h (fun c => { c with verMiss := 0, lastVerdict := b })
    | none => ((d.countS h 6).fault h 10 0xFF).updCh h (fun c => { c with verMiss := c.verMiss + 1 })
  let use := ok.getD c.lastVerdict
  let st := d.setOf h
  let d := if use.isEmpty then d else d.mergeVerdict h st use
  let d := match st with
    | some s => if use.isEmpty then d else d.comparePairs h s use
    | none => d
  let own := d.ch h
  let bad := (match ok with
      | some b => uAt b 0 4 != d.get HTL_BEAT || uAt b 4 4 != (st.map (·.setcrc)).getD 0
      | none => decide (2 ≤ own.verMiss)) || own.axes.any (fun x => decide (3 ≤ x.oneSided))
  let d := if bad then (d.doubleFault h).disagree h else d
  -- channel A holds the Hedge's oscillator within 7 % of nominal (R248)
  match h, ok with
  | false, some b => if oscOk d.time.layout.beat b then d else d.clockFault false
  | _, _ => d

def execVerdictReceive (h : Bool) (v : Option (List Byte)) (s : State) : Out :=
  s.run (fun d => d.safe h (fun d => d.verdictReceive h v))

/-! Outputs. -/

/-- The off-pulse ends: the side is driven on again if its functions still want it (R231). -/
def execOffPulseEnd (h : Bool) (n : Fin 16) (s : State) : Out :=
  s.run (fun d => d.safe h (fun d => d.updCh h (fun c => { c with pulse := setBit c.pulse n false })))

/-- A readback has not reached its commanded level within 50 µs: an output fault of the side (R230, R233). -/
def execReadbackFault (h : Bool) (n : Fin 16) (level : Bool) (s : State) : Out :=
  s.run (fun d => d.safe h (fun d =>
    if bitOf (d.ch h).cmd n != level then
      (d.updCh h (fun c => { c with rb := setBit c.rb n level })).outputFault h n
    else d))

/-- The clearing test of a faulted side ends (R233): a side that passes is cleared and its arm's reset completes. -/
def execClearingTestEnd (h : Bool) (n : Fin 16) (pass : Bool) (s : State) : Out :=
  s.run (fun d => d.safe h (fun d =>
    if bitOf (d.ch h).clearing n then
      let d := d.updCh h (fun c => { c with clearing := setBit c.clearing n false,
                                            outFlt := if pass then setBit c.outFlt n false else c.outFlt })
      if pass then { d with safety := { d.safety with resetArms := setBit d.safety.resetArms (n % 8) true } } else d
    else d))

/-- 20 ms after the torque pair of a reset arm its brake pair goes on (R251). -/
def execBrakeReleaseDelay (h : Bool) (a : Fin 8) (s : State) : Out :=
  s.run (fun d => d.safe h (fun d =>
    d.updCh h (fun c => c.updArm a (fun r => if r.phase = 2 ∧ r.st ≠ .sto then { r with phase := 3 } else r))))

/-- TSS1 of an arm has run out (R238): STO where the request covers it, HOLD otherwise; a failed channel A drives the arm's
sides low whatever the speed (Table — Fault classes). -/
def execTss1Expiry (h : Bool) (a : Fin 8) (s : State) : Out :=
  s.run (fun d => d.safe h (fun d =>
    let r := (d.ch h).arm a
    if r.st = .ss1 then
      if r.covered || (d.ch h).failed then d.toSto h (2 ^ a.val)
      else d.updCh h (fun c => c.updArm a (fun r => { r with st := .hold }))
    else d))

/-- An internal fault of a channel (R250, class CHAN). -/
def Dev.chanFault (d : Dev) (h : Bool) : Dev :=
  d.safe h (fun d =>
    let d := ((d.updCh h (fun c => { c with failed := true })).fault h 9 0xFF).raiseS h 14 noDetail
    if h then d.stoAll true else d.ss1All false)

def execSafetyChannelFault (h : Bool) (s : State) : Out := s.run (fun d => d.chanFault h)

/-! The unlock window (R258) and the host's reset (R251). -/

/-- Show whether the window is unlocked in SAFA_STAT and HDG_UNLOCK. -/
def Dev.setUnlocked (d : Dev) (u : Bool) : Dev :=
  let d := { d with safety := { d.safety with unlocked := u, keySeen := false } }
  (d.putB SAFA_UNLOCKED u).putB HDG_UNLOCKED u

/-- A write to HDG_UNLOCK: the two keys in order within 1 ms unlock the window; any other write locks it at once. The Hedge
times the window, so the write acts only over the cross-die link. -/
def Dev.unlockKey (d : Dev) (key : Nat) (inTime : Bool) : Dev :=
  if d.is CLK_XDIE && d.hedgeUp then
    if key = 0x0A5A then
      let d := d.setUnlocked false
      { d with safety := { d.safety with keySeen := true } }
    else if key = 0x05A5 ∧ d.safety.keySeen ∧ inTime then d.setUnlocked true
    else d.setUnlocked false
  else d

def execHedgeUnlockKey (key : BitVec 16) (inTime : Bool) (s : State) : Out :=
  s.run (fun d => if d.linked then d.unlockKey key.toNat inTime else d)

def execUnlockWindowExpiry (s : State) : Out :=
  s.run (fun d => if d.hedgeUp && d.safety.unlocked then d.setUnlocked false else d)

/-- SAFA_ACK.RESET (R251): a reset for all arms in the unlocked window with HOSTACK set; a write to the locked window is
ignored and flagged (R258). -/
def Dev.safaReset (d : Dev) : Dev :=
  if !d.safety.unlocked then d.regErr 8
  else match d.setOf false with
    | some st => if st.hostack then { d with safety := { d.safety with resetArms := 0xFF } } else d
    | none => d

def execSafaHostReset (s : State) : Out := s.run (fun d => if d.linked then d.safaReset else d)

end Sys2Proof.Machine
end

