-- ==== Sys2Proof/Machine/Telemetry.lean ====
section
/-! DEFINITION. Offering telemetry records to the rings configured for their stream (R359, R369). -/

namespace Sys2Proof.Machine

/-- Offer a record set of a stream: each part has its SUB and payload; a ring takes one set in every DECIM (R369). -/
def Dev.offer (d : Dev) (stream time : Nat) (parts : List (Nat × List Byte)) : Dev :=
  let due := d.host.telCfg.filter (fun (t : TelCfg) => t.stream == stream && decide (t.decim ≤ t.skipped + 1))
  let recs := due.flatMap (fun t => parts.map (fun (p : Nat × List Byte) => (⟨t.ring, stream, p.1, time, p.2⟩ : TelRec)))
  let cfg := d.host.telCfg.map (fun (t : TelCfg) =>
    if t.stream = stream then { t with skipped := if t.decim ≤ t.skipped + 1 then 0 else t.skipped + 1 } else t)
  { d with host := { d.host with telOut := d.host.telOut ++ recs, telCfg := cfg } }

end Sys2Proof.Machine
end

