-- ==== Sys2Proof/Machine/MainsOps.lean ====
section
/-! DEFINITION. The Supply and Mains Monitor's operations: bus voltages and budgets (R430 to R432), ride-through, chopper
loops (R433), the power record (R436) and hibernate (R422). -/

namespace Sys2Proof.Machine

/-- GAIN·x + OFS in mV (R425). -/
def Dev.modMv (d : Dev) (ch : Nat) (x : Int) : Int := divRne (d.getS (MNS_GAIN ch) * x) 32768 + d.getS (MNS_OFS ch)

/-- Bus voltage of a group from the precise filter, mV. -/
def Dev.busMv (d : Dev) (b : BusEnt) : Int := d.modMv b.modch (d.mains.precise.getD b.modch 0)

def Dev.buses (d : Dev) : List BusEnt := match d.kiln.active with | some m => m.buses | none => []

/-- Energy budget of a group in steps of E_full/64 (R430). -/
def Dev.budgetSteps (d : Dev) (b : BusEnt) : Nat :=
  let vf : Int := b.vuv + 1000 * d.get MNS_URTMARG
  let v := d.busMv b
  let full : Int := (b.vnom : Int) ^ 2 - vf ^ 2
  if d.is (MNS_STUCK b.modch) ∨ v ≤ vf ∨ full ≤ 0 ∨ (b.vnom : Int) ≤ vf then 0
  else ((v ^ 2 - vf ^ 2) * 64 / full).toNat

/-- The budget in mJ: whole steps of E_full/64 (R430). -/
def Dev.budgetMj (d : Dev) (b : BusEnt) : Nat :=
  let vf := b.vuv + 1000 * d.get MNS_URTMARG
  d.budgetSteps b * (b.cap * (b.vnom ^ 2 - vf ^ 2)) / (64 * 2 * 10 ^ 9)

/-- The budgets are latched at S + 60 µs and shown (R430). -/
def Dev.latchBudgets (d : Dev) (buses : List BusEnt) : Dev :=
  buses.foldl (fun (d : Dev) b => d.put (MNS_EG b.gid) (d.budgetMj b)) d

/-- Σ τ·q̇ of a group's joints as measured, W (R436). -/
def Dev.motorPower (d : Dev) (b : BusEnt) : Int :=
  divRne ((d.fbs.filter (fun f => bitOf b.jmask f.gj)).foldl (fun (a : Int) f => a + f.trq * f.v) 0) (2 ^ 26)

/-- The power record, one per stride (R436). -/
def Dev.powerRecord (d : Dev) : Dev :=
  let grp := fun (g : Nat) =>
    match d.buses.find? (fun b => b.gid == g) with
    | none => leBytes 16 0
    | some b =>
      let c := d.mains.chop.find? (fun c => c.group == g)
      let duty := match c with | some c => if c.all = 0 then 0 else c.on * 1000 / c.all | none => 0
      leBytes 4 (encSigned 32 (d.busMv b)) ++ leBytes 4 (encSigned 32 (d.motorPower b)) ++
        leBytes 4 (if d.mains.rt.isSome then d.budgetMj b else 0) ++ leBytes 4 duty
  let flags := (if d.mains.rt.isSome then 1 else 0) + (if d.is MNS_FDEVF then 2 else 0)
  let rec80 := leBytes 1 (d.get MNS_MSTATE) ++ leBytes 3 flags ++
    (List.range 3).flatMap (fun p => leBytes 2 (d.get (MNS_AMP p))) ++ leBytes 2 0 ++ leBytes 4 (d.get MNS_FREQ) ++
    (List.range 4).flatMap grp
  let d := d.offer 6 d.s [(0, rec80)]
  { d with mains := { d.mains with chop := d.mains.chop.map (fun (c : Chopper) => { c with on := 0, all := 0 }) } }

/-- What the latch of S + 60 µs does for the monitor. The budgets are those of the model the check point latches (R434). -/
def Dev.mainsLatch (d : Dev) : Dev :=
  if d.up then (d.latchBudgets (match d.modelDue with | some m => m.buses | none => d.buses)).powerRecord else d

/-! Ride-through. -/

/-- Ride-through ends without recovery (R431): RT_EXPIRED and a stop request. -/
def Dev.rtExpire (d : Dev) : Dev :=
  let d := ({ d with mains := { d.mains with rt := none } }.putB MNS_RT false).bump 0xB910
  (d.raise (srcNo 13 7) noDetail).stopRequest

/-- The timer of a ride-through has reached TRT (R431). -/
def Dev.rtDue (d : Dev) : Bool := match d.mains.rt with | some t => decide (t + d.get MNS_TRT * 1000000 ≤ d.now) | none => false

/-- DIP is entered (R427, R429). -/
def Dev.dipStart (d : Dev) (low phases : Nat) : Dev :=
  let d := { d with mains := { d.mains with dip := some ⟨d.now, 0, low, phases, 0⟩ } }
  let d := (d.bump 0xB900).raise (srcNo 13 0) noDetail
  if d.planning && !d.planner.stopReq then
    if d.is MNS_RTEN then
      (({ d with mains := { d.mains with rt := some d.now } }.putB MNS_RT true).bump 0xB90C).raise (srcNo 13 5) noDetail
    else d.stopRequest
  else d

/-- MSTATE after an update: OFF, DIP, SWELL, NORMAL (R427). -/
def Dev.showMains (d : Dev) : Dev :=
  d.put MNS_MSTATE (if !d.is MNS_EN then 0 else if d.mains.dip.isSome then 2 else if d.mains.swell then 3 else 1)

/-! Brake choppers (R433). -/

/-- A voltage over GAIN in Q1.15; a GAIN of zero leaves the value open. -/
def Dev.overGain (d : Dev) (ch : Nat) (mv : Int) : Int :=
  let g := d.getS (MNS_GAIN ch)
  if g = 0 then signed 16 (Config.freeNat d.freeCtr)
  else satS 16 (divRne ((if g < 0 then -mv else mv) * 32768) g.natAbs)

/-- Turn a loop off and forget what it ran on. -/
def Dev.clearLoop (d : Dev) (l : Nat) : Dev :=
  let d := if d.is (HYS_OUT l) then d.setReg (hysReg l 0x1C) (BitVec.ofNat 32 ((d.reg (hysReg l 0x1C)).toNat + 1)) else d
  (d.putB (HYS_OUT l) false).updHys l (fun _ => ⟨0, 0, 0, 0, false, false, 0⟩)

def Dev.releaseLoop (d : Dev) (l : Nat) : Dev :=
  let d := ((d.clearLoop l).putB (HYS_EN l) false).putB (HYS_OWNED l) false
  { d with mains := { d.mains with chop := d.mains.chop.filter (fun (c : Chopper) => c.loop != l) } }

/-- The configuration of a group's loop (Table — Chopper loop configuration). -/
def Dev.setLoop (d : Dev) (b : BusEnt) : Dev :=
  let l := b.chophl
  let open_ := d.getS (MNS_GAIN b.modch) == 0
  let sp := d.overGain b.modch ((b.vov : Int) - 1000 * d.get MNS_CHMARG - d.getS (MNS_OFS b.modch))
  let hb := d.draw.overGain b.modch (1000 * d.get MNS_CHHB)
  let d := if open_ then d.draw.draw else d
  let d := d.setReg (hysReg l 0) (BitVec.ofNat 32 (3 + b.modch * 16 + 200 * 65536))
  let d := (d.setReg (hysReg l 4) (BitVec.ofNat 32 (encSigned 16 sp))).setReg (hysReg l 8) (BitVec.ofNat 32 (clampInt hb 0 32767).toNat)
  let d := (d.setReg (hysReg l 0xC) 0).setReg (hysReg l 0x10)
    (BitVec.ofNat 32 ((d.reg 0xB860).toNat / 2 ^ 16 % 256 + (d.reg 0xB860).toNat / 2 ^ 24 * 65536))
  (d.put (HYS_STALE l) 4).putB (HYS_OWNED l) true

/-- Take ownership of a group's loop: it starts off, and without a fault. -/
def Dev.ownLoop (d : Dev) (b : BusEnt) : Dev :=
  let d := ((d.clearLoop b.chophl).setLoop b).putB (HYS_FLT b.chophl) false
  { d with mains := { d.mains with chop := d.mains.chop ++ [⟨b.chophl, b.gid, 0, 0⟩] } }

/-- At a model latch the groups take their loops (R433): one that no longer names its loop releases it with the output low, a new
one starts off, and a loop its group keeps runs on with the configuration of the new model. -/
def Dev.chopperLatch (d : Dev) : Dev :=
  let bs := d.buses.filter (fun b => decide (b.chophl < 32))
  let kept := fun (c : Chopper) => bs.any (fun b => b.chophl == c.loop && b.gid == c.group)
  let d := (d.mains.chop.filter (fun c => !kept c)).foldl (fun (d : Dev) (c : Chopper) => d.releaseLoop c.loop) d
  bs.foldl (fun (d : Dev) b =>
    if d.mains.chop.any (fun c => c.loop == b.chophl && c.group == b.gid) then d.setLoop b else d.ownLoop b) d

/-! Hibernate (R421, R422). -/

/-- The conditions of hibernate (R422): DETACHED, planner IDLE or STOPPED, every arm in STO in both channels, no axis
moving. -/
def Dev.hibOk (d : Dev) : Bool :=
  d.session == 1 && d.idleOrStopped &&
  [d.safety.a, d.safety.b].all (fun c => match c.set with
    | some s => (bitsOf s.armMask 8).all (fun a => decide ((c.arm a).st = .sto)) | none => true) &&
  (List.range 16).all (fun a => decide (d.get (AUX_STATE a) < 2) || d.get (AUX_STATE a) == 6)

/-- Hibernate is disarmed as soon as a condition stops holding (R422). -/
def Dev.hibCheck (d : Dev) : Dev :=
  if (d.boot.hib == 1 || d.boot.hib == 2) && !d.hibOk then
    { d with boot := { d.boot with hib := 0 } }.putB MNS_HIBRDY false
  else d

/-- The retention bank is written for every delivering joint and every IDLE or DRVOFF axis (R422). -/
def Dev.retainAll (d : Dev) : Dev :=
  (List.range 16).foldl (fun (d : Dev) a =>
    if d.get (AUX_STATE a) = 1 ∨ d.get (AUX_STATE a) = 6 then d.retainAxis a ((d.axis a).map (·.pos)) else d) d.retainJoints

end Sys2Proof.Machine
end

