-- ==== Sys2Proof/Machine/Mains.lean ====
section
/-! DEFINITION. Commands of the Supply and Mains Monitor: modulators, mains, ride-through, hibernate arming and temperature
(R422 to R432, R467). -/

namespace Sys2Proof.Machine

/-- Decimation of the fast filter, and of the precise one, whose output rate is the same at every clock (R425). -/
def Dev.decimation (d : Dev) (ch : Nat) (fast : Bool) : Nat :=
  if fast then (d.reg 0xB800).toNat / 256 % 256 else 64 * 2 ^ ((d.reg 0xB800).toNat / (if ch < 4 then 1 else 4) % 4)

/-- x = 2·d − 1 in Q1.15 for a sinc3 sum over a window of weight R³, saturated at 1 − 2^−15 (R425). -/
def modValue (r sum : Nat) : Int := satS 16 (divRne ((2 * (sum : Int) - r ^ 3) * 32768) (r ^ 3))

/-- A decimation filter delivers a value (R425); a stuck channel's outputs have stopped (R426). -/
def execModulatorOutput (ch : Fin 8) (fast : Bool) (sum : Nat) (s : State) : Out :=
  s.run (fun d =>
    if !d.up || d.is (MNS_STUCK ch) then d
    else
      let x := modValue (d.decimation ch fast) sum
      if fast then
        let d := { d with field := { d.field with mod := updAt d.field.mod ch (fun _ => x) } }
        let d := (List.range 32).foldl (fun (d : Dev) l =>
          if !d.is (HYS_SRC l) && d.get (HYS_MODCH l) == ch.val then d.updHys l (fun r => { r with fresh := true }) else d) d
        (d.buses.filter (fun b => b.modch == ch.val)).foldl (fun (d : Dev) b =>
          let ovr := decide ((b.vov : Int) < d.modMv ch x)
          let d := d.putB (MNS_BUSOV b.gid) ovr
          if ovr && !d.mains.ovSeen then
            { d with mains := { d.mains with ovSeen := true } }.raise (srcNo 13 9) b.gid
          else d) d
      else
        let d := { d with mains := { d.mains with precise := updAt d.mains.precise ch (fun _ => x) } }
        (d.buses.filter (fun b => b.modch == ch.val)).foldl (fun (d : Dev) b =>
          d.put (MNS_VBUS b.gid) (encSigned 32 (d.busMv b))) d)

/-- No transition in 256 modulator clocks (R426). -/
def execModulatorStuck (ch : Fin 8) (s : State) : Out :=
  s.run (fun d =>
    if d.up && !d.is (MNS_STUCK ch) then ((d.putB (MNS_STUCK ch) true).bump 0xB914).raise (srcNo 13 10) ch else d)

/-- The first transition of a stuck channel (R426). -/
def execModulatorRecovery (ch : Fin 8) (s : State) : Out :=
  s.run (fun d => if d.up then d.putB (MNS_STUCK ch) false else d)

/-- The phases in use. -/
def Dev.phases (d : Dev) : List Nat := if d.is MNS_SINGLE then [0] else [0, 1, 2]

/-- A_p (0.1 V) against a threshold in per mille of UNOM. -/
def Dev.belowPm (d : Dev) (a pm : Nat) : Bool := decide (a * 100 < pm * d.get MNS_UNOM)
def Dev.abovePm (d : Dev) (a pm : Nat) : Bool := decide (pm * d.get MNS_UNOM < a * 100)

/-- The conditions of an update (Table — Mains conditions), leaving DIP to its own command. -/
def Dev.mainsConditions (d : Dev) : Dev :=
  let ps := d.phases
  let amp := fun p => d.get (MNS_AMP p)
  let below := ps.filter (fun p => d.belowPm (amp p) (d.get MNS_DIPTHR))
  let low := ps.foldl (fun a p => min a (amp p)) 65535
  let d := match d.mains.dip with
    | none => if below.isEmpty then d else d.dipStart low (maskOf below)
    | some dp =>
      let calm := ps.all (fun p => !d.belowPm (amp p) (d.get MNS_DIPTHR + 20))
      let dp := { dp with updates := dp.updates + 1, low := min dp.low low, phases := Nat.lor dp.phases (maskOf below),
                          calm := if calm then dp.calm + 1 else 0 }
      { d with mains := { d.mains with dip := some dp } }
  let d := if d.mains.swell then
      let calm := ps.all (fun p => !d.abovePm (amp p) (d.get MNS_SWLTHR - 20))
      let n := if calm then d.mains.swlCalm + 1 else 0
      if 20 * d.get MNS_RTEND ≤ n then { d with mains := { d.mains with swell := false, swlCalm := 0 } }
      else { d with mains := { d.mains with swlCalm := n } }
    else if ps.any (fun p => d.abovePm (amp p) (d.get MNS_SWLTHR)) then
      ({ d with mains := { d.mains with swell := true, swlCalm := 0 } }.bump 0xB904).raise (srcNo 13 2) noDetail
    else d
  let d := ps.foldl (fun (d : Dev) p =>
    let high := !d.belowPm (amp p) (d.get MNS_DIPTHR)
    let other := ps.any (fun q => q != p && !d.belowPm (amp q) (d.get MNS_DIPTHR))
    if d.is (MNS_PLOSS p) then (if high then d.putB (MNS_PLOSS p) false else d)
    else if d.belowPm (amp p) (d.get MNS_PLTHR) && other then (d.putB (MNS_PLOSS p) true).raise (srcNo 13 3) p
    else d) d
  let nom := if d.is MNS_FNOM then 60000 else 50000
  let off := decide (((d.get MNS_FREQ : Int) - nom).natAbs > 10 * d.get MNS_FDEV)
  if d.is MNS_FDEVF then
    let n := if off then 0 else d.mains.fdevCalm + 1
    let d := { d with mains := { d.mains with fdevCalm := n } }
    if 400 ≤ n then d.putB MNS_FDEVF false else d
  else if off then
    (({ d with mains := { d.mains with fdevCalm := 0 } }.putB MNS_FDEVF true).bump 0xB908).raise (srcNo 13 4) noDetail
  else d

/-- Bus voltages below VUV (R431, R432): in ride-through they end it as an expiry does, outside they are reported. -/
def Dev.busUnder (d : Dev) : Dev :=
  d.buses.foldl (fun (d : Dev) b =>
    let low := decide (d.busMv b < (b.vuv : Int))
    let had := d.is (MNS_BUSUV b.gid)
    let d := d.putB (MNS_BUSUV b.gid) low
    if low && d.mains.rt.isSome then d.rtExpire
    else if low && !had then d.raise (srcNo 13 8) b.gid
    else d) d

/-- Every 50 µs (R427): the amplitudes and frequency the monitor has formed over its window, and what they enter or leave.
A stuck phase channel has A_p = 0. -/
def execMainsUpdate (a0 a1 a2 : BitVec 16) (freq : Word) (s : State) : Out :=
  s.run (fun d =>
    if !d.up then d
    else
      let d := if d.time.started then d.reach ((d.now / 50000 + 1) * 50000) else d
      let d := if d.is MNS_EN then
          let put := fun (d : Dev) (p : Nat) (a : BitVec 16) =>
            d.put (MNS_AMP p) (if !d.phases.contains p || d.is (MNS_STUCK (d.get (MNS_PH p))) then 0 else a.toNat)
          let d := ((put (put (put d 0 a0) 1 a1) 2 a2).put MNS_FREQ freq.toNat)
          d.mainsConditions
        else
          let d := { d with mains := { d.mains with dip := none, swell := false, swlCalm := 0, fdevCalm := 0, rt := none } }
          (List.range 3).foldl (fun (d : Dev) p => d.putB (MNS_PLOSS p) false) ((d.putB MNS_RT false).putB MNS_FDEVF false)
      d.busUnder.showMains)

/-- The longest level of a dip class. -/
def Dev.dipClasses (d : Dev) (resid dur : Nat) : Nat :=
  maskOf ((List.range 4).filter (fun k => decide (resid ≤ d.get (MNS_LEVEL k)) && decide (d.get (MNS_DUR k) ≤ dur)))

/-- DIP is left once every A_p has been at or above DIPTHR + 20 for RTEND ms; the dip is recorded and a ride-through ends by
recovery, or by expiry where the timer is due in the same update (R428, R431, R434). -/
def execDipEnd (s : State) : Out :=
  s.run (fun d =>
    match d.mains.dip with
    | none => d
    | some dp =>
      if !d.up || dp.calm < 20 * d.get MNS_RTEND then d
      else
        let d := if d.rtDue then d.rtExpire else d
        let unom := d.get MNS_UNOM
        let resid := min 1023 (divRne (dp.low * 100) unom).toNat
        let dur := min 65535 (dp.updates / 20)
        let d := (d.put64 0xB8C0 dp.start).setReg 0xB8C8 (BitVec.ofNat 32 (dur + resid * 65536 + dp.phases % 8 * 2 ^ 26))
        let d := d.setReg 0xB8CC (BitVec.ofNat 32 (d.dipClasses resid dur))
        let d := { d with mains := { d.mains with dip := none } }.raise (srcNo 13 1) noDetail
        let d := if d.mains.rt.isSome then
            ({ d with mains := { d.mains with rt := none } }.putB MNS_RT false).raise (srcNo 13 6) noDetail
          else d
        d.showMains)

/-- The ride-through timer reaches TRT (R431). -/
def execRideThroughExpiry (s : State) : Out :=
  s.run (fun d =>
    match d.mains.rt with
    | none => d
    | some t => if d.up then (d.reach (t + d.get MNS_TRT * 1000000)).rtExpire else d)

/-! Hibernate and temperature. -/

/-- A write to MNS_HIB.KEY (R422). A key other than 0x4842 arms nothing. -/
def Dev.writeHib (d : Dev) (key : Nat) : Dev :=
  if key ≠ 0x4842 then d
  else if d.hibOk then (if d.boot.hib = 0 then { d with boot := { d.boot with hib := 1 } } else d)
  else d.regErr 11

def execHibernateArm (key : BitVec 16) (s : State) : Out := s.run (fun d => if d.linked then d.writeHib key.toNat else d)

/-- Within 100 µs of an accepted key the bank has been written (R422). -/
def execHibReady (s : State) : Out :=
  s.run (fun d =>
    let d := d.hibCheck
    if d.up && d.boot.hib == 1 then
      let d := d.retainAll
      ({ d with boot := { d.boot with hib := 2 } }.putB MNS_HIBRDY true).raise (srcNo 13 12) noDetail
    else d)

/-- Every 1 ms the junction temperature, unit 1/16 °C; OVER above 105 °C (R467). -/
def execGlbTempUpdate (t : BitVec 16) (s : State) : Out :=
  s.run (fun d =>
    if d.up then
      let d := d.put GLB_TEMP t.toNat
      if 1680 < t.toInt then d.putB GLB_TEMP_OVER true else d
    else d)

end Sys2Proof.Machine
end

