-- ==== Sys2Proof/Machine/FabricOps.lean ====
section
/-! DEFINITION. Error records (R412), closed ports (R408), path arbitration (R406, R407) and locks (R403 to R405). -/

namespace Sys2Proof.Machine

/-- Write an error record into the next slot of FAB_ERRLOG (Table — Error record). -/
def Dev.errRec (d : Dev) (level cls port action index addr detail : Nat) : Dev :=
  let seq := ((d.reg 0xF018).toNat + 1) % 2 ^ 32
  let b := 0xF400 + 32 * (seq % 32)
  let d := (d.put64 b d.now).setReg (b + 8) (BitVec.ofNat 32 seq)
  let d := d.setReg (b + 12) (BitVec.ofNat 32 (level + cls * 2 ^ 8 + port * 2 ^ 16 + action * 2 ^ 24))
  let d := (d.setReg (b + 16) (BitVec.ofNat 32 (index % 65536))).setReg (b + 20) (BitVec.ofNat 32 addr)
  let d := (d.setReg (b + 24) (BitVec.ofNat 32 (d.get HTL_BEAT))).setReg (b + 28) (BitVec.ofNat 32 detail)
  (d.setReg 0xF018 (BitVec.ofNat 32 seq)).raise (srcNo 1 8) noDetail

/-- A closed port is reopened (Table — Hang reactions). -/
def Dev.reopen (d : Dev) (p : Nat) : Dev :=
  if d.is (FAB_CLOSED p) then (d.putB (FAB_CLOSED p) false).raise (srcNo 1 7) p else d

/-- Class and base priority of a port (Table — Mortar ports): safety, or the base of its class. -/
def portSafety (p : Nat) : Bool := p == 0 || p == 2 || p == 6 || p == 38
def portBase (p : Nat) : Nat :=
  if portSafety p then 15
  else if p = 1 ∨ p = 3 ∨ (23 ≤ p ∧ p ≤ 31) then 0 else 8

/-- Effective priority of a request (R406). -/
def XferReq.prio (r : XferReq) : Nat := min 15 (portBase r.port + r.age)

/-- Does request r win over q: safety first, then effective priority, then the older, then the lower port? -/
def XferReq.beats? (r q : XferReq) : Bool :=
  if portSafety r.port != portSafety q.port then portSafety r.port
  else if r.prio != q.prio then decide (q.prio < r.prio)
  else if r.order != q.order then decide (r.order < q.order)
  else decide (r.port < q.port)

/-- The winner of a round. -/
def roundWinner : List XferReq → Option XferReq
  | [] => none
  | r :: rest => match roundWinner rest with
    | none => some r
    | some q => if q.beats? r then some q else some r

/-- A round of arbitration on a path: the winner transfers with age 0, the losers age (R406). -/
def PathSt.round (p : PathSt) : PathSt :=
  match roundWinner p.waiting with
  | none => { p with active := none }
  | some w =>
    { p with active := some { w with age := 0 }, parked := some w.port,
             waiting := (p.waiting.filter (· != w)).map (fun r => { r with age := min 15 (r.age + 1) }) }

/-- A request arrives on a path (R406, R407): an idle path grants it; a safety-class request revokes a transfer of another
class. The truth value says that a transfer was revoked. -/
def PathSt.request (p : PathSt) (r : XferReq) : PathSt × Bool :=
  match p.active with
  | none => ({ p with waiting := p.waiting ++ [r] }.round, false)
  | some a =>
    if portSafety r.port && !portSafety a.port then
      ({ p with active := some r, parked := some r.port,
                revoked := p.revoked ++ [{ a with age := min 15 (a.age + 1) }] }, true)
    else ({ p with waiting := p.waiting ++ [r] }, false)

/-- A transfer delivers its last beat: revoked requesters take part again once no safety-class transfer is left. -/
def PathSt.done (p : PathSt) : PathSt :=
  let p := { p with active := none }
  if p.waiting.any (fun r => portSafety r.port) then p.round
  else { p with waiting := p.revoked ++ p.waiting, revoked := [] }.round

def Dev.pathOf (d : Dev) (n : Nat) : PathSt :=
  (d.fabric.paths.find? (fun p => p.path == n)).getD ⟨n, none, none, [], []⟩

def Dev.setPath (d : Dev) (p : PathSt) : Dev :=
  { d with fabric := { d.fabric with paths := d.fabric.paths.filter (fun (x : PathSt) => x.path != p.path) ++ [p] } }

/-- Drop every request, grant and parked grant of a port (R408). -/
def Dev.dropPort (d : Dev) (port : Nat) : Dev :=
  { d with fabric := { d.fabric with paths := d.fabric.paths.map (fun (p : PathSt) =>
      let p := { p with waiting := p.waiting.filter (fun r => r.port != port),
                        revoked := p.revoked.filter (fun r => r.port != port),
                        parked := if p.parked = some port then none else p.parked }
      match p.active with
      | some a => if a.port = port then p.done else p
      | none => p) } }

/-! Locks. -/

def Dev.seqOf (d : Dev) (lv i : Nat) : LockSeq :=
  (d.fabric.seqs.find? (fun s => s.level == lv && s.idx == i)).getD ⟨lv, i, [], none, 0, none⟩

def Dev.setSeq (d : Dev) (s : LockSeq) : Dev :=
  { d with fabric := { d.fabric with
      seqs := d.fabric.seqs.filter (fun (x : LockSeq) => !(x.level == s.level && x.idx == s.idx)) ++ [s] } }

/-- Holder of a lock. -/
def Dev.lockHolder (d : Dev) (lv n : Nat) : Option LockSeq :=
  d.fabric.seqs.find? (fun s => s.level == lv && s.held.contains n)

def Dev.lockWaiters (d : Dev) (lv n : Nat) : List Nat :=
  ((d.fabric.queues.find? (fun q => q.level == lv && q.lock == n)).map (·.waiters)).getD []

def Dev.setWaiters (d : Dev) (lv n : Nat) (w : List Nat) : Dev :=
  let rest := d.fabric.queues.filter (fun (q : LockQueue) => !(q.level == lv && q.lock == n))
  { d with fabric := { d.fabric with queues := if w.isEmpty then rest else rest ++ [⟨lv, n, w⟩] } }

/-- Give a free lock to its first waiter (R403). -/
def Dev.passLock (d : Dev) (lv n : Nat) : Dev :=
  match d.lockWaiters lv n with
  | [] => d
  | i :: rest =>
    let s := d.seqOf lv i
    (d.setWaiters lv n rest).setSeq { s with held := s.held ++ [n], wait := none }

/-- A sequence gives up every lock it holds and its wait, and each lock goes to its first waiter. -/
def Dev.releaseAll (d : Dev) (lv i : Nat) : Dev :=
  let s := d.seqOf lv i
  let d := match s.wait with | some n => d.setWaiters lv n ((d.lockWaiters lv n).filter (· != i)) | none => d
  let d := d.setSeq { s with held := [], wait := none }
  s.held.foldl (fun (d : Dev) n => d.passLock lv n) d

end Sys2Proof.Machine
end

