-- ==== Sys2Proof/Machine/Dynamics.lean ====
section
/-! DEFINITION. Joint torques of an arm (R70 kind 5, R74): the gravity and velocity torque, the diagonal of the mass matrix
and the torque at a state, from the masses and inertias of its links and the mass of its active tool (R42, R45, R46).
Lengths, speeds and accelerations in units of 2^−62 mm, mm/s and mm/s²; angular rates in units of 2^−60. -/

namespace Sys2Proof.Machine

/-- A body that moves with a joint: mass in 2^−16 kg, centre of mass, and inertia about it in 2^−20 kg·m² in the joint's
axes: xx, yy, zz, xy, xz, yz. -/
structure LinkBody where
  mass : Nat
  com : V3
  inertia : List Int
  deriving DecidableEq, Repr

/-- LINKMASS, LINKCOM and LINKINERTIA (R42). -/
def JointEnt.link (j : JointEnt) : LinkBody :=
  ⟨uAt j.body 0x40 4, V3.ofMm (vecAt j.body 0x44 3), vecAt j.body 0x50 6⟩

/-- MASS and COM of a tool, a point mass in the frame of the arm's last joint (R45). -/
def ToolEnt.link (t : ToolEnt) : LinkBody := ⟨uAt t.body 0x24 4, V3.ofMm (vecAt t.body 0x28 3), []⟩

/-- Inertia times a vector in the body's axes. -/
def LinkBody.times (b : LinkBody) (w : V3) : V3 :=
  let i := fun k => b.inertia.getD k 0
  ⟨i 0 * w.x + i 3 * w.y + i 4 * w.z, i 3 * w.x + i 1 * w.y + i 5 * w.z, i 4 * w.x + i 5 * w.y + i 2 * w.z⟩

/-- Motion of a joint frame: angular velocity and acceleration, acceleration of its origin. -/
structure Twist where
  w : V3
  al : V3
  acc : V3
  deriving DecidableEq, Repr

/-- Cross product of a rate and another quantity, in the latter's unit. -/
def V3.rate (w v : V3) : V3 := (V3.cross w v).shr 60

/-- Acceleration of a point at an offset that moves with a frame. -/
def Twist.at (t : Twist) (r : V3) : V3 :=
  V3.add t.acc (V3.add (V3.rate t.al r) (V3.rate t.w (V3.rate t.w r)))

/-- The base rests; gravity acts as an acceleration of the base upwards, z being up. -/
def Twist.base : Twist := ⟨V3.zero, V3.zero, ⟨0, 0, (Config.gravity : Int) * 2 ^ 46⟩⟩

/-- Velocity and acceleration in plan units (2^−16, 2^−12) carried over a joint from the frame before it. -/
def Twist.next (t : Twist) (from_ : V3) (j : JointPose) (v a : Int) : Twist :=
  let z := j.f.r.cz
  let o := t.at (V3.sub j.f.p from_)
  if j.prism then
    let sv := (V3.scale (v * 1000 * 2 ^ 46) z).shr 60
    let sa := (V3.scale (a * 1000 * 2 ^ 50) z).shr 60
    ⟨t.w, t.al, V3.add o (V3.add sa (V3.scale 2 (V3.rate t.w sv)))⟩
  else
    let zv := (V3.scale (v * 2 ^ 44) z).shr 60
    let za := (V3.scale (a * 2 ^ 48) z).shr 60
    ⟨V3.add t.w zv, V3.add (V3.add t.al za) (V3.rate t.w zv), o⟩

/-- A body placed in the cell: its mass and inertia, the frame it moves with, and that frame's motion. -/
structure Placed where
  b : LinkBody
  f : Frame
  t : Twist
  deriving DecidableEq, Repr

def Placed.com (x : Placed) : V3 := x.f.at x.b.com

/-- Force on a body in units of 2^−62 mN. -/
def Placed.force (x : Placed) : V3 :=
  (V3.scale x.b.mass (x.t.at (V3.sub x.com x.f.p))).shr 16

/-- Moment on a body about its centre of mass in units of 2^−60 N·m. -/
def Placed.moment (x : Placed) : V3 :=
  let iw := fun (w : V3) => x.f.r.app ((x.b.times (x.f.r.back w)).shr 20)
  V3.add (iw x.t.al) (V3.rate x.t.w (iw x.t.w))

/-- The joints of an arm from its base on, each with its link body, and the bodies of the tool on the last. -/
def placeAll (va : Nat → Int × Int) (tool : Option LinkBody) :
    V3 → Twist → List (JointPose × LinkBody) → List (Nat × Placed)
  | _, _, [] => []
  | o, t, x :: rest =>
    let u := t.next o x.1 (va x.1.gj).1 (va x.1.gj).2
    let mine := (x.1.gj, (⟨x.2, x.1.f, u⟩ : Placed))
    let on := match rest, tool with
      | [], some b => [(x.1.gj, (⟨b, x.1.f, u⟩ : Placed))]
      | _, _ => []
    mine :: (on ++ placeAll va tool x.1.f.p u rest)

/-- Torque of a joint in 2^−10 N·m (or N): the moments and forces of every body from it on. -/
def jointTorque (j : JointPose) (bodies : List Placed) : Int :=
  let z := j.f.r.cz
  let sum := fun (f : Placed → V3) => (bodies.map f).foldl V3.add V3.zero
  if j.prism then divRne (shrRne (V3.dot z (sum Placed.force)) 60) (1000 * 2 ^ 52)
  else
    let arm := sum (fun b => (V3.cross (V3.sub b.com j.f.p) b.force).shr 62)
    let own := V3.scale 4000000 (sum Placed.moment)
    divRne (shrRne (V3.dot z (V3.add arm own)) 60) (1000000 * 2 ^ 52)

/-- Diagonal entry of the mass matrix in 2^−20 kg·m² (or kg). -/
def jointInertia (j : JointPose) (bodies : List Placed) : Nat :=
  let z := j.f.r.cz
  let one := fun (b : Placed) =>
    if j.prism then (b.b.mass : Int) * 16
    else
      let zl := b.f.r.back z
      let w := (V3.cross z (V3.sub b.com j.f.p)).shr 60
      divRne (V3.dot zl (b.b.times zl) * 1000000 + b.b.mass * V3.dot w w) (1000000 * 2 ^ 120)
  ((bodies.map one).foldl (· + ·) 0).toNat

/-- Bodies of an arm that move with a joint or one after it. -/
def Model.bodies (m : Model) (p : Pose) (a : ArmEnt) (tool : Option LinkBody) (va : Nat → Int × Int) : List (Nat × Placed) :=
  let js := (m.armJoints a.armid).filterMap (fun j => (p.joint? j.gj).map (fun f => (f, j.link)))
  placeAll va tool a.base.p Twist.base js

/-- Torque of a joint of an arm at a pose, with velocities and accelerations per joint. -/
def Model.torque (m : Model) (p : Pose) (a : ArmEnt) (tool : Option LinkBody) (gj : Nat) (va : Nat → Int × Int) : Int :=
  match p.joint? gj with
  | none => 0
  | some j => jointTorque j (((m.bodies p a tool va).filter (fun x => decide (gj ≤ x.1))).map (·.2))

/-- Diagonal entry of the mass matrix for a joint of an arm at a pose. -/
def Model.massDiag (m : Model) (p : Pose) (a : ArmEnt) (tool : Option LinkBody) (gj : Nat) : Nat :=
  match p.joint? gj with
  | none => 0
  | some j => jointInertia j (((m.bodies p a tool (fun _ => (0, 0))).filter (fun x => decide (gj ≤ x.1))).map (·.2))

end Sys2Proof.Machine
end

