-- ==== Sys2Proof/Machine/HodOps.lean ====
section
/-! DEFINITION. The event controller's delivery (R381 to R390) and Hod's scheduling of tasks on the Masons (R392 to R396). -/

namespace Sys2Proof.Machine

/-! Masons. -/

def Dev.mason (d : Dev) (c : Nat) : Mason := d.hod.masons.getD c ⟨[], none, false, false, false, 0, 0, 0⟩

/-- Load accounted up to a time (R398): a Mason works while it runs a task or a handler. -/
def Mason.account (now : Nat) (m : Mason) : Mason :=
  let dt := now - m.since
  { m with since := now, busy := if m.task.isNone && m.handlers.isEmpty then m.busy else m.busy + dt,
           irq := if m.handlers.isEmpty then m.irq else m.irq + dt }

/-- HOD_CORE.STATE of a Mason: OFF, IDLE, RUN, HANDLER, FAILED. -/
def Mason.code (m : Mason) : Nat :=
  if m.failed then 4 else if !m.running then 0 else if !m.handlers.isEmpty then 3 else if m.task.isSome then 2 else 1

/-- Running level: that of the innermost handler; −1 stands for a task, below level 0 (R386). -/
def Mason.level (m : Mason) : Int := match m.handlers with | h :: _ => h.2 | [] => -1

def Dev.task? (d : Dev) (id : Nat) : Option Task := d.hod.tasks.find? (fun t => t.id == id)

def Dev.updTask (d : Dev) (id : Nat) (f : Task → Task) : Dev :=
  { d with hod := { d.hod with tasks := d.hod.tasks.map (fun (t : Task) => if t.id = id then f t else t) } }

/-- Change a Mason and show it in HOD_CORE. -/
def Dev.updMason (d : Dev) (c : Nat) (f : Mason → Mason) : Dev :=
  let m := f ((d.mason c).account d.now)
  let d := { d with hod := { d.hod with masons := updAt d.hod.masons c (fun _ => m) } }
  let pri := ((m.task.bind d.task?).map (·.pri)).getD 0
  ((((d.put (HOD_STATE c) m.code).put (HOD_TASK c) (m.task.getD 0)).put (HOD_TPRI c) pri).put (HOD_LVL c)
    ((m.handlers.head?.map (·.2)).getD 0))

/-! Ready lists (R392). -/

def Dev.readyOf (d : Dev) (p : Nat) : List Nat := d.hod.ready.getD p []

def Dev.setReady (d : Dev) (p : Nat) (l : List Nat) : Dev :=
  let d := { d with hod := { d.hod with ready := updAt d.hod.ready p (fun _ => l),
                                        qmax := updAt d.hod.qmax p (fun m => max m l.length) } }
  d.put (HOD_DEPTH p) (min l.length 255)

/-- A task becomes READY: at the tail of its list, or at the head when it was preempted or its Mason failed. -/
def Dev.pushReady (d : Dev) (id : Nat) (atHead : Bool) : Dev :=
  match d.task? id with
  | none => d
  | some t =>
    let now := d.now
    let d := d.updTask id (fun t => { t with st := .ready, since := now, long := false })
    let l := (d.readyOf t.pri).filter (· != id)
    d.setReady t.pri (if atHead then id :: l else l ++ [id])

/-- A READY task starts on a Mason: a context switch. -/
def Dev.startTask (d : Dev) (c id : Nat) : Dev :=
  match d.task? id with
  | none => d
  | some t =>
    let w := d.now - t.since
    let d := d.setReady t.pri ((d.readyOf t.pri).filter (· != id))
    let d := d.updTask id (fun t => { t with st := .running c })
    let d := { d with hod := { d.hod with wmax := updAt d.hod.wmax t.pri (fun m => max m w),
                                          switches := d.hod.switches + 1 } }
    (d.bump 0xD100).updMason c (fun m => { m with task := some id, asleep := false })

/-- The task at the head of the highest non-empty ready list whose affinity includes the Mason (R393). -/
def Dev.pickTask (d : Dev) (c : Nat) : Option Nat :=
  ((List.range 32).reverse.flatMap d.readyOf).find? (fun id =>
    match d.task? id with | some t => bitOf t.aff c | none => false)

/-- An idle Mason takes a task, if one waits for it. -/
def Dev.fillMason (d : Dev) (c : Nat) : Dev :=
  if (d.mason c).code = 1 then
    match d.pickTask c with
    | some id => d.startTask c id
    | none => d
  else d

/-- The Mason of an affinity that runs the lowest priority below `pri`; ties go to the lowest number (R393). -/
def Dev.victim (d : Dev) (aff pri : Nat) : Option Nat :=
  let runs := (List.range 8).filter (fun c => bitOf aff c && (d.mason c).code == 2 && decide (d.get (HOD_TPRI c) < pri))
  leastBy (fun c => d.get (HOD_TPRI c)) runs

/-- The task running on a Mason leaves it. -/
def Dev.vacate (d : Dev) (c : Nat) : Dev := d.updMason c (fun m => { m with task := none })

/-- A task is made READY and dispatched (R393): to an idle Mason, by preemption, or it waits; a preempted task returns to the
head of its list and is dispatched in turn. -/
def Dev.dispatch : Nat → Dev → Nat → Bool → Dev
  | 0, d, id, atHead => d.pushReady id atHead
  | n + 1, d, id, atHead =>
    let d := d.pushReady id atHead
    match d.task? id with
    | none => d
    | some t =>
      match (List.range 8).find? (fun c => bitOf t.aff c && (d.mason c).code == 1) with
      | some c => d.startTask c id
      | none =>
        match d.victim t.aff t.pri with
        | none => d
        | some c =>
          match (d.mason c).task with
          | none => d
          | some old =>
            let d := (d.bump 0xD104).vacate c
            let d := { d with hod := { d.hod with preempts := d.hod.preempts + 1 } }
            Dev.dispatch n (d.startTask c id) old true

/-- A task becomes READY at the tail of its list (R392). Each preemption lowers the priority dispatched, so that 32 rounds
suffice. -/
def Dev.makeReady (d : Dev) (id : Nat) : Dev := Dev.dispatch 32 d id false

/-- The running task of a Mason ends its run there with a new state, and the Mason takes the next task. -/
def Dev.blockTask (d : Dev) (c id : Nat) (st : TaskSt) : Dev :=
  ((d.updTask id (fun t => { t with st := st })).vacate c).fillMason c

/-- Tasks that wait on an object, by priority and then in order of their waits (R395). -/
def insWaiter (t : Task) : List Task → List Task
  | [] => [t]
  | u :: rest => if u.pri < t.pri ∨ (u.pri = t.pri ∧ t.order < u.order) then t :: u :: rest else u :: insWaiter t rest

def Dev.waiters (d : Dev) (o : WaitObj) : List Nat :=
  ((d.hod.tasks.filter (fun t => match t.st with | .waiting x _ => x == o | _ => false)).foldr insWaiter []).map (·.id)

/-- A wait ends with a result, and its task becomes READY. -/
def Dev.endWait (d : Dev) (ok : Bool) (id : Nat) : Dev := (d.updTask id (fun t => { t with resOk := ok })).makeReady id

/-- An assertion of a source whose target is Hod posts to its wait object (R395). -/
def Dev.post (d : Dev) (src : Nat) : Dev :=
  match d.waiters (.source src) with
  | [] => { d with hod := { d.hod with posts := d.hod.posts.filter (· != src) ++ [src] } }
  | ws => ws.foldl (fun (d : Dev) id => d.endWait true id) d

/-! Delivery of an assertion (R382, R385, R390). -/

/-- Delivery to a Mason: PENDING, or merged into the pending assertion. -/
def Dev.toMason (d : Dev) (src c : Nat) : Dev :=
  let d := if d.is (EVC_PEND src) then d.bump 0xCC00 else d.putB (EVC_PEND src) true
  let m := d.mason c
  if m.code = 0 ∨ m.code = 4 then d.undeliverable src else d

/-- Delivery to one engine as vector 6. -/
def Dev.toEngine (d : Dev) (src e : Nat) : Dev :=
  let d : Dev := match d.engSrcs.find? (fun x => x.eng == e && x.src == src) with
    | some x =>
      if x.pend then d.bump 0xCC00
      else { d with engSrcs := d.engSrcs.map (fun (y : EngSrc) => if y.eng = e ∧ y.src = src then { y with pend := true } else y) }
    | none => { d with engSrcs := d.engSrcs ++ [(⟨e, src, true, false⟩ : EngSrc)] }
  let d := d.updE e (fun g => { g with pend := setBit g.pend 6 true, asleep := false })
  if d.is (SRV_FAILED e) then d.undeliverable src else d

/-- The host entry of an assertion: to the event ring with HVEN, to the log only with LOG (R382, R384). -/
def Dev.hostEntry (d : Dev) (src det : Nat) : Dev :=
  let hven := src == 224 || d.is (EVC_HVEN src)
  if hven || d.is (EVC_LOG src) then
    let vec := if src = 224 then 0 else if hven then d.get (EVC_HVEC src) else 0xFF
    let e : EvEntry := ⟨d.now, src, vec, 1, det, d.get HTL_BEAT + 2 ^ 32 * d.planSeq, d.host.evSeq, 0⟩
    { d with host := { d.host with evOut := d.host.evOut ++ [e], evSeq := (d.host.evSeq + 1) % 2 ^ 32 } }
  else d

/-- An assertion latched in CORE: counted and delivered to its targets. -/
def Dev.assertion (d : Dev) (src det : Nat) : Dev :=
  let d := (d.bump (0xC800 + 4 * src)).hostEntry src det
  let kind := if src = 224 then 0 else d.get (EVC_KIND src)
  let tidx := d.get (EVC_TIDX src)
  if kind = 1 then d.toMason src (tidx % 8)
  else if kind = 2 then d.post src
  else if kind = 3 then (bitsOf tidx 16).foldl (fun (d : Dev) e => d.toEngine src e) d
  else d

/-! Mason handlers (R386 to R388). -/

/-- The pending source a Mason takes above a level: the highest level, and the lowest number among equals. -/
def Dev.nextSource (d : Dev) (c : Nat) (level : Int) : Option Nat :=
  leastBy (fun s => 15 - d.get (EVC_PRI s)) ((List.range 256).filter (fun s =>
    d.is (EVC_PEND s) && s != 224 && d.get (EVC_KIND s) == 1 && d.get (EVC_TIDX s) % 8 == c &&
    decide (level < d.get (EVC_PRI s))))

/-- A source leaves PENDING and its handler runs. -/
def Dev.activate (d : Dev) (c src : Nat) : Dev :=
  let pri := d.get (EVC_PRI src)
  ((d.putB (EVC_PEND src) false).putB (EVC_ACT src) true).updMason c (fun m =>
    { m with handlers := (src, pri) :: m.handlers, asleep := false })

/-- After a full return the Mason runs the highest task for it (R393): it may preempt the one it held. -/
def Dev.resume (d : Dev) (c : Nat) : Dev :=
  match (d.mason c).task with
  | none => d.fillMason c
  | some old =>
    match d.pickTask c with
    | none => d
    | some id =>
      let pri := fun (i : Nat) => ((d.task? i).map (·.pri)).getD 0
      if pri old < pri id then
        let d := (d.bump 0xD104).vacate c
        let d := { d with hod := { d.hod with preempts := d.hod.preempts + 1 } }
        Dev.dispatch 32 (d.startTask c id) old true
      else d

/-- A Mason fails (R396, R399): MASON_FAIL, its handlers' sources return to PENDING undeliverable, its task goes to the head of
its ready list and is dispatched among the Masons left. -/
def Dev.masonFail (d : Dev) (c : Nat) : Dev :=
  let m := d.mason c
  if m.code = 0 ∨ m.code = 4 then d
  else
    let d := d.updMason c (fun m => { m with failed := true, handlers := [], task := none })
    let d := d.raise (srcNo 14 1) c
    let d := m.handlers.foldl (fun (d : Dev) (h : Nat × Nat) =>
      ((d.putB (EVC_ACT h.1) false).putB (EVC_PEND h.1) true).undeliverable h.1) d
    match m.task with
    | some id => Dev.dispatch 32 d id true
    | none => d

end Sys2Proof.Machine
end

