-- ==== Sys2Proof/Machine/HostOps.lean ====
section
/-! DEFINITION. Rings, doorbells, entries and the journal of the Host Queue Engine (R351 to R361, R371, R472). Rings are
numbered command 0 to 31, completion 32 to 63, event 64, telemetry 65 to 72. -/

namespace Sys2Proof.Machine

/-! Rings. -/

def Dev.ringSize (d : Dev) (r : Nat) : Nat := 2 ^ d.get (RING_LOG2SZ r)

def Dev.ringAddr (d : Dev) (r : Nat) : Nat := d.get (RING_BASEL r) + 2 ^ 32 * d.get (RING_BASEH r)

/-- A device-written ring is full when its producer index is one behind its consumer index (R354). -/
def Dev.ringFull (d : Dev) (r : Nat) : Bool := (d.get (RING_DEVIDX r) + 1) % d.ringSize r == d.get (RING_HOSTIDX r)

/-- The ring is enabled and not stopped by an error, and no queue-engine reset is in progress. -/
def Dev.ringOn (d : Dev) (r : Nat) : Bool := d.is (RING_EN r) && !bitOf d.host.ringStop r && !d.is HQE_RSTBUSY

/-- The session state lets entries of the event and telemetry rings be written (R371). -/
def Dev.hostOpen (d : Dev) : Bool := d.session == 1 || d.session == 2 || d.session == 3

/-- The completion ring of a command: that named by its command ring; for one accepted before the last queue-engine reset,
ring 0 where that one is not enabled (R373). -/
def Dev.cplRing (d : Dev) (c : Cmd) : Nat :=
  let r := 32 + d.get (RING_CQVEC c.ring) % 32
  if c.reattach && !d.is (RING_EN r) then 32 else r

/-- May the command's completion be written now: the ring is usable in this session state and not full (R354, R371)? -/
def Dev.cplWritable (d : Dev) (c : Cmd) : Bool :=
  let r := d.cplRing c
  d.ringOn r && !d.ringFull r &&
    (if d.session = 0 then r == 32 else if d.session = 4 then c.opcode == 1 else true)

/-- Stop writing to a ring, or fetching from it (R472). -/
def Dev.stopRing (d : Dev) (r : Nat) : Dev :=
  { (d.putB (RING_ERR r) true) with
    host := { (d.putB (RING_ERR r) true).host with ringStop := setBit d.host.ringStop r true } }

/-- The producer index advances, and the phase inverts as it wraps (R353). -/
def Dev.advance (d : Dev) (r : Nat) : Dev :=
  let i := (d.get (RING_DEVIDX r) + 1) % d.ringSize r
  let d := d.put (RING_DEVIDX r) i
  if i = 0 then { d with host := { d.host with phases := updAt d.host.phases (r - 32) (!·) } } else d

def Dev.phase (d : Dev) (r : Nat) : Bool := d.host.phases.getD (r - 32) false

/-- An entry of a completion or telemetry ring has been written: its vector fires at CTHR entries (R355). -/
def Dev.signal (d : Dev) (r : Nat) : Dev :=
  let n := d.host.unsig.getD (r - 32) 0 + 1
  if max 1 (d.get HQE_CTHR) ≤ n then
    ({ d with host := { d.host with unsig := updAt d.host.unsig (r - 32) (fun _ => 0) } }).send (.msix (d.get (RING_CQVEC r)))
  else { d with host := { d.host with unsig := updAt d.host.unsig (r - 32) (fun _ => n) } }

/-! Completions (R357). -/

/-- The 32 bytes of a completion entry: its status and results, SQHEAD and FLAGS. -/
def cplBytes (c : Cmd) (status progress parts res0 res1 sqhead flags : Nat) : List Byte :=
  leBytes 2 c.cid ++ leBytes 1 c.ring ++ leBytes 1 status ++ leBytes 4 c.tag ++ leBytes 4 progress ++ leBytes 2 parts ++
  leBytes 2 sqhead ++ leBytes 8 res0 ++ leBytes 4 res1 ++ leBytes 1 c.opcode ++ leBytes 1 0 ++ leBytes 2 flags

/-- The completion of a command that is complete, with FLAGS. -/
def Dev.cplEntry (d : Dev) (c : Cmd) (x : Cpl) (phase : Bool) : List Byte :=
  cplBytes c x.status.code x.progress x.parts x.res0 x.res1 (d.get (RING_DEVIDX c.ring))
    ((if c.reattach then 1 else 0) + (if phase then 2 ^ 15 else 0))

/-- CPLHELD shows that a completion waits for ring space; as it rises CPL_HELD is raised (R354). -/
def Dev.held (d : Dev) (h : Bool) : Dev :=
  let was := d.is HQE_CPLHELD
  let d := d.putB HQE_CPLHELD h
  if h && !was then d.raise (srcNo 0 5) noDetail else d

def Dev.waitingCpls (d : Dev) : List Cmd := d.host.cplQ.filterMap d.cmd?

/-- Write the first completion whose ring takes it. Behind one that waits, those of the same ring wait too. -/
def Dev.writeCpl (d : Dev) : Dev :=
  match d.waitingCpls.find? d.cplWritable with
  | none => if d.waitingCpls.isEmpty || d.session == 4 then d else d.held true
  | some c =>
    match c.done with
    | none => d
    | some x =>
      let r := d.cplRing c
      let i := d.get (RING_DEVIDX r)
      let d := d.send (.hostWrite (d.ringAddr r + 32 * i) (d.cplEntry c x (d.phase r)))
      let d := { d with host := { d.host with cplQ := d.host.cplQ.filter (· != c.id) } }
      let d := ((d.updCmd c.id (fun c => { c with posted := some (r, i) })).advance r).signal r
      d.held (d.waitingCpls.any (fun c => !d.cplWritable c))

/-! Events (R354, R358). -/

/-- The 32 bytes of an event entry. -/
def EvEntry.bytes (e : EvEntry) (phase : Bool) : List Byte :=
  leBytes 8 e.time ++ leBytes 1 e.source ++ leBytes 1 e.vec ++ leBytes 2 e.count ++ leBytes 4 e.detail0 ++
  leBytes 8 e.detail1 ++ leBytes 4 e.seq ++ leBytes 1 e.kind ++ leBytes 1 0 ++ leBytes 2 (if phase then 2 ^ 15 else 0)

/-- The entry goes to the main log of 4,096 entries and to the retention log of 8 (R368, R421). -/
def Dev.logEvent (d : Dev) (e : EvEntry) : Dev :=
  let log := d.host.log ++ [e]
  let ret := d.ret.log ++ [e]
  { d with host := { d.host with log := log.drop (log.length - 4096) }, ret := { d.ret with log := ret.drop (ret.length - 8) } }

/-- Put an entry on the event ring. -/
def Dev.ringEvent (d : Dev) (e : EvEntry) : Dev :=
  (d.send (.hostWrite (d.ringAddr 64 + 32 * d.get (RING_DEVIDX 64)) (e.bytes (d.phase 64)))).advance 64

/-- Entries logged and not written to the ring. -/
def Dev.unsentEvent (d : Dev) : Dev := { d with host := { d.host with unsent := d.host.unsent + 1 } }

/-- An event meets a full ring: it is counted as dropped (R354). -/
def Dev.dropEvent (d : Dev) (e : EvEntry) : Dev :=
  let run := match d.host.drops with
    | none => ⟨1, e.seq, e.seq⟩
    | some r => { r with count := r.count + 1, last := e.seq }
  let d := ({ d with host := { d.host with drops := some run } }).bump 0x1044
  (if e.source = 6 then d else d.raise (srcNo 0 6) noDetail).unsentEvent

/-- When room returns after drops, the OVERFLOW entry goes first (Table — Overflow entry). -/
def Dev.overflowEntry (d : Dev) : Dev :=
  match d.host.drops with
  | none => d
  | some r =>
    if d.ringFull 64 then d
    else
      let e : EvEntry := ⟨d.now, 6, 0xFF, min r.count 0xFFFF, r.first, d.get HTL_BEAT + 2 ^ 32 * d.planSeq, r.last, 1⟩
      let d := d.ringEvent e
      { d with host := { d.host with drops := none } }

/-- Write one event entry: to the log, and to the ring where its vector names one. -/
def Dev.writeEvent (d : Dev) (e : EvEntry) : Dev :=
  let d := d.logEvent e
  if e.vec = 0xFF || !d.ringOn 64 || !d.hostOpen then d.unsentEvent
  else
    let d := d.overflowEntry
    if d.ringFull 64 then d.dropEvent e
    else
      let d := (d.ringEvent e).send (.msix e.vec)
      { d with host := { d.host with ringSeq := e.seq, unsent := 0 } }

/-! Telemetry (R354, R355, R359). -/

/-- The 256 bytes of a telemetry entry. -/
def telBytes (t : TelRec) (seq : Nat) (drop phase : Bool) : List Byte :=
  leBytes 8 t.time ++ leBytes 1 t.stream ++ leBytes 1 t.sub ++ leBytes 2 t.payload.length ++ leBytes 2 seq ++
  leBytes 2 ((if drop then 1 else 0) + (if phase then 2 ^ 15 else 0)) ++ bytesAt t.payload 0 240

/-- Write one telemetry record in four requests, the quarter with the header last; a full ring drops it, and an unusable one
discards it without count. -/
def Dev.writeTel (d : Dev) (t : TelRec) : Dev :=
  let r := 65 + t.ring
  if !d.ringOn r || !d.hostOpen then d
  else if d.ringFull r then
    ({ d with host := { d.host with telDrop := updAt d.host.telDrop t.ring (fun _ => true) } }.bump 0x1048).raise
      (srcNo 0 7) noDetail
  else
    let b := telBytes t (d.host.telSeq.getD t.ring 0) (d.host.telDrop.getD t.ring false) (d.phase r)
    let a := d.ringAddr r + 256 * d.get (RING_DEVIDX r)
    let quarter := fun (d : Dev) (k : Nat) => d.send (.hostWrite (a + 64 * k) (bytesAt b (64 * k) 64))
    let d := [1, 2, 3, 0].foldl quarter d
    let d := { d with host := { d.host with telSeq := updAt d.host.telSeq t.ring (fun s => (s + 1) % 2 ^ 16),
                                            telDrop := updAt d.host.telDrop t.ring (fun _ => false) } }
    (d.advance r).signal r

/-! Ring set-up and doorbells (R352, R353). -/

/-- A write to a ring's CFG register. It is ignored as a whole when it would enable a ring without a valid size, or change
another field than EN while the ring is enabled. `keep` holds ERR where the device sets it in the same cycle (R6). -/
def Dev.ringCfg (d : Dev) (r : Nat) (w keep : Word) : Dev :=
  let was := d.is (RING_EN r)
  let en := bitOf w.toNat 8
  let size := w.toNat % 32
  let other := fun (v : Nat) => Nat.land v 0xFF3F001F
  if (was && other w.toNat != other (d.reg (ringBase r + 8)).toNat) || (en && !(4 ≤ size && size ≤ 16)) then d.regErr 1
  else
    let d := d.writeAt (ringBase r + 8) w keep
    if en && !was then
      let d := d.setReg (ringBase r + 12) 0
      let host := { d.host with
        ringStop := setBit d.host.ringStop r false
        freshRings := if r < 32 then setBit d.host.freshRings r (d.session == 4) else d.host.freshRings
        phases := if r < 32 then d.host.phases else updAt d.host.phases (r - 32) (fun _ => true)
        unsig := if r < 32 then d.host.unsig else updAt d.host.unsig (r - 32) (fun _ => 0)
        cmds := d.host.cmds.map (fun (c : Cmd) =>
          if r ≥ 32 ∧ c.posted.map (·.1) = some r then { c with posted := none } else c) }
      { d with host := host }
    else if was && !en then { d with host := { d.host with ringStop := setBit d.host.ringStop r false } }
    else d

/-- Does the ring accept a doorbell value (R352)? -/
def Dev.doorbellOk (d : Dev) (r : Nat) (w : Word) : Bool :=
  let idx := w.toNat % 65536
  d.is (RING_EN r) && w.toNat / 2 ^ 24 == d.get (RING_GEN r) && decide (idx < d.ringSize r) &&
    (decide (r < 32) ||
      decide (ringDist (d.ringSize r) idx (d.get (RING_HOSTIDX r)) ≤
        ringDist (d.ringSize r) (d.get (RING_DEVIDX r)) (d.get (RING_HOSTIDX r))))

/-- The journal count in HQE_STAT. -/
def Dev.showJournal (d : Dev) : Dev := d.put HQE_JNL d.host.cmds.length

/-- Commands whose written completion lies before the consumer index leave the journal (R373). -/
def Dev.acknowledge (d : Dev) (r old idx : Nat) : Dev :=
  let n := d.ringSize r
  let span := ringDist n idx old
  let gone := fun (c : Cmd) => match c.posted with
    | some (q, i) => q == r && decide (ringDist n i old < span)
    | none => false
  { d with host := { d.host with cmds := d.host.cmds.filter (fun (c : Cmd) => !gone c) } }.showJournal

/-- A doorbell write (R352). -/
def Dev.doorbell (d : Dev) (r : Nat) (w : Word) : Dev :=
  if d.doorbellOk r w then
    let old := d.get (RING_HOSTIDX r)
    let idx := w.toNat % 65536
    let d := d.put (RING_HOSTIDX r) idx
    if 32 ≤ r && r < 64 then d.acknowledge r old idx else d
  else (d.bump 0x1040).raise (srcNo 0 3) noDetail

/-! Acceptance (R356, R360, R371, R470). -/

/-- PARAM bytes an opcode defines, as offsets in the entry; `none` for an unknown opcode (Table — Command parameters). -/
def paramBytes (op : Nat) : Option (List Nat) :=
  let span := fun (a n : Nat) => (List.range n).map (· + a)
  match op with
  | 0x01 => some (span 0x18 15)
  | 0x02 | 0x03 | 0x10 | 0x11 | 0x12 | 0x13 | 0x50 => some []
  | 0x14 => some (span 0x18 5)
  | 0x20 => some (span 0x18 2)
  | 0x21 => some (0x18 :: span 0x20 8)
  | 0x22 => some (0x18 :: span 0x1A 2)
  | 0x23 => some (0x18 :: span 0x1C 16)
  | 0x24 => some (span 0x18 10 ++ span 0x28 8)
  | 0x28 => some (span 0x18 2 ++ span 0x1C 4)
  | 0x29 => some (span 0x18 2)
  | 0x30 => some (0x18 :: span 0x1A 2 ++ span 0x20 8)
  | 0x31 => some (0x18 :: span 0x20 20)
  | 0x38 => some (span 0x18 4 ++ span 0x20 8)
  | 0x40 => some (span 0x18 2)
  | 0x41 => some (0x18 :: span 0x1C 4 ++ span 0x20 2)
  | 0x42 => some (span 0x18 3 ++ span 0x1C 2 ++ span 0x20 8)
  | 0x60 => some (span 0x18 2 ++ span 0x1C 4)
  | 0x70 => some (span 0x18 3)
  | _ => none

/-- Does the command take a buffer or master copy (Table — Command summary)? -/
def takesBuffer (op : Nat) : Bool :=
  [0x01, 0x10, 0x12, 0x13, 0x20, 0x22, 0x24, 0x30, 0x38, 0x40, 0x41, 0x50].contains op

/-- Step 1 of R470: opcode, FLAGS, the reserved word and the PARAM bytes not defined. -/
def entryOk (b : List Byte) : Bool :=
  match paramBytes (uAt b 0 1) with
  | none => false
  | some ds =>
    decide (uAt b 1 1 < 2) && uAt b 0x14 4 == 0 &&
      (List.range 40).all (fun i => ds.contains (0x18 + i) || uAt b (0x18 + i) 1 == 0)

/-- The part of step 3 of R470 that concerns ADDR and LEN; DIAG checks its own. -/
def addrOk (op addr len : Nat) : Bool :=
  if op = 0x70 then true else if takesBuffer op then addr != 0 && len != 0 else addr == 0

/-- The completion ring of a command ring is full, or completions that cannot be written wait for it: nothing is fetched that
would post to it (R354). -/
def Dev.cplBlocked (d : Dev) (r : Nat) : Bool :=
  let q := 32 + d.get (RING_CQVEC r) % 32
  d.session != 4 && ((d.ringOn q && d.ringFull q) || d.waitingCpls.any (fun c => d.cplRing c == q && !d.cplWritable c))

/-- Is a command fetched from the ring? -/
def Dev.fetchable (d : Dev) (r : Nat) : Bool :=
  d.ringOn r && d.get (RING_DEVIDX r) != d.get (RING_HOSTIDX r) && !d.cplBlocked r &&
    (if d.session = 0 then r == 0 else if d.session = 4 then bitOf d.host.freshRings r else true)

/-- Accepted commands not yet complete. -/
def Dev.outstanding (d : Dev) : Nat := (d.host.cmds.filter (fun c => c.done.isNone)).length

/-- The oldest complete command goes when more than 1,024 are held (R373). -/
def Dev.journalLimit (d : Dev) : Dev :=
  if d.host.cmds.length ≤ 1024 then d
  else
    match d.host.cmds.find? (fun c => c.done.isSome) with
    | none => d
    | some c =>
      let d := { d with host := { d.host with cmds := d.host.cmds.filter (fun (x : Cmd) => x.id != c.id),
                                              cplQ := d.host.cplQ.filter (· != c.id) } }
      (d.putB HQE_JOVF true).raise (srcNo 0 10) noDetail

/-- A command entry read completely is accepted into the journal and checked: the entry, the session state, ADDR and LEN. -/
def Dev.accept (d : Dev) (r : Nat) (b : List Byte) : Dev :=
  let op := uAt b 0 1
  let id := d.host.nextId
  let addr := uAt b 8 8
  let len := uAt b 0x10 4
  let allowed := if d.session = 2 then op != 1 else op == 1
  let c : Cmd :=
    { id := id, ring := r, opcode := op, fence := uAt b 1 1 % 2 == 1, cid := uAt b 2 2, tag := uAt b 4 4, addr := addr,
      len := len, param := bytesAt b 0x18 40, accepted := d.now, started := false, progress := 0, reattach := false,
      done := none, posted := none, journalOnly := d.session == 4 && op != 1 }
  let d := { d with host := { d.host with cmds := d.host.cmds ++ [c], nextId := id + 1, rr := (r + 1) % 32 } }
  let d := (d.put (RING_DEVIDX r) ((d.get (RING_DEVIDX r) + 1) % d.ringSize r)).journalLimit.showJournal
  if !entryOk b then d.finish id .rejectedParam
  else if !allowed then d.finish id .rejectedState
  else if !addrOk op addr len then d.finish id .rejectedParam
  else d

/-- The ring whose turn it is: the first fetchable one from the round robin's place on (R360). -/
def Dev.nextRing (d : Dev) : Option Nat :=
  ((List.range 32).map (fun k => (d.host.rr + k) % 32)).find? d.fetchable

/-! The queue-engine reset (R376). -/

/-- Every ring register returns to its reset value, completions not yet written stay in the journal, accepted commands run on,
and ATTACHED becomes RESYNC. An ATTACH in BOOT is abandoned and its image released. -/
def Dev.queueReset (d : Dev) : Dev :=
  let ring := fun (x : Nat × Word) => decide (0x1100 ≤ x.1) && decide (x.1 < 0x1680)
  let d := { d with regs := d.regs.filter (fun x => !ring x), hold := d.hold.filter (fun x => !ring x) }
  let d : Dev := match d.session, d.host.attaching with
    | 0, some id =>
      let d := if d.get TST_STAGE = 6 then d.put TST_STAGE 5 else d
      ({ d with host := { d.host with attaching := none } }).finish id .aborted
    | _, _ => d
  let host := { d.host with
    cmds := d.host.cmds.map (fun (c : Cmd) => { c with reattach := true, posted := none })
    cplQ := [], phases := List.replicate 41 false, unsig := List.replicate 41 0, freshRings := 0, ringStop := 0 }
  let d : Dev := { d with host := host }
  let d := (d.putB HQE_CPLHELD false).putB HQE_RSTBUSY true
  if d.session = 2 then d.put HQE_STATE 3 else d

end Sys2Proof.Machine
end

