-- ==== Sys2Proof/Machine/Sha.lean ====
section
/-! DEFINITION. The SHA-256 digest of a byte string, which the firmware image checks name (R444): the padding, schedule and
compression of that standard. -/

namespace Sys2Proof.Machine

/-- Primes in order, found by trial division below a bound. -/
def isPrime (n : Nat) : Bool := decide (2 ≤ n) && (List.range n).all (fun k => k < 2 || n % k != 0)

/-- The first 64 primes, whose roots give the constants of the standard. -/
def shaPrimes : List Nat := ((List.range 312).filter isPrime).take 64

/-- Greatest x with x^e ≤ n, found bit by bit below 2^bits. -/
def natRoot (e n : Nat) : Nat → Nat → Nat
  | 0, x => x
  | b + 1, x => natRoot e n b (if (x + 2 ^ b) ^ e ≤ n then x + 2 ^ b else x)

/-- First 32 fraction bits of the cube roots of the first 64 primes. -/
def shaK : List Word := shaPrimes.map (fun p => BitVec.ofNat 32 (natRoot 3 (p * 2 ^ 96) 36 0))

/-- First 32 fraction bits of the square roots of the first 8 primes. -/
def shaH : List Word := (shaPrimes.take 8).map (fun p => BitVec.ofNat 32 (natRoot 2 (p * 2 ^ 64) 36 0))

/-- Big-endian word of four bytes. -/
def beWord (bs : List Byte) : Word := bs.foldl (fun w b => w <<< 8 ||| b.setWidth 32) 0

/-- Big-endian bytes of a word. -/
def wordBe (w : Word) : List Byte := [24, 16, 8, 0].map (fun s => (w >>> (s : Nat)).setWidth 8)

/-- The padded message: a 1 bit, zeros, and the length in bits as 64 bits. -/
def shaPad (m : List Byte) : List Byte :=
  m ++ (0x80 : Byte) :: List.replicate ((119 - m.length % 64) % 64) 0 ++ (leBytes 8 (8 * m.length)).reverse

/-- The 64 schedule words of a block, newest first. -/
def shaSchedule : Nat → List Word → List Word
  | 0, w => w
  | n + 1, w =>
    let g := fun i => w.getD i 0
    let s0 := (g 14).rotateRight 7 ^^^ (g 14).rotateRight 18 ^^^ (g 14 >>> 3)
    let s1 := (g 1).rotateRight 17 ^^^ (g 1).rotateRight 19 ^^^ (g 1 >>> 10)
    shaSchedule n ((s1 + g 6 + s0 + g 15) :: w)

/-- One round on the eight working words. -/
def shaRound (s : List Word) (kw : Word × Word) : List Word :=
  match s with
  | [a, b, c, d, e, f, g, h] =>
    let s1 := e.rotateRight 6 ^^^ e.rotateRight 11 ^^^ e.rotateRight 25
    let t1 := h + s1 + ((e &&& f) ^^^ (~~~e &&& g)) + kw.1 + kw.2
    let s0 := a.rotateRight 2 ^^^ a.rotateRight 13 ^^^ a.rotateRight 22
    let t2 := s0 + ((a &&& b) ^^^ (a &&& c) ^^^ (b &&& c))
    [t1 + t2, a, b, c, d + t1, e, f, g]
  | _ => s

/-- One block of 64 bytes. -/
def shaBlock (h : List Word) (blk : List Byte) : List Word :=
  let w := ((List.range 16).map (fun i => beWord (bytesAt blk (4 * i) 4))).reverse
  let ws := (shaSchedule 48 w).reverse
  List.zipWith (· + ·) h ((shaK.zip ws).foldl shaRound h)

/-- The digest: fold over the blocks. -/
def shaBlocks : Nat → List Byte → List Word → List Word
  | 0, _, h => h
  | n + 1, bs, h => shaBlocks n (bs.drop 64) (shaBlock h (bs.take 64))

def sha256 (m : List Byte) : List Byte :=
  let p := shaPad m
  (shaBlocks (p.length / 64) p shaH).flatMap wordBe

end Sys2Proof.Machine
end

