-- ==== Sys2Proof/Machine/Copies.lean ====
section
/-! DEFINITION. Master copies and the firmware image: the check of a copy against its CRC (R363, R372, R409), what a failed
re-fetch leaves, the image header (R444) and the reattach report (R373). -/

namespace Sys2Proof.Machine

/-- The CRC over a copy as its kind computes it: CRC-32 for a safety set, CRC-32C for the other blobs, over bytes 0x10 to the
end. -/
def copyCrc (kind : Nat) (b : List Byte) : Nat := if kind = 3 then crc32 (b.drop 16) else crc32c (b.drop 16)

/-- Does a re-read copy match its CRC field and the one registered? An axis table has none. -/
def MCopy.matches (m : MCopy) (b : List Byte) : Bool :=
  b.length == m.len && (m.kind == 6 || (copyCrc m.kind b == uAt b 0x0C 4 && uAt b 0x0C 4 == m.crc))

/-- The active slot cannot be read: an assembly whose last block has not been delivered waits for it (R64). -/
def Dev.holdAssembly (d : Dev) : Dev :=
  if d.kiln.delivered then d else { d with kiln := { d.kiln with prob := none, used := none } }

/-- The active slot has no usable copy: the problem of the stride is given up, and its assembly waits (R64). Past the deadline
that is the next stride's problem. -/
def Dev.loseProblem (d : Dev) : Dev :=
  let d : Dev := { d with kiln := { d.kiln with prob := none, used := none, delivered := false,
                                                assembling := d.kiln.assembling || d.kiln.delivered } }
  let d := [0, 1].foldl (fun (d : Dev) w => d.updW w (fun x => { x with next := none })) d
  if d.planner.phase = 0 then d.dropOld else d

/-- A copy's unit meets a failed re-fetch: a model slot is unusable (R64); a schedule or servo container stays marked bad
until it is replaced (Table — Mortar memory recovery). -/
def Dev.copyFailed (d : Dev) (kind : Nat) : Dev :=
  let d := { d with host := { d.host with
    copies := d.host.copies.map (fun (m : MCopy) => if m.kind = kind then { m with bad := true } else m) } }
  if kind = 1 then ((d.put KLN_ACTV 3).raise (srcNo 2 7) noDetail).loseProblem
  else if kind = 2 then (d.put KLN_STGV 3).raise (srcNo 2 7) noDetail
  else d

/-- Is the copy that a command in progress registered marked bad? -/
def Dev.loadBad (d : Dev) (id : Nat) : Bool := d.host.copies.any (fun m => m.cmd == some id && m.bad)

/-! The firmware image (R444). -/

/-- The image with the 64 bytes of SIG zeroed, and its digest. -/
def imageDigest (b : List Byte) : List Byte := sha256 (putBytes b 0x100 (List.replicate 64 0))

/-- The number of the first check of R444 that fails, 0 when all pass. -/
def imageCheck (b : List Byte) (len : Nat) : Nat :=
  if uAt b 0 4 ≠ 0x46574B44 ∨ uAt b 4 2 ≠ 0x0101 ∨ uAt b 6 2 ≠ 0x0100 then 1
  else if uAt b 8 4 ≠ len ∨ b.length ≠ len ∨ 2097152 < len then 2
  else if sha256 (bytesAt b 0xC0 64) ≠ Config.keyHash then 3
  else if Config.ecdsaValid (bytesAt b 0xC0 64) (bytesAt b 0x100 64) (imageDigest b) = false then 4
  else if uAt b 0x10 2 < Config.fuseSecVer then 5
  else 0

/-- Targets the firmware gives to sources; those of source 224 cannot be changed (R382, R384). -/
def Dev.setTargets (d : Dev) (ts : List TgtSet) : Dev :=
  ts.foldl (fun (d : Dev) t =>
    if t.src = 224 ∨ 256 ≤ t.src then d
    else ((d.put (EVC_KIND t.src) t.kind).put (EVC_PRI t.src) t.pri).put (EVC_TIDX t.src) t.tidx) d

/-- The Masons run the firmware, idle until a task is ready (R443). -/
def Dev.startMasons (d : Dev) : Dev :=
  (List.range 8).foldl (fun (d : Dev) c => d.updMason c (fun m => { m with running := true, asleep := true })) d

/-! The reattach report (R373). -/

/-- Insert by ascending KIND and INDEX. -/
def insCopy (m : MCopy) : List MCopy → List MCopy
  | [] => [m]
  | x :: rest => if m.kind * 256 + m.index < x.kind * 256 + x.index then m :: x :: rest else x :: insCopy m rest

def MCopy.bytes (m : MCopy) : List Byte :=
  let p := m.cmd.isSome
  leBytes 1 m.kind ++ leBytes 1 m.index ++ leBytes 1 (if p then 2 else if m.bad then 1 else 0) ++ leBytes 1 0 ++
  leBytes 4 (if p then 0 else m.mid) ++ leBytes 8 m.addr ++ leBytes 4 m.len ++ leBytes 4 m.crc ++ leBytes 8 0

/-- The entry of a command in the report: its completion, or STATUS 0xFF with PENDING. -/
def Dev.reportCmd (d : Dev) (c : Cmd) : List Byte :=
  let sq := d.get (RING_DEVIDX c.ring)
  match c.done with
  | some x => cplBytes c x.status.code x.progress x.parts x.res0 x.res1 sq 0
  | none => cplBytes c 0xFF c.progress 0 0 0 sq 2

/-- The report with the commands it lists: room for `room` entries of 32 bytes, master copies first. -/
def Dev.report (d : Dev) (self room : Nat) : List Cmd × Nat × List Byte :=
  let cmds := d.host.cmds.filter (fun c => c.id != self)
  let copies := d.host.copies.foldr insCopy []
  let nmc := min copies.length room
  let ncmd := min cmds.length (room - nmc)
  let cut := decide (nmc + ncmd < copies.length + cmds.length)
  let flags := (if d.is HQE_JOVF then 1 else 0) + (if cut then 2 else 0)
  let body := (cmds.take ncmd).flatMap d.reportCmd ++ (copies.take nmc).flatMap MCopy.bytes
  let head := leBytes 4 0x52505441 ++ leBytes 2 0x0101 ++ leBytes 2 0x40 ++ leBytes 4 (64 + body.length) ++
    leBytes 2 ncmd ++ leBytes 2 nmc ++ leBytes 8 d.host.tloss ++ leBytes 8 d.host.tatt ++ leBytes 1 d.host.reactRun ++
    leBytes 1 d.plState ++ leBytes 2 flags ++ leBytes 4 d.host.ringSeq ++ leBytes 4 d.host.unsent ++
    leBytes 2 cmds.length ++ leBytes 2 copies.length ++ List.replicate 16 0
  (cmds.take ncmd, ncmd + nmc, head ++ body)

/-- Check the copies the units hold against the bytes re-read, in the order of their registration (R372). -/
def Dev.checkCopies (d : Dev) (fs : List Fetch) : Dev :=
  let held := d.host.copies.filter (fun m => m.cmd.isNone && m.kind != 0)
  (held.zipIdx).foldl (fun (d : Dev) (x : MCopy × Nat) =>
    let m := x.1
    let same := fun (y : MCopy) => y.cmd.isNone && y.kind == m.kind && y.index == m.index
    let mark := fun (d : Dev) (b : Bool) => { d with host := { d.host with
      copies := d.host.copies.map (fun (y : MCopy) => if same y then { y with bad := b } else y) } }
    match fs.getD x.2 .failed with
    | .bytes b => if m.matches b then mark d false else ((mark d true).copyFailed m.kind).raise (srcNo 0 9) noDetail
    | .failed => (((mark d true).copyFailed m.kind).dmaError).raise (srcNo 0 9) noDetail) d

end Sys2Proof.Machine
end

