-- ==== Sys2Proof/Machine/Reset.lean ====
section
/-! DEFINITION. What each reset of the main die and of the Hedge leaves (R420, R438 to R440). -/

namespace Sys2Proof.Machine

/-! Resets. -/

/-- Registers that a reset of the main die keeps (R440): GLB_RSTCAUSE, MNS_RAIL.LASTCAUSE, the retained joints. -/
def keptReg (off : Nat) : Bool := off == 8 || off == 0xB8E0 || (0xBA00 ≤ off && off < 0xBBE0)

/-- The Hedge at a reset of the main die: every arm in STO (Table — Fault classes), a set that waited gone. -/
def Channel.mainLost (c : Channel) : Channel :=
  { c with next := none, arms := c.arms.map (fun (r : ArmRt) => { r with st := .sto, latched := true, still := 0, phase := 0 }) }

/-- Its STO_ON events (R260). -/
def Channel.stoEvents (c : Channel) : List (Nat × Nat) :=
  ((List.range 8).filter (fun a => (c.arm a).st != .sto)).map (fun a => (2, a))

/-- A reset of the main die (Table — Reset matrix): the Hedge's logic and set, the retention bank and the recorded causes are
kept, all else returns to its reset value. The Hedge's sides go low with the set that is no longer in force (R254). -/
def Dev.mainReset (d : Dev) (cause : Nat) : Dev :=
  let n := { Dev.zero with
    regs := (0x0000, 0x00A20860) :: d.regs.filter (fun (r : Nat × Word) => keptReg r.1)
    out := d.out, freeCtr := d.freeCtr, ret := d.ret
    boot := { d.boot with hib := if d.boot.hib = 3 then 3 else 0, pllFail := false, partFail := false, xdieLost := false, laneLeft := 2 ^ 18 - 1 }
    safety := { SafetySt.zero with b := d.safety.b.mainLost, hdgEv := d.safety.hdgEv ++ d.safety.b.stoEvents, hdgCnt := d.safety.hdgCnt } }
  let n := ((n.put GLB_RSTCAUSE cause).putB MNS_SEQERR false).putB MNS_HIBWOKE false
  n.drive true

/-- What holds the main die in reset. -/
def Dev.resetHeld (d : Dev) : Bool :=
  d.boot.perst || d.boot.railsOut || d.boot.testen || !d.boot.vaux || d.boot.hib == 3 || d.boot.intrusive

/-- An axis after a reset (R339): a retained position is restored in DRVOFF, a lost one is 0 in DISABLED. -/
def Dev.restoreAxis (d : Dev) (a : Nat) : Dev :=
  match d.ret.aux.getD a none with
  | some p =>
    let d := (d.updAx a (fun r => { r with pos := p, tgt := p, emitted := p / 65536 })).put (AUX_STATE a) 6
    ((d.putB (AUX_RETAINED a) true).putB (AUX_DRVOFF a) true).axPublish a
  | none => (d.bump 0xAC0C).raise (srcNo 12 6) a

/-- The main die leaves reset once nothing holds it there: the boot starts with stage PLL (R443). -/
def Dev.leaveReset (d : Dev) : Dev :=
  if d.resetHeld || d.get TST_STAGE != 0 then d
  else
    let d := d.put TST_STAGE 1
    let d := (d.putB MNS_SEQERR d.boot.seqErr).putB MNS_HIBWOKE d.boot.woke
    let d := if d.get MNS_LASTCAUSE = 7 then d else d.raise (srcNo 13 11) noDetail
    let d := if d.boot.woke then d.raise (srcNo 13 13) noDetail else d
    let d := { d with boot := { d.boot with woke := false, seqErr := false } }
    (List.range 16).foldl Dev.restoreAxis d

/-- The Hedge resets with its supply (R216, R424, R440). -/
def Dev.hedgeReset (d : Dev) : Dev :=
  { d with safety := { d.safety with b := Channel.zero, inForce := false, hdgEv := [], hdgCnt := List.replicate 7 0,
                                     keySeen := false, unlocked := false } }

end Sys2Proof.Machine
end

