-- ==== Sys2Proof/Machine/TimeOps.lean ====
section
/-! DEFINITION. Cell time, plant time and the PTP slaves: what a Sync, an Announce or a change of state does (R291 to R302,
R306, R307). -/

namespace Sys2Proof.Machine

def Dev.dom (d : Dev) (k : Nat) : Domain := d.time.domains.getD k Domain.zero

def Dev.updDom (d : Dev) (k : Nat) (f : Domain → Domain) : Dev :=
  { d with time := { d.time with domains := updAt d.time.domains k f } }

/-- E, ns (R300). -/
def Dev.epochE (d : Dev) : Int := signed 64 (d.get64 TIM_EPOCH)

/-- E changes: TIM_OFS of every domain that has measured, and TIM_RESID of the reference, show θ_d − E. -/
def Dev.setE (d : Dev) (e : Int) : Dev :=
  let d := d.put64 TIM_EPOCH (encSigned 64 e)
  let d := ([0, 1].filter (fun k => (d.dom k).last.isSome)).foldl (fun (d : Dev) k =>
    d.put64 (TIM_DOFS k) (encSigned 64 ((d.dom k).theta - e))) d
  d.put TIM_RESID (encSigned 32 (satS 32 ((d.dom d.time.ref).theta - e)))

/-- The rate adjustment in force, ppb. -/
def Dev.setAdj (d : Dev) (a : Int) : Dev := d.put TIM_ADJ (encSigned 16 a)

/-- The cell is running (R292). -/
def Dev.setRunning (d : Dev) : Dev := d.putB TIM_RUNNING true

/-- One TIME cycle: cell time grows by 1 ns × (1 + ADJ), with a resolution of 2^−48 ns (R291). -/
def Dev.timeCycle (d : Dev) : Dev :=
  if d.time.started then
    let inc : Nat := ((2 ^ 48 : Nat) + divRne (d.getS TIM_ADJ * (2 ^ 48 : Nat)) 1000000000).toNat
    let t := d.time.frac + inc
    { d with time := { d.time with now := d.time.now + t / 2 ^ 48, frac := t % 2 ^ 48 } }
  else d

/-- The six time registers are latched at one TIME cycle (R306). -/
def Dev.latchTime (d : Dev) : Dev :=
  let p : Int := d.now + d.epochE
  let sec := p / 1000000000
  let d := (d.put64 0x3020 d.now).put TIM_NOWF (d.time.frac / 2 ^ 32)
  let d := (d.put TIM_PLSECH (encSigned 48 sec / 2 ^ 32)).put TIM_PLSECL (encSigned 48 sec)
  d.put TIM_PLNS (p % 1000000000).toNat

/-! Steering (R299 to R302). -/

/-- SLEWING is shown or cleared; clearing raises SLEW_DONE. -/
def Dev.setSlewing (d : Dev) (b : Bool) : Dev :=
  let was := d.is TIM_SLEWING
  let d := d.putB TIM_SLEWING b
  let d : Dev := if b then d else { d with time := { d.time with slewing := false } }
  if was && !b then d.raise (srcNo 10 5) noDetail else d

/-- Step cell time forward by δ (R292): every cell-time instant the domains hold moves with it. -/
def Dev.stepTime (d : Dev) (δ : Nat) : Dev :=
  let f := fun (x : Domain) =>
    { x with theta := x.theta - δ, last := x.last.map (fun (a, b, c) => (a, b + δ, c)),
             req := x.req.map (fun (a, b) => (a, b + δ)), prev := x.prev.map (fun (a, b) => (a, b + δ)),
             pend := x.pend.map (fun p => { p with t2 := p.t2 + δ })
             foreign := x.foreign.map (fun (g : Foreign) => { g with times := g.times.map (· + δ) }) }
  { d with time := { d.time with now := d.time.now + δ, domains := d.time.domains.map f } }

/-- E is captured as θ of the reference domain, with the step of R292 while ALIGN is set and the cell not running (R300). -/
def Dev.captureE (d : Dev) : Dev :=
  let θ := (d.dom d.time.ref).theta
  let d := { d with time := { d.time with captured := true } }
  if d.is TIM_ALIGN && !d.is TIM_RUNNING then
    let δ := (θ % 1000000000).toNat
    (d.stepTime δ).setE (θ - δ)
  else d.setE θ

/-- SWMODE decides on the reference's offset (R301). -/
def Dev.applySwitch (d : Dev) : Dev :=
  if !d.is TIM_RUNNING then d.captureE
  else if d.is TIM_SWMODE then { d with time := { d.time with slewing := true } }
  else d.setE (d.dom d.time.ref).theta

/-- Holdover begins (R302): ADJ holds f. -/
def Dev.holdStart (d : Dev) : Dev :=
  if d.is TIM_HOLD || d.is TIM_FREERUN then d
  else
    let d := { d with time := { d.time with holdFrom := some d.now, holdLong := false } }
    (((d.putB TIM_HOLD true).setAdj (clampInt d.time.f (-20000) 20000)).setSlewing false).raise (srcNo 10 2) noDetail

def Dev.holdEnd (d : Dev) : Dev :=
  if d.is TIM_HOLD then
    ({ d with time := { d.time with holdFrom := none } }.putB TIM_HOLD false).raise (srcNo 10 3) noDetail
  else d

/-- The reference becomes another domain (R301). -/
def Dev.switchRef (d : Dev) (k : Nat) : Dev :=
  let d := { d with time := { d.time with ref := k, refNext := none } }
  let d := (d.put TIM_REFDOM k).raise (srcNo 10 4) noDetail
  let d := d.put TIM_RESID (encSigned 32 (satS 32 ((d.dom k).theta - d.epochE)))
  if d.get (TIM_DSTATE k) = 3 then d.holdEnd.applySwitch else d.holdStart

/-- A domain enters SLAVE. -/
def Dev.enterSlave (d : Dev) (k : Nat) : Dev :=
  let d := (d.put (TIM_DSTATE k) 3).raise (srcNo 10 0) k
  let d := d.updDom k (fun x => { x with bad := 0 })
  let d := d.putB TIM_FREERUN false
  if d.time.ref = k then
    let d := d.holdEnd
    if d.time.captured then d.applySwitch else d.captureE
  else d

/-- A domain goes to another state; leaving SLAVE raises UNLOCK and, for the reference, switches it or starts holdover
(R297, R301, R302). `auto` is false where a rule says that holdover begins. -/
def Dev.domTo (d : Dev) (k st : Nat) (auto : Bool) : Dev :=
  let was := d.get (TIM_DSTATE k)
  let d := (d.put (TIM_DSTATE k) st).updDom k (fun x => { x with good := 0, bad := 0, pend := none })
  let d := if st = 2 then d
    else d.updDom k (fun x => { x with master := none, last := none, req := none, delays := [], gotResp := false, prev := none })
  if was = 3 ∧ st ≠ 3 then
    let d := d.raise (srcNo 10 1) k
    if d.time.ref ≠ k then d
    else if auto && d.is TIM_AUTOSW && d.get (TIM_DSTATE (1 - k)) == 3 then d.switchRef (1 - k)
    else d.holdStart
  else d

/-! Masters (R296). -/

/-- Lexicographic comparison. -/
def lexLt : List Nat → List Nat → Bool
  | [], _ => false
  | _ :: _, [] => false
  | a :: as, b :: bs => if a = b then lexLt as bs else decide (a < b)

/-- The dataset comparison: grandmasters first, then the path to the same grandmaster. -/
def Foreign.better (a b : Foreign) : Bool :=
  if a.gm = b.gm then lexLt [a.steps, a.ident, a.port] [b.steps, b.ident, b.port] else lexLt a.gm b.gm

/-- 2^n s in ns for a log message interval. -/
def logNs (n : Int) : Nat := if n < 0 then 1000000000 / 2 ^ n.natAbs else 1000000000 * 2 ^ n.toNat

/-- A foreign master is qualified: two Announces within four announce intervals. -/
def Foreign.qualified (f : Foreign) (now : Nat) : Bool :=
  decide (2 ≤ (f.times.filter (fun t => decide (now ≤ t + 4 * logNs f.logAnn))).length)

def bestForeign : List Foreign → Option Foreign
  | [] => none
  | f :: rest => match bestForeign rest with
    | none => some f
    | some g => if g.better f then some g else some f

/-- The choice of master after an Announce. -/
def Dev.chooseMaster (d : Dev) (k : Nat) : Dev :=
  match bestForeign ((d.dom k).foreign.filter (fun f => f.qualified d.now)) with
  | none => d
  | some f =>
    let same := (d.dom k).master == some (f.port, f.ident)
    let had := (d.dom k).master.isSome
    let d := if same then d
      else
        let d := d.domTo k 2 true
        let d := d.updDom k (fun x => { x with master := some (f.port, f.ident), last := none, req := none, delays := [],
                                                gotResp := false, prev := none })
        if had then d.raise (srcNo 10 6) k else d
    let d := (d.put (TIM_DPORT k) f.port).put (TIM_DSTEPS k) f.steps
    let id := f.gm.getLastD 0
    (d.put (TIM_DGMIDL k) (id % 2 ^ 32)).put (TIM_DGMIDH k) (id / 2 ^ 32)

/-- A PTP message the profile does not admit is ignored and counted (R295, PTPERR). -/
def Dev.ptpErr (d : Dev) : Dev := (d.bump 0x30B0).raise (srcNo 10 8) noDetail

def PtpHdrOk (h : PtpHdr) : Bool := h.formed && h.sdoId == 0 && h.version == 2 && decide (h.minor ≤ 1)

/-- Own clockIdentity. -/
def Dev.clockId (d : Dev) : Nat := d.get TIM_CLKIDL + 2 ^ 32 * d.get TIM_CLKIDH

/-- Enabled domains a message belongs to. -/
def Dev.domainsOf (d : Dev) (h : PtpHdr) : List Nat :=
  [0, 1].filter (fun k => d.get (TIM_DSTATE k) != 0 && d.get (TIM_DOMNO k) == h.domain)

/-! Sync (R298, R299). -/

/-- Mean path delay: mean of the last values. -/
def Domain.mpd (x : Domain) : Int := divRne (x.delays.foldl (· + ·) 0) x.delays.length

/-- The rate of the master against the cell over the Syncs since the last one taken, ppb. -/
def rateOf (prev : Option (Int × Int)) (dom cell : Int) : Int :=
  match prev with
  | none => 0
  | some (d0, c0) =>
    if cell ≤ c0 then 0 else satS 32 (divRne (((dom - d0) - (cell - c0)) * 1000000000) (cell - c0).toNat)

/-- R299 for the reference domain in SLAVE. After a write of REFDOM a slew stays stopped until the new domain's Sync (R307). -/
def Dev.steer (d : Dev) (k : Nat) (rate : Int) (take : Bool) : Dev :=
  let e := (d.dom k).theta - d.epochE
  let d := if take then { d with time := { d.time with f := satS 32 (d.time.f + rate) } } else d
  let lim : Int := 1000 * d.get TIM_SLEW
  let off := decide (d.get TIM_LOCKTHR < e.natAbs)
  let stopped := off && d.time.refNext.isSome
  let p := if stopped then 0 else clampInt (satS 32 (e / (2 ^ d.get TIM_PTAU : Nat))) (-lim) lim
  let d := d.setAdj (clampInt (d.time.f + p) (-20000) 20000)
  let d := d.put TIM_RESID (encSigned 32 (satS 32 e))
  d.setSlewing (off && !stopped)

/-- A Sync is complete with t1, t2 and c_S in 2^−16 ns: offset, lock tests, reference change, steering. The lock tests of the reference
use θ − E while it steers and no offset of a switch is being slewed, and its predicted offset otherwise (DEDUCED: E is captured at
the lock, and a slewed offset does not end SLAVE in the worked example). -/
def Dev.syncDone (d : Dev) (k : Nat) (t1 t2 cS : Int) : Dev :=
  let x := d.dom k
  let θ := divRne ((t1 - t2) * 65536 + cS) 65536 + x.mpd
  let dom := t1 + divRne cS 65536
  let isRef := d.time.ref == k
  let steered := isRef && d.get (TIM_DSTATE k) == 3 && !d.time.slewing
  let pred := match x.last with
    | some (_, t2', _) => x.theta + divRne (d.getS (TIM_DRATE k) * (t2 - t2')) 1000000000
    | none => θ
  let e := if steered then θ - d.epochE else θ - pred
  let thr := d.get TIM_LOCKTHR
  let n := if isRef then d.time.nSync + 1 else d.time.nSync
  let take := !isRef || n % 2 ^ d.get TIM_FAVG == 0
  let rate := rateOf x.prev dom t2
  let d := { d with time := { d.time with nSync := n } }
  let d := d.updDom k (fun x =>
    { x with theta := θ, last := some (t1, t2, cS), pend := none,
             prev := if take || x.prev.isNone then some (dom, t2) else x.prev,
             good := if e.natAbs ≤ thr then x.good + 1 else 0, bad := if 8 * thr < e.natAbs then x.bad + 1 else 0 })
  let d := if take then d.put (TIM_DRATE k) (encSigned 32 rate) else d
  let st := d.get (TIM_DSTATE k)
  let d := if st = 2 ∧ d.get TIM_LOCKN ≤ (d.dom k).good ∧ (d.dom k).gotResp then d.enterSlave k
    else if st = 3 ∧ 4 ≤ (d.dom k).bad then d.domTo k 2 true
    else d
  -- a write of REFDOM changes the reference at the next accepted Sync of the new domain (R301)
  let d := if d.time.refNext = some k then d.switchRef k else d
  let d := if d.time.ref = k ∧ d.get (TIM_DSTATE k) = 3 then d.steer k rate take else d
  d.put64 (TIM_DOFS k) (encSigned 64 ((d.dom k).theta - d.epochE))

end Sys2Proof.Machine
end

