-- ==== Sys2Proof/Machine/Time.lean ====
section
/-! DEFINITION. Commands of the Time and Sync unit but the beat tick: reading time, the PTP slaves, the transparent clock and
TIME_CONFIG (R294 to R307). -/

namespace Sys2Proof.Machine

/-! Reading. -/

/-- A read of TIM_NOWL (R306). -/
def execTimeReadLatch (s : State) : Out :=
  s.run (fun d => if d.linked then let d := d.latchTime; d.send (.readData (d.reg 0x3020)) else d)

/-- A read of the low word of a 64-bit value returns it and latches the high word; at the offset of a high word it is the
next read of that word, which returns the latched value (R7). -/
def execLowWordRead (off : BitVec 16) (s : State) : Out :=
  s.run (fun d =>
    if !d.linked then d
    else if off = 0x3020 then let d := d.latchTime; d.send (.readData (d.reg 0x3020))
    else match findReg off.toNat with
      | some r =>
        if r.kind = .low64 then
          { d with latch := fileIns d.latch (off.toNat + 4) (d.reg (off.toNat + 4)) }.send (.readData (d.reg off.toNat))
        else if r.kind = .high64 then
          { d with latch := fileDel d.latch off.toNat }.send
            (.readData (fileGet (fun o => d.reg o) d.latch off.toNat))
        else d
      | none => d)

/-! The reference domain and the slaves (R297, R301, R307, R308). -/

/-- A write of REFDOM: the reference changes at the next accepted Sync of the new domain, and a slew stops. -/
def Dev.writeRefdom (d : Dev) (k : Nat) : Dev :=
  let d := d.put TIM_REFDOM k
  if k = d.time.ref then { d with time := { d.time with refNext := none } }
  else
    let d := { d with time := { d.time with refNext := some k } }
    if d.is TIM_SLEWING then (d.setAdj (clampInt d.time.f (-20000) 20000)).setSlewing false else d

def execRefdomWrite (k : Fin 2) (s : State) : Out := s.run (fun d => if d.linked then d.writeRefdom k else d)

/-- A write of the SLVEN bits: a domain enabled enters LISTENING, or FAULTY while both links are down. -/
def Dev.writeSlven (d : Dev) (en : Nat) : Dev :=
  [0, 1].foldl (fun (d : Dev) k =>
    let b := bitOf en k
    let d := d.putB (TIM_SLVEN k) b
    if b && d.get (TIM_DSTATE k) == 0 && d.clockId != 0 then d.put (TIM_DSTATE k) (if d.time.plantUp.any id then 1 else 4)
    -- a domain disabled in the same write is not one to switch to
    else if !b && d.get (TIM_DSTATE k) != 0 then (d.domTo k 0 (bitOf en (1 - k))).updDom k (fun x => { x with foreign := [] })
    else d) d

def execSlaveEnableWrite (en : BitVec 2) (s : State) : Out :=
  s.run (fun d => if d.linked then d.writeSlven en.toNat else d)

/-- A write of TIM_DOM: a domain whose number changes returns to LISTENING; equal numbers are refused, and a reserved number
leaves its field unchanged (R5, R307, R308). -/
def Dev.writeDom (d : Dev) (w : Word) : Dev :=
  let n0 := w.toNat % 256
  let n1 := w.toNat / 256 % 256
  let kept := fun (n k : Nat) => if 127 < n then d.get (TIM_DOMNO k) else n
  if kept n0 0 = kept n1 1 then d.regErr 3
  else
    let d := if 127 < n0 ∨ 127 < n1 then d.regErr 3 else d
    [(0, n0), (1, n1)].foldl (fun (d : Dev) (x : Nat × Nat) =>
      if 127 < x.2 ∨ x.2 = d.get (TIM_DOMNO x.1) then d
      else
        let d := (d.put (TIM_DOMNO x.1) x.2).updDom x.1 (fun y => { y with foreign := [] })
        if d.get (TIM_DSTATE x.1) = 0 ∨ d.get (TIM_DSTATE x.1) = 4 then d else d.domTo x.1 1 false) d

def execDomainNumberWrite (w : Word) (s : State) : Out := s.run (fun d => if d.linked then d.writeDom w else d)

/-! PTP messages. -/

/-- An Announce arrives on plant port p (R296). -/
def Dev.announce (d : Dev) (p : Nat) (h : PtpHdr) (b : AnnBody) : Dev :=
  (d.domainsOf h).foldl (fun (d : Dev) k =>
    if !PtpHdrOk h then d.ptpErr
    else if 255 ≤ b.steps ∨ h.clockId = d.clockId then d
    else
      let old := (d.dom k).foreign.find? (fun f => f.port == p && f.ident == h.source)
      let times := (d.now :: (match old with | some f => f.times | none => [])).take 4
      let f : Foreign := ⟨p, h.source, b.gm ++ [b.gmId], b.steps, h.logInt, times⟩
      let keep := (d.dom k).foreign.filter (fun g =>
        !(g.port == p && g.ident == h.source) && g.times.any (fun t => decide (d.now ≤ t + 4 * logNs g.logAnn)))
      let d := d.updDom k (fun x => { x with foreign := keep ++ [f] })
      if d.get (TIM_DSTATE k) = 4 then d else d.chooseMaster k) d

def execAnnounceReceive (p : Fin 2) (h : PtpHdr) (b : AnnBody) (s : State) : Out :=
  s.run (fun d => if d.up && d.time.started then d.announce p h b else d)

/-- A Sync or, with `follow`, a Follow_Up arrives on plant port p with the origin timestamp it carries (R298, R299). -/
def Dev.syncMsg (d : Dev) (p : Nat) (follow : Bool) (h : PtpHdr) (o : PtpTime) : Dev :=
  (d.domainsOf h).foldl (fun (d : Dev) k =>
    if !PtpHdrOk h || h.logInt < -7 || 1 < h.logInt then d.ptpErr
    else if (d.dom k).master ≠ some (p, h.source) then d
    else
      let t1 : Int := (o.sec : Int) * 1000000000 + o.ns
      if follow then
        match (d.dom k).pend with
        | some s =>
          if s.seq ≠ h.seq then d
          -- the profile admits a Follow_Up within one Sync interval of its Sync
          else if s.t2 + logNs (d.getS (TIM_DLOGSYNC k)) < d.now then (d.updDom k (fun x => { x with pend := none })).ptpErr
          else d.syncDone k t1 s.t2 (s.corr + h.corr)
        | none => d
      else
        let d := d.put (TIM_DLOGSYNC k) (encSigned 8 h.logInt)
        let t2 : Int := (d.now : Int) - d.get (TIM_RXLAT p)
        if h.twoStep then d.updDom k (fun x => { x with pend := some ⟨h.seq, t2, h.corr⟩ })
        else d.syncDone k t1 t2 h.corr) d

def execSyncReceive (p : Fin 2) (follow : Bool) (h : PtpHdr) (o : PtpTime) (s : State) : Out :=
  s.run (fun d => if d.up && d.time.started then d.syncMsg p follow h o else d)

/-- A slave sends its Delay_Req on the port of its master (R295, R298). -/
def execDelayReqSend (k : Fin 2) (s : State) : Out :=
  s.run (fun d =>
    match (d.dom k).master with
    | none => d
    | some (p, _) =>
      if d.up && d.time.started then
        let seq := ((d.dom k).reqSeq + 1) % 65536
        let t3 : Int := (d.now : Int) + d.get (TIM_TXLAT p)
        (d.updDom k (fun x => { x with reqSeq := seq, req := some (seq, t3) })).send (.delayReq p k seq)
      else d)

/-- A Delay_Resp to port identity `to` arrives with t4 (R298). -/
def Dev.delayResp (d : Dev) (p : Nat) (h : PtpHdr) (who : Nat) (t4 : PtpTime) : Dev :=
  (d.domainsOf h).foldl (fun (d : Dev) k =>
    let x := d.dom k
    if !PtpHdrOk h then d.ptpErr
    else if x.master ≠ some (p, h.source) ∨ who ≠ d.clockId * 65536 + p + 1 then d
    else match x.req, x.last with
      | some (seq, t3), some (t1, t2, cS) =>
        if seq = h.seq then
          let v : Int := (t2 - t1 + (t4.sec * 1000000000 + t4.ns : Nat) - t3) * 65536 - cS - h.corr
          let delay := divRne v 131072
          let d := d.updDom k (fun x => { x with req := none, gotResp := true,
                                                 delays := ((if delay < 0 then 0 else delay) :: x.delays).take 8 })
          d.put (TIM_DMPD k) (encSigned 32 (d.dom k).mpd)
        else d
      | _, _ => d) d

def execDelayRespReceive (p : Fin 2) (h : PtpHdr) (who : Nat) (t4 : PtpTime) (s : State) : Out :=
  s.run (fun d => if d.up && d.time.started then d.delayResp p h who t4 else d)

/-- No Announce from the master for three announce intervals (R297). -/
def execAnnounceTimeout (k : Fin 2) (s : State) : Out :=
  s.run (fun d =>
    match (d.dom k).master with
    | none => d
    | some (p, id) =>
      if d.up && (d.get (TIM_DSTATE k) == 2 || d.get (TIM_DSTATE k) == 3) then
        let f := (d.dom k).foreign.find? (fun f => f.port == p && f.ident == id)
        let d := match f with
          | some f => d.reach (f.times.headD 0 + 3 * logNs f.logAnn)
          | none => d
        let d := d.updDom k (fun x => { x with foreign := x.foreign.filter (fun f => !(f.port == p && f.ident == id)) })
        d.domTo k 1 true
      else d)

/-- No accepted Sync for four Sync intervals (R297). -/
def execSyncTimeout (k : Fin 2) (s : State) : Out :=
  s.run (fun d =>
    if d.up && d.get (TIM_DSTATE k) == 3 then
      let d := match (d.dom k).last with
        | some (_, t2, _) => d.reach (t2.toNat + 4 * logNs (d.getS (TIM_DLOGSYNC k)))
        | none => d
      d.domTo k 2 true
    else d)

/-- The link of a plant port goes up or down (R297). -/
def execPlantLinkChange (p : Fin 2) (up : Bool) (s : State) : Out :=
  s.run (fun d =>
    if !d.up || d.time.plantUp.getD p false == up then d
    else
      let d := { d with time := { d.time with plantUp := updAt d.time.plantUp p (fun _ => up) } }.raise (srcNo 10 10) p
      [0, 1].foldl (fun (d : Dev) k =>
        let st := d.get (TIM_DSTATE k)
        if d.time.plantUp.any id then (if st = 4 then d.put (TIM_DSTATE k) 1 else d)
        else if st = 0 ∨ st = 4 then d
        -- both domains leave at once: there is none to switch to
        else d.domTo k 4 false) d)

/-- Holdover has lasted 60 s (R302). -/
def execHoldLong (s : State) : Out :=
  s.run (fun d =>
    match d.time.holdFrom with
    | none => d
    | some t =>
      if d.up && !d.time.holdLong then
        { (d.reach (t + 60000000000)) with time := { (d.reach (t + 60000000000)).time with holdLong := true } }.raise
          (srcNo 10 7) noDetail
      else d)

/-! The transparent clock (R303 to R305). -/

/-- A frame received on plant port p. `drop`: bad FCS, longer than 1,522 bytes, PAUSE, or to the reserved addresses. `event`:
the correctionField of a Sync or Delay_Req. `dwell`: ns from the ingress timestamp to the egress timestamp at the pins. -/
def execTcForward (p : Fin 2) (drop : Bool) (event : Option Int) (dwell : Nat) (s : State) : Out :=
  s.run (fun d =>
    if !d.up || !d.is CLK_TIMELK || !d.is TIM_TCEN then d
    else if drop then
      let d := d.bump 0x30AC
      if d.time.dropSeen then d else { d with time := { d.time with dropSeen := true } }.raise (srcNo 10 9) noDetail
    else
      let q := 1 - p.val
      let d := d.bump (0x30A0 + 4 * p.val)
      match event with
      | none => d.send (.forward q none)
      | some c =>
        let res : Int := dwell + d.get (TIM_RXLAT p) + d.get (TIM_TXLAT q)
        (d.bump 0x30A8).send (.forward q (some (c + res * 65536))))

/-! TIME_CONFIG (R23, R113, R117, R150, R294). -/

/-- R113 over the leads and WATCH in µs and the stride in ns. -/
def timingOk (a dl c w ts : Nat) : Bool :=
  decide (40 ≤ c) && decide (c + 40 ≤ dl) && decide ((dl + 200) * 1000 ≤ ts) && decide (dl + 50 ≤ a) &&
    decide ((a + 100) * 1000 ≤ ts) && decide (w + 40 ≤ c)

/-- R113 for the words of SLV_TIMING and SLV_REDUN. -/
def timingWordsOk (t r : Nat) (ts : Nat) : Bool :=
  timingOk (t % 1024) (t / 2 ^ 10 % 1024) (t / 2 ^ 20 % 1024) (r / 16 % 256) ts

/-- R117 over STOP and the knot layout, both in strides. -/
def missWithin (stop knots : Nat) : Bool :=
  decide (2 * stop ≤ knots % 32 * (knots / 256 % 16) + (32 - knots % 32) * (knots / 4096 % 128))

/-- A load is being checked or awaits its point of effect, or a mode switch is pending (R150). -/
def Dev.loadsBusy (d : Dev) : Bool :=
  d.heath.loading.isSome || d.heath.awaiting.isSome || d.safety.load.isSome || d.safety.a.next.isSome ||
    d.servo.loading.isSome || d.servo.pending.isSome || d.heath.switch.isSome

/-- A TIME_CONFIG that changes the beat awaits its instant (R150). -/
def Dev.beatChange (d : Dev) : Bool :=
  match d.time.pending with | some (l, _, _) => l.tb != d.time.layout.tb | none => false

def execTimeConfig (s : State) : Out :=
  s.run (fun d => d.start 0x60 (fun d c =>
    let l : Layout := ⟨c.u 0x18 1, c.u 0x19 1, c.u 0x1C 4⟩
    let old := d.time.layout
    if 2 < l.tb ∨ l.strb < 4 ∨ 16 < l.strb ∨ l.beat ≤ l.bphase ∨ l.stride < 500000 ∨
        !timingWordsOk (d.reg 0x5400).toNat (d.reg 0x5404).toNat l.stride ∨
        !missWithin (d.get SLV_MSTOP) (d.reg 0x5010).toNat then d.finish c.id .rejectedParam
    else if !d.is CLK_TIMELK || d.time.pending.isSome ||
        (l.tb != old.tb && (d.plState != 0 || d.loadsBusy)) ||
        ((l.strb != old.strb || l.bphase != old.bphase) && (d.plState != 0 || d.get HTL_PEN != 0)) then
      d.finish c.id .rejectedState
    else { d with time := { d.time with pending := some (l, c.accepted + 10000, c.id) } }))

end Sys2Proof.Machine
end

