-- ==== Sys2Proof/Machine/Model.lean ====
section
/-! DEFINITION. Loading and activating a cell model (R43, R59 to R61, R64) and what a check unit's finding does (R286). -/

namespace Sys2Proof.Machine

/-! Check units. -/

/-- A check unit finds a mismatch (R286): counted per channel, raised at most once per beat. -/
def Dev.chkMiss (d : Dev) (c : Nat) : Dev :=
  let d := d.bump (0xE040 + 4 * c)
  if d.heath.chkSeen then d
  else { d with heath := { d.heath with chkSeen := true } }.raise (srcNo 15 0) noDetail

/-- Does channel c check correctly? A channel that failed its self-test makes its check fail (R286). -/
def Dev.chkWorks (d : Dev) (c : Nat) : Bool := !d.is (CHK_FAILC c)

/-! MODEL_LOAD. -/

/-- MODEL_LOAD passes step 4 of R470: its copy is registered and the blob is being fetched (R59). -/
def execModelLoad (s : State) : Out :=
  s.run (fun d => d.start 0x10 (fun d c =>
    if d.is KLN_LOADBUSY || d.kiln.activating.isSome then d.finish c.id .rejectedState
    else
      let d := (d.registerCopy c 2 0).putB KLN_LOADBUSY true
      { d with kiln := { d.kiln with loading := some c.id } }))

/-- The identity registers of both slots (KLN_MDLACT). -/
def Dev.showModels (d : Dev) : Dev :=
  let w := fun (d : Dev) (n : Nat) (m : Option Model) =>
    (d.put (KLN_MDLACT n) ((m.map (·.modelid)).getD 0)).put (KLN_MDLACT (n + 1)) ((m.map (·.modelrev)).getD 0)
  w (w d 0 d.kiln.active) 2 d.kiln.staged

/-- The blob has been fetched: the staged slot's previous content goes with its copy, and the blob takes its place if it
passes the checks of R40. A transfer that fails leaves the slot as it was. -/
def execModelFetchDone (f : Fetch) (s : State) : Out :=
  s.run (fun d =>
    match d.kiln.loading.bind d.cmd? with
    | none => d
    | some c =>
      if !d.up then d
      else
        let d := { d with kiln := { d.kiln with loading := none } }.putB KLN_LOADBUSY false
        match d.served f with
        | .failed => d.hostFault c.id 1
        | .bytes b =>
          let parts := checkModel c.len b
          let crcBad := magicOk b c.len && crc32c (b.drop 16) != uAt b 0x0C 4
          let parts := if d.chkWorks 8 then parts else setBit parts 15 true
          let d := if crcBad || !d.chkWorks 8 then d.chkMiss 8 else d
          if parts ≠ 0 then
            let d := ({ d with kiln := { d.kiln with staged := none, refetch := d.kiln.refetch.filter (· != 2) } }.put KLN_STGV 0).releaseCopy 2 0
            d.showModels.complete c.id .rejectedParam b.length parts 0 0
          else
            let m := parseModel b
            let d := ({ d with kiln := { d.kiln with staged := some m, refetch := d.kiln.refetch.filter (· != 2) } }.put KLN_STGV 1).releaseCopy 2 0
            let d := d.adoptCopy c.id 2 0 m.modelid m.crc
            d.showModels.complete c.id .ok b.length 0 0 0)

/-! MODEL_ACTIVATE. -/

/-- An arm is in STO: some channel holds it there (R233). -/
def Dev.armSto (d : Dev) (a : Nat) : Bool :=
  decide ((d.safety.a.arm a).st = .sto) || decide ((d.safety.b.arm a).st = .sto)

/-- R60: does the new model change an arm that is present and not in STO, or put a joint of it outside its limits? -/
def Dev.changesArm (d : Dev) (old new : Model) : Bool :=
  old.arms.any (fun a =>
    d.armPresent old a.armid && !d.armSto a.armid &&
      (match new.arm? a.armid with
       | none => true
       | some b =>
         a.nj != b.nj || a.firstj != b.firstj ||
         (old.armJoints a.armid).any (fun j =>
           match new.joint? j.gj with
           | none => true
           | some k =>
             j.type != k.type || j.fbsrc != k.fbsrc || j.fbaddr != k.fbaddr || j.axis != k.axis ||
               decide (d.measQ j.gj < k.qmin) || decide (k.qmax < d.measQ j.gj))))

/-- The joint has a valid entry in the servo parameter set in force (R150). -/
def Dev.validEntry (d : Dev) (gj : Nat) : Bool := d.is SRV_PVALID && (d.entry gj).isSome

/-- The wall may take a role (R112); one in the lane test of a rejoin may not until it passes (R135). -/
def Dev.wallAvail (d : Dev) (w : Nat) : Bool :=
  let x := d.planner.walls.getD w WallSt.zero
  x.avail && !x.testing

/-- A conveyor's channel has REFN clear and ZMODE 1 or 2 (R325). -/
def Dev.convReady (d : Dev) (k : ConvEnt) : Bool :=
  match d.field.fb[k.fbch]? with
  | some r => !bitOf r.cfg.cfg 4 && (r.cfg.cfg / 32 % 4 == 1 || r.cfg.cfg / 32 % 4 == 2)
  | none => false

/-- The conditions that R59, R60, R112, R150 and R325 answer with REJECTED_STATE. A staged slot whose re-fetch is pending or
that is unusable is refused like an empty one (DESIGN CHOICE: R59 names the empty slot alone). -/
def Dev.activateOk (d : Dev) (m : Model) : Bool :=
  !d.is KLN_LOADBUSY && d.kiln.activating.isNone && decide (d.get KLN_STGV = 1) &&
  m.convs.all d.convReady &&
  (!d.is TIM_RUNNING || (match d.kiln.active with | some o => !d.changesArm o m | none => true)) &&
  (d.plState != 0 || (m.joints.all (fun j => d.validEntry j.gj) && (d.wallAvail 0 || d.wallAvail 1)))

/-- R43: no joint brakes more weakly than the active safety set monitors. -/
def Dev.dmonOk (d : Dev) (m : Model) : Bool :=
  match d.setOf false with
  | none => true
  | some s => s.joints.all (fun x => match m.joint? x.gj with | some j => decide (x.amon ≤ j.dmon) | none => true)

/-- MODEL_ACTIVATE: accepted, it waits for its latch (R61). -/
def execModelActivate (s : State) : Out :=
  s.run (fun d => d.start 0x11 (fun d c =>
    match d.kiln.staged with
    | none => d.finish c.id .rejectedState
    | some m =>
      if !d.activateOk m then d.finish c.id .rejectedState
      else if !d.dmonOk m then d.finish c.id .rejectedParam
      else { d with kiln := { d.kiln with activating := some (c.id, c.accepted) } }.putB KLN_ACTPEND true))

/-- The exchange of the slots at the latch, with their copies and status (R59, R61); the command completes. A joint that leaves the
active model has no feedback any more (R140). -/
def Dev.exchangeModels (d : Dev) : Dev :=
  let k := d.kiln
  let swap := fun (m : MCopy) =>
    if m.cmd.isSome then m else if m.kind = 1 then { m with kind := 2 } else if m.kind = 2 then { m with kind := 1 } else m
  let stg := d.get KLN_STGV
  let act := d.get KLN_ACTV
  let d : Dev := { d with
    kiln := { k with active := k.staged, staged := k.active, activating := none,
                     refetch := k.refetch.map (fun (x : Nat) => if x = 1 then 2 else if x = 2 then 1 else x) }
    host := { d.host with copies := d.host.copies.map swap } }
  let d := (((d.put KLN_ACTV stg).put KLN_STGV act).putB KLN_ACTPEND false).showModels
  let d := (d.servo.joints.filter (fun j => !d.kiln.active.any (fun m => m.joints.any (fun k => k.gj == j.gj)))).foldl
    (fun (d : Dev) (j : JointRt) => d.stopDelivering j.gj) d
  match k.activating, d.kiln.active with
  | some (id, _), some m => d.complete id .ok 0 0 (m.modelid + 2 ^ 32 * m.modelrev) 0
  | _, _ => d

end Sys2Proof.Machine
end

