-- ==== Sys2Proof/Machine/Refs.lean ====
section
/-! DEFINITION. The reference of an arm: cubic Hermite between segment ends (R52, R365), and what SEG_APPEND, SEG_FLUSH and
TARGET_SET do to a queue at the check point. -/

namespace Sys2Proof.Machine

/-- A conveyor frame as the Kiln predicts from it (R51): origin and direction of the entry, displacement at S in 2^−32 mm and
speed in 2^−36 mm/s. -/
structure ConvNow where
  kid : Nat
  origin : V3
  dir : V3
  disp : Int
  speed : Int
  deriving DecidableEq, Repr

/-- What the reference of an arm depends on beside its segments: S, the model, the active tools, and the conveyor frames. -/
structure ConvRef where
  s : Nat
  crc : Nat
  tools : List (Option Nat)
  frames : List ConvNow
  deriving DecidableEq, Repr

/-- The frames as latched, ORIGIN in 2^−16 mm and DIR in Q1.30. -/
def Dev.convRef (d : Dev) (m : Model) : ConvRef :=
  let v := fun (l : List Int) => (⟨l.getD 0 0, l.getD 1 0, l.getD 2 0⟩ : V3)
  ⟨d.s, m.crc, d.kiln.tools, m.convs.filterMap (fun e => (d.kiln.convs.find? (fun c => c.kid == e.kid)).map (fun c =>
    ⟨e.kid, v (vecAt e.body 8 3), v (vecAt e.body 0x14 3), c.disp * e.scale, c.speed * e.scale⟩))⟩

/-- Displacement at cell time t, d(S) + v·(t − S), in 2^−32 mm (R51). -/
def ConvNow.at (c : ConvNow) (s t : Nat) : Int := c.disp + divRne (c.speed * ((t : Int) - s)) 16000000000

/-- The tool point of a segment in the cell frame at t, 2^−32 mm, and its velocity, 2^−32 mm/s: POS and VEL in the frame of the
conveyor, moved with it (R52). -/
def ConvNow.tool (c : ConvNow) (s t : Nat) (pos vel : List Int) : V3 × V3 :=
  let up := fun (l : List Int) => (⟨l.getD 0 0 * 2 ^ 16, l.getD 1 0 * 2 ^ 16, l.getD 2 0 * 2 ^ 16⟩ : V3)
  let along := fun (x : Int) => (V3.scale x c.dir).shr 30
  (V3.add (V3.scale (2 ^ 16) c.origin) (V3.add (up pos) (along (c.at s t))), V3.add (up vel) (along (divRne c.speed 16)))

/-- The joints of an arm at t in a conveyor-relative segment that starts from joint positions and velocities at `start`: where
its tool point is known and no joint position is stated, so a free value of all it may depend on; none where the model has no
such conveyor. -/
def ConvRef.joints (g : ConvRef) (arm t : Nat) (p : Nat × List Int × List Int) (x : Seg) : Option (List Knot) :=
  (g.frames.find? (fun c => c.kid == x.kid)).map (fun c =>
    let w := c.tool g.s t x.pos x.vel
    let l : List Int := [(g.crc : Int), arm, (((g.tools.getD arm none).map (· + 1)).getD 0 : Nat), p.1, x.tend, t] ++ p.2.1 ++ p.2.2 ++
      [w.1.x, w.1.y, w.1.z, w.2.x, w.2.y, w.2.z]
    (List.range p.2.1.length).map (fun i =>
      ⟨Config.toolRef l i 0, Config.toolRef l i 1, Config.toolRef l i 2, Config.toolRef l i 3⟩))

/-- The cubic of one joint from (q0, v0) to (q1, v1) over T ns, at τ ns: position, velocity, acceleration and jerk. -/
def jointCubic (q0 v0 q1 v1 : Int) (T τ : Nat) : Knot :=
  if T = 0 then ⟨q1, v1, 0, 0⟩
  else
    let T' : Int := T
    let u : Int := τ
    let dq := q1 - q0
    let g : Int := 1000000000
    { q := divRne ((q0 * T' ^ 3 + dq * (3 * u ^ 2 * T' - 2 * u ^ 3)) * g +
             256 * T' * (v0 * u * (T' - u) ^ 2 + v1 * u ^ 2 * (u - T'))) (T ^ 3 * 1000000000)
      v := divRne (dq * (6 * u * T' - 6 * u ^ 2) * g +
             256 * T' * (v0 * (T' - u) * (T' - 3 * u) + v1 * u * (3 * u - 2 * T'))) (256 * T ^ 3)
      a := divRne (dq * (6 * T' - 12 * u) * g ^ 2 + 256 * T' * g * (v0 * (6 * u - 4 * T') + v1 * (6 * u - 2 * T')))
             (4096 * T ^ 3)
      j := divRne (-12 * dq * g ^ 3 + 256 * T' * g ^ 2 * 6 * (v0 + v1)) (65536 * T ^ 3) }

/-- End of a piece in joint space, from the end of the piece before: time, positions, velocities. -/
def Seg.jointEnd (g : ConvRef) (arm : Nat) (p : Nat × List Int × List Int) (x : Seg) : Nat × List Int × List Int :=
  if x.kind = 0 then (x.tend, x.pos, x.vel)
  else match g.joints arm x.tend p x with
    | some l => (x.tend, l.map (·.q), l.map (·.v))
    | none => (x.tend, p.2.1, p.2.1.map (fun _ => 0))

/-- The reference over the pieces that remain, from the end of the piece before. -/
def refPieces (g : ConvRef) (arm t : Nat) : Nat × List Int × List Int → List Seg → List Knot
  | p, [] => p.2.1.map (fun q => (⟨q, 0, 0, 0⟩ : Knot))
  | p, x :: rest =>
    if x.tend < t then refPieces g arm t (x.jointEnd g arm p) rest
    else if x.kind = 0 then
      (List.range x.pos.length).map (fun i =>
        jointCubic (p.2.1.getD i 0) (p.2.2.getD i 0) (x.pos.getD i 0) (x.vel.getD i 0) (x.tend - p.1) (t - p.1))
    else match g.joints arm t p x with
      | some l => l
      | none => p.2.1.map (fun q => (⟨q, 0, 0, 0⟩ : Knot))

/-- The reference of an arm at cell time t, per joint of the arm (R365). -/
def ArmRef.eval (r : ArmRef) (g : ConvRef) (t : Nat) : List Knot :=
  if t ≤ r.start ∧ r.segs = [] then r.q0.map (fun q => (⟨q, 0, 0, 0⟩ : Knot))
  else refPieces g r.arm (max t r.start) (r.start, r.q0, r.v0) r.segs

/-- Append segments at time t: an empty queue starts from the reference there. -/
def ArmRef.append (r : ArmRef) (g : ConvRef) (t : Nat) (segs : List Seg) : ArmRef :=
  if r.segs = [] then
    let k := r.eval g t
    { r with start := t, q0 := k.map (·.q), v0 := k.map (·.v), segs := segs }
  else { r with segs := r.segs ++ segs }

/-- Discard every segment that ends after `tfrom`; from there on the reference holds its value (R365). A later `tfrom` cuts
the segment it lies in. -/
def ArmRef.flush (r : ArmRef) (g : ConvRef) (t tfrom : Nat) : ArmRef :=
  let k := r.eval g (max t tfrom)
  if tfrom ≤ t then
    { r with start := t, q0 := k.map (·.q), v0 := k.map (fun _ => 0), segs := [] }
  else if r.segs.any (fun x => decide (tfrom < x.tend)) then
    { r with segs := r.segs.filter (fun x => decide (x.tend ≤ tfrom)) ++
        [(⟨0, 0, tfrom, k.map (·.q), k.map (·.v)⟩ : Seg)] }
  else r

/-- Number of queued segments a flush from `tfrom` discards at time t. -/
def ArmRef.flushed (r : ArmRef) (t tfrom : Nat) : Nat :=
  (r.segs.filter (fun x => decide (max t tfrom < x.tend))).length

/-- Replace the queue by one joint segment that ends at rest. -/
def ArmRef.target (r : ArmRef) (g : ConvRef) (t tend : Nat) (pos : List Int) : ArmRef :=
  let k := r.eval g t
  { r with start := t, q0 := k.map (·.q), v0 := k.map (·.v), segs := [(⟨0, 0, tend, pos, pos.map (fun _ => 0)⟩ : Seg)] }

/-- Retire the segments whose end lies before S; the last end becomes the start of what remains (R365). -/
def ArmRef.retire (r : ArmRef) (g : ConvRef) (s : Nat) : ArmRef :=
  let gone := r.segs.filter (fun x => decide (x.tend < s))
  if gone = [] then r
  else
    let e := gone.foldl (fun p x => x.jointEnd g r.arm p) (r.start, r.q0, r.v0)
    let rest := r.segs.filter (fun x => !decide (x.tend < s))
    { r with start := e.1, q0 := e.2.1, v0 := if rest = [] then e.2.1.map (fun _ => 0) else e.2.2, segs := rest }

/-! The references the Kiln holds. -/

/-- The arm's reference; an arm that has none yet holds its measured position. -/
def Dev.armRef (d : Dev) (m : Model) (arm : Nat) : ArmRef :=
  match d.kiln.refs.find? (fun r => r.arm == arm) with
  | some r => r
  | none =>
    let js := m.armJoints arm
    ⟨arm, 0, js.map (fun j => d.measQ j.gj), js.map (fun _ => 0), []⟩

def Dev.setRef (d : Dev) (r : ArmRef) : Dev :=
  { d with kiln := { d.kiln with refs := d.kiln.refs.filter (fun (x : ArmRef) => x.arm != r.arm) ++ [r] } }

/-- The queue of an arm as it will stand once the changes waiting for the check point at t are latched. -/
def Dev.queueAt (d : Dev) (m : Model) (arm t : Nat) : ArmRef :=
  d.kiln.changes.foldl (fun (r : ArmRef) c =>
    match c with
    | .append a segs => if a = arm then { r with segs := r.segs ++ segs } else r
    | .flush arms tfrom _ =>
      if bitOf arms arm then { r with segs := r.segs.filter (fun x => decide (x.tend ≤ max t tfrom)) } else r
    | .target a dur _ pos =>
      if a = arm then { r with segs := [(⟨0, 0, t - 70000 + d.ts + dur * 1000000, pos, []⟩ : Seg)] } else r)
    (d.armRef m arm)

/-- The next check point at or after now. -/
def Dev.nextCheck (d : Dev) : Nat := if d.now ≤ d.s + 70000 then d.s + 70000 else d.s + d.ts + 70000

end Sys2Proof.Machine
end

