-- ==== Sys2Proof/Machine/Motion.lean ====
section
/-! DEFINITION. The motion commands SEG_APPEND, SEG_FLUSH, TARGET_SET, LIMITS_SET and GROUP_MOVE up to the check point that
latches them (R52, R75, R362, R364 to R366). -/

namespace Sys2Proof.Machine

/-! Segments in a buffer (Table — Reference segment entry). -/

def parseSeg (nj : Nat) (b : List Byte) : Seg :=
  if uAt b 1 1 = 1 then ⟨1, uAt b 2 1, uAt b 8 8, vecAt b 0x10 3, vecAt b 0x1C 3⟩
  else ⟨0, uAt b 2 1, uAt b 8 8, vecAt b 0x10 nj, vecAt b 0x40 nj⟩

/-- Arm, kind, conveyor, reserved bytes, positions and velocities of one entry. -/
def segEntryOk (m : Model) (arm : Nat) (b : List Byte) : Bool :=
  let js := m.armJoints arm
  let nj := js.length
  uAt b 0 1 == arm && decide (uAt b 1 1 ≤ 1) && zeroAt b 3 5 && zeroAt b 0x70 16 &&
  (if uAt b 1 1 = 1 then
     (m.convs.any (fun k => k.kid == uAt b 2 1)) && zeroAt b 0x28 0x58
   else
     uAt b 2 1 == 0 && zeroAt b (0x10 + 4 * nj) (4 * (12 - nj)) && zeroAt b (0x40 + 4 * nj) (4 * (12 - nj)) &&
     (js.zipIdx).all (fun x =>
       let q := sAt b (0x10 + 4 * x.2) 4
       let v := sAt b (0x40 + 4 * x.2) 4
       decide (x.1.qmin ≤ q) && decide (q ≤ x.1.qmax) && decide (v.natAbs ≤ x.1.vmax)))

/-- Strictly rising end times, the first later than the last queued one and at least two strides after acceptance. -/
def tendsOk (last : Option Nat) (earliest : Nat) (ts : List Nat) : Bool :=
  ascending ts && decide (earliest ≤ ts.headD 0) &&
    (match last with | some l => decide (l < ts.headD 0) | none => true)

/-- Does a conveyor-relative entry name a frame that is not latched (R52)? -/
def Dev.unlatched (d : Dev) (m : Model) (b : List Byte) : Bool :=
  uAt b 1 1 == 1 && m.convs.any (fun k => k.kid == uAt b 2 1) &&
    !d.kiln.convs.any (fun c => c.kid == uAt b 2 1 && c.origin.isSome)

/-- A GROUP_MOVE is prepared for the arm. -/
def Dev.prepared (d : Dev) (arm : Nat) : Bool :=
  d.kiln.group.any (fun g => g.segs.any (fun x => x.1 == arm))

/-- What R364 finds in the entries for one arm: none, REJECTED_STATE or REJECTED_PARAM. -/
def Dev.segFault (d : Dev) (m : Model) (arm accepted : Nat) (last : Option Nat) (ents : List (List Byte)) : Option Status :=
  if ents.any (d.unlatched m) then some .rejectedState
  else if !ents.all (segEntryOk m arm) || !tendsOk last (accepted + 2 * d.ts) (ents.map (fun b => uAt b 8 8)) then
    some .rejectedParam
  else none

/-- Entries i to i + n of a buffer. -/
def segEntries (b : List Byte) (i n : Nat) : List (List Byte) := (List.range n).map (fun k => bytesAt b (128 * (i + k)) 128)

/-- The model and the presence of an arm under it. -/
def Dev.presentModel (d : Dev) (arm : Nat) : Option Model := d.kiln.active.filter (fun m => d.armPresent m arm)

def Dev.addChange (d : Dev) (c : RefChange) : Dev := { d with kiln := { d.kiln with changes := d.kiln.changes ++ [c] } }

/-- SEG_APPEND (R364): the segments act from the next check point. -/
def execSegAppend (f : Fetch) (s : State) : Out :=
  s.run (fun d => d.start 0x20 (fun d c =>
    let arm := c.u 0x18 1
    let n := c.u 0x19 1
    if 7 < arm || n == 0 || 32 < n || c.len != 128 * n then d.finish c.id .rejectedParam
    else
      match d.presentModel arm with
      | none => d.finish c.id .rejectedState
      | some m =>
        let q := (d.queueAt m arm d.nextCheck).segs
        if 256 < q.length + n || d.prepared arm then d.finish c.id .rejectedState
        else
          match d.served f with
          | .failed => d.hostFault c.id 1
          | .bytes b =>
            let ents := segEntries b 0 n
            match d.segFault m arm c.accepted (q.getLast?.map (fun (x : Seg) => x.tend)) ents with
            | some st => d.finish c.id st
            | none =>
              let d := d.addChange (.append arm (ents.map (parseSeg (m.armJoints arm).length)))
              d.complete c.id .ok n 0 (q.length + n) 0))

/-- SEG_FLUSH: it waits for the check point; arms the model does not have are not flushed. -/
def execSegFlush (s : State) : Out :=
  s.run (fun d => d.start 0x21 (fun d c => d.addChange (.flush (c.u 0x18 1) (c.u 0x20 8) c.id)))

/-- TARGET_SET (R365): NJ positions inside the arm's limits. -/
def execTargetSet (f : Fetch) (s : State) : Out :=
  s.run (fun d => d.start 0x22 (fun d c =>
    let arm := c.u 0x18 1
    let dur := c.u 0x1A 2
    let nj := (d.kiln.active.map (fun m => (m.armJoints arm).length)).getD 0
    if 7 < arm || dur == 0 || (nj != 0 && c.len != 4 * nj) then d.finish c.id .rejectedParam
    else
      match d.presentModel arm with
      | none => d.finish c.id .rejectedState
      | some m =>
        if d.prepared arm then d.finish c.id .rejectedState
        else
          match d.served f with
          | .failed => d.hostFault c.id 1
          | .bytes b =>
            let pos := vecAt b 0 nj
            if ((m.armJoints arm).zip pos).all (fun x => decide (x.1.qmin ≤ x.2) && decide (x.2 ≤ x.1.qmax)) then
              d.addChange (.target arm dur c.id pos)
            else d.finish c.id .rejectedParam))

/-- The factors an arm gets from a LIMITS_SET; 0 keeps the one in force. -/
def limitsOf (old : Limits) (sv sa sj st : Nat) : Limits :=
  let k := fun (o n : Nat) => if n = 0 then o else n
  ⟨k old.sv sv, k old.sa sa, k old.sj sj, k old.st st⟩

/-- LIMITS_SET (R75): no joint of the arms may get AMAX·s_a below DMON; the arms at fault are named. It latches under R61. -/
def execLimitsSet (s : State) : Out :=
  s.run (fun d => d.start 0x23 (fun d c =>
    let arms := bitsOf (c.u 0x18 1) 8
    let fs := [c.u 0x1C 4, c.u 0x20 4, c.u 0x24 4, c.u 0x28 4]
    if fs.any (fun x => decide (65536 < x)) then d.finish c.id .rejectedParam
    else
      let bad := arms.filter (fun a =>
        match d.kiln.active with
        | none => false
        | some m =>
          let old := match d.kiln.limitsPend.reverse.find? (fun p => p.2.2.1 == a) with
            | some p => p.2.2.2 | none => d.kiln.limits.getD a ⟨65536, 65536, 65536, 65536⟩
          let l := limitsOf old (fs.getD 0 0) (fs.getD 1 0) (fs.getD 2 0) (fs.getD 3 0)
          (m.armJoints a).any (fun j => decide (j.amax * l.sa < j.dmon * 65536)))
      if bad ≠ [] then d.complete c.id .rejectedParam 0 (maskOf bad) 0 0
      else
        let l : Limits := ⟨fs.getD 0 0, fs.getD 1 0, fs.getD 2 0, fs.getD 3 0⟩
        { d with kiln := { d.kiln with
            limitsPend := d.kiln.limitsPend ++ (if arms = [] then [8] else arms).map (fun a => (c.id, c.accepted, a, l)) } }))

/-- The prepare phase of GROUP_MOVE (R366): every arm of ARMMASK is checked before any changes. -/
def execGroupMove (f : Fetch) (s : State) : Out :=
  s.run (fun d => d.start 0x24 (fun d c =>
    let arms := bitsOf (c.u 0x18 1) 8
    let op := c.u 0x19 1
    let n := fun a => c.u (0x1A + a) 1
    let total := (arms.map n).foldl (· + ·) 0
    let stray := (List.range 8).any (fun a => !arms.contains a && n a != 0)
    if arms.isEmpty || 1 < op || 64 < total || stray || c.len != 128 * total then d.finish c.id .rejectedParam
    else
      let replace := op == 1
      let tsw := c.u 0x28 8
      let absent := arms.filter (fun a => (d.presentModel a).isNone)
      let queue := fun (m : Model) (a : Nat) =>
        let q := (d.queueAt m a d.nextCheck).segs
        if replace then q.filter (fun (x : Seg) => decide (x.tend ≤ tsw)) else q
      let full := arms.filter (fun a => match d.kiln.active with
        | some m => decide (256 < (queue m a).length + n a) | none => false)
      let clash := arms.filter (fun a => d.prepared a)
      let badState := (absent ++ full ++ clash).eraseDups
      if !d.planning then d.complete c.id .rejectedState 0 0 0 0
      else if badState ≠ [] then d.complete c.id .rejectedState 0 (maskOf badState) 0 0
      else
        match d.served f, d.kiln.active with
        | .failed, _ => d.hostFault c.id 1
        | _, none => d.finish c.id .rejectedState
        | .bytes b, some m =>
          let base := fun a => ((arms.filter (fun x => decide (x < a))).map n).foldl (· + ·) 0
          let ents := fun a => segEntries b (base a) (n a)
          let fault := fun a =>
            if n a = 0 then none
            else
              let last := (queue m a).getLast?.map (fun (x : Seg) => x.tend)
              match d.segFault m a c.accepted last (ents a) with
              | some st => some st
              | none => if replace && decide (uAt ((ents a).headD []) 8 8 ≤ tsw) then some .rejectedParam else none
          let bad := fun (st : Status) => arms.filter (fun a => fault a == some st)
          if bad .rejectedState ≠ [] then d.complete c.id .rejectedState 0 (maskOf (bad .rejectedState)) 0 0
          else if bad .rejectedParam ≠ [] then d.complete c.id .rejectedParam 0 (maskOf (bad .rejectedParam)) 0 0
          else
            let segs := arms.map (fun a => (a, (ents a).map (parseSeg (m.armJoints a).length)))
            let d := { d with kiln := { d.kiln with group := d.kiln.group ++ [(⟨c.id, replace, tsw, d.now, segs⟩ : GroupPrep)] } }
            d.updCmd c.id (fun c => { c with progress := 1 })))

end Sys2Proof.Machine
end

