-- ==== Sys2Proof/Machine/Solver.lean ====
section
/-! DEFINITION. The algorithm of a solver wall: the operators of the problem, the block-Jacobi preconditioner, the inner
conjugate-gradient solve, one outer ADMM step and its residuals (R88 to R103). -/

namespace Sys2Proof.Machine

/-- Why a computation of a wall stops short: a saturation in a block, or a quotient overflow. -/
inductive Halt where
  | sat (kind idx : Nat)
  | qovf
  deriving DecidableEq, Repr

/-! Shape of a problem. -/

def Problem.nv (p : Problem) : Nat := 128 * p.joints.length
def Problem.perVar (l : List Int) (v : Nat) : Int := l.getD (4 * (v / 128) + v % 4) 0
def Problem.ex (p : Problem) (v : Nat) : Int := Problem.perVar p.eX v
def Problem.er (p : Problem) (v : Nat) : Int := Problem.perVar p.eR v
def Problem.bb (p : Problem) (v : Nat) : Int := Problem.perVar p.bB v
def Problem.by_ (p : Problem) (v : Nat) : Int := Problem.perVar p.bY v
def Problem.ek (p : Problem) (v : Nat) : Int := p.eK.getD (v / 16) 0

/-- Δ_k of a variable's knot over Δ_0, in strides. -/
def Problem.gap (p : Problem) (v : Nat) : Nat := if v / 4 % 32 < p.nfine then p.dfine else p.dcoarse
def Problem.gap0 (p : Problem) : Nat := if p.nfine = 0 then p.dcoarse else p.dfine

/-- Range-entry kind and index of a variable's segment, and of a row. -/
def Problem.varBlk (p : Problem) (kind v : Nat) : Nat × Nat := (kind, 4 * p.joints.getD (v / 128) 0 + v % 4)
def Problem.rowBlk (p : Problem) (kind i : Nat) : Nat × Nat :=
  match p.rows[i]? with
  | some r => (kind, r.blk)
  | none => let v := i - p.rows.length; (kind, 0x140 + 16 * (v % 4) + p.arms.getD (v / 128) 0)

def Row.isEq (r : Row) : Bool := r.lo.isSome && r.lo == r.hi

/-- Classes of bound and dual, bounds, and equality of every row, the implicit bound rows last. -/
structure RowInfo where
  eB : Int
  eY : Int
  lo : Option Int
  hi : Option Int
  eq : Bool
  deriving DecidableEq, Repr

def Problem.info (p : Problem) : List RowInfo :=
  p.rows.map (fun r => (⟨r.eB, r.eY, r.lo, r.hi, r.isEq⟩ : RowInfo)) ++
  (List.range p.nv).map (fun v =>
    let lo := p.bLo.getD v none
    let hi := p.bHi.getD v none
    (⟨p.bb v, p.by_ v, lo, hi, lo.isSome && lo == hi⟩ : RowInfo))

/-- Exponent of a row's step (R94). -/
def RowInfo.rho (i : RowInfo) (c : SolveCfg) (r : Int) : Int := if i.eq then r + c.eqsh else r

/-- The values of a vector, or the first block that saturated (R93). -/
def settleVec (blk : Nat → Nat × Nat) (l : List Fx) : Except Halt (List Int) :=
  match l.zipIdx.find? (fun x => x.1.s) with
  | some x => .error (.sat (blk x.2).1 (blk x.2).2)
  | none => .ok (l.map (·.v))

/-! Operators. -/

/-- A x over all rows, in the bound classes. -/
def Problem.aMul (p : Problem) (x : List Int) : Except Halt (List Int) :=
  let xs := x.toArray
  let dyn := p.rows.map (fun r => (r.coefs.foldl (fun (a : Fx) (c : Nat × Int) =>
    a.acc (mulTo c.2 r.eA (xs.getD c.1 0) (p.ex c.1) r.eB)) (Fx.pure 0)).wb)
  let bnd := x.zipIdx.map (fun (y : Int × Nat) => (shiftTo y.1 (p.ex y.2) 0 (p.bb y.2)).wb)
  settleVec (p.rowBlk 4) (dyn ++ bnd)

/-- Aᵀ w as accumulators of the right-hand-side classes, for w in the dual classes. -/
def Problem.atAcc (p : Problem) (w : List Int) : Array Fx :=
  let zero := (List.replicate p.nv (Fx.pure 0)).toArray
  let gen := (p.rows.zip w).foldl (fun (a : Array Fx) (rw : Row × Int) =>
    rw.1.coefs.foldl (fun (a : Array Fx) (c : Nat × Int) =>
      a.modify c.1 (fun (f : Fx) => f.acc (mulTo c.2 rw.1.eA rw.2 rw.1.eY (p.er c.1)))) a) zero
  ((w.drop p.rows.length).zipIdx).foldl (fun (a : Array Fx) (y : Int × Nat) =>
    a.modify y.2 (fun (f : Fx) => f.acc (shiftTo y.1 (p.by_ y.2) 0 (p.er y.2)))) gen

/-- P x of one variable, P = 2 · 2^W · Δ_k/Δ_0 (R76, R88). -/
def Problem.pTerm (p : Problem) (v : Nat) (x : Int) : Fx :=
  align (x * p.gap v) p.gap0 (p.ex v - 30 + p.weights.getD (v % 4) 0 + 1) (p.er v)

/-- Shift a row vector by each row's step, from the bound to the dual class, `dir` 1, or back, −1. -/
def rowShift (c : SolveCfg) (r : Int) (up : Bool) (i : RowInfo) (z : Int) : Fx :=
  if up then shiftTo z i.eB (i.rho c r) i.eY else shiftTo z i.eY (-i.rho c r) i.eB

/-- K x = P x + σ x + Aᵀ R A x, in the right-hand-side classes. A x is rounded to the bound class and R A x to the dual class
(DESIGN CHOICE: R102 names no class for them). -/
def Problem.kMul (p : Problem) (c : SolveCfg) (r : Int) (x : List Int) : Except Halt (List Int) := do
  let ax ← p.aMul x
  let w ← settleVec (p.rowBlk 2) ((p.info.zip ax).map (fun y => (rowShift c r true y.1 y.2).wb))
  let g := p.atAcc w
  settleVec (p.varBlk 3) (x.zipIdx.map (fun (y : Int × Nat) =>
    (((p.pTerm y.2 y.1).acc (shiftTo y.1 (p.ex y.2) c.sigma (p.er y.2))).acc (g.getD y.2 (Fx.pure 0))).wb))

/-! The preconditioner. -/

/-- Divide n·2^exp by a divisor of either sign, in units of 2^u. -/
def quotIn (n d exp u : Int) : Int := if d < 0 then inUnits (-n) d.natAbs exp u else inUnits n d.natAbs exp u

/-- Entry (i, l) of the block of variables from `base`, in its class (R99). -/
def Problem.kEntry (p : Problem) (c : SolveCfg) (r : Int) (base i l : Nat) : Fx :=
  let e := p.ek base
  let raw := p.rows.foldl (fun (a : Fx) (row : Row) =>
    match row.coefs.find? (fun x => x.1 == base + i), row.coefs.find? (fun x => x.1 == base + l) with
    | some x, some y => a.acc (align (x.2 * y.2) 1 (2 * row.eA - 60 + (if row.isEq then (c.eqsh : Int) else 0)) e)
    | _, _ => a) (Fx.pure 0)
  let bnd := if i ≠ l then Fx.pure 0
    else
      let eq := (p.bLo.getD (base + i) none).isSome && p.bLo.getD (base + i) none == p.bHi.getD (base + i) none
      align 1 1 (if eq then (c.eqsh : Int) else 0) e
  let sum := raw.acc bnd
  let sh := fxSat 72 (shrRne sum.v (-r))
  let k : Fx := ⟨sh.v, sh.s || sum.s⟩
  let k := if i ≠ l then k
    else (k.acc (align (p.gap (base + i)) p.gap0 (p.weights.getD (i % 4) 0 + 1) e)).acc (align 1 1 c.sigma e)
  k.wb

/-- One row of the factorisation, all of it in the block's class e: given the rows of L so far and D, the row's entries of L
and its pivot before the floor. L_im·d_m is written back before it meets L_jm, and each entry accumulates in an s72 (R90;
DESIGN CHOICE: the spec does not order the products of a factorisation). -/
def ldlRow (e : Int) (k : List Int) (ls : List (List Int)) (ds : List Int) : List Fx × Fx :=
  let term := fun (a : Fx) (x : Int) => shiftTo x e 0 e |>.acc a
  let less := fun (a : Fx) (v : Fx) (l : Int) => let p := (mulTo v.v e l e e).neg; a.acc ⟨p.v, p.s || v.s⟩
  -- entries of L and their products with D so far
  let out := (List.range ls.length).foldl (fun (acc : List Fx × List Fx) j =>
    let row := ls.getD j []
    let sum := ((acc.2.zip row).foldl (fun (a : Fx) x => less a x.1 x.2) (term (Fx.pure 0) (k.getD j 0))).wb
    let l := let q := fxSat 32 (quotIn sum.v (ds.getD j 1) 0 (e - 30)); (⟨q.v, q.s || sum.s⟩ : Fx)
    let v := let r := (mulTo l.v e (ds.getD j 1) e e).wb; (⟨r.v, r.s || l.s⟩ : Fx)
    (acc.1 ++ [l], acc.2 ++ [v])) ([], [])
  (out.1, ((out.1.zip out.2).foldl (fun (a : Fx) x => less a x.2 x.1.v) (term (Fx.pure 0) (k.getD ls.length 0))).wb)

/-- The factorisation of a block without pivoting, with the pivot floor (R100): the block, the columns floored, on the diagonal
or as a pivot, and whether a result saturated. -/
def ldl (e : Int) (ks : List (List Int)) : PcBlock × Nat × Bool :=
  let diag := ks.zipIdx.map (fun (x : List Int × Nat) => x.1.getD x.2 0)
  let f : Int := max 1 (shrRne (maxMag diag) 24)
  let raised := diag.map (fun d => if d < f then f else d)
  let step := fun (acc : List (List Int) × List Int × Nat × Bool) (x : List Int × Nat) =>
    let k := x.1.take x.2 ++ [raised.getD x.2 0]
    let r := ldlRow e k acc.1 acc.2.1
    let p := r.2.v
    let low := decide (p.natAbs < f.natAbs)
    let floored := low || decide (diag.getD x.2 0 < f)
    (acc.1 ++ [r.1.map (·.v)], acc.2.1 ++ [if low then (if p < 0 then -f else f) else p],
      acc.2.2.1 + (if floored then 1 else 0), acc.2.2.2 || r.2.s || r.1.any (·.s))
  let out := ks.zipIdx.foldl step ([], [], 0, false)
  let n := out.2.2.1
  if 4 < n then (⟨true, [], raised⟩, n, out.2.2.2) else (⟨false, out.1, out.2.1⟩, n, out.2.2.2)

/-- One block formed and factored, with its floored columns. -/
def Problem.factor (p : Problem) (c : SolveCfg) (r : Int) (b : Nat) : Except Halt (PcBlock × Nat) :=
  let halt : Except Halt (PcBlock × Nat) := .error (.sat 5 (8 * p.joints.getD (b / 8) 0 + b % 8))
  let rows := (List.range 16).map (fun i => (List.range 16).map (fun l => p.kEntry c r (16 * b) i l))
  if rows.any (fun x => x.any (fun y => y.s)) then halt
  else
    let f := ldl (p.ek (16 * b)) (rows.map (fun x => x.map (fun y => y.v)))
    if f.2.2 then halt else .ok (f.1, f.2.1)

/-- Blocks of a problem. -/
def Problem.blocks (p : Problem) : List Nat := List.range (8 * p.joints.length)

/-- Some blocks of the preconditioner formed anew: the preconditioner, floored columns, and those of them on their diagonal
(R99 to R101, R107). -/
def Problem.factorSome (p : Problem) (c : SolveCfg) (r : Int) (pc : List PcBlock) (bs : List Nat) :
    Except Halt (List PcBlock × Nat × Nat) := do
  let fresh ← bs.mapM (fun b => (p.factor c r b).map (fun x => (b, x)))
  .ok (fresh.foldl (fun (l : List PcBlock) x => updAt l x.1 (fun _ => x.2.1)) pc,
    (fresh.map (·.2.2)).foldl (· + ·) 0, (fresh.filter (fun x => x.2.1.diagOnly)).length)

/-- All blocks. -/
def Problem.factorAll (p : Problem) (c : SolveCfg) (r : Int) : Except Halt (List PcBlock × Nat × Nat) :=
  p.factorSome c r (p.blocks.map (fun _ => (⟨true, [], []⟩ : PcBlock))) p.blocks

/-- Blocks that use a row's matrix entries (R107). -/
def Problem.blocksOfRow (p : Problem) (i : Nat) : List Nat :=
  match p.rows[i]? with
  | some r => (r.coefs.map (fun c => c.1 / 16)).eraseDups
  | none => []

/-- Solve one block: forward in the right-hand-side classes, the division into the primal classes, and backward. -/
def Problem.blockSolve (p : Problem) (base : Nat) (b : PcBlock) (rr : List Int) : Except Halt (List Int) :=
  let e := p.ek base
  let div := fun (i : Nat) (y : Int) =>
    fxSat 32 (quotIn y (b.d.getD i 1) (p.er (base + i) - 30 - (e - 30)) (p.ex (base + i) - 30))
  let at_ := fun (kind i : Nat) => p.varBlk kind (base + i)
  if b.diagOnly then settleVec (at_ 1) (rr.zipIdx.map (fun (x : Int × Nat) => div x.2 x.1))
  else do
    let fwd ← settleVec (at_ 3) (rr.zipIdx.foldl (fun (ys : List Fx) (x : Int × Nat) =>
      let l := b.l.getD x.2 []
      let s := (ys.zipIdx).foldl (fun (a : Fx) (y : Fx × Nat) =>
        a.acc (mulTo (l.getD y.2 0) e y.1.v (p.er (base + y.2)) (p.er (base + x.2))).neg)
        (shiftTo x.1 (p.er (base + x.2)) 0 (p.er (base + x.2)))
      ys ++ [s.wb]) [])
    let mid ← settleVec (at_ 1) (fwd.zipIdx.map (fun (y : Int × Nat) => div y.2 y.1))
    -- from the last variable to the first; `zs` holds those above i
    settleVec (at_ 1) ((List.range 16).foldl (fun (zs : List Fx) k =>
      let i := 15 - k
      let s := zs.zipIdx.foldl (fun (a : Fx) (y : Fx × Nat) =>
        let j := i + 1 + y.2
        a.acc (mulTo ((b.l.getD j []).getD i 0) e y.1.v (p.ex (base + j)) (p.ex (base + i))).neg)
        (shiftTo (mid.getD i 0) (p.ex (base + i)) 0 (p.ex (base + i)))
      s.wb :: zs) [])

/-- The preconditioner on a residual. -/
def Problem.precond (p : Problem) (pc : List PcBlock) (rr : List Int) : Except Halt (List Int) := do
  let bs ← pc.zipIdx.mapM (fun (b : PcBlock × Nat) => p.blockSolve (16 * b.2) b.1 ((rr.drop (16 * b.2)).take 16))
  .ok bs.flatten

/-! The inner solve (R102). -/

/-- Largest class sum of a dot product over all segments. -/
def Problem.topOf (p : Problem) (f : Nat → Int) : Int :=
  ((List.range p.joints.length).flatMap (fun j => (List.range 4).map (fun c => f (128 * j + c)))).foldl max (-128)

def Problem.dotWith (p : Problem) (f : Nat → Int) (a b : List Int) : Int :=
  dotUnits ((a.zip b).zipIdx.map (fun x => (x.1.1, x.1.2, f x.2))) (p.topOf f)

/-- x + s·α·y in the classes `e`, α in steps of 2^−22. -/
def macVec (e : Nat → Int) (ey : Nat → Int) (x : List Int) (α : Int) (y : List Int) : List Fx :=
  (x.zip y).zipIdx.map (fun z =>
    ((shiftTo z.1.1 (e z.2) 0 (e z.2)).acc (align (α * z.1.2) 1 (ey z.2 - 52) (e z.2))).wb)

/-- pᵀKp ≤ 2^−CGEPS · pᵀp, each in its own units: pᵀp is shifted right with rounding first (`shr72`). -/
def Problem.breakdown (p : Problem) (c : SolveCfg) (pkp pp : Int) : Bool :=
  let k := p.topOf (fun v => 2 * p.ex v) - p.topOf (fun v => p.ex v + p.er v)
  let eps := shrRne pp c.cgeps
  if 0 ≤ k then decide (pkp ≤ eps * 2 ^ k.toNat) else decide (pkp * 2 ^ (-k).toNat ≤ eps)

/-- The steps of the inner solve: x, steps done, and whether it ended by curvature breakdown. -/
def Problem.pcgLoop (p : Problem) (c : SolveCfg) (r : Int) (pc : List PcBlock) :
    Nat → Nat → List Int → List Int → List Int → Int → Except Halt (List Int × Nat × Bool)
  | 0, n, x, _, _, _ => .ok (x, n, false)
  | fuel + 1, n, x, rr, pv, rz => do
    if maxMag rr ≤ 2 ^ (30 - c.cgtol) then .ok (x, n, false)
    else
      let kp ← p.kMul c r pv
      let cross := fun v => p.ex v + p.er v
      let pkp := p.dotWith cross pv kp
      if p.breakdown c pkp (p.dotWith (fun v => 2 * p.ex v) pv pv) then .ok (x, n, true)
      else
        match divide rz pkp 0 with
        | none => .error .qovf
        | some α =>
          let x ← settleVec (p.varBlk 1) (macVec p.ex p.ex x α pv)
          let rr ← settleVec (p.varBlk 3) (macVec p.er p.er rr (-α) kp)
          let zz ← p.precond pc rr
          let rzn := p.dotWith cross rr zz
          match divide rzn rz 0 with
          | none => .error .qovf
          | some β =>
            let pv ← settleVec (p.varBlk 1) (macVec p.ex p.ex zz β pv)
            p.pcgLoop c r pc fuel (n + 1) x rr pv rzn

def Problem.pcg (p : Problem) (c : SolveCfg) (r : Int) (pc : List PcBlock) (x b : List Int) :
    Except Halt (List Int × Nat × Bool) := do
  let kx ← p.kMul c r x
  let rr ← settleVec (p.varBlk 3) (((b.zip kx).zipIdx).map (fun y =>
    ((shiftTo y.1.1 (p.er y.2) 0 (p.er y.2)).acc (shiftTo y.1.2 (p.er y.2) 0 (p.er y.2)).neg).wb))
  let zz ← p.precond pc rr
  p.pcgLoop c r pc c.inner 0 x rr zz (p.dotWith (fun v => p.ex v + p.er v) rr zz)

/-! One outer step (R94). -/

/-- 1.5·a − 0.5·b, or a (R94). -/
def relaxTo (c : SolveCfg) (e : Int) (a b : Int) : Fx :=
  if c.relax then (shiftTo (3 * a - b) e (-1) e).wb else Fx.pure a

/-- Clip to the bounds of a row. -/
def RowInfo.clip (i : RowInfo) (z : Int) : Int :=
  let z := match i.lo with | some l => if z < l then l else z | none => z
  match i.hi with | some h => if h < z then h else z | none => z

/-- The right-hand side σx − q + Aᵀ(R z − y). -/
def Problem.rhs (p : Problem) (c : SolveCfg) (r : Int) (it : Iterate) : Except Halt (List Int) := do
  let w ← settleVec (p.rowBlk 2) ((p.info.zip (it.z.zip it.y)).map (fun y =>
    ((rowShift c r true y.1 y.2.1).acc (shiftTo y.2.2 y.1.eY 0 y.1.eY).neg).wb))
  let g := p.atAcc w
  settleVec (p.varBlk 3) (it.x.zipIdx.map (fun (y : Int × Nat) =>
    (((shiftTo y.1 (p.ex y.2) c.sigma (p.er y.2)).acc (p.pTerm y.2 (p.refx.getD y.2 0))).acc
      (g.getD y.2 (Fx.pure 0))).wb))

/-- What follows the inner solve in an outer step: the next iterate from its x. -/
def Problem.update (p : Problem) (c : SolveCfg) (r : Int) (it : Iterate) (xt : List Int) : Except Halt Iterate := do
  let zh ← p.aMul xt
  let x ← settleVec (p.varBlk 1) ((xt.zip it.x).zipIdx.map (fun y => relaxTo c (p.ex y.2) y.1.1 y.1.2))
  let info := p.info
  let w ← settleVec (p.rowBlk 4) ((info.zip (zh.zip it.z)).map (fun y => relaxTo c y.1.eB y.2.1 y.2.2))
  let sum ← settleVec (p.rowBlk 4) ((info.zip (w.zip it.y)).map (fun y =>
    ((shiftTo y.2.1 y.1.eB 0 y.1.eB).acc (rowShift c r false y.1 y.2.2)).wb))
  let zn := (info.zip sum).map (fun y => y.1.clip y.2)
  let diff ← settleVec (p.rowBlk 4) ((info.zip (w.zip zn)).map (fun y => fxSat 32 (y.2.1 - y.2.2)))
  let y ← settleVec (p.rowBlk 2) ((info.zip (it.y.zip diff)).map (fun y =>
    ((shiftTo y.2.1 y.1.eY 0 y.1.eY).acc (rowShift c r true y.1 y.2.2)).wb))
  .ok ⟨x, zn, y⟩

/-- One outer step from an iterate: inner steps and whether the inner solve broke down, then the next iterate. -/
def Problem.outer (p : Problem) (c : SolveCfg) (r : Int) (pc : List PcBlock) (it : Iterate) :
    Except Halt ((Nat × Bool) × Except Halt Iterate) := do
  let b ← p.rhs c r it
  let cg ← p.pcg c r pc it.x b
  .ok (cg.2, p.update c r it cg.1)

/-- max(0, l − a, a − u) of a row (R98). -/
def RowInfo.short (i : RowInfo) (a : Int) : Fx :=
  let below := match i.lo with | some l => max 0 (l - a) | none => 0
  let above := match i.hi with | some u => max 0 (a - u) | none => 0
  fxSat 32 (max below above)

/-- prim, dual and violation of an iterate (R96, R98). -/
def Problem.residuals (p : Problem) (it : Iterate) : Except Halt (Nat × Nat × Nat) := do
  let ax ← p.aMul it.x
  let info := p.info
  let pr ← settleVec (p.rowBlk 4) ((ax.zip it.z).map (fun y => fxSat 32 (y.1 - y.2)))
  let g := p.atAcc it.y
  let du ← settleVec (p.varBlk 3) (it.x.zipIdx.map (fun (y : Int × Nat) =>
    (((p.pTerm y.2 y.1).acc (p.pTerm y.2 (p.refx.getD y.2 0)).neg).acc (g.getD y.2 (Fx.pure 0))).wb))
  let vi ← settleVec (p.rowBlk 4) ((info.zip ax).map (fun y => y.1.short y.2))
  .ok (residual pr, residual du, residual vi)

/-- The start of a problem: the warm start with z = clip(A x, l, u) (R94). -/
def Problem.start (p : Problem) : Except Halt Iterate := do
  let ax ← p.aMul p.warmX
  .ok ⟨p.warmX, (p.info.zip ax).map (fun y => y.1.clip y.2), p.warmY⟩

end Sys2Proof.Machine
end

