-- ==== Sys2Proof/Machine/Kiln.lean ====
section
/-! DEFINITION. Building one problem: knots, linearisation and x0 (R65 to R69), rows (R70, R71, R77, R78, R207, R208), bounds
(R74), stop time (R73), objective (R76), the warm start (R86, R87) and the fold (R81). -/

namespace Sys2Proof.Machine

/-! The state the plan in force gives (R68, R69, R129). -/

/-- Position, velocity and acceleration of a joint at cell time t under the plan in force, or its hold reference. -/
def Dev.planAt (d : Dev) (gj t : Nat) : Knot :=
  match d.planner.servo.inForce.bind (fun p => followAt p d.planner.te gj t) with
  | some k => k
  | none => match (d.jrt gj).bind (fun j => j.hold) with
    | some q => ⟨divRne q 65536, 0, 0, 0⟩
    | none => ⟨d.measQ gj, 0, 0, 0⟩

/-- Joints of the arms present at the last check point, ascending. -/
def Dev.planJoints (d : Dev) (m : Model) : List JointEnt :=
  m.joints.filter (fun j => bitOf d.kiln.present j.arm)

/-! Rows. -/

/-- A coefficient or bound as a mantissa, with the block it belongs to. -/
def Model.coef (m : Model) (kind idx : Nat) (n : Int) (den : Nat) (exp : Int) : Fx := mantissa n den exp (m.rc kind idx)

/-- A row of block index `blk`, its matrix class of kind `ka` at `ia`, with the block that saturated, if one did. -/
def Model.row (m : Model) (kind id1 id2 at_ blk ka ia : Nat) (coefs : List (Nat × Fx)) (lo hi : Option Fx) :
    Row × Option (Nat × Nat) :=
  (⟨kind, id1, id2, at_, blk, coefs.map (fun c => (c.1, c.2.v)), m.rc ka ia, m.rc 4 blk, m.rc 2 blk,
    lo.map (·.v), hi.map (·.v)⟩,
   if coefs.any (fun c => c.2.s) then some (ka, ia)
   else if (lo.map (·.s)).getD false || (hi.map (·.s)).getD false then some (4, blk) else none)

/-- A knot layout with its stride. -/
structure Knots where
  nfine : Nat
  dfine : Nat
  dcoarse : Nat
  ts : Nat
  deriving DecidableEq, Repr

def Knots.ofWord (w ts : Nat) : Knots := ⟨w % 32, w / 256 % 16, w / 4096 % 128, ts⟩
def Knots.gap (n : Knots) (k : Nat) : Nat := knotGap n.nfine n.dfine n.dcoarse k * n.ts
def Knots.time (n : Knots) (k : Nat) : Nat := knotAt n.nfine n.dfine n.dcoarse k * n.ts
def Knots.horizon (n : Knots) : Nat := n.time 31 + n.gap 31
def Knots.find (n : Knots) (u : Nat) : Nat := ((List.range 32).filter (fun k => n.time k ≤ u)).foldl max 0

def varOf (jp k c : Nat) : Nat := 128 * jp + 4 * k + c

/-- The three dynamics rows of one joint and interval (kind 0). -/
def Model.dynRows (m : Model) (n : Knots) (jp : Nat) (j : JointEnt) (k : Nat) :
    List (Row × Option (Nat × Nat)) :=
  let Δ : Int := n.gap k
  let g : Nat := 1000000000
  let row := fun (c : Nat) (l : List (Nat × Int × Nat)) =>
    let blk := 0x100 + 16 * c + j.arm
    m.row 0 j.gj c k blk 0 blk (l.map (fun x => (x.1, m.coef 0 blk x.2.1 x.2.2 0))) (some (Fx.pure 0)) (some (Fx.pure 0))
  [row 0 [(varOf jp (k + 1) 0, 1, 1), (varOf jp k 0, -1, 1), (varOf jp k 1, -Δ, g), (varOf jp k 2, -Δ ^ 2, 2 * g ^ 2),
          (varOf jp k 3, -Δ ^ 3, 6 * g ^ 3)],
   row 1 [(varOf jp (k + 1) 1, 1, 1), (varOf jp k 1, -1, 1), (varOf jp k 2, -Δ, g), (varOf jp k 3, -Δ ^ 2, 2 * g ^ 2)],
   row 2 [(varOf jp (k + 1) 2, 1, 1), (varOf jp k 2, -1, 1), (varOf jp k 3, -Δ, g)]]

/-- A stop coupling row (kind 6): −DMON ≤ a(τ)(1 − t/T)² − v(τ)/T ≤ DMON, at stop point i of T ns. a and v at τ are those of
R67, in which v, a and j of one knot stand: three entries, within the 4 that Table R78 allows for (DEDUCED). -/
def Model.stopRow (m : Model) (n : Knots) (jp : Nat) (j : JointEnt) (T i : Nat) : Row × Option (Nat × Nat) :=
  let τ := warp T (i * T / 16)
  let k := n.find τ
  let s : Int := τ - n.time k
  let w : Int := 16 - i
  let t : Int := T
  let blk := 0x60 + j.arm
  let dm := fun (x : Int) => m.coef 4 blk x 1 (-12)
  m.row 6 j.gj 0 i blk 0 blk
    [(varOf jp k 1, m.coef 0 blk (-1000000000) T 0),
     (varOf jp k 2, m.coef 0 blk (w ^ 2 * t - 256 * s) (256 * T) 0),
     (varOf jp k 3, m.coef 0 blk (2 * w ^ 2 * s * t - 256 * s ^ 2) (512 * T * 1000000000) 0)]
    (some (dm (-j.dmon))) (some (dm j.dmon))

/-- The energy row of a group up to knot k (kind 5). -/
def Model.energyRow (m : Model) (n : Knots) (js : List JointEnt) (b : BusEnt) (torque : List (Nat × List Int)) (mj k : Nat) :
    Row × Option (Nat × Nat) :=
  let τ := fun (gj i : Nat) => ((torque.find? (fun x => x.1 == gj)).map (fun x => x.2.getD i 0)).getD 0
  let coefs := (js.zipIdx).flatMap (fun x =>
    if bitOf b.jmask x.1.gj then
      (List.range (k + 1)).map (fun i => (varOf x.2 i 1, m.coef 7 b.gid ((n.gap i : Int) * τ x.1.gj i) 1000000000 (-10)))
    else [])
  m.row 5 b.gid 0 k (0x50 + b.gid) 7 b.gid coefs none (some (m.coef 4 (0x50 + b.gid) mj 1000 0))

/-! Candidates. -/

/-- A candidate row of kinds 1 to 4 as evaluated at its knot or stop point: its identity, its distance and what the row requires
of it (2^−62 mm), the normal (2^−60), n·J per joint (2^−62 mm per rad or m), 32·c_v in ns, the block of kind 6 its results
belong to and whether one saturated. -/
structure Cand where
  kind : Nat
  id1 : Nat
  id2 : Nat
  at_ : Nat
  dist : Int
  req : Int
  n : V3
  g : List (Nat × Int)
  cv32 : Nat
  blk6 : Nat
  sat : Bool
  deriving DecidableEq, Repr

def Cand.ident (c : Cand) : Nat × Nat × Nat × Nat := (c.kind, c.id1, c.id2, c.at_)
def Cand.margin (c : Cand) : Int := c.dist - c.req

def Cand.of (kind id1 id2 at_ : Nat) (x : Pipe) (req : Int) (cv32 blk6 : Nat) : Cand :=
  ⟨kind, id1, id2, at_, x.d, req, x.n, x.g, cv32, blk6, x.sat⟩

/-- The normal of the row of an identity in the previous problem (R71). -/
def Dev.oldNormal (d : Dev) (i : Nat × Nat × Nat × Nat) : Option V3 :=
  (d.kiln.oldNormals.find? (fun x => x.1 == i)).map (·.2)

/-- Positions the pipes take at cell time t: of the plan for the joints of a present arm, as last measured for the others (R44,
R68). -/
def Dev.poseQ (d : Dev) (m : Model) (t gj : Nat) : Int :=
  match m.joint? gj with
  | some j => if bitOf d.kiln.present j.arm then (d.planAt gj t).q else d.measQ gj
  | none => 0

/-- i_k of a pair in 2^−62 mm: how far both capsules can move in half an interval, 0 for one that does not move (R44, R70). -/
def Dev.reachBetween (d : Dev) (m : Model) (p : PairEnt) (gap : Nat) : Int :=
  let v := fun (i : Nat) => match m.caps[i]? with
    | some c => if c.owner < 60 then
        (((m.capArm c).filter (bitOf d.kiln.present)).bind m.arm?).map (·.tcpvb) |>.getD 0 else 0
    | none => 0
  divRne (((v p.capa + v p.capb) * gap * 2 ^ 46 : Nat) : Int) 2000000000

/-- Collision candidates (kind 1): the active pairs at every knot. -/
def Dev.collisions (d : Dev) (m : Model) (n : Knots) (scenes : List Scene) : List Cand :=
  (m.pairs.filter (fun p => d.capPresent m p.capa && d.capPresent m p.capb)).flatMap (fun p =>
    scenes.zipIdx.map (fun x =>
      let g := capGap (x.1.cap p.capa) (x.1.cap p.capb) (d.oldNormal (1, p.pairid, 0, x.2))
      let grad := gradDiff (x.1.grad m p.capa g.n g.p) (x.1.grad m p.capb g.n g.q)
      let a := m.pairArm p
      Cand.of 1 p.pairid 0 x.2 (toPipe (m.rc 6 a) g grad)
        ((p.clear : Int) * 2 ^ 58 + d.reachBetween m p (n.gap x.2)) 0 a))

/-- Commons candidates (kind 4): the present arms that lack the grant, from their entry knot on. -/
def Dev.commonsRows (d : Dev) (m : Model) (n : Knots) (s : Nat) (scenes : List Scene) : List Cand :=
  (m.arms.filter (fun a => bitOf d.kiln.present a.armid)).flatMap (fun a => m.commons.flatMap (fun c =>
    if d.commons.holds.any (fun h => h.cid == c.cid && h.arm == a.armid && h.st != .yielding) then []
    else
      let from_ := match d.commons.retreats.find? (fun x => x.arm == a.armid && x.cid == c.cid) with
        | some x => x.time | none => 0
      scenes.zipIdx.filterMap (fun x =>
        if s + d.ts + n.time x.2 < from_ then none
        else (d.toCommons m x.1 a.armid c).map (fun g => Cand.of 4 a.armid c.cid x.2 g 0 0 a.armid))))

/-- Separation candidates (kinds 2 and 3, R208): the present arms against the tracks, at knots 1 to 31 and at stop points 1 to
16, for T_stop in ns. -/
def Dev.separations (d : Dev) (m : Model) (n : Knots) (tstop : Nat) (scenes stops : List Scene) : List Cand :=
  (m.arms.filter (fun a => bitOf d.kiln.present a.armid)).flatMap (fun a => d.commons.tracks.flatMap (fun t =>
    match m.sensorOf t.sid with
    | none => []
    | some e =>
      (scenes.zipIdx.drop 1).filterMap (fun x =>
        (d.toTrack m x.1 a.armid t (d.oldNormal (2, a.armid, t.idx, x.2))).map (fun g =>
          let c := d.sepKnot a e t tstop (n.time x.2) (n.gap x.2)
          Cand.of 2 a.armid t.idx x.2 g c.1 c.2 a.armid)) ++
      stops.zipIdx.filterMap (fun x =>
        (d.toTrack m x.1 a.armid t (d.oldNormal (3, a.armid, t.idx, x.2 + 1))).map (fun g =>
          let c := d.sepStop a e t tstop (x.2 + 1)
          Cand.of 3 a.armid t.idx (x.2 + 1) g c.1 c.2 a.armid))))

/-- Is a candidate near enough to be built (R70, R208)? A commons candidate requires nothing of its distance. -/
def Dev.near (d : Dev) (c : Cand) : Bool :=
  let act : Int := if c.kind = 2 ∨ c.kind = 3 then d.commons.sepact else d.kiln.colact
  decide (c.margin < act * 2 ^ 58)

/-- Block index of a candidate's row. -/
def Cand.blk (c : Cand) : Nat := if c.kind = 1 then 0x10 + c.blk6 else 16 * c.kind + c.id1

/-- The entries of a joint in a row of kinds 1, 2 and 4 at a knot: n·J on the position, c_v n·J on the velocity. -/
def Model.knotCoefs (m : Model) (blk jp : Nat) (c : Cand) (g : Int) : List (Nat × Fx) :=
  (varOf jp c.at_ 0, m.coef 0 blk g 1 (-62)) ::
    (if c.cv32 = 0 then [] else [(varOf jp c.at_ 1, m.coef 0 blk (g * c.cv32) 32000000000 (-62))])

/-- The entries of a joint in a row of kind 3: position and velocity at τ_m are those of R67 from the knot before, the velocity
of the stop branch that at τ_m times 1 − t_m/T_stop. -/
def Model.stopCoefs (m : Model) (n : Knots) (blk jp tstop : Nat) (c : Cand) (g : Int) : List (Nat × Fx) :=
  let τ := warp tstop (c.at_ * tstop / 16)
  let k := n.find τ
  let s : Int := τ - n.time k
  let w : Int := c.cv32 * (16 - c.at_ : Nat)
  let e : Nat := 1000000000
  [(varOf jp k 0, m.coef 0 blk g 1 (-62)),
   (varOf jp k 1, m.coef 0 blk (g * (512 * s + w)) (512 * e) (-62)),
   (varOf jp k 2, m.coef 0 blk (g * (256 * s ^ 2 + w * s)) (512 * e ^ 2) (-62)),
   (varOf jp k 3, m.coef 0 blk (g * (512 * s ^ 3 + 3 * w * s ^ 2)) (3072 * e ^ 3) (-62))]

/-- A candidate as a row: its lower bound carries the linearisation point `bar` of each joint. -/
def Model.candRow (m : Model) (n : Knots) (js : List JointEnt) (tstop : Nat) (bar : Nat → Int) (c : Cand) :
    Row × Option (Nat × Nat) :=
  let blk := c.blk
  let eA := m.rc 0 blk
  let mine := js.zipIdx.filterMap (fun x => (c.g.find? (fun y => y.1 == x.1.gj)).map (fun y => (x.1.gj, x.2, y.2)))
  let lin := mine.foldl (fun (a : Int) x =>
    a + (m.coef 0 blk x.2.2 1 (-62)).v * bar x.1 * 2 ^ (eA + 46).toNat) 0
  let coefs := mine.flatMap (fun x => if c.kind = 3 then m.stopCoefs n blk x.2.1 tstop c x.2.2 else m.knotCoefs blk x.2.1 c x.2.2)
  m.row c.kind c.id1 c.id2 c.at_ blk 0 blk coefs (some (m.coef 4 blk ((c.req - c.dist) * 2 ^ 38 + lin) 1 (-100))) none

/-- Order within a pool: margin, then knot, then identity (R77). -/
def candLe (a b : Cand) : Bool :=
  if a.margin != b.margin then decide (a.margin < b.margin)
  else if a.at_ != b.at_ then decide (a.at_ < b.at_)
  else if a.kind != b.kind then decide (a.kind < b.kind)
  else if a.id1 != b.id1 then decide (a.id1 < b.id1)
  else decide (a.id2 ≤ b.id2)

/-! Bounds (R74). -/

/-- a_τ of a joint at a knot in 2^−12: what torque leaves for acceleration. With neither inertia nor rotor the division has no
result and a_τ bounds nothing (DESIGN CHOICE). -/
def torqueAcc (j : JointEnt) (st : Nat) (h : Int) (mjj : Nat) : Int :=
  let num : Int := (j.tmax : Int) * st - h.natAbs * 65536
  if mjj + j.rotorj = 0 then j.amax else divRne (num * 64) (mjj + j.rotorj)

/-- Bounds of one joint at knot k > 0, in plan units. -/
def Dev.boxAt (d : Dev) (j : JointEnt) (v0 : Int) (tk : Nat) (h : Int) (mjj : Nat) : List (Int × Int) :=
  let l := d.kiln.limits.getD j.arm ⟨65536, 65536, 65536, 65536⟩
  let creep := d.plState == 2
  let v := if creep then
      max (divRne (j.vmax * l.sv : Nat) 655360) ((v0.natAbs : Int) - divRne ((j.dmon : Int) * 16 * tk) 2000000000)
    else divRne (j.vmax * l.sv : Nat) 65536
  let a := max (j.dmon : Int) (min (divRne (j.amax * l.sa : Nat) 65536) (torqueAcc j l.st h mjj))
  let jk := divRne (j.jmax * l.sj : Nat) 65536
  [(j.qmin, j.qmax), (-v, v), (-a, a), (-jk, jk)]

/-! The reference (R52, R76, R196). -/

/-- Reference of every joint of an arm at cell time t of knot k; a retreating arm takes its target until its entry knot. -/
def Dev.refAt (d : Dev) (m : Model) (arm t : Nat) : List Knot :=
  match d.commons.retreats.find? (fun x => x.arm == arm && decide (t < x.time) && x.target.isSome) with
  | some x => (x.target.getD []).map (fun q => (⟨q, 0, 0, 0⟩ : Knot))
  | none => (d.armRef m arm).eval (d.convRef m) t

/-- The reference of one joint; a joint of no reference stands where it is measured. -/
def Dev.refOf (d : Dev) (m : Model) (j : JointEnt) (t : Nat) : Knot := (d.refAt m j.arm t).getD j.aj ⟨d.measQ j.gj, 0, 0, 0⟩

/-! The problem. -/

/-- A problem with what its assembly reports: pools cut (bits 0 to 2 of KLN_TRUNC), STOPLIM, and the normals of its rows. -/
structure Built where
  p : Problem
  cut : Nat
  stoplim : Bool
  normals : List ((Nat × Nat × Nat × Nat) × V3)
  deriving DecidableEq, Repr

def unitExp (c : Nat) : Int := if c = 0 then -24 else if c = 1 then -16 else if c = 2 then -12 else -8
def Knot.comp (k : Knot) (c : Nat) : Int := if c = 0 then k.q else if c = 1 then k.v else if c = 2 then k.a else k.j

/-- Identity of a row. -/
def Row.ident (r : Row) : Nat × Nat × Nat × Nat := (r.kind, r.id1, r.id2, r.at_)

/-- The candidates kept (R77), in the order filled after `fixed` rows of kinds 5 and 6, and the pools that dropped some. -/
def selectPools (fixed : Nat) (cands : List Cand) : List Cand × Nat :=
  let pool := fun (ks : List Nat) => (cands.filter (fun c => ks.contains c.kind)).mergeSort candLe
  let com := pool [4]
  let room := 2048 - fixed
  let col := pool [1]
  let ncom := min com.length room
  let capC := min 8192 (16384 - (fixed + ncom))
  let ncol := min col.length capC
  let sep := pool [2, 3]
  let capS := min 8192 (16384 - (fixed + ncom) - ncol)
  let cut := (if capC < col.length then 1 else 0) + (if capS < sep.length then 2 else 0) + (if room < com.length then 4 else 0)
  (com.take ncom ++ col.take ncol ++ sep.take capS, cut)

/-- x0 of R69 and the knot-0 bounds: the state the plan in force gives for S + T_s. -/
def Dev.x0At (d : Dev) (s : Nat) (j : JointEnt) : Knot := d.planAt j.gj (s + d.ts)

/-- Class of a bound of R74. -/
def Model.boxClass (m : Model) (j : JointEnt) (c : Nat) : Int := m.rc 4 (0x140 + 16 * c + j.arm)

/-- The equal bounds of knot 0 (R69), q, v, a and none for j. -/
def Dev.bound0 (d : Dev) (m : Model) (s : Nat) (j : JointEnt) : List (Option Fx) :=
  (List.range 4).map (fun c =>
    if c = 3 then none else some (mantissa ((d.x0At s j).comp c) 1 (unitExp c) (m.boxClass j c)))

/-- Reference mantissas of the linear term for one joint: position and velocity at every knot (R76). -/
def Dev.refRow (d : Dev) (m : Model) (n : Knots) (s : Nat) (j : JointEnt) : List Fx :=
  (List.range 32).flatMap (fun k => (List.range 4).map (fun c =>
    if c < 2 then mantissa ((d.refOf m j (s + d.ts + n.time k)).comp c) 1 (unitExp c) (m.rc 1 (4 * j.gj + c)) else Fx.pure 0))

/-- First saturated entry of values that stand four to a knot, 128 to a joint, under their block index. -/
def firstSat (js : List JointEnt) (kind : Nat) (idx : JointEnt → Nat → Nat) (l : List (Option Fx)) : Option (Nat × Nat) :=
  (l.zipIdx.find? (fun x => (x.1.map (·.s)).getD false)).bind (fun x =>
    (js[x.2 / 128]?).map (fun j => (kind, idx j (x.2 % 4))))

/-- The first block that a list of results names. -/
def firstBad (l : List (Option (Nat × Nat))) : Option (Nat × Nat) := (l.find? (·.isSome)).getD none

/-- The warm start of a problem from a previous plan and what it left (R86, R87). -/
def Dev.warmStart (d : Dev) (m : Model) (p : Problem) (plan : Option Plan) (sol : Option Sol) : Problem :=
  let n : Knots := ⟨p.nfine, p.dfine, p.dcoarse, p.ts⟩
  let js := p.joints.filterMap m.joint?
  let eX := fun (j : JointEnt) (c : Nat) => m.rc 1 (4 * j.gj + c)
  let known : JointEnt → Nat → Bool := fun j c => match sol with
    | some x => match x.joints.zipIdx.find? (fun (y : Nat × Nat) => y.1 == j.gj) with
      | some y => x.eX.getD (4 * y.2 + c) (-128) == eX j c
      | none => false
    | none => false
  let at_ := fun k => p.s + p.ts + n.time k
  let warmX := js.flatMap (fun j => (List.range 32).flatMap (fun k => (List.range 4).map (fun c =>
    let v := if known j c then
        ((plan.bind (fun q => q.eval j.gj (at_ k - q.tsolved))).map (fun (x : Knot) => x.comp c)).getD 0
      else if d.kiln.refs.any (fun r => r.arm == j.arm) then (d.refOf m j (at_ k)).comp c
      else if c = 0 then ((p.x0.find? (fun x => x.1 == j.gj)).map (fun x => x.2.1)).getD 0 else 0
    mantissa v 1 (unitExp c) (eX j c))))
  let dual : Row → Option Int := fun r => match sol with
    | some x => (x.duals.find? (fun (y : (Nat × Nat × Nat × Nat) × Int × Int) => y.1 == r.ident && y.2.1 == r.eY)).map (·.2.2)
    | none => none
  let gen := p.rows.filter (fun r => r.kind != 0)
  let matched := (gen.filter (fun r => (dual r).isSome)).length
  { p with
    warmX := warmX.map (·.v)
    -- the implicit bound rows have no identity in the table and start at 0 (DESIGN CHOICE)
    warmY := p.rows.map (fun r => (dual r).getD 0) ++ List.replicate (128 * js.length) 0
    matchPm := if gen.isEmpty then 1000 else matched * 1000 / gen.length
    cold := !gen.isEmpty && decide (2 * matched < gen.length)
    bad := firstBad [p.bad, firstSat js 1 (fun j c => 4 * j.gj + c) (warmX.map some)] }

/-- Build the problem whose plan comes into force at s + T_s (R65 to R79, R207, R208); its warm start is yet to be mapped. -/
def Dev.build (d : Dev) (m : Model) (s epoch : Nat) : Built :=
  let n := Knots.ofWord d.kiln.knots d.ts
  let js := d.planJoints m
  let tOf := fun k => s + d.ts + n.time k
  let stop := chooseTstop (tMax n.horizon) (js.map (fun j => let k := d.x0At s j; (j.dmon, k.v, k.a)))
  let T := stop.1 * 1000
  let tStop := fun i => s + d.ts + warp T (i * T / 16)
  -- what the pipes evaluate: every knot and every stop point (R79)
  let scenes := (List.range 32).map (fun k => m.scene (d.poseQ m (tOf k)))
  let stops := (List.range 16).map (fun i => m.scene (d.poseQ m (tStop (i + 1))))
  let all := d.collisions m n scenes ++ d.commonsRows m n s scenes ++ d.separations m n T scenes stops
  -- torques at the linearisation point
  let link := fun (a : ArmEnt) => ((d.kiln.tools.getD a.armid none).bind (fun i => m.tools[i]?)).map ToolEnt.link
  let posed := fun (k : Nat) => ((scenes[k]?).map (·.pose)).getD ⟨[], []⟩
  let torque := fun (j : JointEnt) (k : Nat) (acc : Bool) => match m.arm? j.arm with
    | some a => m.torque (posed k) a (link a) j.gj (fun g => let x := d.planAt g (tOf k); (x.v, if acc then x.a else 0))
    | none => 0
  let inertia := fun (j : JointEnt) (k : Nat) => match m.arm? j.arm with
    | some a => m.massDiag (posed k) a (link a) j.gj
    | none => 0
  let dyn := js.zipIdx.flatMap (fun x => (List.range 31).flatMap (fun k => m.dynRows n x.2 x.1 k))
  let coupling := js.zipIdx.flatMap (fun x => (List.range 16).map (fun i => m.stopRow n x.2 x.1 T (i + 1)))
  let energy := if d.mains.rt.isNone then []
    else
      let τ := js.map (fun j => (j.gj, (List.range 32).map (fun k => torque j k true)))
      m.buses.flatMap (fun b => (List.range 32).map (fun k => m.energyRow n js b τ (d.get (MNS_EG b.gid)) k))
  let fixed := coupling ++ energy
  let kept := selectPools fixed.length (all.filter d.near)
  let bar := fun (c : Cand) (gj : Nat) => (d.planAt gj (if c.kind = 3 then tStop c.at_ else tOf c.at_)).q
  let rows := dyn ++ fixed ++ kept.1.map (fun c => m.candRow n js T (bar c) c)
  let refx := js.flatMap (d.refRow m n s)
  let bnd := fun (hi : Bool) => js.flatMap (fun j => (List.range 32).flatMap (fun k =>
    if k = 0 then d.bound0 m s j
    else
      let b := d.boxAt j (d.x0At s j).v (n.time k) (torque j k false) (inertia j k)
      (List.range 4).map (fun c =>
        let x := b.getD c (0, 0)
        some (mantissa (if hi then x.2 else x.1) 1 (unitExp c) (m.boxClass j c)))))
  let lo := bnd false
  let hi := bnd true
  -- the first block that saturated (R58)
  let boxIdx := fun (j : JointEnt) (c : Nat) => 0x140 + 16 * c + j.arm
  let bad := firstBad ((scenes ++ stops).map (d.sceneSat m) ++
    [(all.find? (·.sat)).map (fun c => (6, c.blk6)), firstBad (rows.map (·.2)),
     firstSat js 1 (fun j c => 4 * j.gj + c) (refx.map some), firstSat js 4 boxIdx lo, firstSat js 4 boxIdx hi])
  { p :=
      { epoch := epoch, s := s, ts := d.ts, modelid := m.modelid, joints := js.map (·.gj), arms := js.map (·.arm),
        eX := js.flatMap (fun j => (List.range 4).map (fun c => m.rc 1 (4 * j.gj + c))),
        eR := js.flatMap (fun j => (List.range 4).map (fun c => m.rc 3 (4 * j.gj + c))),
        eK := js.flatMap (fun j => (List.range 8).map (fun b => m.rc 5 (8 * j.gj + b))),
        nfine := n.nfine, dfine := n.dfine, dcoarse := n.dcoarse,
        weights := (List.range 4).map (fun c => signed 8 (d.kiln.objw / 2 ^ (8 * c) % 256)), refx := refx.map (·.v),
        bB := js.flatMap (fun j => (List.range 4).map (m.boxClass j)),
        bY := js.flatMap (fun j => (List.range 4).map (fun c => m.rc 2 (boxIdx j c))),
        bLo := lo.map (fun x => x.map (·.v)), bHi := hi.map (fun x => x.map (·.v)), rows := rows.map (·.1),
        warmX := [], warmY := [], cold := false, matchPm := 1000, tstop := stop.1,
        x0 := js.map (fun j => let k := d.x0At s j; (j.gj, k.q, k.v, k.a)), bad := bad }
    cut := kept.2, stoplim := !stop.2, normals := kept.1.map (fun c => (c.ident, c.n)) }

/-- Numbers of general rows of some kinds, and stored non-zeros. -/
def Problem.count (p : Problem) (ks : List Nat) : Nat := (p.rows.filter (fun r => ks.contains r.kind)).length
def Problem.nnz (p : Problem) : Nat := (p.rows.map (fun r => r.coefs.length)).foldl (· + ·) 0

/-- The displacement of a track since the assembly took it, in 2^−4 mm; 0 for one not used or no longer there. -/
def Dev.trackShift (d : Dev) (used : List (Nat × List Int)) (idx : Nat) : Int × Int :=
  match used.find? (fun x => x.1 == idx), d.commons.tracks.find? (fun t => t.idx == idx) with
  | some u, some t => (t.x - u.2.getD 0 0, t.y - u.2.getD 1 0)
  | _, _ => (0, 0)

/-- A separation row with −n̄·Δp on its left side, that is n̄·Δp on its lower bound, and whether that saturated. -/
def Dev.foldRow (d : Dev) (used : List (Nat × List Int)) (normals : List ((Nat × Nat × Nat × Nat) × V3)) (r : Row) :
    Row × Option (Nat × Nat) :=
  if r.kind != 2 && r.kind != 3 then (r, none)
  else match normals.find? (fun x => x.1 == r.ident), r.lo with
    | some x, some v =>
      let s := d.trackShift used r.id2
      let δ := mantissa (x.2.x * s.1 + x.2.y * s.2) 1 (-64) r.eB
      let w := fxSat 32 (v + δ.v)
      ({ r with lo := some w.v }, if δ.s || w.s then some (4, r.blk) else none)
    | _, _ => (r, none)

/-- The fold of the check point (R81): x0 into the knot-0 bounds, the reference into the linear term, the displacement of
tracks into the bounds of their rows. -/
def Dev.foldProblem (d : Dev) (m : Model) (p : Problem) (used : List (Nat × List Int)) : Problem :=
  let n : Knots := ⟨p.nfine, p.dfine, p.dcoarse, p.ts⟩
  let js := p.joints.filterMap m.joint?
  let refx := js.flatMap (d.refRow m n p.s)
  let b0 := js.flatMap (d.bound0 m p.s)
  let put := fun (l : List (Option Int)) => l.zipIdx.map (fun x =>
    if x.2 % 128 < 4 then ((b0[4 * (x.2 / 128) + x.2 % 4]?).getD none).map (·.v) else x.1)
  let rows := p.rows.map (d.foldRow used d.kiln.normals)
  let sat0 := (b0.zipIdx.find? (fun x => (x.1.map (·.s)).getD false)).bind (fun x =>
    (js[x.2 / 4]?).map (fun j => (4, 0x140 + 16 * (x.2 % 4) + j.arm)))
  { p with x0 := js.map (fun j => let k := d.x0At p.s j; (j.gj, k.q, k.v, k.a)), refx := refx.map (·.v),
           bLo := put p.bLo, bHi := put p.bHi, rows := rows.map (·.1),
           bad := firstBad [p.bad, sat0, firstSat js 1 (fun j c => 4 * j.gj + c) (refx.map some), firstBad (rows.map (·.2))] }

end Sys2Proof.Machine
end

