-- ==== Sys2Proof/Machine/Planner.lean ====
section
/-! DEFINITION. What the planner rows share: roles and authority (R112, R125, R133, R136, R137), candidates and shifted plans
(R114 to R116), miss accounting and escalation (R118 to R123), and the commit of a wall (R124). -/

namespace Sys2Proof.Machine

/-! Walls. -/

/-- A wall in a standby role: hot or warm. -/
def Dev.standsBy (d : Dev) (w : Nat) : Bool := decide (2 ≤ d.role w)

/-- SLV_PLSTAT.NOSB: no wall holds a standby role (R133). -/
def Dev.showNosb (d : Dev) : Dev := d.putB SLV_NOSB (!d.standsBy 0 && !d.standsBy 1)

/-- Leads A, D and C of the stride points, and the commit watch, in ns (R113). -/
def Dev.leadA (d : Dev) : Nat := d.planner.timing % 1024 * 1000
def Dev.leadD (d : Dev) : Nat := d.planner.timing / 2 ^ 10 % 1024 * 1000
def Dev.leadC (d : Dev) : Nat := d.planner.timing / 2 ^ 20 % 1024 * 1000
def Dev.watch (d : Dev) : Nat := d.planner.redun / 16 % 256 * 1000
def Dev.sbmode (d : Dev) : Nat := d.planner.redun / 2 % 4

/-- ROLE of a standby under SBMODE (R132). -/
def sbRole (m : Nat) : Nat := if m = 1 then 2 else if m = 2 then 3 else 0

/-- The wall in control: the one ACTWALL names while it holds the active role. -/
def Dev.active? (d : Dev) : Option Nat :=
  let w := d.get SLV_ACTWALL
  if d.role w = 1 then some w else none

/-- The wall of the standby role. -/
def Dev.standby? (d : Dev) : Option Nat := if d.standsBy 0 then some 0 else if d.standsBy 1 then some 1 else none

/-- The wall stops work on its problems and holds nothing of them. -/
def WallSt.drop (x : WallSt) : WallSt :=
  { x with problem := none, next := none, iterating := false, refactor := false, converged := false, capped := false,
           folded := false, foldDue := none, best := none, cand := none, solveRec := none, sol := none, ran := false,
           pc := [], cur := ⟨[], [], []⟩, claimed := false }

/-- A wall leaves its role (R125, R133): GIVE_UP, no transfer to its commit port any more, and not available until a rejoin
passes. The error record is at the level of the wall (R412). -/
def Dev.leaveRole (d : Dev) (w : Nat) (ownFault : Bool) : Dev :=
  let d := (d.put (SLV_ROLE w) 0).put (SLV_PHASE w) 0
  let d := d.updW w (fun x => { x.drop with avail := false, record := if ownFault then none else x.record })
  let d := if ownFault then d.errRec 2 7 (2 * w) 4 0 0 0 else d
  (d.raiseW w 12).showNosb

/-! Plans. -/

/-- The standstill plan (R112, R131): every present joint holds its measured position. -/
def Dev.standstill (d : Dev) (seq token t0 : Nat) (m : Model) : Plan :=
  let js := m.joints.filter (fun j => bitOf d.kiln.present j.arm)
  { seq := seq, srcseq := seq, token := token, wall := 0, kind := 3, shifts := 0, flags := 0, epoch := d.get KLN_EPOCH,
    t0 := t0, tsolved := t0, tstop := 16000, nfine := d.kiln.knots % 32, dfine := d.kiln.knots / 256 % 16,
    dcoarse := d.kiln.knots / 4096 % 128, viol := 0, modelid := m.modelid,
    joints := js.map (fun j => (⟨j.gj, List.replicate 32 ⟨d.measQ j.gj, 0, 0, 0⟩, List.replicate 16 (d.measQ j.gj, 0)⟩ : JointPlan)),
    ts := d.ts }

/-- A mantissa of class e in units of 2^u, to nearest. -/
def toUnit (m e u : Int) : Int := satS 32 (inUnits m 1 (e - 30) u)

/-- The plan of an iterate (R115): x0 exactly at knot 0, the other knots rounded to plan units, the stop array sampled. -/
def Problem.plan (p : Problem) (w kind viol : Nat) (x : List Int) : Plan :=
  let xs := x.toArray
  let knot := fun (jp k : Nat) =>
    let c := fun (i : Nat) => let v := varOf jp k i; toUnit (xs.getD v 0) (p.ex v) (unitExp i)
    match k, p.x0[jp]? with
    | 0, some z => (⟨z.2.1, z.2.2.1, z.2.2.2, c 3⟩ : Knot)
    | _, _ => ⟨c 0, c 1, c 2, c 3⟩
  let t0 := p.s + p.ts
  let nominal : Plan :=
    { seq := 0, srcseq := 0, token := 0, wall := w, kind := kind, shifts := 0, flags := if p.cold then 8 else 0,
      epoch := p.epoch, t0 := t0, tsolved := t0, tstop := p.tstop, nfine := p.nfine, dfine := p.dfine, dcoarse := p.dcoarse,
      viol := viol, modelid := p.modelid,
      joints := p.joints.zipIdx.map (fun (j : Nat × Nat) => (⟨j.1, (List.range 32).map (knot j.2), []⟩ : JointPlan)), ts := p.ts }
  { nominal with joints := nominal.joints.map (fun j =>
      { j with stop := stopArray (fun u => (nominal.eval j.gj u).getD ⟨0, 0, 0, 0⟩) (p.tstop * 1000) }) }

/-- Kind 6 at the 16 stop points of a shifted branch, T in ns (R116). -/
def shiftFits (p : Plan) (t0 : Nat) (js : List (Nat × Nat)) (T : Nat) : Bool :=
  js.all (fun j => (List.range 16).all (fun i =>
    let t := (i + 1) * T / 16
    match p.eval j.1 (t0 - p.tsolved + warp T t) with
    | none => true
    | some k =>
      let w : Int := 16 - (i + 1 : Nat)
      -- a·(w/16)² − v/T, a in 2^−12 and v in 2^−16, cleared of denominators
      decide ((k.a * w ^ 2 * (T : Int) - k.v * 16 * 1000000000).natAbs ≤ j.2 * 256 * T)))

/-- The smallest T_stop from `us` up in steps of 2 ms that fits, in µs; T_max and false where none does. -/
def raiseTstop (fits : Nat → Bool) (tmax : Nat) : Nat → Nat → Nat × Bool
  | 0, _ => (tmax, false)
  | n + 1, us => if tmax < us then (tmax, false) else if fits us then (us, true) else raiseTstop fits tmax n (us + 2000)

/-- The shifted plan (R116) built from the plan in force, for a boundary at t0. -/
def Dev.shiftPlan (d : Dev) (p : Plan) (w t0 : Nat) : Plan :=
  let dmon := fun (gj : Nat) => ((d.kiln.active.bind (fun m => m.joint? gj)).map (·.dmon)).getD 0
  let js := p.joints.map (fun j => (j.gj, dmon j.gj))
  let tmax := tMax p.horizon
  let at0 := js.map (fun j => let k := (p.eval j.1 (t0 - p.tsolved)).getD ⟨0, 0, 0, 0⟩; (j.2, k.v, k.a))
  let first := chooseTstop tmax at0
  let c := if first.2 then raiseTstop (fun us => shiftFits p t0 js (us * 1000)) tmax 256 first.1 else first
  let off := t0 - p.tsolved
  { p with t0 := t0, shifts := min 255 (p.shifts + 1), kind := 2, wall := w, tstop := c.1,
           flags := p.flags % 16 / 8 * 8 + (if c.2 then 0 else 4),
           joints := p.joints.map (fun j => { j with
             stop := stopArray (fun u => (p.eval j.gj (off + u)).getD ⟨0, 0, 0, 0⟩) (c.1 * 1000) }) }

/-! The bytes of a record (Table — Commit record header, Table — Commit record arrays). -/

def s32 (v : Int) : List Byte := leBytes 4 (encSigned 32 v)

def Plan.head (p : Plan) : List Byte :=
  leBytes 4 p.seq ++ leBytes 4 p.srcseq ++ leBytes 2 p.token ++ leBytes 1 p.wall ++ leBytes 1 p.kind ++ leBytes 1 p.shifts ++
  leBytes 1 p.flags ++ leBytes 2 p.epoch ++ leBytes 8 p.t0 ++ leBytes 8 p.tsolved ++ leBytes 4 p.tstop ++
  leBytes 1 p.nfine ++ leBytes 1 p.dfine ++ leBytes 1 p.dcoarse ++ leBytes 1 p.joints.length ++
  leBytes 8 (maskOf (p.joints.map (·.gj))) ++ leBytes 4 p.viol ++ leBytes 4 p.modelid

def Plan.arrays (p : Plan) : List Byte :=
  p.joints.flatMap (fun j => j.knots.flatMap (fun k => s32 k.q ++ s32 k.v ++ s32 k.a ++ s32 k.j)) ++
  p.joints.flatMap (fun j => j.stop.flatMap (fun x => s32 x.1 ++ s32 x.2))

/-- The record with its CRC. -/
def Plan.bytes (p : Plan) : List Byte := p.head ++ leBytes 4 (crc32c (p.head ++ p.arrays)) ++ leBytes 4 0 ++ p.arrays

/-! Miss accounting (R118, R121 to R123). -/

/-- A miss: counted, MISSC up to 255, the exit run over. In RUNNING or CREEP it escalates to CREEP; the answer says whether
it reaches STOP. -/
def Dev.miss (d : Dev) : Dev × Bool :=
  let n := min 255 (d.get SLV_MISSC + 1)
  let d := (d.bump 0x5430).put SLV_MISSC n
  let d := { d with planner := { d.planner with exitRun := 0 } }
  let d := if d.plState = 1 ∧ d.get SLV_MCREEP ≤ n then (d.put SLV_PLSTATE 2).raiseW (d.get SLV_ACTWALL) 14 else d
  (d, d.planning && decide (d.get SLV_MSTOP ≤ n))

/-- A stride without a miss (R118, R122): in CREEP the run grows, and after EXIT of them the planner is RUNNING. -/
def Dev.noMiss (d : Dev) : Dev :=
  let d := d.put SLV_MISSC 0
  if d.plState = 2 then
    let n := d.planner.exitRun + 1
    if d.get SLV_MEXIT ≤ n then
      ({ d with planner := { d.planner with exitRun := 0 } }.put SLV_PLSTATE 1).raiseW (d.get SLV_ACTWALL) 14
    else { d with planner := { d.planner with exitRun := n } }
  else d

/-- The stride in progress is a miss: counted once, whatever else it brings (R118). The answer says whether MISSC stands at
STOP. -/
def Dev.strideMiss (d : Dev) : Dev × Bool :=
  if d.planner.counted = some true then (d, d.planning && decide (d.get SLV_MSTOP ≤ d.get SLV_MISSC))
  else
    let r := d.miss
    ({ r.1 with planner := { r.1.planner with counted := some true } }, r.2)

/-- A solved plan is committed for the stride in progress: MISSC is 0, and a stride not yet counted is one without a miss. -/
def Dev.strideGood (d : Dev) : Dev :=
  if d.planner.counted.isSome then d.put SLV_MISSC 0
  else { d.noMiss with planner := { d.noMiss.planner with counted := some false } }

/-! The commit of a wall (R124). -/

/-- SEQ that the next accounted commit carries (R118). -/
def Dev.nextSeq (d : Dev) : Nat := (d.planner.lastSeq + 1) % 2 ^ 32

/-- The wall's record of its candidate, or of the shifted plan: CREEP as the planner stands before the commit is accounted. -/
def Dev.makeRecord (d : Dev) (w : Nat) (inf : Plan) : Plan :=
  let plan := match (d.wall w).cand with
    | some (_, some p) => p
    | _ => d.shiftPlan inf w (d.s + d.ts)
  { plan with seq := d.nextSeq, srcseq := if plan.kind = 2 then plan.srcseq else d.nextSeq, token := (d.wall w).token, wall := w,
              flags := plan.flags + (if d.plState = 2 then 1 else 0) + (if d.mains.rt.isSome then 16 else 0) }

/-- The record is written to the commit buffer; its commit is accounted when it is made. -/
def Dev.prepare (d : Dev) (w : Nat) : Dev :=
  match d.planner.servo.inForce with
  | none => d
  | some inf =>
    let p := d.makeRecord w inf
    d.updW w (fun x => { x with record := some p, held := true, rejCounted := false, staleCounted := false })

/-- A commit of the wall that holds the token is accounted (R118, R121 to R123): misses, BEST, SEQ, STOPCMD. -/
def Dev.account (d : Dev) (w : Nat) : Dev :=
  match (d.wall w).record with
  | none => d
  | some p =>
    if !(d.wall w).held then d
    else
      let d := d.updW w (fun x => { x with held := false })
      if p.token ≠ d.get SLV_AUTH then d
      else
        let again := d.planner.counted == some true
        let r := if p.kind = 2 then d.strideMiss else ((if p.kind = 1 then d.bump 0x5434 else d).strideGood, false)
        let d := { r.1 with planner := { r.1.planner with lastSeq := p.seq, lastToken := p.token } }
        let d : Dev := match p.kind, (d.wall w).sol with
          | 2, _ => d
          | _, some s => { d with kiln := { d.kiln with sols := ({ s with seq := p.seq } :: d.kiln.sols).take 4 } }
          | _, none => d
        if r.2 then
          let d := d.updW w (fun x => { x with record := some { p with flags := p.flags + 2 } })
          if again then d else (d.raiseW w 15).requestSs1
        else d

def Dev.commitBy (d : Dev) (w : Nat) : Dev := (d.prepare w).account w

/-! Authority (R125). -/

/-- A claim: a locked increment of the authority register; the wall becomes active and its port opens. -/
def Dev.claimToken (d : Dev) (w : Nat) : Dev :=
  let t := (d.get SLV_AUTH + 1) % 65536
  let d := ((d.put SLV_AUTH t).put (SLV_ROLE w) 1).put SLV_ACTWALL w
  let d := d.updW w (fun x => { x with token := t, portClosed := false })
  (d.raiseW w 13).showNosb

/-- The dual-act window of 250 µs opens. -/
def Dev.openWindow (d : Dev) (former : Option Nat) : Dev :=
  { d with planner := { d.planner with window := some (d.now, former) } }.putB SLV_WINDOW true

/-- The interpolations of a beat use the plan and the stop branch in force at its start (R25). -/
def Dev.latchBeat (d : Dev) : Dev :=
  { d with planner := { d.planner with beatPlan := d.planner.servo.inForce, beatTe := d.planner.te } }

end Sys2Proof.Machine
end

