-- ==== Sys2Proof/Machine/Walls.lean ====
section
/-! DEFINITION. A solver wall at work: starting a problem, abandoning it, taking over control, and the rows LAST_BLOCK_ARRIVAL,
OUTER_ITERATION and REFACTOR_DONE (R94 to R108, R133, R134, R137). -/

namespace Sys2Proof.Machine

/-- Solver set-up as the registers hold it (SLV_CTRL, SLV_RHO, SLV_SCALE, SLV_TOL, SLV_ITER). -/
def Dev.solveCfg (d : Dev) : SolveCfg :=
  let n := fun (a : Nat) => (d.reg a).toNat
  { relax := bitOf (n 0x5200) 0, carry := bitOf (n 0x5200) 1, rinit := signed 8 (n 0x5204), rmin := signed 8 (n 0x5204 / 2 ^ 8),
    rmax := signed 8 (n 0x5204 / 2 ^ 16), rhoint := n 0x5204 / 2 ^ 24 % 16, rhoth := n 0x5204 / 2 ^ 28 % 8,
    sigma := signed 8 (n 0x5208), eqsh := n 0x5208 / 2 ^ 8 % 16, tolp := n 0x520C % 32, told := n 0x520C / 2 ^ 8 % 32,
    tolv := n 0x520C / 2 ^ 16 % 32, cgtol := n 0x520C / 2 ^ 24 % 32, itcap := n 0x5210 % 256, inner := n 0x5210 / 2 ^ 8 % 16,
    cgeps := n 0x5210 / 2 ^ 16 % 32 }

/-- Offset of a counter of a wall (Solver counters). -/
def wallCtr (w k : Nat) : Nat := 0x5310 + 0x80 * w + 4 * k

/-- A problem is abandoned (R104): its iterates and best iterate go. Causes 1 SATURATION, 2 QOVF_TWICE, 3 BRICK_RETIRED,
4 PARITY. -/
def Dev.abandon (d : Dev) (w cause : Nat) : Dev :=
  let d := d.updW w (fun x => { x with abandoned := cause, iterating := false, refactor := false, converged := false,
                                       best := none, cur := ⟨[], [], []⟩, pc := [] })
  ((d.put (SLV_PHASE w) 4).bump (wallCtr w 8)).raiseW w 1

/-- A numerical fault (R93). -/
def Dev.wallSat (d : Dev) (w : Nat) (b : Nat × Nat) : Dev :=
  let d := d.updW w (fun x => { x with sat := some (x.sat.getD b) })
  ((d.bump (wallCtr w 4)).raiseW w 2).abandon w 1

/-- A factorisation is taken: floored columns and blocks on their diagonal are counted, and PCDIAG is raised for each such
block (R99 to R101). -/
def Dev.takeFactor (d : Dev) (w : Nat) (f : Except Halt (List PcBlock × Nat × Nat)) : Dev :=
    match f with
    | .error (.sat k i) => d.wallSat w (k, i)
    | .error .qovf => d
    | .ok (pc, fl, dg) =>
      let d := d.updW w (fun x => { x with pc := pc, pivf := x.pivf + fl, pcdiagn := x.pcdiagn + dg,
                                           pivFlag := x.pivFlag || decide (0 < fl), pcdiagFlag := x.pcdiagFlag || decide (0 < dg) })
      let d := (d.bumpN (wallCtr w 0) fl).bumpN (wallCtr w 1) dg
      (List.range dg).foldl (fun (d : Dev) _ => d.raiseW w 4) d

/-- Form and factor every block at the wall's r. -/
def Dev.refactorNow (d : Dev) (w : Nat) : Dev :=
  let x := d.wall w
  match x.problem with
  | none => d
  | some p => d.takeFactor w (p.factorAll x.cfg x.r)

/-- Form and factor some blocks anew (R107). -/
def Dev.reformBlocks (d : Dev) (w : Nat) (bs : List Nat) : Dev :=
  let x := d.wall w
  match x.problem with
  | none => d
  | some p => d.takeFactor w (p.factorSome x.cfg x.r x.pc (bs.filter (p.blocks.contains ·)))

/-- A wall starts iterating on a problem (R94, R95). `final` says that the problem is already final in its stride. After a
squash a problem not flagged COLD takes r from the problem of the stride before, not from the epoch that was dropped, and
the parity errors of R107 are counted per epoch, as the record's counts are (DESIGN CHOICE). -/
def Dev.startProblem (d : Dev) (w : Nat) (p : Problem) (doubled final : Bool) : Dev :=
  let cfg := d.solveCfg
  let r := if p.cold || !cfg.carry then cfg.rinit else (d.wall w).carried
  let d := d.updW w (fun x => { x.fresh with
    problem := some p, cfg := cfg, r := r, folded := final, iterating := true, ran := true,
    doubled := doubled || p.cold || x.claimed, claimed := false })
  let d := (d.put (SLV_PHASE w) 2).put (SLV_WEPOCH w) p.epoch
  match p.bad with
  | some b => d.wallSat w b
  | none =>
    match p.start with
    | .error (.sat k i) => d.wallSat w (k, i)
    | .error .qovf => d
    | .ok it => (d.updW w (fun x => { x with cur := it })).refactorNow w

/-- A warm standby works on the problems whose commit carries an SEQ that is a multiple of 4 (R132). `ahead` is 1 for the
problem of the next stride. -/
def Dev.warmDue (d : Dev) (ahead : Nat) : Bool :=
  let pendingCommit := if d.planner.phase = 2 then 0 else 1
  (d.planner.lastSeq + pendingCommit + ahead) % 4 == 0

/-- Does the wall iterate on a problem of stride start s? -/
def Dev.runsProblem (d : Dev) (w s : Nat) : Bool :=
  d.role w == 1 || d.role w == 2 ||
    (d.role w == 3 && d.warmDue (if s = d.s then 0 else 1))

/-! Taking over (R134). -/

/-- The standby's claim has completed (R125, R134, R136): the recovery window opens, and the new active wall acts as
Table — Takeover cases says. -/
def Dev.takeOver (d : Dev) (w : Nat) (former : Option Nat) : Dev :=
  let warm := d.role w == 3
  let d := ((d.claimToken w).bump 0x5438).openWindow former
  let d := { d with planner := { d.planner with recov := some (w, 0) } }.putB SLV_RECOV true
  let taken := d.planner.servo.accepted && d.planner.chanA.accepted
  -- a warm standby starts the problem it holds unsolved, or once its blocks arrive, with the cap doubled
  let begin_ := fun (d : Dev) (s : Nat) =>
    if !warm || (d.wall w).ran then d
    else match (d.wall w).problem with
      | some p => if p.s == s then d.startProblem w p true (decide (s = d.s) && decide (d.s + 70000 ≤ d.now)) else d
      | none => d.updW w (fun x => { x with claimed := true })
  if d.planner.phase = 0 then begin_ d d.s
  else if d.planner.phase = 2 ∧ !taken then begin_ (d.commitBy w) (d.s + d.ts)
  else begin_ d (d.s + d.ts)

/-- A wall gives up control (R133) and what that leads to (R134, R137). A wall without a role gives up its availability for one
(R112). -/
def Dev.giveUp (d : Dev) (w : Nat) : Dev :=
  if d.role w = 0 && !(d.wall w).avail then d
  else
    let was := d.active? == some w
    let d := d.leaveRole w true
    if !was || d.plState == 0 then d
    else if d.planner.recov.isSome then d.planStop
    else
      match d.standby? with
      | some x => d.takeOver x (some w)
      | none => d.planStop

/-- A former active wall sees its token superseded (R125, R139). -/
def Dev.superseded (d : Dev) (w : Nat) : Dev :=
  if d.role w = 1 && (d.wall w).token != d.get SLV_AUTH then d.leaveRole w false else d

/-! The delivery of a problem. -/

/-- The last block of the Kiln's problem arrives at a wall (R94, R99). A problem of the next stride waits for the deadline of
the one before. -/
def Dev.lastBlock (d : Dev) (w : Nat) : Dev :=
  match d.kiln.prob with
  | none => d
  | some p =>
    if !d.up || d.plState == 0 then d
    else
      let d :=
        if d.kiln.delivered then d
        else
          let d := { d with kiln := { d.kiln with delivered := true, assembling := false } }
          let d := d.put KLN_ASMT (min (d.now - d.kiln.asmAt) (2 ^ 32 - 1))
          let d := d.setReg 0x5030 (BitVec.ofNat 32 (p.count [1] + p.count [2, 3] * 2 ^ 16))
          d.setReg 0x5034 (BitVec.ofNat 32 (p.count [4, 5, 6] + p.nnz * 2 ^ 12))
      if d.role w = 0 then d
      else if decide (p.s = d.s + d.ts) && d.planner.phase == 0 then d.updW w (fun x => { x with next := some p })
      else if d.runsProblem w p.s then d.startProblem w p false (decide (p.s = d.s) && decide (d.s + 70000 ≤ d.now))
      else d.updW w (fun x => { x with problem := some p })

/-- LAST_BLOCK_ARRIVAL. -/
def execLastBlockArrival (w : Fin 2) (s : State) : Out := s.run (fun d => d.lastBlock w.val)

/-! One outer iteration. -/

/-- A residue mismatch of a brick (R105, R106): recomputed, or retired at the second of the stride. -/
def Dev.mismatch (d : Dev) (w course brick : Nat) : Dev :=
  let again := (d.wall w).mismatches.contains (course, brick)
  let d := (d.bump (wallCtr w 5)).raiseW w 6
  let d := d.updW w (fun x => { x with resmisn := x.resmisn + 1, mismatches := (course, brick) :: x.mismatches })
  if !again then d
  else
    let d := d.updW w (fun x => { x with retired := (course, brick) :: x.retired })
    let second := d.get (SLV_CSTATE w course) != 0
    let d := d.put (SLV_CSTATE w course) (if second then 3 else 2)
    let det := (d.reg (0x5308 + 0x80 * w)).toNat
    let d := ((d.bump (wallCtr w 6)).raiseW w 7).errRec 0 5 0xFF 2 (17 * course + brick) 0 det
    let d := d.abandon w 3
    if second then
      let d := (d.raiseW w 8).errRec 1 6 0xFF 3 (17 * course) 0 det
      d.giveUp w
    else d

/-- A parity error in wall memory (R107). No preconditioner block uses a bound. -/
def Dev.wallParity (d : Dev) (w : Nat) (word : WallWord) : Dev :=
  let d := (d.bump (wallCtr w 7)).raiseW w 9
  let d := d.updW w (fun x => { x with parityN := x.parityN + 1, parityFlag := true })
  let x := d.wall w
  if 2 ≤ x.parityN then d.abandon w 4
  else match word with
    | .iterate =>
      match x.best, x.problem with
      | some b, _ => d.updW w (fun x => { x with cur := b.1 })
      | none, some p => match p.start with
        | .ok it => d.updW w (fun x => { x with cur := it })
        | .error (.sat k i) => d.wallSat w (k, i)
        | .error .qovf => d
      | none, none => d
    | .precond b => d.reformBlocks w [b]
    | .matrix i => d.reformBlocks w ((x.problem.map (fun p => p.blocksOfRow i)).getD [])
    | .bound _ => d

/-- A quotient overflow is counted (R103). -/
def Dev.qovf (d : Dev) (w : Nat) : Dev :=
  ((d.updW w (fun x => { x with qovfn := x.qovfn + 1, qovfFlag := true })).bump (wallCtr w 3)).raiseW w 3

/-- Adaptation of r after RHOINT iterations (R95): r, and whether it was held at RMIN or RMAX. -/
def adaptRho (c : SolveCfg) (r : Int) (prim dual : Nat) : Int × Bool :=
  let ovr := decide (c.rmax < r)
  let r := if ovr then c.rmax else r
  let k := 2 ^ c.rhoth
  if k * dual < prim then (if r < c.rmax then (r + 1, ovr) else (r, true))
  else if k * prim < dual then (if c.rmin < r then (r - 1, ovr) else (r, true))
  else (r, ovr)

/-- A fold waiting for the iteration boundary takes effect. -/
def WallSt.takeFold (x : WallSt) : WallSt :=
  match x.foldDue with
  | some p => { x with problem := some p, folded := true, foldDue := none }
  | none => x

/-- A curvature breakdown is counted (R102). -/
def Dev.brokeDown (d : Dev) (w : Nat) : Dev :=
  ((d.updW w (fun x => { x with brkn := x.brkn + 1, brkFlag := true })).bump (wallCtr w 2)).raiseW w 5

/-- An iteration is complete, its y written: it is counted, then come residuals, best iterate, convergence, cap and adaptation
(R94 to R98). Every change of r refactors (R95). -/
def Dev.iterated (d : Dev) (w : Nat) (p : Problem) (it : Iterate) (steps : Nat) : Dev :=
  let valid := (d.wall w).folded && (d.wall w).foldDue.isNone
  let d := d.updW w (fun x => { x with
    cur := it, iters := x.iters + 1, innerN := x.innerN + steps, finalIters := x.finalIters + (if valid then 1 else 0) })
  match p.residuals it with
  | .error (.sat k i) => d.wallSat w (k, i)
  | .error .qovf => d
  | .ok (prim, dual, viol) =>
    let x := d.wall w
    let n := x.iters
    let best := if valid then
        match x.best with
        | some b => if viol ≤ b.2.1 then some (it, viol, n) else x.best
        | none => some (it, viol, n)
      else x.best
    let pass := valid && decide (prim ≤ 2 ^ (30 - x.cfg.tolp)) && decide (dual ≤ 2 ^ (30 - x.cfg.told))
    let cap := if x.doubled then min 255 (2 * x.cfg.itcap) else x.cfg.itcap
    let capped := !pass && decide (cap ≤ n)
    let ad := if x.cfg.rhoint ≠ 0 ∧ n % x.cfg.rhoint = 0 then adaptRho x.cfg x.r prim dual else (x.r, false)
    let d := d.updW w (fun x => { x with
      best := best, prim := prim, dual := dual, r := ad.1, rhoclamp := x.rhoclamp || ad.2, converged := pass, capped := capped,
      iterating := !pass && !capped, tconv := if pass then some (d.now - d.s) else x.tconv }.takeFold)
    let d := if pass then d.put (SLV_PHASE w) 3 else if capped then (d.put (SLV_PHASE w) 0).raiseW w 10 else d
    if ad.1 ≠ x.r then (d.updW w (fun x => { x with refactor := true })).refactorNow w else d

/-- One outer step taken as far as it goes: its iterate, or the quotient overflow it met. -/
def Dev.outerStep (d : Dev) (w : Nat) (p : Problem) (onQovf : Dev → Dev) : Dev :=
  let x := d.wall w
  match p.outer x.cfg x.r x.pc x.cur with
  | .error (.sat k i) => d.wallSat w (k, i)
  | .error .qovf => onQovf d
  | .ok (cg, res) =>
    let d := if cg.2 then d.brokeDown w else d
    match res with
    | .error (.sat k i) => d.wallSat w (k, i)
    | .error .qovf => d
    | .ok it => d.iterated w p it cg.1

/-- One outer iteration on a wall (R94, R103): a quotient overflow raises r by 1 and the step is computed once more. The inner
steps of the solve that overflowed are not counted (DESIGN CHOICE: the spec does not say). -/
def Dev.iterate (d : Dev) (w : Nat) : Dev :=
  match (d.wall w).problem with
  | none => d
  | some p => d.outerStep w p (fun d =>
      let d := ((d.qovf w).updW w (fun x => { x with r := x.r + 1 })).refactorNow w
      if !(d.wall w).iterating then d
      else d.outerStep w p (fun d => (d.qovf w).abandon w 2))

/-- The wall is iterating and no refactor holds it up. -/
def Dev.atWork (d : Dev) (w : Nat) : Bool := (d.wall w).iterating && !(d.wall w).refactor

/-- OUTER_ITERATION: the errors in lane results that the residue units flag and the parity errors met during it, in order, then
its result. -/
def execOuterIteration (w : Fin 2) (mis : List LaneFault) (par : List WallWord) (s : State) : Out :=
  s.run (fun d =>
    let w := w.val
    if !d.up || !d.atWork w then d
    else
      let d := mis.foldl (fun (d : Dev) (m : LaneFault) =>
        if d.atWork w && laneFlags m.op m.bit m.up then d.mismatch w (m.course % 8) (m.brick % 17) else d) d
      let d := par.foldl (fun (d : Dev) (k : WallWord) => if d.atWork w then d.wallParity w k else d) d
      if d.atWork w then d.iterate w else d)

/-- REFACTOR_DONE: the wall iterates again. -/
def execRefactorDone (w : Fin 2) (s : State) : Out :=
  s.run (fun d => if d.up then d.updW w.val (fun x => { x with refactor := false }) else d)

end Sys2Proof.Machine
end

