-- ==== Sys2Proof/Machine/Assembly.lean ====
section
/-! DEFINITION. The Kiln's assembly (R68, R80) and the S + 70 µs check point (R46, R51, R57, R61, R81 to R85, R112, R365,
R366). -/

namespace Sys2Proof.Machine

/-! Assembly. -/

/-- Foot points of the tracks that are LIVE or COASTING, by index (R205). -/
def Dev.trackInputs (d : Dev) : List (Nat × List Int) := d.commons.tracks.map (fun t => (t.idx, [t.x, t.y]))

/-- What a build uses (R81). -/
def Dev.inputs (d : Dev) (p : Problem) : UsedInputs :=
  { tracks := d.trackInputs, grants := d.commons.holds.map (fun h => (h.cid, h.arm, h.st)), retreats := d.commons.retreats,
    mode := [d.plState == 2, d.mains.rt.isSome, d.is SRV_STOPBR],
    budgets := (List.range 4).map (fun g => d.get (MNS_EG g)), tools := d.kiln.tools, present := d.kiln.present, x0 := p.x0,
    knots := d.kiln.knots, objw := d.kiln.objw }

/-- A slot that needs a re-fetch, or a closed Kiln port, holds an assembly up (R64, Table — Hang reactions). -/
def Dev.canBuild (d : Dev) : Bool := d.get KLN_ACTV == 1 && !d.is (FAB_CLOSED 4)

/-- The plan a problem starts from, and what its solve left, as known while a stride's problem is being built for the stride that
starts at s: the plan in force once that stride has begun, and from the deadline before it the plan that the active wall has
selected, whose commit is to come (R86). -/
def Dev.warmSource (d : Dev) (s : Nat) : Option Plan × Option Sol :=
  let here := d.planner.servo.inForce
  let left := here.bind (fun p => d.kiln.sols.find? (fun x => x.seq == p.srcseq))
  if s = d.s then (here, left)
  else match d.active? with
    | none => (here, left)
    | some w =>
      let x := d.wall w
      match x.cand with
      | some (_, some p) => (some p, x.sol)
      | _ => (here, left)

/-- The warm start of the problem assembled last is mapped, and KLN_WARM reports it (R86, R87). -/
def Dev.mapWarm (d : Dev) (m : Model) : Dev :=
  match d.kiln.prob with
  | none => d
  | some p =>
    let src := d.warmSource p.s
    let q := d.warmStart m p src.1 src.2
    let d := { d with kiln := { d.kiln with prob := some q } }
    let d := (d.put KLN_MATCH q.matchPm).putB KLN_COLD q.cold
    if q.cold then (d.bump 0x5040).raise (srcNo 2 1) noDetail else d

/-- A new problem is begun: the normals of the one before become those of the previous problem (R71). -/
def Dev.turnNormals (d : Dev) : Dev :=
  { d with kiln := { d.kiln with oldNormals := d.kiln.normals, normals := [] } }

/-- Start of an assembly or rebuild: the epoch advances and the problem for the stride that starts at `s` is built
(R68, R73, R78, R80). A build for a stride that has begun, or one after the deadline before it, is mapped at once; an earlier
one at the deadline, when it is known which plan will be in force (R86). -/
def Dev.startBuild (d : Dev) (s : Nat) (rebuild : Bool) : Dev :=
  let epoch := (d.get KLN_EPOCH + 1) % 65536
  let d := d.put KLN_EPOCH epoch
  let d := { d with kiln := { d.kiln with assembling := true, rebuilding := rebuild, delivered := false, prob := none,
                                          used := none, asmAt := d.now } }
  match d.kiln.active with
  | none => d
  | some m =>
    if !d.canBuild then d
    else
      let b := d.build m s epoch
      let d := { d with kiln := { d.kiln with prob := some b.p, used := some (d.inputs b.p), normals := b.normals } }
      let d := if s = d.s ∨ d.planner.phase ≠ 0 then d.mapWarm m else d
      let d := d.put KLN_TSTOP b.p.tstop
      let d := if b.stoplim then (d.putB (KLN_TRUNC 3) true).raise (srcNo 2 6) noDetail else d
      let d := (bitsOf b.cut 3).foldl (fun (d : Dev) n => d.putB (KLN_TRUNC n) true) d
      if b.cut = 0 || d.kiln.truncSeen then d
      else { d with kiln := { d.kiln with truncSeen := true } }.raise (srcNo 2 4) noDetail

/-- KLN_CTRL, KLN_SPECTOL, KLN_TRKTOL and KLN_COLACT take effect at an assembly start. -/
def Dev.latchKiln (d : Dev) : Dev :=
  { d with kiln := { d.kiln with ctrl := (d.reg 0x5000).toNat, spectol := (d.reg 0x5004).toNat,
                                 trktol := (d.reg 0x5008).toNat % 65536, colact := (d.reg 0x500C).toNat % 65536 } }

/-- ASSEMBLY_START at S − A for the stride that starts next (R68, R80). With SPECEN clear the assembly waits for the check
point (R85). -/
def execAssemblyStart (s : State) : Out :=
  s.run (fun d =>
    if !d.up || d.plState == 0 || d.kiln.active.isNone || d.kiln.ctrl % 2 == 0 then d
    else
      let d := (d.reach (d.s + d.ts - d.leadA)).latchKiln
      let d := { d with kiln := { d.kiln with last := some (d.get KLN_EPOCH, d.kiln.delivered, d.kiln.rebuilding) } }
      if d.kiln.ctrl % 2 = 0 then { d with kiln := { d.kiln with prob := none, delivered := false, assembling := false } }
      else d.turnNormals.startBuild (d.s + d.ts) false)

/-! What the check point latches. -/

/-- Displacement in counts since the latch count, modulo the count width, and the channel's speed, which is latched whether or
not the frame has its latch count; both turn with the direction flag (R51, R325). -/
def Dev.convLatch (d : Dev) (c : ConvFrame) : ConvFrame :=
  match d.fbRt c.fbch with
  | some r =>
    let rev := (d.kiln.active.bind (fun m => m.convs.find? (fun e => e.kid == c.kid))).any (fun e => bitOf e.flags 0)
    let disp := match c.origin with | some o => signed 32 (encSigned 32 (r.latched - o)) | none => 0
    if rev then { c with disp := -disp, speed := -r.spd } else { c with disp := disp, speed := r.spd }
  | none => c

/-- A conveyor frame of the active model, kept where KID and FBCH stay; a new one has the displacement and speed of its channel
as last latched (R51). -/
def Dev.convFrame (d : Dev) (e : ConvEnt) : ConvFrame :=
  match d.kiln.convs.find? (fun c => c.kid == e.kid && c.fbch == e.fbch) with
  | some c => c
  | none =>
    let x := signed 32 (encSigned 32 ((d.fbRt e.fbch).map (·.x) |>.getD 0))
    d.convLatch ⟨e.kid, e.fbch, if bitOf e.flags 1 then none else some x, 0, 0⟩

/-- The planner leaves IDLE at a model latch (R111, R112, R471): the start claim, the standby's role and the standstill
plan. -/
def Dev.leaveIdle (d : Dev) (m : Model) : Dev :=
  let first := d.get SLV_PRIMARY
  let w := if d.wallAvail first then first else 1 - first
  if !d.wallAvail w then d
  else
    let d := { d with kiln := { d.kiln with present := d.presence m } }
    let d := d.put SLV_PLSTATE (if d.is SRV_STOPBR then 4 else 1)
    let plan := d.standstill 0 0 d.now m
    let rx : Receiver := ⟨some plan, none, false⟩
    let d := { d with planner := { d.planner with servo := rx, chanA := rx, lastSeq := 0, lastToken := 0, counted := none,
                                                  exitRun := 0 } }
    let d := (d.put SLV_MISSC 0).claimToken w
    let d := if d.wallAvail (1 - w) then d.put (SLV_ROLE (1 - w)) (sbRole d.sbmode) else d
    (d.showNosb.openWindow none).setRunning

/-- An activation accepted in time is latched (R61): slots, chopper loops, conveyor frames, and the planner's start. -/
def Dev.modelLatch (d : Dev) : Dev :=
  if d.modelDue.isNone then d
  else
    let d := d.exchangeModels
    let d : Dev := match d.kiln.active with
      | none => d
      | some m => { d with kiln := { d.kiln with convs := m.convs.map d.convFrame } }
    let d := d.chopperLatch
    match d.kiln.active with
    | some m => if d.plState = 0 then d.leaveIdle m else d
    | none => d

/-- Limits accepted at least 20 µs ago take effect (R61, R75); their commands complete. The answer says whether any did. -/
def Dev.latchLimits (d : Dev) : Dev × Bool :=
  let due := d.kiln.limitsPend.filter (fun p => decide (p.2.1 + 20000 ≤ d.now))
  let rest := d.kiln.limitsPend.filter (fun p => !decide (p.2.1 + 20000 ≤ d.now))
  let d := { d with kiln := { d.kiln with limitsPend := rest } }
  let d := due.foldl (fun (d : Dev) p =>
    let f := p.2.2.2
    { d with kiln := { d.kiln with limits := updAt d.kiln.limits p.2.2.1 (fun o => limitsOf o f.sv f.sa f.sj f.st) } }) d
  ((due.map (·.1)).eraseDups.foldl (fun (d : Dev) id => d.finish id .ok) d, !due.isEmpty)

/-- One change of an arm's reference at the check point at time t (R365). -/
def Dev.applyChange (d : Dev) (m : Model) (t : Nat) (c : RefChange) : Dev :=
  let g := d.convRef m
  match c with
  | .append a segs => d.setRef ((d.armRef m a).append g t segs)
  | .flush arms tfrom cmd =>
    let as := (m.arms.map (·.armid)).filter (bitOf arms)
    let n := (as.map (fun a => (d.armRef m a).flushed t tfrom)).foldl (· + ·) 0
    let d := as.foldl (fun (d : Dev) a => d.setRef ((d.armRef m a).flush g t tfrom)) d
    d.complete cmd .ok n 0 0 0
  | .target a dur cmd pos =>
    let tend := t - 70000 + d.ts + dur * 1000000
    (d.setRef ((d.armRef m a).target g t tend pos)).complete cmd .ok 0 0 tend 0

/-- Segments whose end S has passed are retired; then the waiting changes are applied in order. -/
def Dev.latchRefs (d : Dev) (m : Model) : Dev :=
  let t := d.now
  let g := d.convRef m
  let d := (m.arms.map (·.armid)).foldl (fun (d : Dev) a => d.setRef ((d.armRef m a).retire g d.s)) d
  let cs := d.kiln.changes
  cs.foldl (fun (d : Dev) c => d.applyChange m t c) { d with kiln := { d.kiln with changes := [] } }

/-- A prepared GROUP_MOVE (R366): aborted where an arm of it is no longer present, applied 20 µs after its prepare. -/
def Dev.groupStep (d : Dev) (m : Model) (p : GroupPrep) : Dev :=
  let g := d.convRef m
  let gone := (p.segs.map (·.1)).filter (fun a => !d.armPresent m a)
  let drop := fun (d : Dev) =>
    { d with kiln := { d.kiln with group := d.kiln.group.filter (fun (x : GroupPrep) => x.cmd != p.cmd) } }
  if gone ≠ [] then (drop d).complete p.cmd .aborted 1 (maskOf gone) 0 0
  else if d.now < p.preparedAt + 20000 then d
  else
    let t := d.now
    let d := p.segs.foldl (fun (d : Dev) (x : Nat × List Seg) =>
      let r := d.armRef m x.1
      let r := if p.replace then r.flush g t p.tswitch else r
      d.setRef (if x.2.isEmpty then r else r.append g t x.2)) (drop d)
    d.complete p.cmd .ok 2 0 t 0

/-- Kinds of declared bound that a measured input of the stride exceeds (R57). -/
def Dev.boundsHit (d : Dev) (m : Model) (outside : List Nat) : List Nat :=
  let js := m.joints.filter (fun j => d.jointDelivers j)
  let trq := fun (gj : Nat) => ((d.fb? gj).map (·.trq)).getD 0
  let hit := fun (n : Nat) => match n with
    | 0 => js.any (fun j => let q := d.measQ j.gj
                            decide (q < j.qmin - j.qdevb) || decide (j.qmax + j.qdevb < q))
    | 1 => js.any (fun j => decide (j.vmeasb < (d.measV j.gj).natAbs))
    | 2 => js.any (fun j => decide (j.tmeasb < (trq j.gj).natAbs))
    | 3 => d.plState != 0 && js.any (fun j => decide (j.qdevb < (d.measQ j.gj - (d.planAt j.gj d.s).q).natAbs))
    | 4 => d.commons.tracks.any (fun t => outside.contains t.idx)
    | 5 => d.commons.tracks.any (fun t => match m.sensors.find? (fun s => s.sid == t.sid) with
        | some s => decide (s.vh ^ 2 < (t.vx ^ 2 + t.vy ^ 2 + t.vz ^ 2).natAbs) | none => false)
    | 6 => m.buses.any (fun b => decide ((b.vov : Int) < d.busMv b) || decide ((b.pmaxb : Int) < d.motorPower b))
    | _ => m.convs.any (fun c => match d.kiln.convs.find? (fun f => f.kid == c.kid) with
        | some f => decide (c.vconvb * 2 ^ 20 < f.speed.natAbs * c.scale) | none => false)
  (List.range 8).filter hit

def Dev.boundTest (d : Dev) (m : Model) (outside : List Nat) : Dev :=
  let ks := d.boundsHit m outside
  let d := ks.foldl (fun (d : Dev) k => (d.putB (KLN_BOUND k) true).bump (0x5120 + 4 * k)) d
  if ks.isEmpty then d else d.raise (srcNo 2 2) noDetail

/-! Squash or fold. -/

def Dev.qtol (d : Dev) : Nat := d.kiln.spectol % 65536
def Dev.vtol (d : Dev) : Nat := d.kiln.spectol / 65536

/-- Two tracks further apart than TRKTOL (R81). -/
def apart (tol : Nat) (a b : List Int) : Bool :=
  let dx := a.getD 0 0 - b.getD 0 0
  let dy := a.getD 1 0 - b.getD 1 0
  decide (tol ^ 2 < (dx ^ 2 + dy ^ 2).natAbs)

/-- Triggers of Table — Squash triggers, as a mask; `latched` says that a model, a limit, KNOTS or OBJW was. -/
def Dev.squashCauses (d : Dev) (m : Model) (u : UsedInputs) (latched : Bool) : Nat :=
  let js := d.planJoints m
  let now := d.trackInputs
  let ids := fun (l : List (Nat × List Int)) => l.map (fun (x : Nat × List Int) => x.1)
  let far := fun (q v : Int) => decide (d.qtol < q.natAbs) || decide (d.vtol < v.natAbs)
  let state := js.any (fun j => let k := d.planAt j.gj d.s
                                far (d.measQ j.gj - k.q) (d.measV j.gj - k.v))
  let plan := js.any (fun j => match u.x0.find? (fun x => x.1 == j.gj) with
    | some x => let k := d.planAt j.gj (d.s + d.ts)
                far (k.q - x.2.1) (k.v - x.2.2.1)
    | none => false)
  let set := ids u.tracks != ids now
  let move := now.any (fun x => u.tracks.any (fun y => x.1 == y.1 && apart d.kiln.trktol x.2 y.2))
  let com := u.grants != d.commons.holds.map (fun h => (h.cid, h.arm, h.st)) || u.retreats != d.commons.retreats
  let mode := u.mode != [d.plState == 2, d.mains.rt.isSome, d.is SRV_STOPBR] ||
    (d.mains.rt.isSome && u.budgets != (List.range 4).map (fun g => d.get (MNS_EG g)))
  let struct := u.tools != d.kiln.tools || u.present != d.kiln.present
  maskOf ((List.range 8).filter (fun n => [state, plan, set, move, com, mode, latched, struct].getD n false))

/-- A squash (R82). -/
def Dev.squash (d : Dev) (causes : Nat) : Dev :=
  let d := (d.put KLN_SQCAUSE (unionMask (d.get KLN_SQCAUSE) causes)).bump 0x5024
  ((d.raise (srcNo 2 0) noDetail).dropOld).startBuild d.s true

/-- A block of the problem of this stride saturated: every wall that holds the problem records the fault and abandons it (R58,
R93). -/
def Dev.probSat (d : Dev) (b : Nat × Nat) : Dev :=
  match d.kiln.prob with
  | none => d
  | some p =>
    let d := { d with kiln := { d.kiln with prob := some { p with bad := some (p.bad.getD b) } } }
    [0, 1].foldl (fun (d : Dev) w =>
      if (d.wall w).ran && (d.wall w).problem.any (fun (q : Problem) => q.s == p.s && q.bad.isNone) then d.wallSat w b
      else d.updW w (fun x => { x with problem := x.problem.map (fun (q : Problem) =>
        if q.s = p.s then { q with bad := some (q.bad.getD b) } else q) })) d

/-- The fold (R81, R96): at once for a wall between iterations of none, else at the next iteration boundary. A block that
saturates in it abandons the problem. -/
def Dev.fold (d : Dev) (m : Model) (used : List (Nat × List Int)) : Dev :=
  match d.kiln.prob with
  | none => d
  | some p0 =>
    let p := d.foldProblem m p0 used
    if p0.bad.isNone && p.bad.isSome then d.probSat (p.bad.getD (0, 0))
    else
    let d := { d with kiln := { d.kiln with prob := some p } }
    [0, 1].foldl (fun (d : Dev) w =>
      if (d.wall w).problem.any (fun (q : Problem) => q.s == p.s) then
        if d.atWork w then d.updW w (fun x => { x with foldDue := some p })
        else d.updW w (fun x => { x with problem := some p, folded := true })
      else d) d

/-- The problem of the stride at its check point: assembled, rebuilt or folded (R81 to R85). -/
def Dev.checkProblem (d : Dev) (m : Model) (idle latched : Bool) : Dev :=
  -- an assembly at the check point, the first of a planner that leaves IDLE included (R85)
  if idle || d.kiln.ctrl % 2 == 0 then (d.latchKiln.dropOld).turnNormals.startBuild d.s false
  else
    match d.kiln.used with
    | none => if d.canBuild then (d.dropOld).startBuild d.s true else d
    | some u =>
      -- the slot cannot be read: the stride waits for it as a rebuild (R64)
      if !d.canBuild then (d.dropOld).startBuild d.s true
      else
        let c := d.squashCauses m u latched
        if c ≠ 0 then d.squash c else d.fold m u.tracks

/-- CHECK_POINT at S + 70 µs. `outside` names the tracks that lie outside the cell extent Colbond derived (R57). -/
def execCheckPoint (outside : List Nat) (s : State) : Out :=
  s.run (fun d =>
    if !d.up then d
    else
      let d := d.reach (d.s + 70000)
      let idle := d.plState == 0
      let activated := d.modelDue.isSome
      let d := d.modelLatch
      let lim := d.latchLimits
      let d := lim.1
      let latched := activated || lim.2 || d.kiln.written
      let d := { d with kiln := { d.kiln with knots := (d.reg 0x5010).toNat, objw := (d.reg 0x5014).toNat, written := false } }
      match d.kiln.active with
      | none => d.hibCheck
      | some m =>
        let d := d.latchRefs m
        let d := d.kiln.group.foldl (fun (d : Dev) p => d.groupStep m p) d
        let d := { d with kiln := { d.kiln with present := d.presence m } }
        let d := d.boundTest m outside
        if d.plState = 0 then d.hibCheck
        else
          let d := d.checkProblem m idle latched
          -- a saturation of the pipes at the latch (R58, R79)
          (match d.kiln.latchSat with | some b => d.probSat b | none => d).hibCheck)

end Sys2Proof.Machine
end

