-- ==== Sys2Proof/Machine/HeathSched.lean ====
section
/-! DEFINITION. Heathline frame times (R264, R267), the schedule blob and its checks (R268, R273, R274). -/

namespace Sys2Proof.Machine

/-! Times, in ns from the beat instant. -/

/-- F(n) of R264. -/
def frameTime (n : Nat) : Nat := 8 * (38 + max 46 (20 + n))

def SlotEnt.pollLen (s : SlotEnt) : Nat := 12 * s.nax + s.paux
def SlotEnt.respLen (s : SlotEnt) : Nat := 24 * s.nax + 32 * s.nsafe + s.raux
def SlotEnt.fp (s : SlotEnt) : Nat := frameTime s.pollLen
def SlotEnt.fr (s : SlotEnt) : Nat := frameTime s.respLen

/-- End of a slot on the transmit side: TPOLL + L. -/
def SlotEnt.slotEnd (s : SlotEnt) : Nat := s.tpoll + s.fp + 800 + s.fr + 80

/-- First bit a response may have, and E_i (R267). -/
def windowOpen (s : SlotEnt) (a : AddrEnt) : Nat := s.tpoll + s.fp + 760 + a.rtdMin
def windowEnd (s : SlotEnt) (a : AddrEnt) : Nat := s.tpoll + s.fp + 840 + a.rtdMax + s.fr

def PortSched.entry? (p : PortSched) (a : Nat) : Option AddrEnt := p.entries.find? (fun e => e.laddr == a)
def PortSched.entryOf (p : PortSched) (a : Nat) : AddrEnt := (p.entry? a).getD ⟨a, 0, 0, 0, 0, 0⟩
def PortSched.windowEnd (p : PortSched) (s : SlotEnt) : Nat := Machine.windowEnd s (p.entryOf s.laddr)

/-- Start of BEAT_END in a mode (R268). -/
def PortSched.beatEnd (p : PortSched) (slots : List SlotEnt) : Nat :=
  match slots.getLast? with
  | some s => max s.slotEnd (p.windowEnd s + 80)
  | none => 832

/-- Slots of a node over all modes, with the mode of each. -/
def PortSched.slotsOf (p : PortSched) (a : Nat) : List (Nat × SlotEnt) :=
  p.modes.zipIdx.flatMap (fun (m : List SlotEnt × Nat) => (m.1.filter (fun s => s.laddr == a)).map (fun s => (m.2, s)))

/-! Parsing. -/

def parseAddr (b : List Byte) : AddrEnt :=
  ⟨uAt b 0 1, uAt b 2 2, uAt b 4 4, uAt b 8 4, uAt b 0xC 2, uAt b 0xE 2⟩

def parseSlot (b : List Byte) : SlotEnt :=
  ⟨uAt b 0 1, uAt b 1 1, uAt b 2 1, uAt b 3 1, uAt b 4 1, uAt b 5 1, bitOf (uAt b 6 1) 0, uAt b 8 4⟩

/-- Reserved bytes of an address entry and of a slot entry are 0. -/
def addrRsv (b : List Byte) : Bool := zeroAt b 1 1
def slotRsv (b : List Byte) : Bool := decide (uAt b 6 1 < 2) && zeroAt b 7 1 && zeroAt b 0xC 4

/-- Offsets of the modes of a section: header offset and slot count of each, and the end of the last. -/
def modeOffsets (b : List Byte) : Nat → Nat → List (Nat × Nat) × Nat
  | 0, off => ([], off)
  | n + 1, off =>
    let c := uAt b off 1
    let r := modeOffsets b n (off + 16 + 16 * c)
    ((off, c) :: r.1, r.2)

/-- The modes of a section. -/
def sectionModes (b : List Byte) : List (Nat × Nat) := (modeOffsets b (min (uAt b 1 1) 8) (16 + 16 * uAt b 0 1)).1

def slotBytes (b : List Byte) (m : Nat × Nat) : List (List Byte) := (List.range m.2).map (fun i => bytesAt b (m.1 + 16 + 16 * i) 16)
def addrBytes (b : List Byte) : List (List Byte) := (List.range (uAt b 0 1)).map (fun i => bytesAt b (16 + 16 * i) 16)

def parseSection (b : List Byte) : PortSched :=
  { entries := (addrBytes b).map parseAddr, modes := (sectionModes b).map (fun m => (slotBytes b m).map parseSlot),
    defmode := uAt b 2 1, btm := uAt b 3 1 }

/-! Checks. -/

/-- A mode meets R268 at a beat of `tb` ns. -/
def PortSched.modeTimes (p : PortSched) (tb : Nat) (slots : List SlotEnt) : Bool :=
  (match slots.head? with | some s => decide (832 ≤ s.tpoll) | none => false) &&
  (slots.zip (slots.drop 1)).all (fun (x : SlotEnt × SlotEnt) =>
    decide (x.1.slotEnd ≤ x.2.tpoll) &&
      decide (p.windowEnd x.1 + 80 ≤ windowOpen x.2 (p.entryOf x.2.laddr))) &&
  decide (p.beatEnd slots + 45000 ≤ tb) &&
  slots.all (fun s => !s.plan || decide (p.windowEnd s + 500 ≤ 60000))

/-- The contents of a mode: numbering, addresses, counts, payloads and slots per node (R273, R274). -/
def PortSched.modeOk (p : PortSched) (slots : List SlotEnt) : Bool :=
  slots.zipIdx.all (fun (x : SlotEnt × Nat) =>
    x.1.slot == x.2 && (p.entry? x.1.laddr).isSome && decide (x.1.nax ≤ 8) && decide (x.1.nsafe ≤ 8) &&
      decide (x.1.pollLen ≤ 256) && decide (x.1.respLen ≤ 256)) &&
  p.entries.all (fun e => decide ((slots.filter (fun s => s.laddr == e.laddr)).length ≤ 4))

/-- A section is well formed (R273, R274); `len` is the length the header gives it. -/
def sectionOk (b : List Byte) (len tb : Nat) : Bool :=
  let p := parseSection b
  decide (1 ≤ uAt b 0 1) && decide (uAt b 0 1 ≤ 24) && decide (1 ≤ uAt b 1 1) && decide (uAt b 1 1 ≤ 8) && zeroAt b 4 12 &&
  (modeOffsets b (min (uAt b 1 1) 8) (16 + 16 * uAt b 0 1)).2 == len &&
  (addrBytes b).all addrRsv &&
  (sectionModes b).all (fun m => decide (1 ≤ m.2) && decide (m.2 ≤ 128) && zeroAt b (m.1 + 1) 15 && (slotBytes b m).all slotRsv) &&
  decide (p.defmode < uAt b 1 1) && (p.btm == 0 || (p.entry? p.btm).isSome) &&
  p.entries.all (fun e =>
    decide (1 ≤ e.laddr) && decide (e.laddr ≤ 96) && e.station != 0 && e.station != 0xFFFF && decide (e.rtdMin ≤ e.rtdMax) &&
    (p.entries.filter (fun f => f.station == e.station)).length == 1 && decide ((p.slotsOf e.laddr).length ≤ 31)) &&
  p.modes.all (fun m => p.modeOk m && p.modeTimes (beatNs tb) m)

def portSec (b : List Byte) (p : Nat) : Nat × Nat := (uAt b (0x18 + 8 * p) 4, uAt b (0x1C + 8 * p) 4)
def secBytes (b : List Byte) (p : Nat) : List Byte := bytesAt b (portSec b p).1 (portSec b p).2

/-- The header: MAGIC, FORMAT, HDRSIZE, SIZE, CRC, TB, reserved fields, and sections inside the blob (R273, R274). -/
def schedHeadOk (b : List Byte) (len tb : Nat) : Bool :=
  uAt b 0 4 == 0x4C544853 && uAt b 4 2 == 0x0104 && uAt b 6 2 == 0x40 && uAt b 8 4 == len && b.length == len &&
  decide (len ≤ 65536) && crc32c (b.drop 16) == uAt b 0x0C 4 && uAt b 0x14 1 == tb && decide (uAt b 0x15 1 < 16) &&
  zeroAt b 0x16 2 && zeroAt b 0x38 8 &&
  (List.range 4).all (fun p =>
    if bitOf (uAt b 0x15 1) p then decide (64 ≤ (portSec b p).1) && decide ((portSec b p).1 + (portSec b p).2 ≤ len)
    else portSec b p == (0, 0))

/-- The ports of a blob. -/
def schedPorts (b : List Byte) : List Nat := bitsOf (uAt b 0x15 1) 4

/-- The part bitmap of R274, 0 for a blob without fault. -/
def checkSched (b : List Byte) (len tb : Nat) : Nat :=
  if !schedHeadOk b len tb then 0x8000
  else
    let ps := schedPorts b
    let bad := ps.filter (fun p => !sectionOk (secBytes b p) (portSec b p).2 tb)
    let addrs := ps.flatMap (fun p => ((parseSection (secBytes b p)).entries).map (fun e => (p, e.laddr)))
    let dup := (addrs.filter (fun (x : Nat × Nat) => decide (1 < (addrs.filter (fun (y : Nat × Nat) => y.2 == x.2)).length))).map (·.1)
    maskOf (bad ++ dup)

def parseSched (b : List Byte) : Sched :=
  { schedid := uAt b 0x10 4, crc := uAt b 0x0C 4, tb := uAt b 0x14 1,
    ports := (List.range 4).map (fun p => if bitOf (uAt b 0x15 1) p then some (parseSection (secBytes b p)) else none) }

end Sys2Proof.Machine
end

