-- ==== Sys2Proof/Machine/Commit.lean ====
section
/-! DEFINITION. The deadline, the commit and the hand-over of plans: SOLVE_DEADLINE, COMMIT_POINT, COMMIT_RECORD_RECEIVE,
COMMIT_WATCH_EXPIRY, WALL_GIVE_UP, DUAL_ACT_WINDOW_CLOSE and the plan side of a stride boundary (R24, R84, R109, R113 to R138). -/

namespace Sys2Proof.Machine

/-! The deadline. -/

/-- The problem of this stride as the Kiln left it: final epoch, delivered, rebuilt. -/
def Dev.finalProblem (d : Dev) : Nat × Bool × Bool :=
  d.kiln.last.getD (d.get KLN_EPOCH, d.kiln.delivered, d.kiln.rebuilding)

/-- OUTCOME of a running wall (Table — Solve record). -/
def WallSt.outcome (x : WallSt) : Nat :=
  if x.abandoned ≠ 0 then 3 else if x.converged then 0 else if x.capped then 1 else 2

/-- What later problems are warm-started from. -/
def Problem.solution (p : Problem) (y : List Int) : Sol :=
  ⟨0, p.joints, p.eX, (p.rows.zip y).map (fun (r : Row × Int) => (r.1.ident, r.1.eY, r.2))⟩

/-- Selection at the deadline (R114): kind, plan and warm-start source. -/
def WallSt.select (x : WallSt) (w s epoch : Nat) : Nat × Option Plan × Option Sol :=
  match x.problem with
  | none => (2, none, none)
  | some p =>
    if x.abandoned ≠ 0 ∨ p.s ≠ s ∨ p.epoch ≠ epoch ∨ x.finalIters = 0 then (2, none, none)
    else if x.converged then
      let viol := match p.residuals x.cur with | .ok r => r.2.2 | .error _ => 0
      (0, some (p.plan w 0 viol x.cur.x), some (p.solution x.cur.y))
    else
      match x.best with
      | some b => if b.2.1 ≤ 2 ^ (30 - x.cfg.tolv) then (1, some (p.plan w 1 b.2.1 b.1.x), some (p.solution b.1.y)) else (2, none, none)
      | none => (2, none, none)

/-- The solve record of a running wall (Table — Solve record). BESTIT is 0 where no best iterate is held, PRIMRES and DUALRES
where no iteration is complete (DESIGN CHOICE: the table gives no value). -/
def WallSt.recordBytes (x : WallSt) (w s epoch : Nat) : List Byte :=
  let bit := fun (b : Bool) (n : Nat) => if b then 2 ^ n else 0
  let p := x.problem
  let cold := p.any (·.cold)
  let flags := bit cold 0 + bit x.best.isSome 1 + bit x.brkFlag 2 + bit x.qovfFlag 3 + bit x.pcdiagFlag 4 + bit x.pivFlag 5 +
    bit x.sat.isSome 6 + bit (x.resmisn != 0) 7 + bit x.parityFlag 8 + bit x.rhoclamp 9
  let cap := fun (n v : Nat) => min v (2 ^ n - 1)
  leBytes 8 s ++ leBytes 2 epoch ++ leBytes 1 w ++ leBytes 1 x.outcome ++ leBytes 2 flags ++ leBytes 1 (encSigned 8 x.r) ++
  leBytes 1 x.abandoned ++ leBytes 2 x.iters ++ leBytes 2 x.innerN ++ leBytes 4 (x.tconv.getD 0xFFFFFFFF) ++ leBytes 4 x.prim ++
  leBytes 4 x.dual ++ leBytes 4 ((x.best.map (·.2.1)).getD 0xFFFFFFFF) ++ leBytes 2 ((x.best.map (·.2.2)).getD 0) ++
  leBytes 2 (cap 16 x.pivf) ++ leBytes 2 x.pcdiagn ++ leBytes 2 x.brkn ++ leBytes 1 (cap 8 x.qovfn) ++ leBytes 1 (cap 8 x.resmisn) ++
  leBytes 1 ((x.sat.map (·.1)).getD 0xFF) ++ leBytes 1 0 ++ leBytes 2 ((x.sat.map (·.2)).getD 0xFFFF) ++
  leBytes 2 ((p.map (fun p => p.count [1, 2, 3, 4, 5, 6])).getD 0) ++ leBytes 4 ((p.map (·.nnz)).getD 0) ++
  leBytes 2 ((p.map (·.matchPm)).getD 0) ++ leBytes 6 0

/-- The record of a warm standby in a stride it does not solve: NOT_RUN, every other count 0, and nothing to name in TCONV,
BESTVIOL, SATKIND and SATIDX. -/
def notRunRecord (w s epoch : Nat) : List Byte :=
  leBytes 8 s ++ leBytes 2 epoch ++ leBytes 1 w ++ leBytes 1 4 ++ leBytes 8 0 ++ leBytes 4 0xFFFFFFFF ++ leBytes 8 0 ++
  leBytes 4 0xFFFFFFFF ++ leBytes 10 0 ++ leBytes 1 0xFF ++ leBytes 1 0 ++ leBytes 2 0xFFFF ++ leBytes 14 0

/-- The deadline of one wall (R97, R114, R132, R133). -/
def Dev.deadlineOf (d : Dev) (w : Nat) : Dev :=
  if d.role w = 0 then d
  else
    let x := d.wall w
    let fin := d.finalProblem
    if !x.ran && !d.runsProblem w d.s then
      d.updW w (fun x => { x with cand := none, sol := none, solveRec := some (notRunRecord w d.s fin.1) })
    else
      let epoch := (x.problem.map (·.epoch)).getD fin.1
      let c := if fin.2.1 then x.select w d.s fin.1 else (2, none, none)
      let d := d.updW w (fun x => { x with
        cand := some (c.1, c.2.1), sol := c.2.2, solveRec := some (x.recordBytes w d.s epoch), carried := x.r })
      -- epoch agreement (Table — Self-diagnosis)
      if fin.2.1 && (x.problem.map (·.epoch)) != some fin.1 then d.giveUp w else d

/-- After the deadline the wall goes on to the problem of the next stride, if its blocks are there (R22). -/
def Dev.nextProblem (d : Dev) (w : Nat) : Dev :=
  if d.role w = 0 then d
  else
    let nx := (d.wall w).next
    let d := d.updW w (fun x => { x.fresh with problem := none, next := none, iterating := false, ran := false, folded := false,
                                               claimed := false })
    let d := d.put (SLV_PHASE w) 5
    match nx with
    | none => d
    | some p => if d.runsProblem w p.s then d.startProblem w p false false else d.updW w (fun x => { x with problem := some p })

/-- The problem of the next stride, assembled ahead, takes its warm start from the plan now selected (R86), at the Kiln and at the
walls that hold it. -/
def Dev.mapNext (d : Dev) : Dev :=
  match d.kiln.active, d.kiln.prob with
  | some m, some p =>
    if p.s = d.s then d
    else
      let d := d.mapWarm m
      [0, 1].foldl (fun (d : Dev) w => d.updW w (fun x => { x with next := if x.next.isSome then d.kiln.prob else none })) d
  | _, _ => d

/-- SOLVE_DEADLINE at S + T_s − D. -/
def execSolveDeadline (s : State) : Out :=
  s.run (fun d =>
    if !d.up || d.plState == 0 then d
    else
      let d := d.reach (d.s + d.ts - d.leadD)
      let fin := d.finalProblem
      let d := if !fin.2.1 && fin.2.2 then (d.putB (KLN_TRUNC 4) true).raise (srcNo 2 5) noDetail else d
      let d := [0, 1].foldl (fun (d : Dev) w => d.deadlineOf w) d
      let d := { d with planner := { d.planner with phase := 1 }, kiln := { d.kiln with last := none } }
      let d := d.mapNext
      [0, 1].foldl (fun (d : Dev) w => d.nextProblem w) d)

/-! The commit point. -/

/-- The solve records are written: SOLVE_DONE, LASTOUT and telemetry stream 1 (R109). -/
def Dev.writeSolveRecords (d : Dev) : Dev :=
  let recs := [0, 1].filterMap (fun w => ((d.wall w).solveRec).map (fun b => (w, b)))
  let d := recs.foldl (fun (d : Dev) (r : Nat × List Byte) =>
    ((d.put (SLV_LASTOUT r.1) (uAt r.2 0x0B 1)).raiseW r.1 0).updW r.1 (fun x => { x with solveRec := none })) d
  if recs.isEmpty then d else d.offer 1 d.s recs

/-- The commit-point checks of a wall (Table — Self-diagnosis): token, and the read-back of its buffer. -/
def Dev.commitChecks (d : Dev) (w : Nat) (badRead : Bool) : Dev :=
  if d.role w = 0 then d
  else if d.role w = 1 && (d.wall w).token != d.get SLV_AUTH then d.giveUp w
  else if badRead || !d.chkWorks 10 then (d.chkMiss 10).giveUp w
  else d

/-- COMMIT_POINT at S + T_s − C. `badA`, `badB`: the read-back of the wall's commit buffer finds an error; `silent`: the active
wall makes no transfer now. -/
def execCommitPoint (badA badB silent : Bool) (s : State) : Out :=
  s.run (fun d =>
    if !d.up || d.plState == 0 then d
    else
      let d := d.reach (d.s + d.ts - d.leadC)
      let rx := fun (r : Receiver) => { r with accepted := false }
      let d := { d with planner := { d.planner with servo := rx d.planner.servo, chanA := rx d.planner.chanA } }
      let d := d.writeSolveRecords
      let a := d.active?
      let bad := fun (w : Nat) => if w = 0 then badA else badB
      -- the standby's checks first: they decide who may take over
      let others := [0, 1].filter (fun w => a != some w)
      let d := others.foldl (fun (d : Dev) w => d.commitChecks w (bad w)) d
      let d : Dev := { d with planner := { d.planner with phase := 2 } }
      match a with
      | none => d
      | some w =>
        let d := d.commitChecks w (bad w)
        if d.active? != some w then d
        else if silent then d.prepare w
        else d.commitBy w)

/-! The receivers. -/

def Dev.rx (d : Dev) (chanA : Bool) : Receiver := if chanA then d.planner.chanA else d.planner.servo
def Dev.updRx (d : Dev) (chanA : Bool) (f : Receiver → Receiver) : Dev :=
  if chanA then { d with planner := { d.planner with chanA := f d.planner.chanA } }
  else { d with planner := { d.planner with servo := f d.planner.servo } }

/-- The record of a wall counts once as rejected, once as stale (R124). -/
def Dev.countReject (d : Dev) (w : Nat) : Dev :=
  if (d.wall w).rejCounted then d else (d.updW w (fun x => { x with rejCounted := true })).bump 0x5440
def Dev.countStale (d : Dev) (w : Nat) : Dev :=
  if (d.wall w).staleCounted then d else (d.updW w (fun x => { x with staleCounted := true })).bump 0x5444

/-- R126: the state a record gives for T0 against that of the plan in force. -/
def Dev.consistent (d : Dev) (inf p : Plan) : Bool :=
  p.kind == 3 || p.joints.all (fun j =>
    match inf.eval j.gj (p.t0 - inf.tsolved), p.eval j.gj (p.t0 - p.tsolved) with
    | some a, some b =>
      decide ((a.q - b.q).natAbs ≤ d.get SLV_CQTOL) && decide ((a.v - b.v).natAbs ≤ d.get SLV_CVTOL)
    | _, _ => true)

/-- A missed commit of the active wall (R134, R137): the standby claims. Inside the recovery window there is none. -/
def Dev.missedCommit (d : Dev) (former : Nat) (observes : Bool) : Dev :=
  match d.standby? with
  | none => d
  | some x =>
    let d := d.takeOver x (some former)
    if observes then d.superseded former else d

/-- A receiver reports a rejection of the active wall's record (R124, R137). -/
def Dev.rejected (d : Dev) (w : Nat) : Dev :=
  if !d.planning || d.active? != some w || d.planner.phase != 2 || d.planner.stopReq then d
  else if d.planner.recov.isSome then d.planStop
  else d.missedCommit w true

/-- The servo wall shows the record it accepted, and offers its header to telemetry stream 4. -/
def Dev.showCommit (d : Dev) (p : Plan) : Dev :=
  let d := d.put SLV_CMTSEQ p.seq
  let d := d.setReg 0x5420 (BitVec.ofNat 32 (p.kind + p.shifts * 2 ^ 8 + p.wall * 2 ^ 16 + p.flags * 2 ^ 24))
  d.offer 4 d.now [(0, p.bytes.take 64)]

/-- Is the slot's record kept against a newcomer (R24)? The newcomer must have the newer token, or the same token and a newer
SEQ. -/
def slotKeeps (old new : Plan) : Bool :=
  if old.token = new.token then !newer 32 new.seq old.seq else !newer 16 new.token old.token

/-- A complete record at a receiver (R24, R124, R126, R127). -/
def Dev.receiveRecord (d : Dev) (chanA : Bool) (w : Nat) (p : Plan) (intact : Bool) : Dev :=
  let r := d.rx chanA
  match r.inForce with
  | none => d
  | some inf =>
    if !intact || !d.chkWorks 11 then ((d.chkMiss 11).countReject w).rejected w
    else if p.token ≠ inf.token && !newer 16 p.token inf.token then d.countStale w
    else
      let refuse := match r.slot with | some q => slotKeeps q p | none => false
      if refuse then (match r.slot with | some q => if q.token = p.token then d else d.countStale w | none => d)
      else if !d.consistent inf p then (d.countReject w).rejected w
      else
        let d := match r.slot with
          | some q => if q.token = p.token then d else d.countStale q.wall
          | none => d
        let d := d.updRx chanA (fun r => { r with slot := some p, accepted := r.accepted || p.token == d.get SLV_AUTH })
        if chanA then d else d.showCommit p

/-- COMMIT_RECORD_RECEIVE: the last transfer of wall w's record reaches the servo wall or channel A. -/
def execCommitRecordReceive (chanA : Bool) (w : Fin 2) (intact : Bool) (s : State) : Out :=
  s.run (fun d =>
    let w := w.val
    match (d.wall w).record with
    | none => d
    | some p =>
      if !d.up then d
      else if (d.wall w).portClosed then
        -- the mortar discards every transfer of the record (R125, R402)
        d.bumpN 0x543C ((p.bytes.length + 4095) / 4096) |>.updW w (fun x => { x with record := none }) |>.superseded w
      else
        let d := d.account w
        let p := ((d.wall w).record).getD p
        let d := if d.planning && d.planner.restart.isNone then d.receiveRecord chanA w p intact else d
        d.superseded w)

/-- COMMIT_WATCH_EXPIRY: WATCH after the commit point. In STOPPING and STOPPED every commit is discarded, and the missed commit
leads to no claim (DESIGN CHOICE: R129 and R134 leave it open). `begun`: some but not all transfers of the active wall's record have
arrived; `observes`: the active wall can read the authority register. -/
def execCommitWatchExpiry (begun observes : Bool) (s : State) : Out :=
  s.run (fun d =>
    if !d.up || d.planner.phase != 2 || !d.planning || d.planner.restart.isSome then d
    else
      let d := d.reach (d.s + d.ts - d.leadC + d.watch)
      if d.planner.servo.accepted && d.planner.chanA.accepted then d
      else
        match d.active? with
        | none => d
        | some a =>
          let d := if begun then (d.countReject a).updW a (fun x => { x with record := none, held := false }) else d
          if d.planner.recov.isSome then (if begun && !d.planner.stopReq then d.planStop else d)
          else d.missedCommit a observes)

/-- WALL_GIVE_UP. -/
def execWallGiveUp (w : Fin 2) (s : State) : Out := s.run (fun d => if d.up then d.giveUp w.val else d)

/-- DUAL_ACT_WINDOW_CLOSE: the former active wall's commit port closes (R125). -/
def execDualActWindowClose (s : State) : Out :=
  s.run (fun d =>
    match d.planner.window with
    | none => d
    | some (t, former) =>
      if !d.up then d
      else
        let d := ({ d with planner := { d.planner with window := none } }.reach (t + 250000)).putB SLV_WINDOW false
        match former with
        | some f => if d.active? = some f then d else d.updW f (fun x => { x with portClosed := true })
        | none => d)

/-! The stride boundary. -/

/-- The servo wall enters the stop branch at t (R128), or stays on the one it is on: STOPBR, STOPPING, the pending slots discarded; axes that follow a
planner stop are stopped (R337). -/
def Dev.enterStop (d : Dev) (t : Nat) : Dev :=
  let rx := fun (r : Receiver) => { r with slot := none }
  let d := { d with planner := { d.planner with te := some (d.planner.te.getD t), stopReq := false, exitRun := 0, restart := none,
                                                -- a further request in STOPPING leaves the run of beats at standstill alone
                                                standBeats := if d.plState = 3 then d.planner.standBeats else 0,
                                                servo := rx d.planner.servo, chanA := rx d.planner.chanA } }
  let d := d.putB SRV_STOPBR true
  let d := if d.plState = 0 ∨ d.plState = 4 then d else d.put SLV_PLSTATE 3
  d.stopAxes 0

/-- A plan comes into force in the servo wall: the joints it lists leave their hold reference (R145). -/
def Dev.takePlan (d : Dev) (p : Plan) : Dev :=
  let d := d.updRx false (fun r => { r with inForce := some p, slot := none })
  { d with servo := { d.servo with joints := d.servo.joints.map (fun (j : JointRt) =>
      if p.has j.gj then { j with hold := none } else j) } }

/-- The plan in force shifted by one stride in place (R24, R117). -/
def Plan.shifted (p : Plan) (ts : Nat) : Plan := { p with t0 := p.t0 + ts, shifts := min 255 (p.shifts + 1) }

/-- A plan of the claiming wall counts for the recovery window (R136). -/
def Dev.countRecov (d : Dev) (p : Plan) : Dev :=
  match d.planner.recov with
  | some (w, n) =>
    if p.token ≠ (d.wall w).token ∨ p.kind = 3 then d
    else if n + 1 < 2 then { d with planner := { d.planner with recov := some (w, n + 1) } }
    else { d with planner := { d.planner with recov := none } }.putB SLV_RECOV false
  | none => d

/-- Channel A follows the same rule at the boundary on its own copy (R127). -/
def Receiver.boundary (r : Receiver) (ts : Nat) : Receiver :=
  match r.slot with
  | some p => { r with inForce := some p, slot := none }
  | none => { r with inForce := r.inForce.map (fun p => p.shifted ts) }

/-- The boundary of a planner that runs (R24, R117, R118, R123, R128, R137). -/
def Dev.boundaryRun (d : Dev) : Dev :=
  let slot := d.planner.servo.slot
  let d := d.updRx true (fun r => r.boundary d.ts)
  match slot with
  | some p =>
    let d := (d.takePlan p).countRecov p
    if bitOf p.flags 1 then d.enterStop p.t0 else d
  | none =>
    let d := d.updRx false (fun r => { r with inForce := r.inForce.map (fun p => p.shifted d.ts) })
    let r := (d.bump 0x5448).strideMiss
    let d := r.1
    if d.planner.recov.isSome then d.planStop else if r.2 then d.planStop else d

/-- The restart plan comes into force (R131). -/
def Dev.boundaryRestart (d : Dev) (p : Plan) : Dev :=
  let d := d.takePlan p
  let d := d.updRx true (fun r => { r with inForce := some p, slot := none })
  { d with planner := { d.planner with restart := none, te := none } }.putB SRV_STOPBR false

/-- Roles at a boundary (R132, R135): a wall that is available and does not hold the active role takes the standby's. -/
def Dev.boundaryRoles (d : Dev) : Dev :=
  if d.plState = 0 then d
  else
    let r := sbRole d.sbmode
    ([0, 1].foldl (fun (d : Dev) w =>
      if d.role w = 1 || !d.wallAvail w || d.role w = r then d
      else
        let d := d.put (SLV_ROLE w) r
        if r = 0 then (d.updW w (fun x => x.drop)).put (SLV_PHASE w) 0 else d) d).showNosb

/-- Courses whose brick was retired use their spare from this stride; mismatch counts start anew (R106). -/
def Dev.boundaryCourses (d : Dev) : Dev :=
  [0, 1].foldl (fun (d : Dev) w =>
    let d := d.updW w (fun x => { x with mismatches := [] })
    (List.range 8).foldl (fun (d : Dev) c => if d.get (SLV_CSTATE w c) = 2 then d.put (SLV_CSTATE w c) 1 else d) d) d

/-- The plan side of a stride boundary. -/
def Dev.planBoundary (d : Dev) : Dev :=
  let d := d.boundaryCourses
  let d := { d with planner := { d.planner with phase := 0, timing := (d.reg 0x5400).toNat, redun := (d.reg 0x5404).toNat },
                    kiln := { d.kiln with truncSeen := false } }
  let d : Dev := match d.planner.restart with
    | some p => if d.plState = 1 then d.boundaryRestart p else d
    | none => if d.planning then d.boundaryRun else d
  { d with planner := { d.planner with counted := none } }.boundaryRoles.latchBeat

end Sys2Proof.Machine
end

