-- ==== Sys2Proof/Machine/Servo.lean ====
section
/-! DEFINITION. Servo containers (R140, R148, R149, R180 to R183), the servo points of a beat (R28, R154), condition monitoring
(R158 to R160) and the rejoin of an engine (R157). -/

namespace Sys2Proof.Machine

/-! The container (R180). -/

/-- Does a part of the container lie inside it? -/
def partIn (b : List Byte) (off len : Nat) : Bool := decide (64 ≤ off) && decide (off + len ≤ b.length)

/-- The header: MAGIC, FORMAT, HDRSIZE, SIZE, CRC, the counts, the reserved bytes and the offsets. -/
def srvHeadOk (b : List Byte) (len : Nat) : Bool :=
  uAt b 0 4 == 0x53565250 && uAt b 4 2 == 0x0107 && uAt b 6 2 == 0x40 && uAt b 8 4 == len && b.length == len &&
  decide (len ≤ 262144) && crc32c (b.drop 16) == uAt b 0x0C 4 &&
  decide (1 ≤ uAt b 0x14 1) && decide (uAt b 0x14 1 ≤ 60) && decide (uAt b 0x15 1 ≤ 8) && zeroAt b 0x16 2 && zeroAt b 0x28 24 &&
  partIn b (uAt b 0x18 4) (256 * uAt b 0x14 1) && partIn b (uAt b 0x1C 4) 64 &&
  (uAt b 0x15 1 == 0 || partIn b (uAt b 0x20 4) (32 * uAt b 0x15 1)) && partIn b (uAt b 0x24 4) (256 * uAt b 0x14 1)

/-- The binding byte of a joint. -/
def bindByte (b : List Byte) (gj : Nat) : Nat := uAt b (uAt b 0x1C 4 + gj) 1

/-- The parameter entries with their user blocks. -/
def srvEntries (b : List Byte) : List ServoEnt :=
  (List.range (uAt b 0x14 1)).map (fun i =>
    let e := bytesAt b (uAt b 0x18 4 + 256 * i) 256
    ⟨uAt e 0 1, e, bytesAt b (uAt b 0x24 4 + 256 * i) 256, bindByte b (uAt e 0 1)⟩)

/-- `n` words at an offset. -/
def wordsAt (b : List Byte) (off n : Nat) : List Word := (List.range n).map (fun i => BitVec.ofNat 32 (uAt b (off + 4 * i) 4))

/-- Entry i of the program directory. -/
def dirEntry (b : List Byte) (i : Nat) : List Byte := bytesAt b (uAt b 0x20 4 + 32 * i) 32

def parseProg (b e : List Byte) : Prog :=
  let u := uAt e
  let o := u 0x18 4
  { id := u 0 1, base := bitOf (u 1 1) 0, nstate := u 2 1, cmoff := u 4 2, cmlen := u 6 2, woff := u 8 2, wlen := u 0xA 2,
    eoff := u 0xC 2, elen := u 0xE 2, entry := u 0x10 2, beatent := u 0x12 2, cost := u 0x14 2,
    cm := wordsAt b o (u 6 2), wm := wordsAt b (o + 4 * u 6 2) (u 0xA 2),
    em := wordsAt b (o + 4 * (u 6 2 + u 0xA 2)) (u 0xE 2) }

def srvProgs (b : List Byte) : List Prog := (List.range (uAt b 0x15 1)).map (fun i => parseProg b (dirEntry b i))

/-! Checks. -/

/-- The ranges of Table — Servo parameter entry (R148); the Q1.23 limits are judged on the whole s32. -/
def ServoEnt.ok (s : ServoEnt) (tb : Nat) : Bool :=
  let pin := s.u 3 1
  let rng := fun (v lo hi : Int) => decide (lo ≤ v) && decide (v ≤ hi)
  let pos := fun (off : Nat) => rng (s.i off 4) 1 q23Max
  decide (s.gj ≤ 59) && decide (s.u 1 1 < 16) && s.u 2 1 == tb && (pin == 0xFF || (!bitOf pin 3 && decide (pin % 8 ≤ 4))) &&
  rng s.pexp (-16) 4 && rng s.vexp (-8) 16 && rng s.aexp (-8) 16 && rng s.texp (-8) 16 &&
  pos 0x10 && pos 0x18 && pos 0x2C && pos 0x90 &&
  decide ((s.u 0x84 4 : Int) < 2 ^ (24 + s.pexp).toNat) && decide (s.u 0x80 4 ≤ s.u 0x84 4) &&
  decide (1 ≤ s.u 0x88 1) && decide (s.u 0x89 1 < 16) && decide (8 ≤ s.cmblk) && decide (s.cmblk ≤ 10) &&
  decide (s.u 0x9D 1 ≤ 8) &&
  (List.range (s.u 0x9D 1)).all (fun b => decide (s.u (0xA0 + 4 * b) 2 < s.u (0xA2 + 4 * b) 2)) &&
  zeroAt s.bytes 0x8A 2 && zeroAt s.bytes 0x9E 2 && zeroAt s.bytes 0xC4 60

/-- The fields of a directory entry, with its images inside the container (R180). -/
def dirOk (b e : List Byte) : Bool :=
  let u := uAt e
  decide (1 ≤ u 0 1) && decide (u 0 1 ≤ 8) && decide (u 1 1 < 2) && decide (u 2 1 ≤ 24) && zeroAt e 3 1 && zeroAt e 0x16 2 &&
  zeroAt e 0x1C 4 && decide (u 4 2 + u 6 2 ≤ 0x2000) && decide (u 8 2 + u 0xA 2 ≤ 0x3000) && decide (u 0xC 2 + u 0xE 2 ≤ 0x3000) &&
  (bitOf (u 1 1) 0 || u 0x12 2 == 0) && partIn b (u 0x18 4) (4 * (u 6 2 + u 0xA 2 + u 0xE 2))

/-- The straight walk of R182 from an entry: every opcode is defined, the instructions that need a cached loop stand behind a LOOP,
and JEND comes before the path leaves the program. The walk ends at LOOP, BR and CALL, whose operands the spec gives no encoding. -/
def walkOk (cm : List Word) : Nat → Nat → Bool
  | 0, _ => false
  | n + 1, i =>
    match cm[i]? with
    | none => false
    | some w =>
      let op := opcodeOf w
      if !opDefined op || op == 0x30 || op == 0x32 || op == 0x33 || op == 0x43 || op == 0x44 then false
      else if op == 0x40 || op == 0x41 || op == 0x42 || op == 0x49 then true
      else walkOk cm n (i + 1)

/-- What the words of a program show of R182. A BASE program's entries start no joint's computation and reach no JEND
(DEDUCED). -/
def Prog.staticOk (p : Prog) : Bool :=
  p.base || (decide (p.cmoff ≤ p.entry) && walkOk p.cm (p.cm.length + 1) (p.entry - p.cmoff))

/-- Do two regions share a word? -/
def rangesMeet (o1 l1 o2 l2 : Nat) : Bool := decide (0 < l1) && decide (0 < l2) && decide (o1 < o2 + l2) && decide (o2 < o1 + l1)

def Prog.meets (p q : Prog) : Bool :=
  rangesMeet p.cmoff p.cmlen q.cmoff q.cmlen || rangesMeet p.woff p.wlen q.woff q.wlen || rangesMeet p.eoff p.elen q.eoff q.elen

/-- Faulty programs by PROGID (R181): `static` names, by PROGID − 1, those that fail the static checks of R182 on fields whose
encoding the spec does not give. -/
def progFaults (b : List Byte) (ents : List ServoEnt) (static : Nat) : List Nat :=
  let ps := (srvProgs b).zipIdx
  let bases := ps.filter (fun (p : Prog × Nat) => p.1.base)
  let bad := fun (p : Prog × Nat) =>
    !dirOk b (dirEntry b p.2) || !p.1.staticOk || bitOf static (p.1.id - 1) ||
    ps.any (fun (q : Prog × Nat) => q.2 != p.2 && (q.1.id == p.1.id || p.1.meets q.1)) ||
    (p.1.base && (decide (1 < bases.length) || ents.any (·.cmen)))
  (ps.filter bad).map (fun (p : Prog × Nat) => p.1.id)

/-- Faulty and missing joints (R140, R148, R181). `need`: the joints of the active model. -/
def jointFaults (b : List Byte) (tb : Nat) (ents : List ServoEnt) (progs : List Prog) (need : List Nat) : List Nat :=
  let has := fun (gj : Nat) => ents.any (fun s => s.gj == gj)
  let dup := fun (s : ServoEnt) => decide (1 < (ents.filter (fun t => t.gj == s.gj)).length)
  let order := (ents.zip (ents.drop 1)).filterMap (fun (x : ServoEnt × ServoEnt) => if x.2.gj ≤ x.1.gj then some x.2.gj else none)
  let own := (ents.filter (fun s => !s.ok tb || dup s || (s.cmen && progs.any (·.base)))).map (·.gj)
  let binding := (List.range 64).filter (fun n =>
    let v := bindByte b n
    if has n then v != 0 && !progs.any (fun p => p.id == v) else v != 0xFF)
  let missing := need.filter (fun gj => !has gj)
  own ++ order ++ binding ++ missing ++ (bindAll progs ents tb).2

/-- The part bitmap of R181. A PROGID that has no bit is named by bit 7. -/
def srvParts (progs joints : List Nat) : Nat :=
  maskOf (progs.map (fun p => min (p - 1) 7) ++ joints.map (fun g => 8 + min (g / 9) 6))

/-- RESULT1 of a rejection: the first joint and the first program at fault. -/
def srvResult1 (progs joints : List Nat) : Nat :=
  ((leastBy id joints).getD 0xFF) % 256 + 256 * (((progs.head?).getD 0) % 256)

/-! SERVO_PROGRAM_LOAD. -/

/-- A change of beat awaits its instant (R150). -/
def Dev.beatChanging (d : Dev) : Bool := match d.time.pending with | some (l, _, _) => l.tb != d.time.layout.tb | none => false

/-- SERVO_PROGRAM_LOAD passes step 4 of R470: its copy is registered and the container is being fetched (R149, R150). -/
def execServoProgramLoad (s : State) : Out :=
  s.run (fun d => d.start 0x50 (fun d c =>
    if d.servo.loading.isSome || d.servo.pending.isSome || d.beatChanging then d.finish c.id .rejectedState
    else
      let d := d.registerCopy c 5 0
      { d with servo := { d.servo with loading := some c.id } }))

/-- The container has been fetched and checked: it is rejected, or awaits its boundary (R148, R149, R181, R183). `static`:
programs that fail the static checks of R182 on fields whose encoding the spec does not give, by PROGID − 1. -/
def execServoLoadCheckDone (f : Fetch) (static : BitVec 8) (s : State) : Out :=
  s.run (fun d =>
    match d.servo.loading.bind d.cmd? with
    | none => d
    | some c =>
      if !d.up then d
      else
        let d : Dev := { d with servo := { d.servo with loading := none } }
        match d.served f with
        | .failed => d.hostFault c.id 1
        | .bytes b =>
          let crcBad := uAt b 0 4 == 0x53565250 && b.length == c.len && crc32c (b.drop 16) != uAt b 0x0C 4
          let d := if crcBad || !d.chkWorks 9 then d.chkMiss 9 else d
          if !srvHeadOk b c.len || !d.chkWorks 9 then d.complete c.id .rejectedParam b.length 0x8000 0 0xFF
          else
            let ents := srvEntries b
            let progs := srvProgs b
            let inForce : List Prog := match d.servo.params with | some ps => ps.progs | none => []
            if progs ≠ inForce ∧ !d.idleOrStopped then d.complete c.id .rejectedState b.length 0 0 0
            else
              let pf := progFaults b ents static.toNat
              let need := match d.kiln.active with | some m => m.joints.map (·.gj) | none => []
              let jf := jointFaults b d.time.layout.tb ents progs need
              if !pf.isEmpty || !jf.isEmpty then
                d.complete c.id .rejectedParam b.length (srvParts pf jf) 0 (srvResult1 pf jf)
              else
                let ps : ParamSet := ⟨uAt b 0x10 4, uAt b 0x0C 4, d.time.layout.tb, ents, progs, (bindAll progs ents d.time.layout.tb).1⟩
                let d := d.updCmd c.id (fun c => { c with progress := b.length })
                { d with servo := { d.servo with pending := some (ps, c.id, d.now) } }.putB SRV_PPEND true)

/-! Activation (R149). -/

/-- Write the images of a program into a memory at an offset. -/
def putImage (dflt : Nat → Word) (off : Nat) (m : List (Nat × Word)) (ws : List Word) : List (Nat × Word) :=
  (ws.zipIdx).foldl (fun m (w : Word × Nat) => filePut dflt m (off + w.2) w.1) m

/-- Every program's images in an engine (R183). -/
def Engine.loadImages (g : Engine) (ps : List Prog) : Engine :=
  ps.foldl (fun (g : Engine) p =>
    { g with cm := putImage cmDefault p.cmoff g.cm p.cm, wm := putImage ramDefault p.woff g.wm p.wm,
             em := putImage ramDefault p.eoff g.em p.em }) g

/-- Entry of the base level: that of the BASE program, or the ROM's background (R180). -/
def baseEntry (ps : List Prog) : Nat := match ps.find? (·.base) with | some p => p.entry | none => romEntry

/-- The base level starts at an entry. -/
def Engine.startBase (g : Engine) (pc : Nat) : Engine :=
  { g with asleep := false, banks := updAt g.banks 0 (fun b => { b with pc := pc, la := false, cv := false, lc := 0, stack := [] }) }

/-- The state area of a joint as it stands in its window where the joint stays, from its checkpoint where it moves. -/
def Dev.areaOf (d : Dev) (gj : Nat) (was now : Option (Nat × Nat)) : List Word :=
  if was = now then
    match now.bind (fun x => (d.engine x.1).map (fun g => (g, x.2))) with
    | some (g, slot) => (List.range 24).map (fun i => fileGet ramDefault g.em (windowBase slot + 0x80 + i))
    | none => []
  else (((d.jrt gj).bind (fun (j : JointRt) => j.ckpt.head?)).map (·.words)).getD []

/-- The state area as the new set starts it: the chain's words under the default chain, clear with RESET, else carried over. -/
def Dev.carriedState (d : Dev) (ps : ParamSet) (s : ServoEnt) (c : ChainSt) : List Word :=
  if (ps.progOf s.gj).isNone then c.words
  else if s.resetFlag then []
  else d.areaOf s.gj (d.servo.params.bind (fun o => o.place s.gj)) (ps.place s.gj)

/-- One joint as the new set starts it. -/
def Dev.newJoint (d : Dev) (ps : ParamSet) (s : ServoEnt) : JointRt :=
  match d.jrt s.gj with
  | none =>
    -- a joint whose feedback delivers takes its hold reference here
    let j := JointRt.fresh s.gj
    match d.fb? s.gj with
    | some f =>
      if f.missing then j
      else { j with hold := some f.q, delivering := true, qmeas := f.q, qprev := f.q, vmeas := f.v, tmeas := f.trq }
    | none => j
  | some j =>
    let was := d.servo.params.bind (fun o => o.place s.gj)
    let chain : ChainSt := if was != ps.place s.gj then match j.ckpt.head? with | some k => k.chain | none => j.chain else j.chain
    -- a custom program's state area becomes the default chain's
    let custom := d.servo.params.any (fun o => (o.progOf s.gj).isSome)
    let chain := if custom && (ps.progOf s.gj).isNone then ChainSt.ofWords (d.areaOf s.gj was (ps.place s.gj)) else chain
    let chain := if s.resetFlag then { chain with integ := 0, bq := ChainSt.zero.bq, dhat := 0 } else chain
    { j with chain := chain }

/-- The accepted set takes effect, at the first boundary that follows its acceptance by a beat. -/
def Dev.activateParams (d : Dev) : Dev :=
  match d.servo.pending with
  | none => d
  | some (ps, cmd, acc) =>
    if d.s < acc + d.time.layout.beat then d
    else if d.loadBad cmd then ({ d with servo := { d.servo with pending := none } }.putB SRV_PPEND false).unitFault cmd 3
    else
      let joints := ps.entries.map (d.newJoint ps)
      let wins := ps.entries.filterMap (fun s =>
        (ps.place s.gj).map (fun x => (x, s.window (d.carriedState ps s (d.newJoint ps s).chain))))
      let old : List Prog := match d.servo.params with | some o => o.progs | none => []
      let rebound := match d.servo.params with | some o => o.binding != ps.binding | none => true
      -- R180, R183: a BASE program takes the place of what ran at the base level; R157: a change of binding takes every engine in
      let engines := d.servo.engines.map (fun (g : Engine) =>
        let g := g.loadImages ps.progs
        let g := if old.find? (·.base) = ps.progs.find? (·.base) then g else g.startBase (baseEntry ps.progs)
        { g with spare := g.spare && !rebound })
      let d : Dev := { d with servo := { d.servo with
        params := some ps, pending := none, joints := joints, engines := engines, unbound := [] } }
      let d := wins.foldl (fun (d : Dev) (w : (Nat × Nat) × List (Nat × Word)) =>
        d.updE w.1.1 (fun g => g.putWindow w.1.2 w.2)) d
      let d := d.publishAlloc
      let d := (((d.putB SRV_PPEND false).putB SRV_PVALID true).putB SRV_UNBOUND false).put SRV_PSETID ps.psetid
      let d := (d.releaseCopy 5 0).adoptCopy cmd 5 0 ps.psetid ps.crc
      let n := ((d.cmd? cmd).map (fun (c : Cmd) => c.progress)).getD 0
      (d.complete cmd .ok n 0 ps.psetid 0).raise (srcNo 5 11) noDetail

/-! The servo points of a beat. -/

/-- Joints bound to an engine. -/
def Dev.boundJoints (d : Dev) (e : Nat) : List JointRt :=
  ((List.range 5).filterMap (d.slotJoint e)).filterMap d.jrt

/-- ENGINE_DEADLINE_CHECK, 4 µs before the freeze (Table — Servo engine faults). A joint that trapped has ended without
output, which is no failure (R178); one that moved starts in the next beat. -/
def execEngineDeadlineCheck (e : Fin 16) (s : State) : Out :=
  s.run (fun d =>
    if !d.up || d.is (SRV_FAILED e) then d
    else
      let d := if d.time.started then d.reach (d.time.beatAt + d.time.layout.beat - 12000) else d
      let js := (d.boundJoints e).filter (fun j => j.delivering && !j.moved)
      if js.any (·.missing) then d
      else if js.any (fun j => j.tx.isNone && !j.trapNow) then d.engineFail e
      else d)

/-- SETPOINT_FREEZE, 8 µs before the end of the beat (R28): what stands in the transmit buffers is sent in the next beat. A
joint without a new setpoint keeps its previous one with the stale flag. -/
def execSetpointFreeze (s : State) : Out :=
  s.run (fun d =>
    if !d.up || !d.is CLK_SERVOLK || d.servo.frozen then d
    else
      let d := if d.time.started then d.reach (d.time.beatAt + d.time.layout.beat - 8000) else d
      let live := fun (j : JointRt) => j.delivering || d.servo.unbound.contains j.gj
      let late := (d.servo.joints.filter (fun j => live j && j.tx.isNone)).map (·.gj)
      let d := late.foldl (fun (d : Dev) (gj : Nat) => (d.bump 0x6040).raise (srcNo 5 0) gj) d
      { d with servo := { d.servo with
          frozen := true
          joints := d.servo.joints.map (fun (j : JointRt) =>
            match j.tx with
            | some v => { j with sent := some v, stale := false, tx := none }
            | none => { j with stale := true }) } })

/-- A new beat of the servo wall: a joint whose computation did not end in the ended beat misses a sample of its block (R160), a beat
without a trap ends a run of them (R178), the transmit buffers open, and the mismatch counts of the engines start anew. -/
def Dev.servoBeat (d : Dev) (ended : Nat) : Dev :=
  let joint := fun (j : JointRt) =>
    let j := match d.entry j.gj with
      | some s => if j.delivering && (!j.done || j.trapNow) then j.sample s true ended else j
      | none => j
    { j with done := false, moved := false, qprev := j.qmeas, trapped := if j.trapNow then j.trapped else 0, trapNow := false }
  { d with servo := { d.servo with
      frozen := false, joints := d.servo.joints.map joint
      engines := d.servo.engines.map (fun (g : Engine) => { g with mism := 0, pend := setBit g.pend 5 true, asleep := false }) } }

/-! Condition monitoring (R158 to R160). -/

def sumI (l : List Int) : Int := l.foldl (· + ·) 0

/-- 2π to 48 decimal places, in units of 10^−48. -/
def twoPi : Nat := 6283185307179586476925286766559005768394338798750

/-- Mean square of n samples in units of 2^−32 of full scale squared. -/
def meanSquare (l : List Int) : Nat :=
  min (2 ^ 32 - 1) (divRne (sumI (l.map (fun x => x * x))) (l.length * 2 ^ 14)).toNat

/-- |X_k|² of a block under the Hann window (R158) for the bins k = 1 to N/2, in one common unit: exact sums over sines and cosines
worked out to 2^−60. -/
def hannBins (xs : List Int) : List Int :=
  let n := xs.length
  let tab := ((List.range n).map (fun m => sinCosAt (divRne (twoPi80 * m : Nat) n))).toArray
  let at' := fun (m : Nat) => tab.getD (m % n) (0, 0)
  let ws := (xs.zipIdx).map (fun (x : Int × Nat) => (x.1 * (2 ^ 60 - (at' x.2).2), x.2))
  (List.range (n / 2)).map (fun k =>
    let s := ws.foldl (fun (a : Int × Int) (x : Int × Nat) =>
      let t := at' ((k + 1) * x.2)
      (a.1 + x.1 * t.2, a.2 + x.1 * t.1)) (0, 0)
    s.1 * s.1 + s.2 * s.2)

/-- The energy of the bins a band takes, in units of 2^−32 of full scale squared: all bins together hold the mean square less the
square of the mean. -/
def bandEnergy (xs bins : List Int) (takes : Nat → Bool) : Nat :=
  let n : Int := xs.length
  let all := sumI bins
  let mine := sumI (((bins.zipIdx 1).filter (fun (b : Int × Nat) => takes b.2)).map (·.1))
  let var := n * sumI (xs.map (fun x => x * x)) - sumI xs * sumI xs
  if all = 0 then 0 else min (2 ^ 32 - 1) (divRne (mine * var) (all * n * n * 2 ^ 14).toNat).toNat

/-- CM_BLOCK_READY: the record of a joint's block is complete (R158 to R160, Table — Condition-monitoring record). -/
def execCmBlockReady (gj : Fin 60) (s : State) : Out :=
  s.run (fun d =>
    match (d.jrt gj.val).bind (fun (j : JointRt) => j.cmDone), d.entry gj.val with
    | some b, some e =>
      if !d.up then d
      else
        let n := b.vib.length
        let total := sumI b.spd
        let hi := b.spd.foldl max 0
        let lo := b.spd.foldl min hi
        let low := decide (total < (e.u 0xC0 4 : Int) * 2 ^ 16 * n)
        let vary := decide (total < 8 * (hi - lo) * n)
        let miss := decide (n < 64 * b.miss)
        let full := (b.vib ++ b.cur).any (fun x => decide (8388607 ≤ x) || decide (x ≤ -8388608))
        let bit := fun (c : Bool) (k : Nat) => if c then 2 ^ k else 0
        let invalid := low || vary || miss
        let flags := bit invalid 0 + bit low 1 + bit vary 2 + bit miss 3 + bit full 4
        let frot := min (2 ^ 32 - 1) (divRne (total * 10 ^ 48) (n * 2 ^ 16 * twoPi)).toNat
        let nb := e.u 0x9D 1
        -- bin k against an order of the motor shaft, both as frequencies cleared of denominators
        let bin := fun (k : Nat) => (k : Int) * 64 * 2 ^ 32 * twoPi * 1000000000
        let order := fun (off : Nat) => (e.u off 2 : Int) * total * d.time.layout.beat * 10 ^ 48
        let trunc := maskOf ((List.range nb).filter (fun k =>
          decide (bin n < 2 * order (0xA2 + 4 * k))))
        let bands := fun (xs : List Int) =>
          let bins := hannBins xs
          (List.range 8).flatMap (fun b => leBytes 4 (if b < nb then
            bandEnergy xs bins (fun k => decide (order (0xA0 + 4 * b) ≤ bin k) && decide (bin k < order (0xA2 + 4 * b))) else 0))
        let blk := if n ≤ 256 then 8 else if n ≤ 512 then 9 else 10
        let rec_ := leBytes 8 b.tend ++ leBytes 1 gj.val ++ leBytes 1 flags ++ leBytes 1 blk ++ leBytes 1 (min 255 b.miss) ++
          leBytes 4 frot ++ leBytes 4 (meanSquare b.vib) ++ leBytes 4 (meanSquare b.cur) ++ leBytes 4 (b.seq % 2 ^ 32) ++
          leBytes 1 trunc ++ leBytes 3 0 ++ bands b.vib ++ bands b.cur ++ leBytes 32 0
        let d := d.updJ gj.val (fun j => { j with cmDone := none })
        let d := if invalid then d.bump 0x6060 else d
        (d.raise (srcNo 5 10) gj.val).offer 2 b.tend [(gj.val, rec_)]
    | _, _ => d)

/-! The rejoin of an engine (R157). -/

/-- A write of SRV_REJOIN: the engines named start their lane test. A bit of an engine that has not failed is ignored, with
the register-error bit of the block. -/
def Dev.engineRejoin (d : Dev) (mask : Nat) : Dev :=
  let d := if (List.range 16).any (fun e => bitOf mask e && !d.is (SRV_FAILED e)) then d.regErr 6 else d
  let due := (List.range 16).filter (fun e => bitOf mask e && d.is (SRV_FAILED e))
  due.foldl (fun (d : Dev) e => d.updE e (fun g => { g with testing := true })) d

/-- ENGINE_REJOIN. -/
def execEngineRejoin (mask : BitVec 16) (s : State) : Out :=
  s.run (fun d => if d.linked then d.engineRejoin mask.toNat else d)

end Sys2Proof.Machine
end

