-- ==== Sys2Proof/Machine/Latch.lean ====
section
/-! DEFINITION. What the latch at S + 60 µs does beside the commons and separation steps: conveyor frames (R51), tools (R46), power (R432,
R436), the joint sample of telemetry (R359) and the ports it reopens. -/

namespace Sys2Proof.Machine

/-- The active tool of an arm (R46): of an arm whose tool is fixed its first tool, none where it has no tool entry (DESIGN
CHOICE: FIRSTTOOL then names nothing); of a node the tool of the reported code. A code that matches none leaves the tool and
is reported. The codes are read against the model that the next check point has active (R62). -/
def Dev.latchTools (d : Dev) (m : Model) : Dev :=
  m.arms.foldl (fun (d : Dev) a =>
    let set := fun (t : Option Nat) => { d with kiln := { d.kiln with tools := updAt d.kiln.tools a.armid (fun _ => t) } }
    let own := (List.range a.ntool).map (fun i => a.firsttool + i)
    if a.toolsrc = 0 then set (if a.ntool = 0 then none else some a.firsttool)
    else
      match d.heath.nodes.find? (fun n => n.laddr == a.toolsrc) with
      | none => d
      | some n =>
        if n.tool = none then d
        else if n.tool = some 0 then set none
        else match own.find? (fun i => ((m.tools[i]?).map (·.code)) == n.tool) with
          | some i => set (some i)
          | none => (d.putB (KLN_BOUND 8) true).raise (srcNo 2 3) a.armid) d

/-- Lists of at most n elements. -/
def chunks (n : Nat) (l : List Nat) : List (List Nat) :=
  (List.range ((l.length + n - 1) / n)).map (fun i => (l.drop (n * i)).take n)

/-- Stream 3: position and measured speed of each joint of JOINTMASK, 30 joints an entry. -/
def Dev.jointSample (d : Dev) : Dev :=
  let js := bitsOf d.host.jointMask 60
  let part := fun (x : List Nat × Nat) =>
    (x.2, x.1.flatMap (fun gj => s32 (satS 32 (d.measQ gj)) ++ s32 (satS 32 (d.measV gj))))
  d.offer 3 d.s ((chunks 30 js).zipIdx.map part)

/-- CSU_LATCH at S + 60 µs. `parity` is a parity error in the memory of the Commons and Separation Unit. -/
def execCsuLatch (parity : Bool) (s : State) : Out :=
  s.run (fun d =>
    if !d.up then d
    else
      let d := ((d.reach (d.s + 60000)).reopen 5).reopen 38
      let d := { d with kiln := { d.kiln with convs := d.kiln.convs.map d.convLatch } }
      let d := match d.modelDue.orElse (fun _ => d.kiln.active) with | some m => d.latchTools m | none => d
      (d.csuLatch parity).mainsLatch.jointSample)

end Sys2Proof.Machine
end

