-- ==== Sys2Proof/Machine/HeathOps.lean ====
section
/-! DEFINITION. What the Heathline rows share: ports and nodes, frames (R263 to R266), join exchanges (R277, R278), the receipt
of a frame (R270, R271), and what the boundary of a beat does to ports, nodes, schedules and mode switches (R275, R279 to
R287). -/

namespace Sys2Proof.Machine

/-! Ports and nodes. -/

def Dev.port (d : Dev) (p : Nat) : PortRt := d.heath.ports.getD p PortRt.zero
def Dev.updP (d : Dev) (p : Nat) (f : PortRt → PortRt) : Dev :=
  { d with heath := { d.heath with ports := updAt d.heath.ports p f } }

def Dev.node? (d : Dev) (a : Nat) : Option NodeRt := d.heath.nodes.find? (fun n => n.laddr == a)
def Dev.updN (d : Dev) (a : Nat) (f : NodeRt → NodeRt) : Dev :=
  { d with heath := { d.heath with nodes := d.heath.nodes.map (fun (n : NodeRt) => if n.laddr = a then f n else n) } }

def Dev.section? (d : Dev) (p : Nat) : Option PortSched := d.heath.sched.bind (fun s => s.ports.getD p none)

/-- The port runs. -/
def Dev.portRuns (d : Dev) (p : Nat) : Bool := d.up && d.is (HTL_RUN p)

def Dev.nstate (d : Dev) (a : Nat) : Nat := d.get (HTL_NSTATE a)
/-- A node in SYNC or JOINED. -/
def Dev.onLine (d : Dev) (a : Nat) : Bool := decide (5 ≤ d.nstate a)

/-- Addresses of a port, in the order of its entries. -/
def Dev.portAddrs (d : Dev) (p : Nat) : List Nat := match d.section? p with | some s => s.entries.map (·.laddr) | none => []

/-- HTL_PSTAT.NJOINED of a port. -/
def Dev.countJoined (d : Dev) (p : Nat) : Dev :=
  d.put (HTL_NJOINED p) ((d.portAddrs p).filter (fun a => d.nstate a == 6)).length

/-- Joints of the active model carried by a node. -/
def Dev.nodeJoints (d : Dev) (a : Nat) : List JointEnt :=
  match d.kiln.active with
  | some m => m.joints.filter (fun j => j.fbsrc == 0 && j.fbaddr == a)
  | none => []

def Dev.axisJoint (d : Dev) (a axis : Nat) : Option JointEnt := (d.nodeJoints a).find? (fun j => j.axis == axis)

/-- An address that knows nothing of its node. -/
def NodeRt.fresh (a : Nat) : NodeRt :=
  { laddr := a, meas := [], good := 0, polled := false, leave := false, got := [], tool := none, axes := [], inputs := [],
    tracks := [] }

/-- A node becomes ABSENT: its data is not used any more, and it leaves the list of a switch not yet decided (R272, R281). -/
def Dev.toAbsent (d : Dev) (a : Nat) : Dev :=
  let p := d.get (HTL_NPORT a)
  let d := (d.put (HTL_NSTATE a) 0).updN a (fun n => { NodeRt.fresh a with tool := n.tool })
  let sw := d.heath.switch.map (fun (s : ModeSw) =>
    if s.decided = none then { s with listed := s.listed.filter (· != a) } else s)
  let d : Dev := { d with heath := { d.heath with switch := sw } }
  let d := (d.nodeJoints a).foldl (fun (d : Dev) j => d.stopDelivering j.gj) d
  d.countJoined p

/-- A join is refused (R277): counted, its cause recorded, JOIN_REFUSED raised. -/
def Dev.refuse (d : Dev) (p a cause : Nat) : Dev :=
  ((d.bump (HTL_PERR p 6)).put (HTL_NJREFC a) cause).raise (srcNo 9 3) a

/-! Frames (R263 to R266). -/

/-- The Heathline header with its last eight bytes. -/
def htlHead (type mode slot laddr beat : Nat) (rest : List Byte) : List Byte :=
  leBytes 1 (16 + type) ++ leBytes 1 mode ++ leBytes 1 slot ++ leBytes 1 laddr ++ leBytes 4 beat ++ rest

/-- LEN, FLAGS, TOOL 0, STATION and the reserved word of a frame other than a beat frame. -/
def htlRest (len flags station : Nat) : List Byte :=
  leBytes 2 len ++ leBytes 1 flags ++ leBytes 1 0 ++ leBytes 2 station ++ leBytes 2 0

/-- The Ethernet header of port p (R263): the broadcast address, the port's source address, and the EtherType with its high byte
first (PRESUMED, as Ethernet II has it). -/
def Dev.ethHead (d : Dev) (p : Nat) : List Byte :=
  let t := d.get HTL_ETYPE
  (List.replicate 6 0xFF ++ [0x02, 0x4B, 0x44, 0x00, 0x00] : List Byte) ++ leBytes 1 p ++ leBytes 1 (t / 256) ++ leBytes 1 t

/-- Header and payload with the check unit's CRC, padded with zeros to the 46 bytes of an Ethernet payload (R264). -/
def htlBody (hp : List Byte) : List Byte := hp ++ leBytes 4 (crc32c hp) ++ List.replicate (42 - hp.length) 0

/-- A frame leaves port p, from the destination address to the padding; the MAC ends it with the Ethernet FCS. -/
def Dev.frame (d : Dev) (p : Nat) (hp : List Byte) : Dev := d.send (.heathFrame p (d.ethHead p ++ htlBody hp))

def Dev.beatNo (d : Dev) : Nat := d.get HTL_BEAT

/-! The beat instants (R293, R294). -/

/-- First instant of a layout at or after t. -/
def Layout.firstAt (l : Layout) (t : Nat) : Nat :=
  let r := (t + (l.beat - l.bphase % l.beat)) % l.beat
  if r = 0 then t else t + (l.beat - r)

/-- The next beat instant, and the layout it belongs to: an accepted TIME_CONFIG takes effect at the first instant of its new
values that lies late enough. -/
def Dev.nextBeat (d : Dev) : Nat × Bool :=
  let lo := if d.time.ticked then max d.now (d.time.beatAt + 1) else d.now
  let t1 := d.time.layout.firstAt lo
  match d.time.pending with
  | some (l, e, _) => let t2 := l.firstAt (max lo e); if t2 ≤ t1 then (t2, true) else (t1, false)
  | none => (t1, false)

/-! The join exchange (R277). -/

/-- Slots of the mode in force. -/
def Dev.slots (d : Dev) (p : Nat) : List SlotEnt := d.modeSlots p

/-- Start of a port's BEAT_END, and of the join exchange after it. -/
def Dev.endStart (d : Dev) (p : Nat) : Nat := match d.section? p with | some s => s.beatEnd (d.slots p) | none => 832
def Dev.joinStart (d : Dev) (p : Nat) : Nat := d.endStart p + frameTime 16

/-- Payload of the frame an entry's exchange sends in its state. -/
def joinLen (state descs : Nat) : Nat := if state = 3 then 4 else if state = 4 then 4 + 8 * descs else 0

/-- The response window of an entry's exchange: first bit, and end. -/
def Dev.joinWindow (d : Dev) (p : Nat) (s : PortSched) (a : AddrEnt) : Nat × Nat :=
  let fp := frameTime (joinLen (d.nstate a.laddr) (s.slotsOf a.laddr).length)
  (d.joinStart p + fp + 760 + a.rtdMin, d.joinStart p + fp + 840 + a.rtdMax + frameTime 16)

def Dev.joinFits (d : Dev) (p : Nat) (s : PortSched) (a : AddrEnt) : Bool :=
  decide ((d.joinWindow p s a).2 + 10000 ≤ d.time.layout.beat)

/-- A list turned so that it starts after an element. -/
def rotateAfter (x : Nat) (l : List AddrEnt) : List AddrEnt :=
  let before := l.takeWhile (fun a => a.laddr != x)
  match l.drop before.length with
  | [] => l
  | y :: rest => rest ++ before ++ [y]

/-- The entry whose exchange the port makes in this beat: the one on its way through MEASURE, ASSIGN or ANNOUNCE, else the
next ABSENT entry in turn that fits. -/
def Dev.joinNext (d : Dev) (p : Nat) : Option AddrEnt :=
  match d.section? p with
  | none => none
  | some s =>
    if !d.is (HTL_JOINEN p) then none
    else
      match s.entries.find? (fun a => decide (2 ≤ d.nstate a.laddr) && decide (d.nstate a.laddr ≤ 4)) with
      | some a => if d.joinFits p s a then some a else none
      | none => (rotateAfter (d.port p).served s.entries).find? (fun a => decide (d.nstate a.laddr < 2) && d.joinFits p s a)

/-- The frame of an exchange. -/
def Dev.joinFrame (d : Dev) (p : Nat) (s : PortSched) (a : AddrEnt) : List Byte :=
  let mode := d.get (HTL_MODE p)
  let poll := fun (op : Nat) (pay : List Byte) =>
    htlHead 5 mode 0xFF 0xFE d.beatNo (htlRest pay.length op a.station) ++ pay
  match d.nstate a.laddr with
  | 2 => poll 1 []
  | 3 => poll 2 (leBytes 1 a.laddr ++ leBytes 1 0 ++ leBytes 2 (d.get (HTL_NRTD a.laddr) / 2))
  | 4 =>
    let desc := fun (x : Nat × SlotEnt) => leBytes 1 x.1 ++ leBytes 1 x.2.slot ++ leBytes 1 x.2.nax ++ leBytes 1 x.2.nsafe ++
      leBytes 1 x.2.paux ++ leBytes 1 x.2.raux ++ leBytes 2 0
    let ds := s.slotsOf a.laddr
    let pay := leBytes 1 ds.length ++ leBytes 3 0 ++ ds.flatMap desc
    htlHead 7 mode 0xFF a.laddr d.beatNo (htlRest pay.length 0 0) ++ pay
  | _ => poll 0 []

/-! Beat frames (R265, R282). -/

/-- A mode switch announced in this beat on port p: beat of the switch and new mode. -/
def Dev.announced (d : Dev) (p : Nat) : Option (Nat × Nat) :=
  match d.heath.switch with
  | some s =>
    match s.first with
    | some b =>
      if bitOf s.ports p && decide ((d.beatNo + (2 ^ 32 - b)) % 2 ^ 32 < 2) then some ((b + 2) % 2 ^ 32, s.modes.getD p 0) else none
    | none => none
  | none => none

/-- REFTIME and payload of a port's BEAT_HEAD (Table — Beat frame payload). -/
def Dev.beatBody (d : Dev) (p : Nat) : List Byte :=
  let ann := d.announced p
  let flags := (if ann.isSome then 1 else 0) + (if (d.joinNext p).isSome then 4 else 0)
  leBytes 8 d.nextBeat.1 ++ leBytes 1 d.time.bis ++ leBytes 1 d.time.layout.strb ++ leBytes 1 d.time.layout.tb ++ leBytes 1 flags ++
    leBytes 4 ((ann.map (·.1)).getD 0) ++ leBytes 1 ((ann.map (·.2)).getD 0) ++ leBytes 1 (d.slots p).length ++ leBytes 6 0

/-- BEAT_HEAD or BEAT_END of a port, `type` 1 or 4: both carry what stands for this beat. -/
def Dev.beatFrame (d : Dev) (p type : Nat) : List Byte :=
  htlHead type (d.get (HTL_MODE p)) 0xFF 0 d.beatNo (d.port p).head

/-! Polls (R266, R269). -/

/-- First axis of a slot: the axes of the node's lower slots in the mode come before (R266). -/
def axisBase (slots : List SlotEnt) (s : SlotEnt) : Nat :=
  ((slots.filter (fun t => t.laddr == s.laddr && decide (t.slot < s.slot))).map (·.nax)).foldl (· + ·) 0

/-- A free byte for use number n: what the spec gives no value. -/
def freeByte (n : Nat) : Byte := BitVec.ofNat 8 (Config.freeNat n)

/-- A setpoint entry. With NOSP the setpoints have no stated value: they are free. -/
def setpointEntry (axis : Nat) (j : Option JointRt) (use : Nat) : List Byte :=
  let nosp := leBytes 1 axis ++ leBytes 1 2 ++ leBytes 2 0 ++ (List.range 8).map (fun i => freeByte (use + i))
  match j with
  | some j =>
    match j.sent with
    | some v => leBytes 1 axis ++ leBytes 1 (if j.stale then 1 else 0) ++ leBytes 2 0 ++ leBytes 4 (encSigned 32 v.1) ++
        leBytes 4 (encSigned 32 v.2)
    | none => nosp
  | none => nosp

/-- The poll of a slot, or an idle poll where its node is neither in SYNC nor JOINED. The node output data has no stated
source: it is free. -/
def Dev.poll (d : Dev) (p : Nat) (s : SlotEnt) : Dev :=
  let mode := d.get (HTL_MODE p)
  let a0 := axisBase (d.slots p) s
  let joint := fun (axis : Nat) =>
    if d.nstate s.laddr = 6 then (d.axisJoint s.laddr axis).bind (fun j => d.jrt j.gj) else none
  let ents := (List.range s.nax).flatMap (fun k => setpointEntry (a0 + k) (joint (a0 + k)) (d.freeCtr + 8 * k))
  let aux := (List.range s.paux).map (fun i => freeByte (d.freeCtr + 8 * s.nax + i))
  let la := if d.onLine s.laddr then s.laddr else 0xFE
  let f := htlHead 2 mode s.slot la d.beatNo (htlRest s.pollLen 0 0) ++ ents ++ aux
  { d with freeCtr := d.freeCtr + 8 * s.nax + s.paux }.frame p f

/-! Receipt (R270, R271). -/

/-- A frame is discarded: counter k of the port, and RESP_ERROR. -/
def Dev.discard (d : Dev) (p k : Nat) : Dev := (d.bump (HTL_PERR p k)).raise (srcNo 9 5) noDetail

/-- A feedback entry as the mortar keeps it. -/
def axisOf (e : List Byte) (missing : Nat) : AxisFb :=
  { axis := uAt e 0 1, pos := sAt e 4 4, vel := sAt e 8 4, trq := sAt e 0xC 4, turn := sAt e 2 2,
    vib := signed 24 (uAt e 0x10 4), cur := signed 24 (uAt e 0x14 4), fstat := uAt e 1 1, missing := missing }

/-- One more beat in which an axis is missing: after NODEMISS beats its joint delivers no longer (R272). -/
def Dev.missAxis (d : Dev) (a axis : Nat) : Dev :=
  let d := d.updN a (fun n => { n with axes := n.axes.map (fun (x : AxisFb) =>
    if x.axis = axis then { x with missing := x.missing + 1 } else x) })
  match d.axisJoint a axis with
  | some j =>
    let d := d.markMissing j.gj
    if d.jointDelivers j then d else d.stopDelivering j.gj
  | none => d

/-- An accepted feedback entry: kept for the node, and given to the servo slot of its joint (R271); a joint that does not deliver
runs no computation on it (R140, R272). An entry with VALID clear is missing, in SYNC as in JOINED. -/
def Dev.takeEntry (d : Dev) (a : Nat) (e : List Byte) : Dev :=
  let valid := bitOf (uAt e 1 1) 0
  let axis := uAt e 0 1
  let old := ((d.node? a).bind (fun n => n.axes.find? (fun x => x.axis == axis)))
  let miss := (old.map (·.missing)).getD 0
  let x := axisOf e (if valid then 0 else miss)
  let d := d.updN a (fun n => { n with axes := n.axes.filter (fun (y : AxisFb) => y.axis != axis) ++ [x] })
  if !valid then
    let d := d.missAxis a axis
    match d.axisJoint a axis with | some j => d.slotReady j.gj | none => d
  else if d.nstate a ≠ 6 then d
  else
    match d.axisJoint a axis with
    | none => d
    | some j =>
      let f : JointFb := ⟨j.gj, x.pos * 65536, x.vel, x.trq, x.vib, x.cur, d.time.beatAt, x.turn, false⟩
      if d.jointDelivers j then d.deliver f else d.feed f

/-- The tool code of a response; TOOL_CODE where it differs from the previous one (R289). -/
def Dev.takeTool (d : Dev) (a code : Nat) : Dev :=
  let old := (d.node? a).bind (·.tool)
  let d := d.updN a (fun n => { n with tool := some code })
  if old.isSome && old != some code then d.raise (srcNo 9 12) a else d

/-- A sub-telegram of a JOINED node is handed to channel A over its telegram path and to the Hedge over the cross-die link (R271). -/
def Dev.handOver (d : Dev) (a : Nat) (b : List Byte) : Dev :=
  let d := d.updCh false (fun c => { c with tel := c.tel ++ [(a, d.beatNo, b)] })
  if d.is CLK_XDIE then d.updCh true (fun c => { c with tel := c.tel ++ [(a, d.beatNo, b)] }) else d

/-- An accepted response is delivered: entries, sub-telegrams, tool code, node input data, MACK and LEAVE. -/
def Dev.takeResponse (d : Dev) (p : Nat) (s : SlotEnt) (b : List Byte) : Dev :=
  let a := s.laddr
  let pay := b.drop 16
  let joined := d.nstate a == 6
  let flags := uAt b 0xA 1
  let sensor := (d.slots p).any (fun t => t.laddr == a && t.plan)
  let subs := (List.range s.nsafe).map (fun k => bytesAt pay (24 * s.nax + 32 * k) 32)
  let d := d.updN a (fun n => { n with
    got := n.got ++ [s.slot], leave := n.leave || (joined && bitOf flags 1)
    inputs := n.inputs.filter (fun (x : Nat × List Byte) => x.1 != s.slot) ++ [(s.slot, bytesAt pay (24 * s.nax + 32 * s.nsafe) s.raux)]
    tracks := if joined && sensor then n.tracks ++ subs else n.tracks })
  let d := (List.range s.nax).foldl (fun (d : Dev) k => d.takeEntry a (bytesAt pay (24 * k) 24)) d
  let d := if joined then subs.foldl (fun (d : Dev) t => d.handOver a t) d else d
  let d := if joined then d.takeTool a (uAt b 0xB 1) else d
  let sw := d.heath.switch.map (fun (x : ModeSw) =>
    if bitOf flags 0 && (d.announced p).isSome && x.listed.contains a then { x with acked := a :: x.acked } else x)
  let d : Dev := { d with heath := { d.heath with switch := sw } }
  if 0 < s.nax then d.raise (srcNo 9 10) noDetail else d

/-- The header and length of a response agree with the beat, the mode in force and the slot. -/
def Dev.headAgrees (d : Dev) (p : Nat) (s : SlotEnt) (b : List Byte) : Bool :=
  let a0 := axisBase (d.slots p) s
  uAt b 1 1 == d.get (HTL_MODE p) && uAt b 2 1 == s.slot && uAt b 3 1 == s.laddr && uAt b 4 4 == d.beatNo && uAt b 8 2 == s.respLen &&
  b.length == 20 + s.respLen && zeroAt b 0xC 4 &&
  (List.range s.nax).all (fun k => uAt b (16 + 24 * k) 1 == a0 + k)

/-- The switch in progress is decided: every listed node has acknowledged (R281). -/
def Dev.decideSwitch (d : Dev) : Dev :=
  let sw := d.heath.switch.map (fun (s : ModeSw) =>
    if s.decided = none then { s with decided := some (s.listed.all (fun a => s.acked.contains a)) } else s)
  { d with heath := { d.heath with switch := sw } }

/-- The last response window of beat b + 1 on the named ports has closed with this slot's (R281). -/
def Dev.decideAfter (d : Dev) (p : Nat) (s : SlotEnt) : Dev :=
  match d.heath.switch, d.section? p with
  | some sw, some sec =>
    let ends := (bitsOf sw.ports 4).flatMap (fun q => match d.section? q with
      | some x => (d.slots q).map x.windowEnd | none => [])
    if bitOf sw.ports p && sw.first.any (fun b => (b + 1) % 2 ^ 32 == d.beatNo) &&
        decide ((ends.foldl max 0) ≤ sec.windowEnd s) then d.decideSwitch
    else d
  | _, _ => d

/-- Is a response of the slot still to come in this beat: its node was polled and has not answered? -/
def Dev.awaits (d : Dev) (s : SlotEnt) : Bool :=
  d.onLine s.laddr && (d.node? s.laddr).any (fun n => n.polled && !n.got.contains s.slot)

/-- Does a frame lie in the response window of a slot (R267)? -/
def inWindow (sec : PortSched) (s : SlotEnt) (f : HtlFrame) : Bool :=
  decide (windowOpen s (sec.entryOf s.laddr) ≤ f.first) && decide (f.last ≤ sec.windowEnd s)

/-- A RESP (R270): it is held against the slot of the window it arrives in. Outside every window of an awaited response it is late
where it names such a slot and its node, and fits no window otherwise (DEDUCED). -/
def Dev.receiveResp (d : Dev) (p : Nat) (f : HtlFrame) : Dev :=
  let b := f.bytes
  match d.section? p with
  | none => d.discard p 5
  | some sec =>
    let open' := (d.slots p).filter d.awaits
    match open'.find? (fun s => inWindow sec s f) with
    | some s =>
      if uAt b 0 1 ≠ 0x13 ∨ !d.headAgrees p s b then d.discard p 2 else (d.takeResponse p s b).decideAfter p s
    | none => if open'.any (fun s => s.slot == uAt b 2 1 && s.laddr == uAt b 3 1) then d.discard p 3 else d.discard p 5

/-- Does the station's capacity cover every slot of the node? -/
def covers (s : PortSched) (a naxmax nsafemax : Nat) : Bool :=
  (s.slotsOf a).all (fun x => decide (x.2.nax ≤ naxmax) && decide (x.2.nsafe ≤ nsafemax))

/-- The four delays of a node (R278): cause of refusal, or the RTD. -/
def rtdOf (a : AddrEnt) (ms : List Int) : Except Nat Nat :=
  if ms.any (fun m => decide (m < a.rtdMin) || decide ((a.rtdMax : Int) < m)) then .error 2
  else if ms.any (fun x => ms.any (fun y => decide (x + 100 < y))) then .error 3
  else .ok (divRne (ms.foldl (· + ·) 0) 4).toNat

/-- The awaited answer of an exchange (Table — Join states). -/
def Dev.joinAnswer (d : Dev) (p : Nat) (s : PortSched) (a : AddrEnt) (f : HtlFrame) : Dev :=
  let b := f.bytes
  let la := a.laddr
  let pay := b.drop 16
  let ack := bitOf (uAt b 0xA 1) 0
  let d := d.updP p (fun r => { r with exchange := none })
  match d.nstate la with
  | 2 =>
    let fp := frameTime 0
    let rtd : Int := (f.first : Int) - ((d.joinStart p + fp + 800 : Nat) : Int)
    let old := ((d.node? la).map (·.meas)).getD []
    let ms : List Int := old.map (fun (x : Nat) => (x : Int)) ++ [rtd]
    let bad := decide (rtd < a.rtdMin) || decide ((a.rtdMax : Int) < rtd)
    if bad then (d.refuse p la 2).toAbsent la
    else if ms.length < 4 then d.updN la (fun n => { n with meas := n.meas ++ [rtd.toNat] })
    else match rtdOf a ms with
      | .error c => (d.refuse p la c).toAbsent la
      | .ok r => ((d.put (HTL_NRTD la) r).put (HTL_NSTATE la) 3).updN la (fun n => { n with meas := [] })
  | 3 => if uAt b 3 1 = la ∧ ack then d.put (HTL_NSTATE la) 4 else (d.refuse p la 4).toAbsent la
  | 4 =>
    if uAt b 3 1 = la ∧ ack then
      ((d.put (HTL_NSTATE la) 5).put (HTL_NMISSC la) 0).updN la (fun _ => NodeRt.fresh la)
    else (d.refuse p la 5).toAbsent la
  | _ =>
    if uAt pay 0 4 ≠ a.vendor ∨ uAt pay 4 4 ≠ a.product then (d.refuse p la 1).toAbsent la
    else if !covers s la (uAt pay 0xC 1) (uAt pay 0xD 1) then (d.refuse p la 7).toAbsent la
    else (d.put (HTL_NSTATE la) 2).updN la (fun _ => NodeRt.fresh la)

/-- A JOIN_RESP (R277). -/
def Dev.receiveJoin (d : Dev) (p : Nat) (f : HtlFrame) : Dev :=
  let b := f.bytes
  match d.section? p with
  | none => d.discard p 5
  | some s =>
    let station := uAt b 0xC 2
    let head := uAt b 0 1 == 0x16 && uAt b 1 1 == d.get (HTL_MODE p) && uAt b 2 1 == 0xFF && uAt b 4 4 == d.beatNo &&
      uAt b 8 2 == 16 && b.length == 36
    let awaited := (d.port p).exchange.bind (fun a => s.entry? a)
    let mine := match awaited with | some a => a.station == station | none => false
    -- in PROBE and MEASURE the node has no address yet
    let unjoined := match awaited with | some a => decide (d.nstate a.laddr < 3) | none => false
    if !head || (mine && unjoined && uAt b 3 1 != 0xFE) then d.discard p 2
    else if mine then
      match awaited with
      | some a =>
        let w := d.joinWindow p s a
        if f.first < w.1 ∨ w.2 < f.last then d.discard p 3
        else d.joinAnswer p s a f
      | none => d
    else
      match s.entries.find? (fun e => e.station == station) with
      | some e => if 2 ≤ d.nstate e.laddr then d.refuse p e.laddr 8 else if awaited.isSome then d.discard p 2 else d.discard p 5
      | none => if awaited.isSome then d.discard p 2 else d.discard p 5

/-- A frame of a backup time master on a running port (R284). -/
def Dev.backupSeen (d : Dev) (p : Nat) : Dev :=
  (((d.bump (HTL_PERR p 7)).putB (HTL_BKUP p) true).updP p (fun r => { r with bkup := true })).raise (srcNo 9 8) noDetail

/-- A frame received on a port: the EtherType selects it (R263), then come the Ethernet FCS, the check unit's CRC, and what its type
asks (R270, R286). On a stopped port every frame fits no window. -/
def Dev.receiveFrame (d : Dev) (p : Nat) (f : HtlFrame) : Dev :=
  if !d.up || !(d.port p).link || f.etype != d.get HTL_ETYPE then d
  else if !f.fcsOk then d.discard p 0
  else
    let n := f.bytes.length
    if n < 20 then d.discard p 2
    else if crc32c (f.bytes.take (n - 4)) ≠ uAt f.bytes (n - 4) 4 then (d.chkMiss (4 + p)).discard p 1
    else if !d.portRuns p then d.discard p 5
    else
      match uAt f.bytes 0 1 % 16 with
      | 3 => d.receiveResp p f
      | 6 => d.receiveJoin p f
      | 1 => if bitOf (uAt f.bytes 0x13 1) 1 then d.backupSeen p else d.discard p 5
      | 4 => if bitOf (uAt f.bytes 0x13 1) 1 then d.backupSeen p else d.discard p 5
      | _ => d.discard p 5

/-! The end of a beat. -/

/-- An exchange that found no answer (R277). -/
def Dev.joinUnanswered (d : Dev) (p : Nat) : Dev :=
  match (d.port p).exchange with
  | none => d
  | some a =>
    let d := d.updP p (fun r => { r with exchange := none })
    match d.nstate a with
    | 1 => d.put (HTL_NSTATE a) 0
    | 2 => (d.refuse p a 9).toAbsent a
    | 3 => (d.refuse p a 4).toAbsent a
    | 4 => (d.refuse p a 5).toAbsent a
    | _ => d

/-- One node at the end of a beat: LEAVE, the miss count and loss, progress in SYNC (R277, R279, R287). -/
def Dev.nodeEnd (d : Dev) (p a : Nat) : Dev :=
  match d.node? a with
  | none => d
  | some n =>
    let own := (d.slots p).filter (fun s => s.laddr == a)
    let all := own.all (fun s => n.got.contains s.slot)
    if !n.polled then d
    else if d.nstate a = 6 then
      if n.leave then (d.toAbsent a).raise (srcNo 9 1) a
      else if all then d.put (HTL_NMISSC a) 0
      else
        let m := min 255 (d.get (HTL_NMISSC a) + 1)
        let d := d.put (HTL_NMISSC a) m
        if d.heath.cfg % 32 ≤ m then (d.toAbsent a).raise (srcNo 9 2) a else d
    else if d.nstate a = 5 then
      if !all then (d.refuse p a 6).toAbsent a
      else if d.heath.cfg / 256 % 256 ≤ n.good + 1 then
        ((d.put (HTL_NSTATE a) 6).countJoined p).raise (srcNo 9 0) a
      else d.updN a (fun n => { n with good := n.good + 1 })
    else d

/-- The end of a beat on every running port. -/
def Dev.heathEnd (d : Dev) : Dev :=
  (List.range 4).foldl (fun (d : Dev) p =>
    if !d.is (HTL_RUN p) then d
    else
      let d := d.joinUnanswered p
      (d.portAddrs p).foldl (fun (d : Dev) a => d.nodeEnd p a) d) d

/-! The boundary. -/

/-- A port stops: its addresses become ABSENT (R287). -/
def Dev.haltPort (d : Dev) (p : Nat) : Dev :=
  let d := (d.portAddrs p).foldl (fun (d : Dev) a => if d.nstate a = 0 then d else d.toAbsent a) d
  let d := (((d.putB (HTL_RUN p) false).putB (HTL_SWPEND p) false).putB (HTL_BKUP p) false).countJoined p
  d.updP p (fun r => { r with stop := false, restart := false, exchange := none, exchanged := false, endSent := false,
                              bkup := false, head := [] })

/-- A port of the schedule in force starts in its DEFMODE with every address ABSENT (R275). -/
def Dev.startPort (d : Dev) (p : Nat) : Dev :=
  match d.section? p with
  | none => d.haltPort p
  | some s =>
    let d := d.haltPort p
    let d := (d.portAddrs p).foldl (fun (d : Dev) a => (d.put (HTL_NMISSC a) 0).updN a (fun _ => NodeRt.fresh a)) d
    ((d.putB (HTL_RUN p) true).put (HTL_MODE p) s.defmode).setRunning

/-- No schedule is in force: every port stops (R275, a change of beat). -/
def Dev.dropSchedule (d : Dev) : Dev :=
  let d := (List.range 4).foldl (fun (d : Dev) p => d.haltPort p) d
  let d := (List.range 96).foldl (fun (d : Dev) i => (d.setReg (0x4400 + 8 * i) 0).setReg (0x4404 + 8 * i) 0) d
  { d with heath := { d.heath with sched := none, nodes := [] } }.put HTL_SCHED 0

/-- A schedule comes into force (R275). -/
def Dev.takeSchedule (d : Dev) (s : Sched) : Dev :=
  let d := d.dropSchedule
  let ents := s.ports.zipIdx.flatMap (fun (x : Option PortSched × Nat) =>
    match x.1 with | some q => q.entries.map (fun e => (x.2, e)) | none => [])
  let d : Dev := { d with heath := { d.heath with sched := some s, nodes := ents.map (fun x => NodeRt.fresh x.2.laddr) } }
  let d := ents.foldl (fun (d : Dev) (x : Nat × AddrEnt) =>
    (d.put (HTL_NPORT x.2.laddr) x.1).put (HTL_NSTATION x.2.laddr) x.2.station) d
  let d := (List.range 4).foldl (fun (d : Dev) p =>
    let on := (s.ports.getD p none).isSome
    let d := d.putB (HTL_PENP p) on
    if on then d.startPort p else d) d
  (d.put HTL_SCHED s.schedid).raise (srcNo 9 9) noDetail

/-- A checked schedule at its boundary (R275). -/
def Dev.scheduleBoundary (d : Dev) : Dev :=
  match d.heath.awaiting with
  | none => d
  | some (s, id) =>
    let d : Dev := { d with heath := { d.heath with awaiting := none } }
    let n := ((d.cmd? id).map (fun (c : Cmd) => c.progress)).getD 0
    if d.loadBad id then d.unitFault id 3
    else if !d.idleOrStopped then d.complete id .rejectedState n 0 0 0
    else
      let d := d.takeSchedule s
      let d := d.releaseCopy 4 0
      (d.adoptCopy id 4 0 s.schedid s.crc).complete id .ok n 0 s.schedid 0

/-- The beat of a mode switch (Table — Mode switch timeline): switch or cancel. -/
def Dev.switchBoundary (d : Dev) : Dev :=
  match d.heath.switch with
  | none => d
  | some s0 =>
    match s0.first with
    | none => d
    | some b =>
      if (b + 2) % 2 ^ 32 ≠ d.beatNo then d
      else
        let d := d.decideSwitch
        let s := d.heath.switch.getD s0
        let ports := bitsOf s.ports 4
        let d : Dev := { d with heath := { d.heath with switch := none } }
        let d := ports.foldl (fun (d : Dev) p => d.putB (HTL_SWPEND p) false) d
        let missed := s.listed.filter (fun a => !s.acked.contains a)
        let d := (List.range 96).foldl (fun (d : Dev) i => d.putB (HTL_MSWMISS (i + 1)) (missed.contains (i + 1))) d
        let d := d.put HTL_MSWPORTS s.ports
        if s.decided = some true then
          let d := ports.foldl (fun (d : Dev) p =>
            if !d.is (HTL_RUN p) then d
            else
              let d := d.put (HTL_MODE p) (s.modes.getD p 0)
              (d.portAddrs p).foldl (fun (d : Dev) a =>
                if !d.onLine a then d
                else if !(d.slots p).any (fun t => t.laddr == a) then (d.toAbsent a).raise (srcNo 9 1) a
                else (d.nodeJoints a).foldl (fun (d : Dev) j => if d.jointDelivers j then d else d.stopDelivering j.gj) d) d) d
          ((d.put HTL_MSWRES 1).raise (srcNo 9 6) noDetail).complete s.cmd .ok 0 0 ((b + 2) % 2 ^ 32) 0
        else
          let parts := maskOf (missed.map (fun a => d.get (HTL_NPORT a)))
          ((d.put HTL_MSWRES 2).raise (srcNo 9 7) noDetail).complete s.cmd .aborted 0 parts ((b + 2) % 2 ^ 32) 0

/-- Beat b of an accepted switch begins: the nodes it lists, and SWPEND (R281). -/
def Dev.switchBegin (d : Dev) : Dev :=
  match d.heath.switch with
  | none => d
  | some s =>
    if s.first.isSome || decide (d.time.beatAt < s.accepted + 20000) then d
    else
      let listed := (bitsOf s.ports 4).flatMap (fun p => match d.section? p with
        | none => []
        | some sec => ((sec.entries.map (·.laddr)).filter (fun a => d.onLine a &&
            (sec.modes.getD (s.modes.getD p 0) []).any (fun t => t.laddr == a))))
      let d : Dev := { d with heath := { d.heath with switch := some { s with first := some d.beatNo, listed := listed } } }
      (bitsOf s.ports 4).foldl (fun (d : Dev) p => d.putB (HTL_SWPEND p) true) d

/-- Ports whose PEN changed: they stop, or restart in their DEFMODE. -/
def Dev.portBoundary (d : Dev) : Dev :=
  (List.range 4).foldl (fun (d : Dev) p =>
    let r := d.port p
    if r.restart then d.startPort p else if r.stop then d.haltPort p else d) d

/-- A new beat on a port: its nodes are polled from now on, nothing has been received, and BEAT_HEAD leaves. -/
def Dev.beginPort (d : Dev) (p : Nat) : Dev :=
  let d := (d.putB (HTL_BKUP p) (d.port p).bkup).updP p (fun r => { r with endSent := false, exchanged := false, bkup := false })
  let d := (d.portAddrs p).foldl (fun (d : Dev) a =>
    let on := d.onLine a
    d.updN a (fun n => { n with polled := on, leave := false, got := [], tracks := [] })) d
  if d.is (HTL_RUN p) then
    let d := d.updP p (fun r => { r with head := d.beatBody p })
    d.frame p (d.beatFrame p 1)
  else d

/-- The Heathline side of a beat instant, after the end of the beat before. -/
def Dev.heathBegin (d : Dev) : Dev :=
  let d := d.switchBoundary.scheduleBoundary.portBoundary
  let d : Dev := { d with heath := { d.heath with cfg := (d.reg 0x4008).toNat, chkSeen := false } }
  let d := d.switchBegin
  (List.range 4).foldl (fun (d : Dev) p => d.beginPort p) d

/-! Port control. -/

/-- A write of a port's PEN bit (R275, R287): cleared, the port stops at the next boundary; set again while a schedule is in
force, it restarts there. A port the mortar had closed is reopened (Table — Hang reactions). -/
def Dev.setPen (d : Dev) (p : Nat) (on : Bool) : Dev :=
  let was := d.is (HTL_PENP p)
  let d := d.putB (HTL_PENP p) on
  if on then
    if was then d else (d.updP p (fun r => { r with restart := d.heath.sched.isSome, stop := false })).reopen (32 + p)
  else if was then d.updP p (fun r => { r with stop := true, restart := false })
  else d

end Sys2Proof.Machine
end

