-- ==== Sys2Proof/Machine/Heath.lean ====
section
/-! DEFINITION. Commands of the Heathline controller and of the check units (R261 to R290). -/

namespace Sys2Proof.Machine

/-! Schedules (R273 to R275). -/

/-- SCHEDULE_LOAD passes step 4 of R470: its copy is registered and the blob is being fetched. -/
def execScheduleLoad (s : State) : Out :=
  s.run (fun d => d.start 0x13 (fun d c =>
    if !d.idleOrStopped || d.heath.switch.isSome || d.heath.loading.isSome || d.heath.awaiting.isSome || d.beatChanging then
      d.finish c.id .rejectedState
    else
      let d := d.registerCopy c 4 0
      { d with heath := { d.heath with loading := some c.id } }))

/-- The schedule has been fetched and checked: it is rejected, or awaits the next beat boundary. -/
def execScheduleCheckDone (f : Fetch) (s : State) : Out :=
  s.run (fun d =>
    match d.heath.loading.bind d.cmd? with
    | none => d
    | some c =>
      if !d.up then d
      else
        let d : Dev := { d with heath := { d.heath with loading := none } }
        match d.served f with
        | .failed => d.hostFault c.id 1
        | .bytes b =>
          let crcBad := uAt b 0 4 == 0x4C544853 && b.length == c.len && crc32c (b.drop 16) != uAt b 0x0C 4
          let d := if crcBad || !d.chkWorks 13 then d.chkMiss 13 else d
          let parts := if d.chkWorks 13 then checkSched b c.len d.time.layout.tb else 0x8000
          if parts ≠ 0 then d.complete c.id .rejectedParam b.length parts 0 0
          else
            let d := d.updCmd c.id (fun c => { c with progress := b.length })
            { d with heath := { d.heath with awaiting := some (parseSched b, c.id) } })

/-! MODE_SWITCH (R281). -/

/-- MODE_SWITCH: accepted, it begins with the first beat 20 µs after its acceptance. -/
def execModeSwitch (s : State) : Out :=
  s.run (fun d => d.start 0x14 (fun d c =>
    let ports := c.u 0x18 1
    let modes := (List.range 4).map (fun p => c.u (0x19 + p) 1)
    let ovr := (bitsOf ports 4).any (fun p => match d.section? p with
      | some x => decide (x.modes.length ≤ modes.getD p 0) | none => false)
    if ports = 0 ∨ 16 ≤ ports ∨ ovr then d.finish c.id .rejectedParam
    else if (bitsOf ports 4).any (fun p => !d.portRuns p) || d.heath.switch.isSome || d.heath.loading.isSome ||
        d.heath.awaiting.isSome || d.beatChanging then d.finish c.id .rejectedState
    else { d with heath := { d.heath with
      switch := some ⟨ports, modes, c.id, c.accepted, none, [], [], none⟩ } }))

/-! The beat on a port. -/

/-- POLL_SEND: the poll of a slot leaves at its offset (R269). -/
def execPollSend (p : Fin 4) (slot : Nat) (s : State) : Out :=
  s.run (fun d =>
    if !d.portRuns p then d
    else match (d.slots p).find? (fun x => x.slot == slot) with
      | some x => (d.reach (d.time.beatAt + x.tpoll)).poll p x
      | none => d)

/-- RESP_RECEIVE: a frame arrives on a port. -/
def execRespReceive (p : Fin 4) (f : HtlFrame) (s : State) : Out := s.run (fun d => d.receiveFrame p f)

/-- RESP_WINDOW_CLOSE: the response window of a slot has closed (R271). -/
def execRespWindowClose (p : Fin 4) (slot : Nat) (s : State) : Out :=
  s.run (fun d =>
    match d.section? p, (d.slots p).find? (fun x => x.slot == slot) with
    | some sec, some x =>
      if !d.portRuns p then d
      else
        let d := d.reach (d.time.beatAt + sec.windowEnd x)
        let a := x.laddr
        let got := (d.node? a).any (fun n => n.got.contains slot || !n.polled)
        let d :=
          if got || !d.onLine a then d
          else
            let a0 := axisBase (d.slots p) x
            let d := (d.bump (HTL_PERR p 4)).raise (srcNo 9 4) a
            (List.range x.nax).foldl (fun (d : Dev) k => d.missAxis a (a0 + k)) d
        d.decideAfter p x
    | _, _ => d)

/-- BEAT_END_SEND: BEAT_END of a port; the slot vectors of its missing axes are raised, and BEAT_DONE once every running port
has sent its own and the frame time has ended (R265, R271, R289). -/
def execBeatEndSend (p : Fin 4) (s : State) : Out :=
  s.run (fun d =>
    if !d.portRuns p || (d.port p).endSent then d
    else
      let t := d.endStart p
      let d := d.reach (d.time.beatAt + t)
      let d := (d.frame p (d.beatFrame p 4)).put (HTL_BEATEND p) (t / 8)
      let d := d.updP p (fun r => { r with endSent := true })
      let d := (d.portAddrs p).foldl (fun (d : Dev) a =>
        (d.nodeJoints a).foldl (fun (d : Dev) j =>
          if (d.jrt j.gj).any (fun r => r.missing && !r.done) then d.slotReady j.gj else d) d) d
      if (List.range 4).all (fun q => !d.portRuns q || (d.port q).endSent) then
        (d.reach (d.time.beatAt + t + frameTime 16)).raise (srcNo 9 11) noDetail
      else d)

/-- JOIN_EXCHANGE: after BEAT_END the port's exchange sends its frame (R277). -/
def execJoinExchange (p : Fin 4) (s : State) : Out :=
  s.run (fun d =>
    if !d.portRuns p || !(d.port p).endSent || (d.port p).exchanged then d
    else match d.section? p, d.joinNext p with
      | some sec, some a =>
        let d := d.reach (d.time.beatAt + d.joinStart p)
        let d := d.frame p (d.joinFrame p sec a)
        let probe := decide (d.nstate a.laddr < 2)
        let d := if probe then d.put (HTL_NSTATE a.laddr) 1 else d
        d.updP p (fun r => { r with exchange := some a.laddr, exchanged := true, served := if probe then a.laddr else r.served })
      | _, _ => d)

/-- JOIN_RESP_RECEIVE: a frame that answers an exchange arrives. -/
def execJoinRespReceive (p : Fin 4) (f : HtlFrame) (s : State) : Out := s.run (fun d => d.receiveFrame p f)

/-- BACKUP_FRAME_RECEIVE: the master receives a frame with BACKUP set on a running port (R284). -/
def execBackupFrameReceive (p : Fin 4) (s : State) : Out :=
  s.run (fun d => if d.portRuns p && (d.port p).link then d.backupSeen p else d)

/-- HEATHLINE_LINK_CHANGE: the link state in the SGMII code words of a port (R261). -/
def execHeathlineLinkChange (p : Fin 4) (link : Bool) (s : State) : Out :=
  s.run (fun d => if d.up then d.updP p (fun r => { r with link := link }) else d)

/-! Port control and the check units. -/

/-- PORT_ENABLE: a write that sets a port's PEN bit. -/
def execPortEnable (p : Fin 4) (s : State) : Out := s.run (fun d => if d.linked then d.setPen p true else d)

/-- PORT_STOP: a write that clears a port's PEN bit. -/
def execPortStop (p : Fin 4) (s : State) : Out := s.run (fun d => if d.linked then d.setPen p false else d)

/-- The self-test of the check units ends with the channels of `fail` in failure (R286). -/
def Dev.selfTest (d : Dev) (fail : Nat) : Dev :=
  let d := (d.putB CHK_DONE true).put CHK_FAIL fail
  (bitsOf fail 16).foldl (fun (d : Dev) c =>
    let d := d.raise (srcNo 15 1) c
    if c < 8 then d.setPen (c % 4) false else d) d

/-- CHECK_UNIT_SELFTEST: a write of CHK_CTRL.SELFTEST, with the channels that fail. -/
def execCheckUnitSelftest (fail : BitVec 16) (s : State) : Out :=
  s.run (fun d => if d.linked then d.selfTest fail.toNat else d)

end Sys2Proof.Machine
end

