-- ==== Sys2Proof/Machine/Boot.lean ====
section
/-! DEFINITION. Commands of supplies, resets, clocks, boot and test access (R417 to R451). -/

namespace Sys2Proof.Machine

/-! Supplies (R419, R420, R423, R424). -/

/-- The state after VAUX has come into range; the level of TESTEN is the board's. -/
def Dev.powered (d : Dev) (vaux : Bool) : Dev :=
  { Dev.zero with freeCtr := d.freeCtr, boot := { BootSt.zero with testen := d.boot.testen, vaux := vaux } }

def execPowerOnReset (s : State) : Out := s.run (fun d => d.powered true)

def execVauxLost (s : State) : Out := s.run (fun d => d.powered false)

/-- Main rail 1 to 4 (VIO33, VIO18, VSER, VCORE) leaves its range (R419); while hibernate is armed this is no supply
reset (R423). -/
def execSupplyReset (rail : Fin 4) (s : State) : Out :=
  s.run (fun d =>
    if !d.boot.vaux || d.boot.hib == 2 || d.boot.hib == 3 then d
    else if d.boot.railsOut then d.putB (MNS_INRANGE (rail.val + 1)) false
    else
      let d := { (d.mainReset 2) with boot := { (d.mainReset 2).boot with railsOut := true } }
      (d.putB (MNS_INRANGE (rail.val + 1)) false).put MNS_LASTCAUSE (rail.val + 1))

/-- Every main rail has been back in range for 2 ms; `seqErr` says that rails rose out of order (R418). -/
def execMainRailsRestored (seqErr : Bool) (s : State) : Out :=
  s.run (fun d =>
    if d.boot.vaux && d.boot.railsOut && d.boot.hib != 3 then
      let d := { d with boot := { d.boot with railsOut := false, seqErr := d.boot.seqErr || seqErr } }
      ((List.range 5).foldl (fun (d : Dev) n => d.putB (MNS_INRANGE n) true) d).leaveReset
    else d)

/-- The last main rail falls while hibernate is armed (R423). -/
def execHibernateEnter (s : State) : Out :=
  s.run (fun d =>
    if d.boot.vaux && d.boot.hib == 2 then
      let d := (d.mainReset (d.get GLB_RSTCAUSE)).hedgeReset
      { d with boot := { d.boot with hib := 3, railsOut := true } }
    else d)

/-- WAKE# held low for 10 µs, or VIO33 rising (R424): the Hedge powers on without a set; the main die waits for its rails. -/
def execHibernateWake (s : State) : Out :=
  s.run (fun d =>
    if d.boot.vaux && d.boot.hib == 3 then
      let d := d.hedgeReset.put GLB_RSTCAUSE 5
      { d with boot := { d.boot with hib := 0, woke := true } }
    else d)

/-! Resets (R438 to R442). -/

/-- PERST# is asserted; a main die already held in reset stays there for the cause recorded, but that PERST# takes the place
of an intrusive test, which acts as a warm reset (R450, R452). -/
def execPerstAssert (s : State) : Out :=
  s.run (fun d =>
    if d.boot.perst then d
    else
      let warm := d.boot.intrusive && !{ d with boot := { d.boot with intrusive := false } }.resetHeld
      let d := if warm then d.put GLB_RSTCAUSE 1 else if d.resetHeld then d else d.mainReset 1
      { d with boot := { d.boot with perst := true } })

def execPerstRelease (s : State) : Out :=
  s.run (fun d => { d with boot := { d.boot with perst := false } }.leaveReset)

/-- PLL_CORE, PLL_SERVO or PLL_SAFA loses lock, or XIN fails (R438, R442). -/
def execClockLoss (s : State) : Out :=
  s.run (fun d => if d.get TST_STAGE = 0 ∨ !d.is CLK_CORELK then d else (d.mainReset 4).leaveReset)

/-- A write to GLB_RST (R439): WARM with KEY 0x5752 resets the main die 1 µs later; any other write with WARM is flagged. -/
def Dev.writeRst (d : Dev) (w : Word) : Dev :=
  if w.toNat % 2 = 0 then d
  else if w.toNat / 65536 = 0x5752 then (d.mainReset 3).leaveReset
  else d.regErr 0

def execWarmReset (w : Word) (s : State) : Out := s.run (fun d => if d.linked then d.writeRst w else d)

/-! Clocks (R441, R442). -/

/-- The PLLs of XIN have locked or reached their limit, and TREF has been measured: none, or valid with its frequency
(true 25 MHz). Without PLL_CORE the CORE domain stays inert. -/
def execPllLock (core servo safa : Bool) (tref : Option Bool) (s : State) : Out :=
  s.run (fun d =>
    if d.get TST_STAGE ≠ 1 then d
    else
      let d := ((d.putB CLK_CORELK core).putB CLK_SERVOLK servo).putB CLK_SAFALK safa
      let d := if d.is CLK_TIMELK then d else (d.putB CLK_TREFOK tref.isSome).putB CLK_TREF25 (tref == some true)
      if !core then d
      else
        let d := d.put TST_STAGE 2
        if servo && safa then d else { d with boot := { d.boot with pllFail := true } }.put TST_CAUSE 8)

/-- PLL_TIME locks to a valid TREF, and cell time starts at 0 (R291, R441). -/
def execTimePllLock (tref25 : Bool) (s : State) : Out :=
  s.run (fun d =>
    if d.get TST_STAGE = 0 ∨ d.is CLK_TIMELK then d
    else
      let d := ((d.putB CLK_TREFOK true).putB CLK_TREF25 tref25).putB CLK_TIMELK true
      { d with time := { d.time with started := true, now := 0, frac := 0 } })

/-- TREF is lost: holdover of PLL_TIME once it has locked (R442); before that cell time stays stopped (R452). -/
def execTrefLost (s : State) : Out :=
  s.run (fun d =>
    if d.get TST_STAGE = 0 then d
    else if !d.is CLK_TIMELK then d.putB CLK_TREFOK false
    else if d.is CLK_TIMEHOLD then d
    else ((d.putB CLK_TIMEHOLD true).putB CLK_TREFOK false).raise (srcNo 15 4) noDetail)

/-- TREF returns within its band (R442). -/
def execTrefBack (s : State) : Out :=
  s.run (fun d =>
    if d.is CLK_TIMEHOLD then
      ((d.putB CLK_TIMEHOLD false).putB CLK_TREFOK true).raise (srcNo 15 5) noDetail
    else d)

/-! Boot (R443, R445). -/

/-- The memory test completes with its failing parts (TST_MBIST) and engines. A failed engine is FAILED; a wall with failed
memory does not become available at its lane test; failed mortar, Mason or channel A memory stops the boot. -/
def execMemoryTestDone (fail : BitVec 6) (engines : BitVec 16) (s : State) : Out :=
  s.run (fun d =>
    if !d.up || d.get TST_STAGE != 2 then d
    else
      let f := fail.toNat
      let d := d.put TST_MFAIL f
      let d := if f = 0 then d else d.raise (srcNo 15 8) noDetail
      let d := if bitOf f 4 then (bitsOf engines.toNat 16).foldl (fun (d : Dev) e => d.putB (SRV_FAILED e) true) d else d
      if bitOf f 2 || bitOf f 3 || bitOf f 5 then { d with boot := { d.boot with partFail := true } }.put TST_CAUSE 7
      else d.put TST_STAGE 3)

/-! The cross-die link (R34, R443). -/

/-- The cross-die link is not established by its deadline, or is lost. -/
def execCrossDieLinkDown (s : State) : Out :=
  s.run (fun d =>
    if d.get TST_STAGE = 0 then d
    else
      let d := { d with boot := { d.boot with xdieLost := true } }
      ((d.putB CLK_XDIE false).put GLB_HDGREV 0).raise (srcNo 15 6) noDetail)

/-- The cross-die link is established: HDGREV reads the Hedge's revision. -/
def execCrossDieLinkUp (s : State) : Out :=
  s.run (fun d =>
    if d.get TST_STAGE = 0 ∨ !d.hedgeUp then d
    else
      let d := (d.putB CLK_XDIE true).put GLB_HDGREV 1
      if d.boot.xdieLost then { d with boot := { d.boot with xdieLost := false } }.raise (srcNo 15 7) noDetail else d)

/-! Test access (R447 to R451). -/

/-- A TAP enters Test-Logic-Reset and selects IDCODE. -/
def execTapTestLogicReset (hedge : Bool) (s : State) : Out :=
  s.run (fun d => { d with boot := if hedge then { d.boot with irHedge := 2 } else { d.boot with irMain := 2 } })

def intrusiveMain (c : Nat) : Bool := c == 0 || c == 3 || c == 4 || c == 5 || c == 6

/-- An instruction reaches Update-IR of a TAP (R449, R450). -/
def execTapUpdateIr (hedge : Bool) (code : BitVec 8) (s : State) : Out :=
  s.run (fun d =>
    if hedge then
      let d := { d with boot := { d.boot with irHedge := code.toNat % 16 } }
      d.safe true (fun d => if d.hedgeHeld then d.stoAll true else d)
    else if intrusiveMain code.toNat then
      let d := d.mainReset 6
      { d with boot := { d.boot with irMain := code.toNat, intrusive := true } }
    else
      let d := { d with boot := { d.boot with irMain := code.toNat, intrusive := false } }
      d.leaveReset)

/-- TESTEN goes high (R451): every SOB side low, the main die held in reset. -/
def execTestenHigh (s : State) : Out :=
  s.run (fun d =>
    let d := d.mainReset (d.get GLB_RSTCAUSE)
    { d with boot := { d.boot with testen := true } }.drive true)

end Sys2Proof.Machine
end

