-- ==== Sys2Proof/Machine/Fabric.lean ====
section
/-! DEFINITION. Commands of the mortar: transfers with the parity errors they meet (R406, R407, R409, R411) and locked
sequences (R403). -/

namespace Sys2Proof.Machine

/-- Re-fetches run only while the host can serve them (R371, R375, R409). -/
def Dev.hostServes (d : Dev) : Bool := d.session != 1 && d.session != 4

/-- A re-fetch fails (R64, R409): counted and raised with its error record; the unit is left without a usable copy. -/
def Dev.refetchFail (d : Dev) (kind : Nat) : Dev :=
  (((d.bump 0xF054).raise (srcNo 1 3) noDetail).errRec 3 8 31 7 0 0 kind).copyFailed kind

/-- A re-fetch starts, or fails at once where the host cannot serve it (R409). `kind` as in Table — Master-copy entry. A
model slot's stays due until it succeeds (R64). -/
def Dev.refetch (d : Dev) (kind : Nat) : Dev :=
  let due := { d with kiln := { d.kiln with refetch := d.kiln.refetch.filter (· != kind) ++ [kind] } }
  if d.hostServes then due.raise (srcNo 1 2) noDetail
  else if kind = 1 ∨ kind = 2 then due.refetchFail kind
  else d.refetchFail kind

/-- Force a lock free (R405, R409): the holder's sequence restarts without counting a time-out. -/
def Dev.forceLock (d : Dev) (lv n : Nat) : Dev :=
  match d.lockHolder lv n with | some s => d.releaseAll lv s.idx | none => d

/-- A parity error in the authority register (R411). -/
def Dev.authParity (d : Dev) : Dev :=
  let d := ((d.stopRequest.requestSs1).raise (srcNo 1 10) noDetail).raise (srcNo 1 9) noDetail
  let tok := match d.planner.servo.inForce with | some p => p.token | none => 0
  (d.put SLV_AUTH tok).errRec 3 9 0xFF 6 0 0 0

/-- A parity error on a mortar memory read, handled by what the word holds (Table — Mortar memory recovery). -/
def Dev.parityError (d : Dev) (port : Nat) (w : MemWord) (addr : Nat) : Dev :=
  if w = .authority then d.authParity
  else
    let act := match w with | .modelSlot _ | .stagedSchedule | .stagedServo => 1 | .problem => 0 | _ => 7
    let idx := match w with | .lockWord n => n | _ => 0
    let d := ((d.bump 0xF050).raise (srcNo 1 1) noDetail).errRec 3 2 port act idx addr 0
    match w with
    | .modelSlot staged =>
      (if staged then d.put KLN_STGV 2 else (d.put KLN_ACTV 2).holdAssembly).refetch (if staged then 2 else 1)
    | .stagedSchedule => d.refetch 4
    | .stagedServo => d.refetch 5
    | .problem => { d with kiln := { d.kiln with rebuilding := true, delivered := false } }
    | .measured gj => d.missJoint gj
    | .toolCode => d
    | .tracks sid =>
      match d.kiln.active.bind (fun m => m.sensors.find? (fun s => s.sid == sid)) with
      | some s => { d with heath := { d.heath with nodes := d.heath.nodes.map (fun (n : NodeRt) =>
          if n.laddr = s.node then { n with tracks := [] } else n) } }
      | none => d
    | .checkpoint gj => d.updJ gj (fun j => { j with ckpt := [] })
    | .commitBuffer => d
    | .sepRecord =>
      match d.commons.built with
      | some r => { d with commons := { d.commons with built := none, lateAt := some r.tfrom } }
      | none => d
    | .journal id =>
      let d := d.unitFault id 3
      d.updCmd id (fun c => { c with done := some ⟨.unitFault, 0, 0, 3, 0⟩ })
    | .logEntry seq => { d with host := { d.host with log := d.host.log.filter (fun (e : EvEntry) => e.seq != seq) } }
    | .telemetry =>
      match d.host.telOut with
      | [] => d
      | r :: rest =>
        let d := { d with host := { d.host with telOut := rest, telDrop := updAt d.host.telDrop r.ring (fun _ => true) } }
        d.bump 0x1048
    | .lockWord n => d.forceLock 2 n
    | .authority => d

/-- A port requests a path for a transfer of 1 to 64 beats (R402, R406); a closed port's transfer is discarded (R408). -/
def execTransferRequest (port : Fin 39) (path : Nat) (beats : Nat) (par : Option (MemWord × Nat)) (s : State) : Out :=
  s.run (fun d =>
    if !d.up then d
    else if d.is (FAB_CLOSED port) then d.bump 0xF04C
    else
      let r := (d.pathOf path).request ⟨port, 0, d.fabric.order, beats⟩
      let d := { d with fabric := { d.fabric with order := d.fabric.order + 1 } }
      let d := d.setPath r.1
      let d := if r.2 then d.bump 0xF044 else d
      match par with
      | some (w, a) => d.parityError port w a
      | none => d)

/-- The transfer under way on a path delivers its last beat; the grant stays parked while no port waits (R406, R407). -/
def execMortarTransferDone (path : Nat) (s : State) : Out :=
  s.run (fun d => if d.up then d.setPath (d.pathOf path).done else d)

/-- A sequence requests a lock: granted if free, otherwise it waits in order of request (R403). -/
def execLockRequest (lv : Fin 3) (idx lock : Nat) (s : State) : Out :=
  s.run (fun d =>
    if !d.up then d
    else
      let q := d.seqOf lv idx
      if q.backoff.isSome || q.wait.isSome || q.held.contains lock then d
      else if (d.lockHolder lv lock).isNone && (d.lockWaiters lv lock).isEmpty then
        d.setSeq { q with held := q.held ++ [lock] }
      else (d.setSeq { q with wait := some lock }).setWaiters lv lock (d.lockWaiters lv lock ++ [idx]))

/-- Index of a requester within its level (R403). Sequences are numbered 8·brick + lane at a brick's operand ports, 17·course + brick
at the course memories, with the bricks of wall B after those of wall A, and by mortar port at the lock words. -/
def lockIndex (lv idx : Nat) : Nat := if lv = 0 then idx % 8 else if lv = 1 then idx % 17 else idx

/-- Error record of LOCK_STUCK (R412): a lock word belongs to the chip. -/
def Dev.lockStuck (d : Dev) (lv : Nat) (q : LockSeq) : Dev :=
  if lv = 2 then d.errRec 3 3 q.idx 7 (q.wait.getD 0) 0 0
  else d.errRec lv 3 0xFF 7 ((if lv = 0 then q.idx / 8 else q.idx) % 136) 0 0

/-- The lock-wait time-out of a sequence that holds a lock (R403). One that holds none does not time out (R404). -/
def execLockWaitTimeout (lv : Fin 3) (idx : Nat) (s : State) : Out :=
  s.run (fun d =>
    let q := d.seqOf lv idx
    if !d.up || q.wait.isNone || q.held.isEmpty then d
    else
      let d := d.releaseAll lv idx
      let d := d.setSeq { q with held := [], wait := none, k := q.k + 1, backoff := some (8 * (lockIndex lv idx + 1) * 2 ^ min q.k 4) }
      let d := d.bump 0xF040
      let d := if d.fabric.lktSeen then d
        else ({ d with fabric := { d.fabric with lktSeen := true } }).raise (srcNo 1 4) noDetail
      if q.k + 1 = 4 then (d.raise (srcNo 1 5) noDetail).lockStuck lv q else d)

/-- The back-off ends: the sequence restarts from its beginning (R403). -/
def execLockBackoffExpiry (lv : Fin 3) (idx : Nat) (s : State) : Out :=
  s.run (fun d =>
    let q := d.seqOf lv idx
    if d.up && q.backoff.isSome then d.setSeq { q with backoff := none } else d)

/-- A sequence completes: its locks are released, each to its first waiter, and its run of time-outs ends (R403). -/
def execLockRelease (lv : Fin 3) (idx : Nat) (s : State) : Out :=
  s.run (fun d =>
    if !d.up then d
    else
      let d := d.releaseAll lv idx
      d.setSeq { d.seqOf lv idx with k := 0 })

end Sys2Proof.Machine
end

