-- ==== Sys2Proof/Machine/Hod.lean ====
section
/-! DEFINITION. Commands of the event controller and of Hod (R381 to R400). -/

namespace Sys2Proof.Machine

/-! Assertions and handlers. -/

/-- The first request removed whose source is `src`. -/
def takeReq (src : Nat) : List (Nat × Nat) → Option (Nat × List (Nat × Nat))
  | [] => none
  | r :: rest =>
    if r.1 = src then some (r.2, rest)
    else (takeReq src rest).map (fun x => (x.1, r :: x.2))

/-- A request for a source has been high for FILT + 1 cycles: it is latched and delivered (R381, R382). -/
def execSourceAssertion (src : BitVec 8) (s : State) : Out :=
  s.run (fun d =>
    if !d.up then d
    else
      match takeReq src.toNat d.evReq with
      | none => d
      | some (det, rest) => ({ d with evReq := rest }).assertion src.toNat det)

/-- A Mason takes its highest pending source above its running level (R386, R387). With `late`, the source was latched before
the first instruction of the innermost handler and takes its vector: the displaced source stays PENDING. -/
def execMasonInterruptEntry (c : Fin 8) (late : Bool) (s : State) : Out :=
  s.run (fun d =>
    let m := d.mason c
    if !d.up || m.failed || !m.running then d
    else
      match d.nextSource c m.level with
      | none => d
      | some src =>
        match late, m.handlers with
        | true, h :: rest =>
          let d := (d.putB (EVC_ACT h.1) false).putB (EVC_PEND h.1) true
          (d.updMason c (fun m => { m with handlers := rest })).activate c src
        | _, _ => d.activate c src)

/-- A Mason handler returns (R387, R388): tail-chain to a pending source above the level returned to, or full return. -/
def execMasonHandlerReturn (c : Fin 8) (s : State) : Out :=
  s.run (fun d =>
    let m := d.mason c
    match m.handlers with
    | [] => d
    | h :: rest =>
      if !d.up || m.failed then d
      else
        let d := (d.putB (EVC_ACT h.1) false).updMason c (fun m => { m with handlers := rest })
        match d.nextSource c (d.mason c).level with
        | some src => d.activate c src
        | none => if rest.isEmpty then d.resume c else d)

/-! Vectors of the servo engines (R177). -/

/-- The vectors held above the running level for lack of a free bank: NEST_FULL is raised once for each (R177). -/
def Dev.nestFull (d : Dev) (e : Nat) : Dev :=
  match d.engine e with
  | none => d
  | some g =>
    ((List.range 7).filter (fun v => bitOf g.pend v && decide (g.level < d.get (EVC_ENGPRI v)) && !bitOf g.nestSeen v)).foldl
      (fun (d : Dev) v =>
        ((d.updE e (fun g => { g with nestSeen := setBit g.nestSeen v true })).bump 0x6068).raise (srcNo 5 14) e) d

/-- An engine takes its highest pending vector above the running level. A vector that comes before the first instruction of
the innermost handler takes the same bank, and the displaced one stays pending; with both handler banks in use every vector above
the running level waits, and NEST_FULL is raised once for each. -/
def Dev.engineVector (d : Dev) (e : Nat) : Dev :=
  match d.engine e with
  | none => d
  | some g =>
    match d.nextVector g g.level with
    | none => d
    | some v =>
      match g.handlers with
      | [] => d.serveVector e v 1 []
      | h :: rest =>
        if h.entering then
          if !d.romSlot e v then
            ((if h.vec = 6 then d.sourcesBack e else d).updE e (fun g => { g with pend := setBit g.pend h.vec true })).takeVector
              e v h.bank rest
          else d.serveVector e v h.bank g.handlers
        else if rest.isEmpty then d.serveVector e v (3 - h.bank) g.handlers
        else d.nestFull e

/-- A residue mismatch of an engine is counted and raised; the second of a beat fails the engine (R154). -/
def Dev.engineResidue (d : Dev) (e : Nat) : Dev :=
  let d := (d.bump 0x6054).raise (srcNo 5 5) e
  let n : Nat := ((d.engine e).map (fun (g : Engine) => g.mism)).getD 0
  let d := d.updE e (fun g => { g with mism := g.mism + 1 })
  if 1 ≤ n then d.engineFail e else d

/-- The slot computation in progress in the innermost handler starts again at its program's entry (R168): the state area and
the input words come from the copies that handler took at its entry, or the state area from the last checkpoint. -/
def Dev.repeatSlot (d : Dev) (e slot : Nat) (fromCkpt : Bool) : Dev :=
  let ws := ((d.slotJoint e slot).bind d.jrt).bind (fun (j : JointRt) => j.ckpt.head?)
  d.updE e (fun g =>
    let saved := match g.handlers with | h :: _ => h.saved | [] => []
    let em := saved.foldl (fun m w => filePut ramDefault m w.1 w.2) g.em
    let g := { g with em := em, banks := updAt g.banks g.curBank (d.enterBank e slot) }
    if fromCkpt then g.putWindow slot (stateWords ((ws.map (·.words)).getD [])) else g)

/-- The slot an engine is computing in its innermost handler, if any. -/
def Dev.slotAtWork (d : Dev) (e : Nat) : Option Nat :=
  (d.engine e).bind (fun g => (g.handlers.head?).bind (fun h => if h.vec < 5 then some h.vec else none))

/-- The fault a check finds in the computation of an engine (Table — Servo engine faults). A default-chain joint is computed
by the vector's entry itself; a custom program's computation in progress starts again. -/
def Dev.engineFault (d : Dev) (e : Nat) (f : EngFault) : Dev :=
  match f with
  | .none => d
  | .residue again =>
    let d := d.engineResidue e
    if again then d.engineResidue e else d
  | .stateWord => d.raise (srcNo 5 6) e
  | .programWord => (d.raise (srcNo 5 6) e).engineFail e

/-- ENGINE_VECTOR_ENTRY, with what the engine's checks find. -/
def execEngineVectorEntry (e : Fin 16) (f : EngFault) (s : State) : Out :=
  s.run (fun d =>
    if !d.up || d.is (SRV_FAILED e) then d
    else if f = .none then d.engineVector e
    else
      let d := d.engineFault e f
      if d.is (SRV_FAILED e) then d
      else
        match d.slotAtWork e with
        | some slot => d.repeatSlot e slot (f == .stateWord)
        | none =>
          -- the joint whose vector is next: its states come from its last checkpoint
          let v := (d.engine e).bind (fun g => d.nextVector g g.level)
          let gj := (v.filter (· < 5)).bind (d.slotJoint e)
          let d := match gj, f with
            | some gj, .stateWord =>
              d.updJ gj (fun j => { j with chain := ((j.ckpt.head?).map (fun (k : Ckpt) => k.chain)).getD ChainSt.zero })
            | _, _ => d
          d.engineVector e)

/-! Tasks (R392 to R396). -/

/-- A task that Hod does not run yet becomes READY with a priority and an affinity (R393). -/
def execTaskReady (id : BitVec 8) (pri : Fin 32) (aff : BitVec 8) (s : State) : Out :=
  s.run (fun d =>
    if !d.up then d
    else
      match d.task? id.toNat with
      | none =>
        let t : Task := ⟨id.toNat, pri, aff.toNat, .dormant, 0, false, true, 0⟩
        ({ d with hod := { d.hod with tasks := d.hod.tasks ++ [t] } }).makeReady id.toNat
      | some t =>
        if t.st = .dormant then
          (d.updTask id.toNat (fun t => { t with pri := pri, aff := aff.toNat })).makeReady id.toNat
        else d)

/-- HQE_HBAGE shows the ms since the last restart of the watchdog, which is on in ATTACHED and RESYNC (R374). -/
def Dev.showAge (d : Dev) : Dev :=
  if d.session = 2 ∨ d.session = 3 then d.put HQE_HBAGE (min ((d.now - d.host.hbAt) / 1000000) 0xFFFF) else d

/-- The next Hod tick (R394): at a whole microsecond of cell time every delayed task whose wake time has come is READY. -/
def execHodTick (s : State) : Out :=
  s.run (fun d =>
    if !d.up || !d.time.started then d
    else
      let n := max (d.hod.tick + 1) ((d.now + 999) / 1000)
      let d := (d.reach (1000 * n)).showAge
      let due := d.hod.delays.filter (fun x => decide (x.1 ≤ n))
      let d := { d with hod := { d.hod with tick := n, delays := d.hod.delays.filter (fun (x : Nat × Nat) => decide (n < x.1)) } }
      due.foldl (fun (d : Dev) x => d.makeReady x.2) d)

/-- Insert into the delay list: sorted by wake time, ties in order of insertion (R394). -/
def insDelay (w id : Nat) : List (Nat × Nat) → List (Nat × Nat)
  | [] => [(w, id)]
  | x :: rest => if w < x.1 then (w, id) :: x :: rest else x :: insDelay w id rest

/-- The running task asks to be delayed until a wake time in µs of cell time. -/
def execTaskDelay (id : BitVec 8) (wake : Nat) (s : State) : Out :=
  s.run (fun d =>
    match (d.task? id.toNat).map (fun (t : Task) => t.st) with
    | some (.running c) =>
      if !d.up || (d.mason c).code != 2 then d
      else
        ({ d with hod := { d.hod with delays := insDelay wake id.toNat d.hod.delays } }).blockTask c id.toNat (.delayed wake)
    | _ => d)

/-- The running task waits on an object, with a time-out in µs or none (R395). -/
def execTaskWait (id : BitVec 8) (o : WaitObj) (tmo : Option Nat) (s : State) : Out :=
  s.run (fun d =>
    match (d.task? id.toNat).map (fun (t : Task) => t.st) with
    | some (.running c) =>
      if !d.up || (d.mason c).code != 2 then d
      else
        let ready := match o with
          | .source k => d.hod.posts.contains k
          | .semaphore n => decide (0 < d.hod.sems.getD n 0)
        let legal := match o with
          | .source k => d.get (EVC_KIND k) == 2
          | .semaphore n => decide (n < 64)
        if !legal then d
        else if ready then
          let d : Dev := match o with
            | .source k => { d with hod := { d.hod with posts := d.hod.posts.filter (· != k) } }
            | .semaphore n => { d with hod := { d.hod with sems := updAt d.hod.sems n (· - 1) } }
          d.updTask id.toNat (fun t => { t with resOk := true })
        else
          let w := d.hod.waits
          let d := { d with hod := { d.hod with waits := w + 1 } }
          let d := d.updTask id.toNat (fun t => { t with order := w })
          d.blockTask c id.toNat (.waiting o (tmo.map (fun t => (d.now + 999) / 1000 + t)))
    | _ => d)

/-- A post to a semaphore (R395). -/
def execSemaphorePost (n : Fin 64) (s : State) : Out :=
  s.run (fun d =>
    if !d.up then d
    else
      match d.waiters (.semaphore n) with
      | id :: _ => d.endWait true id
      | [] => { d with hod := { d.hod with sems := updAt d.hod.sems n (· + 1) } })

/-- The tick of a wait's time-out: the wait ends with TIMEOUT (R395). -/
def execWaitTimeout (id : BitVec 8) (s : State) : Out :=
  s.run (fun d =>
    match (d.task? id.toNat).map (fun (t : Task) => t.st) with
    | some (.waiting _ (some t)) =>
      if !d.up then d
      else
        let d := (d.reach (1000 * t)).bump 0xD108
        ({ d with hod := { d.hod with timeouts := d.hod.timeouts + 1 } }).endWait false id.toNat
    | _ => d)

def execMasonFail (c : Fin 8) (s : State) : Out := s.run (fun d => if d.up then d.masonFail c else d)

/-- A task has been READY for longer than WAITLIM (R396): once per period of readiness. -/
def execWaitLong (id : BitVec 8) (s : State) : Out :=
  s.run (fun d =>
    match d.task? id.toNat with
    | none => d
    | some t =>
      if !d.up || t.st != .ready || t.long then d
      else
        let d := d.reach (t.since + 1000 * d.get HOD_WAITLIM + 1)
        ((d.updTask id.toNat (fun t => { t with long := true })).bump 0xD10C).raise (srcNo 14 3) noDetail)

/-! The load window (R398). -/

/-- The dispatcher load record (Table — Dispatcher load record). -/
def Dev.loadRecord (d : Dev) (len : Nat) (load irq : List Nat) : List Byte :=
  let h := d.hod
  leBytes 4 (len / 1000) ++
  leBytes 2 (h.tasks.filter (fun t => t.st != .dormant)).length ++ leBytes 2 ((h.ready.map (·.length)).foldl (· + ·) 0) ++
  load.flatMap (leBytes 2) ++ irq.flatMap (leBytes 2) ++ h.qmax.flatMap (fun q => leBytes 1 (min q 255)) ++
  h.wmax.flatMap (fun w => leBytes 4 (min w 0xFFFFFFFF)) ++ leBytes 2 h.delays.length ++ leBytes 2 h.timeouts ++
  leBytes 4 h.switches ++ leBytes 4 h.preempts ++ leBytes 2 h.undels ++ leBytes 2 0

/-- The end of a telemetry window of LWIN ms, at a whole ms of cell time. -/
def execHodWindowEnd (s : State) : Out :=
  s.run (fun d =>
    if !d.up || !d.time.started then d
    else
      let t := max (d.hod.winAt + 1000000 * d.get HOD_LWIN) ((d.now + 999999) / 1000000 * 1000000)
      let d := d.reach t
      let len := t - d.hod.winAt
      let ms := d.hod.masons.map (Mason.account t)
      let share := fun (n : Nat) => if len = 0 then 0 else min 1000 (1000 * n / len)
      let load := ms.map (fun m => share m.busy)
      let irq := ms.map (fun m => share m.irq)
      let d := (List.range 8).foldl (fun (d : Dev) c =>
        (d.put (HOD_LOADF c) (load.getD c 0)).put (HOD_IRQLOAD c) (irq.getD c 0)) d
      let d := (List.range 32).foldl (fun (d : Dev) p => d.put (HOD_WMAX p) (min (d.hod.wmax.getD p 0) 0xFFFFFFFF)) d
      let d := ((List.range 8).filter (fun c => decide (d.get HOD_LOADLIM < load.getD c 0))).foldl (fun (d : Dev) c =>
        d.raise (srcNo 14 4) c) d
      let d := (d.raise (srcNo 14 5) noDetail).offer 5 t [(0, d.loadRecord len load irq)]
      { d with hod := { d.hod with
          masons := ms.map (fun (m : Mason) => { m with busy := 0, irq := 0 }), winAt := t,
          qmax := d.hod.ready.map List.length, wmax := List.replicate 32 0, switches := 0, preempts := 0, timeouts := 0,
          undels := 0 } })

/-- The re-fetch of a Mason's firmware page after a parity error (R410): FW_REFETCH, or the Mason has failed. -/
def execFwRefetch (c : Fin 8) (ok : Bool) (s : State) : Out :=
  s.run (fun d =>
    if !d.up then d
    else
      let d := d.raise (srcNo 14 2) c
      if ok && d.hostServes then d
      else (((d.bump 0xF054).raise (srcNo 1 3) noDetail).masonFail c))

end Sys2Proof.Machine
end

