-- ==== Sys2Proof/Machine/Host.lean ====
section
/-! DEFINITION. Commands of the Host Queue Engine: rings and doorbells, acceptance, the writing of entries, sessions, reads
and telemetry set-up (R349 to R377, R444, R472). -/

namespace Sys2Proof.Machine

/-! Rings, doorbells, the heartbeat page. -/

/-- A write to the CFG register of ring `r`: command 0 to 31, completion 32 to 63, event 64, telemetry 65 to 72. -/
def execRingEnable (r : Fin 73) (w : Word) (s : State) : Out := s.run (fun d => if d.linked then d.ringCfg r w 0 else d)

def execCommandDoorbell (r : Fin 32) (w : Word) (s : State) : Out := s.run (fun d => if d.linked then d.doorbell r w else d)

/-- A consumer doorbell of a device-written ring: completion 0 to 31, event 32, telemetry 33 to 40. -/
def execConsumerDoorbell (r : Fin 41) (w : Word) (s : State) : Out :=
  s.run (fun d => if d.linked then d.doorbell (32 + r) w else d)

/-- Restart the watchdog (R374). -/
def Dev.beatHeart (d : Dev) : Dev := ({ d with host := { d.host with hbAt := d.now } }).put HQE_HBAGE 0

def execHeartbeatPageWrite (s : State) : Out :=
  s.run (fun d => if d.linked && (d.session == 2 || d.session == 3) then d.beatHeart else d)

/-! Acceptance and entries. -/

/-- The engine fetches the next command entry (R360): its 64 bytes, or a failed read that stops the ring. -/
def execCommandAccept (f : Fetch) (s : State) : Out :=
  s.run (fun d =>
    if !d.linked || decide (256 ≤ d.outstanding) then d
    else
      match d.nextRing with
      | none => d
      | some r =>
        match f with
        | .failed => ((d.stopRing r).raise (srcNo 0 4) noDetail).dmaError
        | .bytes b => d.accept r b)

def execCompletionWrite (s : State) : Out := s.run (fun d => if d.linked then d.writeCpl else d)

/-- CTIME µs have passed since the first entry of a completion or telemetry ring not yet signalled (R355). -/
def execCoalesceTimeout (r : Fin 41) (s : State) : Out :=
  s.run (fun d =>
    if !d.linked || r.val == 32 || d.get HQE_CTIME == 0 || d.host.unsig.getD r 0 == 0 then d
    else
      ({ d with host := { d.host with unsig := updAt d.host.unsig r (fun _ => 0) } }).send (.msix (d.get (RING_CQVEC (32 + r)))))

/-- The oldest host entry not yet written (R383). -/
def execEventEntryWrite (s : State) : Out :=
  s.run (fun d =>
    match d.host.evOut with
    | [] => d
    | e :: rest => if d.up then ({ d with host := { d.host with evOut := rest } }).writeEvent e else d)

def execTelemetryWrite (s : State) : Out :=
  s.run (fun d =>
    match d.host.telOut with
    | [] => d
    | t :: rest => if d.up then ({ d with host := { d.host with telOut := rest } }).writeTel t else d)

/-- The write of the next entry of a device-written ring fails on PCI Express (R472): the ring stops; a completion waits, an
event stays in the log only, a telemetry record is discarded. -/
def execHostDmaFail (r : Fin 41) (s : State) : Out :=
  s.run (fun d =>
    let n := 32 + r.val
    if !d.linked || !d.ringOn n then d
    else
      let stop := fun (d : Dev) => (d.stopRing n).dmaError
      if n < 64 then
        if d.waitingCpls.any (fun c => d.cplRing c == n && d.cplWritable c) then (stop d).held true else d
      else if n = 64 then
        match d.host.evOut with
        | [] => d
        | e :: rest =>
          if e.vec = 0xFF || !d.hostOpen || d.ringFull 64 then d
          else stop ((({ d with host := { d.host with evOut := rest } }).logEvent e).unsentEvent)
      else
        match d.host.telOut with
        | [] => d
        | t :: rest =>
          if 65 + t.ring = n && d.hostOpen && !d.ringFull n then stop { d with host := { d.host with telOut := rest } } else d)

/-! The watchdog and resets of the engine. -/

/-- The heartbeat age reaches HBTMO (R374). -/
def execHeartbeatTimeout (s : State) : Out :=
  s.run (fun d =>
    if !d.up || !(d.session == 2 || d.session == 3) || d.get HQE_HBTMO == 0 then d
    else
      let d := d.reach (d.host.hbAt + 1000000 * d.get HQE_HBTMO)
      let ss1 := d.is HQE_REACT
      let d := ((d.put HQE_STATE 4).bump 0x1050).raise (srcNo 0 0) noDetail
      let d := { d with host := { d.host with tloss := d.now, telOut := [], freshRings := 0,
                                              reactRun := if ss1 then 2 else 1 } }
      let d := d.put HQE_HBAGE (d.get HQE_HBTMO)
      let d := d.abortGroups
      let d := if ss1 then d.stopRequest.requestSs1 else d
      d.stopAxes 1)

/-- A write to HQE_CTRL: a 1 in RESET resets the engine (R376). -/
def execQueueEngineReset (w : Word) (s : State) : Out :=
  s.run (fun d => if d.linked && w.toNat % 2 == 1 then d.queueReset else d)

/-- A function-level reset does the same; configuration space and MSI-X reset with it. -/
def execFunctionLevelReset (s : State) : Out := s.run (fun d => if d.linked then d.queueReset else d)

def execQueueResetDone (s : State) : Out :=
  s.run (fun d =>
    if d.up && d.is HQE_RSTBUSY then ((d.putB HQE_RSTBUSY false).raise (srcNo 0 2) noDetail).reopen 31 else d)

/-! Attach (R372, R373, R444). -/

/-- PARAM of an ATTACH in range. -/
def attachOk (c : Cmd) : Bool :=
  let t := c.u 0x24 2
  (c.u 0x18 8 == 0 || decide (64 ≤ c.u 0x20 4)) && (t == 0 || (10 ≤ t && t ≤ 10000)) && decide (c.u 0x26 1 < 2)

/-- HBTMO and REACT of the ATTACH take effect, the state is ATTACHED and the watchdog starts. -/
def Dev.attached (d : Dev) (c : Cmd) : Dev :=
  let t := c.u 0x24 2
  let d := ((d.put HQE_HBTMO (if t = 0 then 100 else t)).put HQE_REACT (c.u 0x26 1)).put HQE_STATE 2
  (d.beatHeart).raise (srcNo 0 1) noDetail

/-- The reattach: digest, master copies, report, then ATTACHED. -/
def Dev.reattach (d : Dev) (c : Cmd) (img : Fetch) (copies : List Fetch) (repOk : Bool) : Dev :=
  match img with
  | .failed => d.dmaError.unitFault c.id 1
  | .bytes b =>
    if b.length ≠ c.len ∨ imageDigest b ≠ d.host.digest then d.finish c.id .rejectedParam
    else
      let d := { d with host := { d.host with tatt := c.accepted } }
      let prev := d.host.copies.filter (fun m => m.cmd.isNone && m.kind == 0)
      let rest := d.host.copies.filter (fun m => !(m.cmd.isNone && m.kind == 0))
      let img : MCopy := ⟨0, 0, c.addr, c.len, 0, leNat (d.host.digest.take 4), none, false⟩
      let d := ({ d with host := { d.host with copies := img :: rest } }).checkCopies copies
      let addr := c.u 0x18 8
      let rep := d.report c.id ((c.u 0x20 4 - 64) / 32)
      if addr ≠ 0 ∧ !repOk then
        let kept := d.host.copies.filter (fun m => !(m.cmd.isNone && m.kind == 0))
        ({ d with host := { d.host with copies := prev ++ kept } }).dmaError.unitFault c.id 2
      else
        let d : Dev := if addr = 0 then d
          else
            let gone := fun (x : Cmd) => x.done.isSome && rep.1.any (fun y => y.id == x.id)
            let d := d.send (.hostWrite addr rep.2.2)
            let open_ := (d.host.cmds.filter (fun x => x.done.isNone)).map (·.id)
            ({ d with host := { d.host with cmds := d.host.cmds.filter (fun (x : Cmd) => !gone x),
                                            cplQ := d.host.cplQ.filter (fun (i : Nat) => open_.contains i) } }).showJournal
        let d := d.attached c
        -- what is still pending posts its completion from here on, with FLAGS.REATTACH (R373)
        let d := { d with host := { d.host with tloss := 0, reactRun := 0, cmds := d.host.cmds.map (fun (x : Cmd) =>
          if x.done.isNone ∧ x.id ≠ c.id then { x with reattach := true } else x) } }
        let d := if d.waitingCpls.isEmpty then d.putB HQE_CPLHELD false else d
        if addr = 0 then d.complete c.id .ok 0 0 (d.get HQE_FWVER) 0
        else d.complete c.id .ok rep.2.2.length 0 (d.get HQE_FWVER) rep.2.1

/-- ATTACH. In BOOT it hands over the image, which IMAGE_VERIFY_DONE then finds verified or not; otherwise it reattaches,
with the image and the master copies as re-read and whether the report could be written. -/
def execAttach (img : Fetch) (copies : List Fetch) (repOk : Bool) (s : State) : Out :=
  s.run (fun d => d.start 0x01 (fun d c =>
    if !attachOk c then d.finish c.id .rejectedParam
    else if d.host.attaching.isSome then d.finish c.id .rejectedState
    else if d.session = 0 then
      if d.boot.partFail || d.boot.pllFail then d.unitFault c.id 3
      else
        let d := (d.registerCopy c 0 0).put TST_STAGE 6
        { d with host := { d.host with attaching := some c.id, tatt := c.accepted } }
    else (d.reattach c img copies repOk).hibCheck))

/-- The image fetched by the first ATTACH has been checked (R444): rejected with CAUSE, or the Masons start; the firmware then
sets the internal targets of the event sources. -/
def execImageVerifyDone (f : Fetch) (tgts : List TgtSet) (s : State) : Out :=
  s.run (fun d =>
    match d.host.attaching.bind d.cmd? with
    | none => d
    | some c =>
      if !d.up || d.get TST_STAGE != 6 then d
      else
        let d := { d with host := { d.host with attaching := none } }
        match f with
        | .failed => ((d.put TST_STAGE 5).put TST_CAUSE 6).dmaError.unitFault c.id 1
        | .bytes b =>
          let k := imageCheck b c.len
          if k ≠ 0 then
            (((d.put TST_STAGE 5).put TST_CAUSE k).raise (srcNo 15 10) noDetail).finish c.id .rejectedParam
          else
            let dig := imageDigest b
            let d := (((d.put TST_STAGE 7).put TST_CAUSE 0).put HQE_FWVER (uAt b 0x0C 4)).startMasons.setTargets tgts
            let d := { d with host := { d.host with digest := dig } }
            let d := (d.adoptCopy c.id 0 0 0 (leNat (dig.take 4))).raise (srcNo 15 11) noDetail
            (d.attached c).complete c.id .ok 0 0 (uAt b 0x0C 4) 0)

/-! DETACH, HEARTBEAT (R374, R375). -/

/-- The units forget the commands that wait in them. A commons that is RELPEND stays so (R377); an axis or loop keeps what it
has taken up. -/
def Dev.cancelUnits (d : Dev) : Dev :=
  let aux := d.field.aux.map (fun (a : AuxRt) => { a with cmd := none, next := none, wait := none })
  let ports := d.heath.ports
  let d : Dev := { d with
    kiln := { d.kiln with loading := none, activating := none, limitsPend := [], group := [],
                          changes := d.kiln.changes.filter (fun (c : RefChange) => match c with | .append _ _ => true | _ => false) }
    heath := { d.heath with loading := none, awaiting := none, switch := none, ports := ports }
    servo := { d.servo with loading := none, pending := none }
    commons := { d.commons with queue := [], reqs := [],
                                holds := d.commons.holds.map (fun (h : Hold) => { h with release := none }) }
    time := { d.time with pending := none }
    field := { d.field with aux := aux, hl := none }
    safety := { d.safety with load := none, loadA := none, loadB := none, a := { d.safety.a with next := none },
                              b := { d.safety.b with next := none } }
    host := { d.host with stateRead := [], attaching := none } }
  let d := ((d.putB KLN_ACTPEND false).putB KLN_LOADBUSY false).putB SRV_PPEND false
  (List.range 4).foldl (fun (d : Dev) p => d.putB (HTL_SWPEND p) false) d

/-- DETACH in IDLE or STOPPED: every other pending command ends ABORTED, the firmware image is released. -/
def execDetach (s : State) : Out :=
  s.run (fun d => d.start 0x02 (fun d c =>
    if !d.idleOrStopped then d.finish c.id .rejectedState
    else
      let others := (d.host.cmds.filter (fun x => x.done.isNone && x.id != c.id)).map (·.id)
      let d := d.cancelUnits
      let d := others.foldl (fun (d : Dev) id => d.complete id .aborted (((d.cmd? id).map (·.progress)).getD 0) 0 0 0) d
      let d := (d.releaseCopy 0 0).put HQE_STATE 1
      d.complete c.id .ok others.length 0 0 0))

def execHeartbeat (s : State) : Out :=
  s.run (fun d => d.start 0x03 (fun d c =>
    let d := if d.session = 2 then d.beatHeart else d
    d.complete c.id .ok 0 0 d.now (d.reg 0x5414).toNat))

/-! Reads and telemetry (R367 to R369). -/

def itemSize : Nat → Nat
  | 0 => 960 | 1 => 64 | 2 => 128 | 3 => 1024 | 4 => 64 | 5 => 768 | 6 => 64 | 7 => 512 | 8 => 256 | 9 => 384 | _ => 0

/-- STATE_READ is checked and waits for its cross-check point. -/
def execStateRead (s : State) : Out :=
  s.run (fun d => d.start 0x40 (fun d c =>
    let m := c.u 0x18 2
    if 1024 ≤ m ∨ c.len < ((bitsOf m 10).map itemSize).foldl (· + ·) 0 then d.finish c.id .rejectedParam
    else { d with host := { d.host with stateRead := d.host.stateRead ++ [c.id] } }))

/-- LOG_FETCH: entries from FROMSEQ on in ascending SEQ; `wrOk` says that the write to the buffer succeeds. -/
def execLogFetch (wrOk : Bool) (s : State) : Out :=
  s.run (fun d => d.start 0x41 (fun d c =>
    if 2 ≤ c.u 0x18 1 then d.finish c.id .rejectedParam
    else
      let log := if c.u 0x18 1 = 0 then d.host.log else d.ret.log
      let frm := c.u 0x1C 4
      let n := min (c.u 0x20 2) (c.len / 32)
      let sel := (log.filter (fun e => e.seq == frm || newer 32 e.seq frm)).take n
      let lost := sel.zipIdx.any (fun x => x.1.seq != (frm + x.2) % 2 ^ 32)
      let newest := (log.getLast?.map (·.seq)).getD 0
      if (!wrOk || d.session == 4) && !sel.isEmpty then d.hostFault c.id 2
      else
        let d := if sel.isEmpty then d else d.send (.hostWrite c.addr (sel.flatMap (fun e => e.bytes false)))
        d.complete c.id (if lost then .partial_ else .ok) sel.length (if lost then 1 else 0)
          ((sel.head?.map (·.seq)).getD 0) newest))

/-- TELEMETRY_CONFIG: each enabled ring of RINGMASK is configured. -/
def execTelemetryConfig (s : State) : Out :=
  s.run (fun d => d.start 0x42 (fun d c =>
    let st := c.u 0x19 1
    let dec := c.u 0x1C 2
    if !(1 ≤ st ∧ st ≤ 6) ∨ 2 ≤ c.u 0x1A 1 ∨ dec = 0 then d.finish c.id .rejectedParam
    else
      let rings := bitsOf (c.u 0x18 1) 8
      let ok := rings.filter (fun t => d.is (RING_EN (65 + t)))
      let bad := rings.filter (fun t => !d.is (RING_EN (65 + t)))
      let kept := d.host.telCfg.filter (fun (t : TelCfg) => !(t.stream == st && ok.contains t.ring))
      let new := if c.u 0x1A 1 = 1 then ok.map (fun r => (⟨r, st, dec, 0⟩ : TelCfg)) else []
      let d := { d with host := { d.host with telCfg := kept ++ new,
                                              jointMask := if st = 3 then c.u 0x20 8 else d.host.jointMask } }
      d.complete c.id (if bad.isEmpty then .ok else .partial_) ok.length (maskOf bad) 0 0))

end Sys2Proof.Machine
end

