-- ==== Sys2Proof/Machine/Control.lean ====
section
/-! DEFINITION. Hangs of mortar ports (R408), re-fetches (R64, R409), lane tests (R446) and the rejoins that use them (R135,
R157), the restart and the stop of the planner (R130, R131), and DIAG (R370). -/

namespace Sys2Proof.Machine

/-! Hangs (Table — Hang reactions). -/

/-- The Kiln is reset: what it was assembling is gone, and the stride falls to the deadline path. -/
def Dev.kilnHang (d : Dev) : Dev :=
  { d with kiln := { d.kiln with assembling := false, rebuilding := false, delivered := false, prob := none, used := none,
                                 last := d.kiln.last.map (fun (x : Nat × Bool × Bool) => (x.1, false, false)) } }

/-- The record in construction is not delivered (R211). -/
def Dev.dropSepRecord (d : Dev) : Dev :=
  match d.commons.built with
  | some r => { d with commons := { d.commons with built := none, lateAt := some r.tfrom } }
  | none => d

/-- Joints fed by local feedback channels are missing for the beat (R152). -/
def Dev.fieldHang (d : Dev) : Dev :=
  ((List.range 24).filterMap d.channelJoint).foldl (fun (d : Dev) j => d.missJoint j.gj) d

def Dev.hangReaction (d : Dev) (p : Nat) : Dev :=
  if p < 4 then d.giveUp (p / 2)
  else if p = 4 then d.kilnHang
  else if p = 5 ∨ p = 38 then d.dropSepRecord
  else if p = 6 then d.chanFault false
  else if p < 23 then d.engineFail (p - 7)
  else if p < 31 then d.masonFail (p - 23)
  else if p = 31 then d.queueReset
  else if p < 36 then d.setPen (p - 32) false
  else if p = 37 then d.fieldHang
  else d

/-- PORT_HANG: the port's grants and locks go, it is closed, recorded and raised, and its owner reacts. A sequence at the lock
words of mortar memory is numbered by its port. -/
def execPortHang (port : Fin 39) (s : State) : Out :=
  s.run (fun d =>
    let p := port.val
    if !d.up || d.is (FAB_CLOSED p) then d
    else
      let d := (d.dropPort p).releaseAll 2 p
      let d := (d.putB (FAB_CLOSED p) true).bump 0xF048
      let d := (d.errRec 3 4 p 5 (if 7 ≤ p ∧ p < 23 then p - 7 else if 23 ≤ p ∧ p < 31 then p - 23
        else if 32 ≤ p ∧ p < 36 then p - 32 else 0) 0 0).raise (srcNo 1 6) p
      d.hangReaction p)

/-! Re-fetches. -/

/-- The assembly that waited for the active slot starts: resumed, or as a rebuild once a check point has passed (R64). -/
def Dev.resumeAssembly (d : Dev) : Dev :=
  if d.plState = 0 ∨ !d.kiln.assembling ∨ d.kiln.prob.isSome then d
  else
    let s := if d.kiln.last.isSome then d.s + d.ts else d.s
    let passed := decide (d.kiln.asmAt < d.s + 70000) && decide (d.s + 70000 ≤ d.now)
    -- an assembly that only resumes keeps its epoch
    let d := if passed then d else d.put KLN_EPOCH ((d.get KLN_EPOCH + 65535) % 65536)
    d.startBuild s passed

/-- REFETCH_DONE: the copy of a kind (1 active model, 2 staged model, 4 schedule, 5 servo container) as re-read. -/
def execRefetchDone (kind : Nat) (f : Fetch) (s : State) : Out :=
  s.run (fun d =>
    if !d.up || !d.kiln.refetch.contains kind then d
    else
      let done := fun (d : Dev) => { d with kiln := { d.kiln with refetch := d.kiln.refetch.filter (· != kind) } }
      let held := d.host.copies.find? (fun m => m.kind == kind && m.cmd.isNone)
      let loading := d.host.copies.find? (fun m => m.kind == kind && m.cmd.isSome)
      let copy := if kind = 1 ∨ kind = 2 then held else loading.orElse (fun _ => held)
      -- while the host cannot serve it, the transfer does not take place (R371, R375)
      let good : Bool := match f with | .bytes b => d.hostServes && copy.any (fun m => m.matches b) | .failed => false
      let d := match f with | .failed => if d.hostServes then d.dmaError else d | .bytes _ => d
      if good then
        if kind = 1 then ((done d).put KLN_ACTV 1).resumeAssembly
        else if kind = 2 then (done d).put KLN_STGV 1
        else done d
      -- a model slot's is repeated once per stride (R64)
      else if kind = 1 ∨ kind = 2 then d.refetchFail kind
      else (done d).refetchFail kind)

/-- Once per stride a failed re-fetch of a model slot is repeated (R64). -/
def Dev.repeatRefetch (d : Dev) : Dev :=
  [(1, KLN_ACTV), (2, KLN_STGV)].foldl (fun (d : Dev) (x : Nat × Fld) =>
    if d.kiln.refetch.contains x.1 && d.get x.2 == 3 then (d.put x.2 2).refetch x.1 else d) d

/-! Lane tests. -/

/-- Courses of a wall after its bricks failed: one brick of a course brings in the spare, a second degrades it. -/
def Dev.laneCourses (d : Dev) (w : Nat) : Dev :=
  (List.range 8).foldl (fun (d : Dev) c =>
    let n := (((d.wall w).retired.filter (fun (x : Nat × Nat) => x.1 == c)).map (·.2)).eraseDups.length
    if 2 ≤ n then d.put (SLV_CSTATE w c) 3 else if n = 1 ∧ d.get (SLV_CSTATE w c) ≠ 3 then d.put (SLV_CSTATE w c) 1 else d) d

/-- The test of a wall ends with the bricks that failed and whether its memory did. -/
def Dev.laneWall (d : Dev) (w : Nat) (bricks : List (Nat × Nat)) (mem : Bool) : Dev :=
  let bs := bricks.map (fun (x : Nat × Nat) => (x.1 % 8, x.2 % 17))
  let d := (d.updW w (fun x => { x with retired := (x.retired ++ bs).eraseDups, testing := false })).laneCourses w
  let fail := mem || bitOf (d.get TST_MFAIL) w || (List.range 8).any (fun c => d.get (SLV_CSTATE w c) == 3)
  let d := d.put TST_WFAIL (setBit (d.get TST_WFAIL) w fail)
  let d := if fail || !bs.isEmpty then d.raise (srcNo 15 9) noDetail else d
  let d := d.updW w (fun x => { x with avail := !fail })
  if fail then d.showNosb else (d.reopen (2 * w)).reopen (2 * w + 1)

/-- The test of an engine at boot. -/
def Dev.laneEngineBoot (d : Dev) (e : Nat) (fail : Bool) : Dev :=
  let d := d.put TST_EFAIL (setBit (d.get TST_EFAIL) e fail)
  if fail then (d.putB (SRV_FAILED e) true).raise (srcNo 15 9) noDetail else d

/-- The test of an engine at its rejoin, and the re-fetch of its program and parameters (R157, R409). -/
def Dev.laneEngineRejoin (d : Dev) (e : Nat) (fail : Bool) (f : Fetch) : Dev :=
  let d := (d.put TST_EFAIL (setBit (d.get TST_EFAIL) e fail)).updE e (fun g => { g with testing := false })
  if fail then d.raise (srcNo 15 9) noDetail
  else
    let d := d.raise (srcNo 1 2) noDetail
    let good : Bool := match d.host.copies.find? (fun m => m.kind == 5 && m.cmd.isNone), f with
      | some m, .bytes b => d.hostServes && m.matches b
      | some _, .failed => false
      | none, _ => true
    if !good then d.refetchFail 5
    else
      let ps := match d.servo.params with | some p => p.progs | none => []
      -- it starts like a fresh engine and takes no joints until the binding changes; the sources held for it are delivered (R390)
      let held := d.engSrcs.any (fun x => x.eng == e && x.pend)
      ((d.putB (SRV_FAILED e) false).updE e (fun _ => { (Engine.zero.loadImages ps).startBase (baseEntry ps) with
        spare := true, pend := if held then 2 ^ 6 else 0, asleep := false })).reopen (7 + e)

/-- The built-in tests of the boot are complete: link training, then BOOT (R443). -/
def Dev.bootTested (d : Dev) : Dev := if d.boot.laneLeft = 0 then d.put TST_STAGE 5 else d

/-- LANE_TEST_DONE of part 0 or 1, a wall, or part 2 + e, engine e. `bricks` and `fail` are what failed; `f` is the servo
container as re-read for a rejoin. -/
def execLaneTestDone (part : Fin 18) (bricks : List (Nat × Nat)) (fail : Bool) (f : Fetch) (s : State) : Out :=
  s.run (fun d =>
    let n := part.val
    if !d.up then d
    else if d.get TST_STAGE = 3 then
      if !bitOf d.boot.laneLeft n then d
      else
        let d := { d with boot := { d.boot with laneLeft := setBit d.boot.laneLeft n false } }
        (if n < 2 then d.laneWall n bricks fail else d.laneEngineBoot (n - 2) fail).bootTested
    else if n < 2 then (if (d.wall n).testing then d.laneWall n bricks fail else d)
    else if (d.engine (n - 2)).any (fun (g : Engine) => g.testing) then d.laneEngineRejoin (n - 2) fail f
    else d)

/-- A write of REJOINA or REJOINB (R135). -/
def Dev.wallRejoin (d : Dev) (w : Nat) : Dev :=
  if d.role w ≠ 0 then d.regErr 5 else d.updW w (fun x => { x with testing := true })

def execWallRejoin (w : Fin 2) (s : State) : Out := s.run (fun d => if d.linked then d.wallRejoin w.val else d)

/-! The planner. -/

/-- No SS1 or STO request of a channel's own is active: no arm is latched. A channel without a set holds every arm in STO. -/
def Dev.noRequest (d : Dev) (h : Bool) : Bool :=
  d.chUp h && (!h || d.is CLK_XDIE) &&
    (bitsOf (match d.setOf h with | some s => s.armMask | none => 0xFF) 8).all (fun a => !(d.ch h).latchedArm a)

/-- A write of SLV_PLCTRL.RESTART (R131). -/
def Dev.plannerRestart (d : Dev) : Dev :=
  match d.active?, d.kiln.active with
  | some _, some m =>
    if d.plState ≠ 4 ∨ !d.noRequest false ∨ !d.noRequest true then d.regErr 5
    else
      let plan := d.standstill d.planner.lastSeq d.planner.lastToken (d.s + d.ts) m
      let d := (d.put SLV_PLSTATE 1).put SLV_MISSC 0
      { d with planner := { d.planner with exitRun := 0, restart := some plan } }.hibCheck
  | _, _ => d.regErr 5

def execPlannerRestart (s : State) : Out := s.run (fun d => if d.linked then d.plannerRestart else d)

/-- Is an arm at standstill (R130)? Each of its joints is below its threshold in the safety set in force. -/
def Dev.armStill (d : Dev) (m : Model) (s : SafSet) (a : Nat) : Bool :=
  (m.joints.filter (fun j => j.arm == a)).all (fun j => match s.joints.find? (fun x => x.gj == j.gj) with
    | some x => decide ((d.measV j.gj).natAbs < x.vss)
    | none => false)

/-- Every present arm is at standstill in this beat. -/
def Dev.allStill (d : Dev) : Bool :=
  match d.kiln.active with
  | none => true
  | some m =>
    let arms := (m.arms.map (·.armid)).filter (fun a => bitOf d.kiln.present a)
    arms.isEmpty || (match d.setOf false with
      | some s => arms.all (fun a => d.armStill m s a)
      | none => false)

/-- PLANNER_STOPPED: standstill has lasted 3 beats. -/
def execPlannerStopped (s : State) : Out :=
  s.run (fun d => if d.up && d.plState == 3 && decide (3 ≤ d.planner.standBeats) then d.put SLV_PLSTATE 4 else d)

/-! DIAG. -/

/-- DIAG: the loop-back buffer as read and whether its complement could be written, whether the vector is masked, and the
channels that fail the self-test. -/
def execDiag (loop : Fetch) (wrOk masked : Bool) (fail : BitVec 16) (s : State) : Out :=
  s.run (fun d => d.start 0x70 (fun d c =>
    let mask := c.u 0x18 2
    let vec := c.u 0x1A 1
    if 8 ≤ mask ∨ (bitOf mask 2 ∧ 64 ≤ vec) then d.finish c.id .rejectedParam
    else
      let loopRun := bitOf mask 1 && c.addr != 0 && decide (4 ≤ c.len) && decide (c.len ≤ 4096)
      let d := if bitOf mask 0 then d.selfTest fail.toNat else d
      let res := if bitOf mask 0 then (d.reg 0xE004).toNat else 0
      let f0 := bitOf mask 0 && fail != 0
      let back := match loop with
        | .bytes b => if wrOk ∧ b.length = c.len ∧ d.session ≠ 4 then some b else none
        | .failed => none
      let f1 := loopRun && back.isNone
      let d : Dev := if !loopRun then d else match back with
        | some b => d.send (.hostWrite c.addr (b.map (fun x => ~~~x)))
        | none => if d.session = 4 then d else d.dmaError
      let f2 := bitOf mask 2 && masked
      let d := if bitOf mask 2 && !masked then d.send (.msix vec) else d
      let bit := fun (b : Bool) (n : Nat) => if b then 2 ^ n else 0
      let run := [bitOf mask 0, loopRun, bitOf mask 2].filter id
      let bad := bit f0 0 + bit f1 1 + bit f2 2
      d.complete c.id (if bad = 0 then .ok else .partial_) run.length bad res 0))

end Sys2Proof.Machine
end

