-- ==== Sys2Proof/Machine/Beat.lean ====
section
/-! DEFINITION. The beat tick (R25, R27, R128, R130, R265, R293, R294, R471), the stride boundary (R24, R149) and the
cross-check point with its snapshot of the state (R245, R367). -/

namespace Sys2Proof.Machine

/-! The beat tick. -/

/-- A change of beat leaves no schedule, no parameter set and no safety set in force (R150, R256, R275). -/
def Dev.dropForBeat (d : Dev) : Dev :=
  let d := ((d.dropSchedule.put HTL_PEN 0).releaseCopy 4 0).releaseCopy 5 0
  let d : Dev := { d with servo := { d.servo with params := none, joints := [], unbound := [] }
                          safety := { d.safety with inForce := false } }
  let d := (((d.putB SRV_PVALID false).putB SRV_UNBOUND false).put SRV_PSETID 0).publishAlloc
  let d := if d.chUp false then d.settle false else d
  if d.chUp true then d.settle true else d

/-- An accepted TIME_CONFIG takes effect (R294). -/
def Dev.takeTimeConfig (d : Dev) : Dev :=
  match d.time.pending with
  | none => d
  | some (l, _, id) =>
    let changed := l.tb != d.time.layout.tb
    let d : Dev := { d with time := { d.time with layout := l, pending := none } }
    let d := if changed then d.dropForBeat else d
    (d.raise (srcNo 10 11) noDetail).complete id .ok 0 0 d.now 0

/-- What each beat counts or reports once starts anew. -/
def Dev.clearOnce (d : Dev) : Dev :=
  let fresh := fun (c : Channel) => { c with
    judged := false, owed := if c.judged then 0 else c.missingAxes,
    axes := c.axes.map (fun (x : SafAxis) => { x with got := false, err := false, back := none }) }
  { d with fabric := { d.fabric with lktSeen := false }
           planner := { d.planner with endPlan := d.planner.chanA.inForce }
           time := { d.time with dropSeen := false }
           mains := { d.mains with ovSeen := false }
           safety := { d.safety with a := fresh d.safety.a, b := fresh d.safety.b } }

/-- Beats at standstill while STOPPING (R130), then the stop branch if a request has reached the servo wall (R128, R471). A
planner that is STOPPED stays there. -/
def Dev.stopTick (d : Dev) (t : Nat) : Dev :=
  let d : Dev := if d.plState = 3 then
      { d with planner := { d.planner with standBeats := if d.allStill then d.planner.standBeats + 1 else 0 } }
    else d
  if !d.planner.stopReq then d
  else if d.plState = 4 then { d with planner := { d.planner with stopReq := false } }
  else d.enterStop t

/-- The beat tick at its instant. -/
def Dev.beatTick (d : Dev) : Dev :=
  let nb := d.nextBeat
  let ended := d.time.beatAt
  let first := !d.time.ticked
  let d := d.reach nb.1
  -- the beat that ends
  let d := if first then d else d.heathEnd
  let d := if nb.2 then d.takeTimeConfig else d
  -- the beat that begins
  let d := d.put HTL_BEAT ((d.get HTL_BEAT + 1) % 2 ^ 32)
  let bis := if nb.2 || first then 0 else (d.time.bis + 1) % d.time.layout.strb
  let d : Dev := { d with time := { d.time with ticked := true, beatAt := nb.1, bis := bis,
                                                strideAt := if bis = 0 then nb.1 else d.time.strideAt } }
  let d := d.clearOnce
  let d := (d.servoBeat ended).fieldBeat
  let d := (d.stopTick nb.1).latchBeat.heathBegin
  let d := (d.reopen 36).reopen 37
  let d := if bis = 0 then d.reopen 4 else d
  let d := d.showAge.raise (srcNo 10 12) noDetail
  let d := if bis = 0 then d.raise (srcNo 10 13) noDetail else d
  d.hibCheck

/-- BEAT_TICK: cell time reaches the next beat instant. -/
def execBeatTick (s : State) : Out := s.run (fun d => if d.up && d.time.started then d.beatTick else d)

/-- STRIDE_BOUNDARY, after the stride's beat tick: plans (R24), the parameter set that waits (R149), and the re-fetches that
are repeated each stride (R64). -/
def execStrideBoundary (s : State) : Out :=
  s.run (fun d => if d.up && d.time.ticked then ((d.planBoundary.activateParams).repeatRefetch).hibCheck else d)

/-! The snapshot of STATE_READ (Table — State items). -/

def regWords (d : Dev) (offs : List Nat) : List Byte := offs.flatMap (fun o => leBytes 4 (d.reg o).toNat)

/-- `n` bytes: what is given, then zeros. -/
def padTo (n : Nat) (b : List Byte) : List Byte := (b ++ List.replicate n 0).take n

def Dev.jointItem (d : Dev) (gj : Nat) : List Byte :=
  let bit := fun (b : Bool) (n : Nat) => if b then 2 ^ n else 0
  let j := d.kiln.active.bind (fun m => m.joint? gj)
  let fe := ((d.jrt gj).map (fun (x : JointRt) => divRne x.fe 65536)).getD 0
  s32 (satS 32 (d.measQ gj)) ++ s32 (satS 32 (d.measV gj)) ++ s32 (satS 32 fe) ++
    leBytes 4 (bit (j.any (fun x => bitOf d.kiln.present x.arm)) 0 + bit (j.any (fun x => d.jointDelivers x)) 1 +
      bit (d.is (SRV_FEWARN gj)) 2 + bit (d.is (SRV_FEFLT gj)) 3)

/-- Content of an item, and whether its unit supplied all of it. -/
def Dev.stateItem (d : Dev) (n : Nat) : List Byte × Bool :=
  match n with
  | 0 => ((List.range 60).flatMap (fun gj => d.jointItem gj), true)
  | 1 => (padTo 64 (regWords d [0x5414, 0x5418, 0x541C, 0x5420, 0x5020, 0x503C, 0x5104]), true)
  | 2 => (regWords d ((List.range 32).map (fun i => 0x7040 + 4 * i)), true)
  | 3 => (regWords d ((List.range 256).map (fun i => 0x7800 + 4 * i)), true)
  | 4 =>
    let half := fun (base : Nat) => padTo 32 (regWords d ((List.range 7).map (fun i => base + 4 * i)))
    if d.is CLK_XDIE then (half 0x8000 ++ half 0x9000, true) else (padTo 64 (half 0x8000), false)
  | 5 => (regWords d ((List.range 192).map (fun i => 0x4400 + 4 * i)), true)
  | 6 => (padTo 64 (regWords d.latchTime ((List.range 10).map (fun i => 0x3020 + 4 * i))), true)
  | 7 => ((List.range 16).flatMap (fun a =>
      padTo 32 (regWords d ([0x0C, 0x10, 0x14, 0x18, 0x1C, 0x20, 0x30].map (auxReg a)))), true)
  | 8 => ((List.range 32).flatMap (fun l => regWords d [hysReg l 0x18, hysReg l 0x1C]), true)
  | _ => ((List.range 24).flatMap (fun c => regWords d ([0x20, 0x24, 0x28, 0x2C].map (fioReg c))), true)

/-- One STATE_READ at its cross-check point: items that the unit cannot supply (`bad`) are zeros, named in PARTS. -/
def Dev.snapshot (d : Dev) (id bad : Nat) (wrOk : Bool) : Dev :=
  match d.cmd? id with
  | none => d
  | some c =>
    if d.session = 4 ∨ !wrOk then d.hostFault id 2
    else
      let items := (bitsOf (c.u 0x18 2) 10).map (fun n =>
        if bitOf bad n then (n, List.replicate (itemSize n) 0, false) else (n, (d.stateItem n).1, (d.stateItem n).2))
      let gone := maskOf ((items.filter (fun x => !x.2.2)).map (·.1))
      let d := if items.isEmpty then d else d.send (.hostWrite c.addr (items.flatMap (fun x => x.2.1)))
      d.complete id (if gone = 0 then .ok else .partial_) (items.filter (fun x => x.2.2)).length gone d.now 0

/-- CROSS_CHECK_POINT: both channels, then the snapshots that wait. `bad` names items a failed unit or a parity error keeps
back, and `wrOk` says that the buffers can be written. -/
def execCrossCheckPoint (bad : BitVec 10) (wrOk : Bool) (s : State) : Out :=
  s.run (fun d =>
    let d := d.crossCheck
    if !d.up then d
    else
      let ids := d.host.stateRead
      let d : Dev := { d with host := { d.host with stateRead := [] } }
      ids.foldl (fun (d : Dev) id => d.snapshot id bad.toNat wrOk) d)

end Sys2Proof.Machine
end

