-- ==== Sys2Proof/Machine/Bar0.lean ====
section
/-! DEFINITION. BAR0: REGISTER_WRITE to every register, with what the register's own rule adds to its access types, and
BAR0_INVALID_ACCESS (R4 to R7, R12, R13, R31, R35). -/

namespace Sys2Proof.Machine

/-- The word a write would leave, and whether it gives a reserved encoding. -/
def Dev.wouldBe (d : Dev) (off : Nat) (w : Word) : Word × Bool :=
  match findReg off with
  | some r => writeWord r.fields 0 (d.reg off) w
  | none => (d.reg off, false)

/-- A rule of the register rejects the write: it changes nothing and the block's bit is set. -/
def Dev.reject (d : Dev) (off : Nat) : Dev := d.regErr (off / 4096)

/-- Accept the write unless `bad`. -/
def Dev.unless (d : Dev) (bad : Bool) (off : Nat) (w : Word) (e : WriteEnv) : Dev :=
  if bad then d.reject off else d.writeAt off w e.keep

/-! Blocks 0x0 to 0x4. -/

def Dev.writeGlb (d : Dev) (off : Nat) (w : Word) (e : WriteEnv) : Dev :=
  if off = 4 then d.writeRst w
  -- bits of BLKERR set in this cycle win, and one that goes from 0 to 1 raises REG_ERROR (R6, R35)
  else if off = 0x10 then (bitsOf e.keep.toNat 16).foldl Dev.regErr (d.writeAt off (w &&& ~~~e.keep) 0)
  else d.writeAt off w e.keep

/-- Ring of an offset of a ring register, and which of its four words it is. -/
def ringOf (off : Nat) : Option (Nat × Nat) :=
  let r := if 0x1100 ≤ off ∧ off < 0x1300 then some ((off - 0x1100) / 16)
    else if 0x1300 ≤ off ∧ off < 0x1500 then some (32 + (off - 0x1300) / 16)
    else if 0x1500 ≤ off ∧ off < 0x1510 then some 64
    else if 0x1600 ≤ off ∧ off < 0x1680 then some (65 + (off - 0x1600) / 16)
    else none
  r.map (fun r => (r, off % 16))

def Dev.writeHqe (d : Dev) (off : Nat) (w : Word) (e : WriteEnv) : Dev :=
  if off = 0x1000 then (if w.toNat % 2 = 1 then d.queueReset else d)
  else match ringOf off with
    | some (r, 8) => d.ringCfg r w e.keep
    | some (_, 12) => d.writeAt off w e.keep
    | some (r, _) => d.unless (d.is (RING_EN r)) off w e
    | none => d.writeAt off w e.keep

/-- TIM_CTRL: ALIGN stays as it is once the cell runs (R308); REFDOM and SLVEN act as R297 and R301 say. -/
def Dev.writeTimCtrl (d : Dev) (w : Word) : Dev :=
  let v := w.toNat
  let frozen := d.is TIM_RUNNING && bitOf v 3 != d.is TIM_ALIGN
  let d := if frozen then d.regErr 3 else d.putB TIM_ALIGN (bitOf v 3)
  let d := ((d.putB TIM_AUTOSW (bitOf v 1)).putB TIM_SWMODE (bitOf v 2)).putB TIM_TCEN (bitOf v 6)
  let d := if d.get TIM_REFDOM = v % 2 then d else d.writeRefdom (v % 2)
  d.writeSlven (v / 16 % 4)

def Dev.writeTim (d : Dev) (off : Nat) (w : Word) (e : WriteEnv) : Dev :=
  if off = 0x3000 then d.writeTimCtrl w
  else if off = 0x3004 then d.writeDom w
  else if off = 0x300C ∨ off = 0x3010 then d.unless (d.get TIM_SLVENS != 0) off w e
  else d.writeAt off w e.keep

def Dev.writeHtl (d : Dev) (off : Nat) (w : Word) (e : WriteEnv) : Dev :=
  if off = 0x4000 then d.unless (d.get HTL_PEN != 0) off w e
  else if off = 0x4004 then
    let d := (List.range 4).foldl (fun (d : Dev) p => d.putB (HTL_JOINEN p) (bitOf w.toNat (4 + p))) d
    (List.range 4).foldl (fun (d : Dev) p => d.setPen p (bitOf w.toNat p)) d
  else d.writeAt off w e.keep

/-! Blocks 0x5 to 0x7. -/

/-- A wall holds the active role. -/
def Dev.anyActive (d : Dev) : Bool := d.role 0 == 1 || d.role 1 == 1

/-- SLV_RHO holds RMIN ≤ RINIT ≤ RMAX. -/
def rhoOk (v : Nat) : Bool :=
  decide (signed 8 (v / 2 ^ 8) ≤ signed 8 v) && decide (signed 8 v ≤ signed 8 (v / 2 ^ 16))

/-- A write to KLN_KNOTS or KLN_OBJW waits for the check point, which squashes for it (R81). -/
def Dev.kilnWritten (d : Dev) : Dev := { d with kiln := { d.kiln with written := true } }

def Dev.writeSlv (d : Dev) (off : Nat) (w : Word) (e : WriteEnv) : Dev :=
  let n := d.wouldBe off w
  let v := n.1.toNat
  -- a whole write is ignored where a field lies outside its range (solver set-up registers)
  if 0x5200 ≤ off ∧ off ≤ 0x5210 then d.unless (n.2 || (off == 0x5204 && !rhoOk v)) off w e
  else if off = 0x5010 then
    let ignored := decide (v / 2 ^ 12 % 128 < v / 2 ^ 8 % 16) || !missWithin (d.get SLV_MSTOP) v
    (if ignored then d else d.kilnWritten).unless ignored off w e
  else if off = 0x5014 then d.kilnWritten.writeAt off w e.keep
  else if off = 0x5400 then
    d.unless (d.anyActive || !timingWordsOk v (d.reg 0x5404).toNat d.time.layout.stride) off w e
  else if off = 0x5404 then
    if !timingWordsOk (d.reg 0x5400).toNat v d.time.layout.stride then d.reject off
    else
      let d := d.writeAt off w e.keep
      let d := if bitOf w.toNat 16 then d.wallRejoin 0 else d
      if bitOf w.toNat 17 then d.wallRejoin 1 else d
  else if off = 0x5408 then
    d.unless (n.2 || decide (v / 2 ^ 8 % 256 ≤ v % 256) || !missWithin (v / 2 ^ 8 % 256) (d.reg 0x5010).toNat) off w e
  else if off = 0x5410 then (if w.toNat % 2 = 1 then d.plannerRestart else d)
  else d.writeAt off w e.keep

def Dev.writeSrv (d : Dev) (off : Nat) (w : Word) (e : WriteEnv) : Dev :=
  if off = 0x600C then d.engineRejoin (w.toNat % 65536)
  else if off = 0x6024 then (if w.toNat % 2 ^ 18 = 0 then d.setReg off 0 else d)
  else d.writeAt off w e.keep

def Dev.writeCmn (d : Dev) (off : Nat) (w : Word) (e : WriteEnv) : Dev :=
  d.unless ((off == 0x7004 || (decide (0x7010 ≤ off) && decide (off ≤ 0x701C))) && !d.idleOrStopped) off w e

/-! Blocks 0x8 and 0x9: the SAFA_ window and the Hedge's mirror (R251, R258, R259). -/

def Dev.writeSafa (d : Dev) (off : Nat) (w : Word) (e : WriteEnv) : Dev :=
  if !d.safety.unlocked then d.reject off
  else if off = 0x801C then (if w.toNat % 2 = 1 then d.safaReset else d)
  else d.writeAt off w e.keep

/-- A write to a mirrored counter is forwarded to the Hedge while unlocked. -/
def Dev.writeHdg (d : Dev) (off : Nat) (w : Word) (e : WriteEnv) : Dev :=
  if off = 0x9080 then d.unlockKey w.toNat e.inTime
  else if 0x9040 ≤ off ∧ off ≤ 0x9058 then
    if !d.safety.unlocked then d.reject off
    else
      let clear := decide (w.toNat % 2 ^ 31 = 0) && d.is CLK_XDIE && d.hedgeUp
      -- an increment in the same cycle is counted after the clear (R13)
      let left : Word := if e.keep = 0 then 0 else 1
      { d with safety := { d.safety with
          hdgCnt := if clear then updAt d.safety.hdgCnt ((off - 0x9040) / 4) (fun _ => left) else d.safety.hdgCnt } }
  else d.writeAt off w e.keep

/-! Blocks 0xA and 0xB. -/

/-- The transfer of an SSI configuration completes within 25 µs (R316). -/
def ssiFits (v : Nat) : Bool :=
  decide ((v % 64 + v / 2 ^ 7 % 2 + 1) * 2 * (v / 2 ^ 8 % 1024) + v / 2 ^ 18 % 64 + 3 ≤ 5000)

def Dev.writeFb (d : Dev) (n k off : Nat) (w : Word) (e : WriteEnv) : Dev :=
  if k = 0 then d.writeFioCfg n w
  else if k = 4 then d.unless (d.fbLocked n || !ssiFits (d.wouldBe off w).1.toNat) off w e
  else if 0x0C ≤ k ∧ k ≤ 0x18 then d.unless (d.fbLocked n) off w e
  else if k = 0x1C then d.presetFb n w
  else if k = 0x2C then
    let d := d.writeAt off w e.keep
    d.putB (FIO_QSUM n) (d.is (FIO_QERR n))
  else if k = 0x30 then (if w.toNat % 2 = 1 then d.clearFbFault n else d)
  else d.writeAt off w e.keep

/-- FIO_QERRSUM shows QERR of every channel: a bit cleared there is cleared in FIO_STAT too. -/
def Dev.writeQerrsum (d : Dev) (off : Nat) (w : Word) (e : WriteEnv) : Dev :=
  let d := d.writeAt off w e.keep
  (List.range 24).foldl (fun (d : Dev) n => d.putB (FIO_QERR n) (d.is (FIO_QSUM n))) d

/-- AUX_CTRL: PHSKIP and EN as written, then a change of DRVOFF, then STOP (R337, R338). -/
def Dev.writeAuxCtrl (d : Dev) (a : Nat) (w : Word) : Dev :=
  let v := w.toNat
  let d := (d.putB (AUX_PHSKIP a) (bitOf v 1)).putB (AUX_EN a) (bitOf v 2)
  let d := if bitOf v 0 == d.is (AUX_DRVOFF a) then d else if bitOf v 0 then d.auxDriverOff a else d.auxDriverOn a
  if bitOf v 3 then d.auxStop a else d

def Dev.writeAux (d : Dev) (a k off : Nat) (w : Word) (e : WriteEnv) : Dev :=
  let st := d.get (AUX_STATE a)
  if k = 0 then
    let ok := st == 0 || st == 1 || st == 6
    (if ok then d.updAx a (fun r => { r with driven := true }) else d).unless (!ok) off w e
  else if k = 4 then d.unless (decide (d.get (AUX_DMAX a) < w.toNat) || !(st == 0 || st == 1)) off w e
  else if k = 8 then d.writeAuxCtrl a w
  else d.writeAt off w e.keep

def Dev.writeFio (d : Dev) (off : Nat) (w : Word) (e : WriteEnv) : Dev :=
  if off < 0xA600 then d.writeFb ((off - 0xA000) / 0x40) (off % 0x40) off w e
  else if off = 0xA704 then d.writeQerrsum off w e
  else if 0xA800 ≤ off ∧ off < 0xAC00 then d.writeAux ((off - 0xA800) / 0x40) (off % 0x40) off w e
  else d.writeAt off w e.keep

/-- MNS_MAINS names a channel twice, or one that measures a DC bus (R435). -/
def Dev.mainsClash (d : Dev) (v : Nat) : Bool :=
  let ph := [v / 2 ^ 4 % 8, v / 2 ^ 8 % 8, v / 2 ^ 12 % 8]
  ph.eraseDups.length != 3 || d.buses.any (fun b => ph.contains b.modch)

/-- IHI is at least ILO. -/
def limOk (w : Word) : Bool := decide (signed 16 w.toNat ≤ signed 16 (w.toNat / 2 ^ 16))

def Dev.writeHysMns (d : Dev) (off : Nat) (w : Word) (e : WriteEnv) : Dev :=
  if off < 0xB400 then
    let l := (off - 0xB000) / 0x20
    if off % 0x20 = 0x14 then d.writeHysIn l w
    else d.unless (d.is (HYS_OWNED l) || (off % 0x20 == 0xC && !limOk w)) off w e
  else if off = 0xB850 then d.unless (d.mainsClash w.toNat) off w e
  else if off = 0xB8E4 then d.writeHib (w.toNat % 65536)
  else d.writeAt off w e.keep

/-! The commands. -/

/-- A 4-byte write to an aligned offset that a register occupies. -/
def Dev.writeBar0 (d : Dev) (off : Nat) (w : Word) (e : WriteEnv) : Dev :=
  match off / 4096 with
  | 0x0 => d.writeGlb off w e
  | 0x1 => d.writeHqe off w e
  | 0x3 => d.writeTim off w e
  | 0x4 => d.writeHtl off w e
  | 0x5 => d.writeSlv off w e
  | 0x6 => d.writeSrv off w e
  | 0x7 => d.writeCmn off w e
  | 0x8 => d.writeSafa off w e
  | 0x9 => d.writeHdg off w e
  | 0xA => d.writeFio off w e
  | 0xB => d.writeHysMns off w e
  | 0xC => if off = 0xC170 then d.unless (!d.idleOrStopped) off w e else d.writeAt off w e.keep
  | 0xE => if off = 0xE000 then (if w.toNat % 2 = 1 then d.selfTest e.fail.toNat else d) else d.writeAt off w e.keep
  | _ => d.writeAt off w e.keep

/-- A register occupies the offset. -/
def occupied (off : Nat) : Bool := decide (off % 4 = 0) && (findReg off).isSome

/-- REGISTER_WRITE; an offset that no register occupies takes R31's way. -/
def execRegisterWrite (off : BitVec 16) (w : Word) (e : WriteEnv) (s : State) : Out :=
  s.run (fun d =>
    if !d.linked then d
    else if occupied off.toNat then d.writeBar0 off.toNat w e
    else d.reject off.toNat)

/-- BAR0_INVALID_ACCESS: `size` bytes at an offset. -/
def execBar0InvalidAccess (off : BitVec 16) (size : Nat) (read : Bool) (s : State) : Out :=
  s.run (fun d =>
    if !d.linked || (size == 4 && occupied off.toNat) then d
    else
      let d := d.reject off.toNat
      if read then d.send (.readData 0) else d)

end Sys2Proof.Machine
end

