-- ==== Sys2Proof/Machine/ServoIsa.lean ====
section
/-! DEFINITION. The instructions of the servo engines (Table — Instruction set, R165 to R178): each is executed by the
bank in use of one engine, at that bank's program counter. -/

namespace Sys2Proof.Machine

/-- Advance past the instruction just executed: at the loop end the loop counts and branches (R169). -/
def Bank.advance (b : Bank) : Bank :=
  if b.la && b.pc == b.le then
    if b.lc > 1 then { b with lc := b.lc - 1, pc := b.ls }
    else { b with la := false, cv := false, lc := 0, pc := b.pc + 1 }
  else { b with pc := b.pc + 1 }

/-- Go to a target; one outside the body leaves the loop (R169). -/
def Bank.jump (b : Bank) (t : Nat) : Bank :=
  if b.la && (t < b.ls || b.le < t) then { b with la := false, cv := false, lc := 0, pc := t } else { b with pc := t }

/-- May the bank fetch here: its program's code region or the ROM (R178)? -/
def fetchOk (r : Regions) (pc : Nat) : Bool := (r.cmLo ≤ pc && pc < r.cmHi) || (0x2000 ≤ pc && pc < 0x3000)

/-- The word a bank fetches in RAM. The ROM's words are not the spec's to give: any instruction may stand at an address of the ROM
(DESIGN CHOICE). -/
def Engine.ramWord (g : Engine) (b : Bank) : Option Word := if b.pc < 0x2000 then some (fileGet cmDefault g.cm b.pc) else none

/-- Is the instruction `op` what the bank's program counter points at (R172)? -/
def Engine.picks (g : Engine) (b : Bank) (op : Nat) (pm : Option PostMod) : Bool := (g.ramWord b).all (fun w => opDefined op && spells w op pm)

/-- Engine `e` executes the instruction `op` next: it is clocked, has not failed, is awake, fetches inside its regions and finds the
instruction there. -/
def Dev.runs (d : Dev) (e op : Nat) (pm : Option PostMod) : Bool :=
  d.up && !d.is (SRV_FAILED e) &&
    (match d.engine e with
    | none => false
    | some g => !g.asleep &&
      (match g.banks[g.curBank]? with | none => false | some b => fetchOk (d.regions e b.slot) b.pc && g.picks b op pm))

/-- The cycles of the computation in progress in an engine, from its handler's entry (R179). -/
def Engine.cycles (g : Engine) : Nat := match g.handlers with | h :: _ => h.cycles | [] => 0

/-- The handlers in progress after an instruction: the innermost has run one, and has taken `n` cycles. -/
def ranHandlers (hs : List Handler) (n : Nat) : List Handler :=
  match hs with | h :: t => { h with entering := false, cycles := n } :: t | [] => []

/-- One instruction on engine `e`: fetched at the bank's program counter, it takes `cyc` cycles and either works on the
context or traps (R172, R178). An engine that has failed or sleeps executes nothing; a word whose opcode is not in the table traps;
a command that spells another instruction than the word fetched executes nothing (DESIGN CHOICE). -/
def Dev.instr (d : Dev) (e op : Nat) (pm : Option PostMod) (cyc : Bank → Nat) (f : Ctx → Except Nat Ctx) : Dev :=
  if !d.up || d.is (SRV_FAILED e) then d
  else
    match d.engine e with
    | none => d
    | some g =>
      if g.asleep then d
      else
        match g.banks[g.curBank]? with
        | none => d
        | some b =>
          let r := d.regions e b.slot
          if !fetchOk r b.pc then d.trap e trapFetch b.pc
          else if (g.ramWord b).any (fun w => !opDefined (opcodeOf w)) then d.trap e trapOpcode b.pc
          else if !g.picks b op pm then d
          else
            match f ⟨{ g with handlers := ranHandlers g.handlers (g.cycles + cyc b) }, b, r⟩ with
            | .error c => d.trap e c b.pc
            | .ok c => d.updE e (fun _ => { c.eng with banks := updAt c.eng.banks c.eng.curBank (fun _ => c.bank) })

/-- An instruction that only works on the bank and advances. -/
def Dev.bankOp (d : Dev) (e op : Nat) (f : Bank → Bank) : Dev :=
  d.instr e op none (fun _ => 1) (fun c => .ok { c with bank := (f c.bank).advance })

/-- An instruction that works on the context and advances. -/
def Dev.ctxOp (d : Dev) (e op : Nat) (pm : Option PostMod) (cyc : Nat) (f : Ctx → Except Nat Ctx) : Dev :=
  d.instr e op pm (fun _ => cyc) (fun c => do let c ← f c; .ok { c with bank := c.bank.advance })

/-- The third operand: CM through P7 while the bank's loop body is cached, a free value otherwise (R170). -/
def Ctx.third (c : Ctx) (off : Nat) (free : Word) : Except Nat Word :=
  if c.bank.cv then c.readC (encSigned 14 ((c.bank.ptr 7 : Int) + off)) else .ok free

/-- A free word for use number n. -/
def freeWord (n : Nat) : Word := BitVec.ofNat 32 (Config.freeNat n)

/-- A block-scaled store of an accumulator value: rounded with SHIFT, SV on saturation, GROW raised (R166, R175). -/
def Bank.blockRound (b : Bank) (v : Int) : Word × Bank :=
  let r := roundQ23 v b.shift
  (ofQ23 r.1, (b.stickySv r.2).growTo r.1)

/-- The end of a joint's computation by a custom program, with its window as `win` reads it (R176): saturations are reported, the
following error is checked on the s64 error, VCMD and TCMD go to the transmit buffer and the checkpoint is written. A joint whose
feedback does not deliver gets no setpoint (R145). -/
def Dev.jointEnd (d : Dev) (gj : Nat) (sat : Bool) (win : Nat → Word) : Dev :=
  match d.jrt gj, d.entry gj with
  | some j, some s =>
    if !j.delivering then d.clearChain gj
    else
      let d := d.reportSat gj sat
      let d := match d.planVals gj with
        | some v => (d.followCheck gj v.fe j.missing).updJ gj (fun j => { j with fe := v.fe })
        | none => d
      let st := { j.chain with vprev := if j.missing then none else some (j.vQ s).1 }
      d.jointDone gj st (q23 (win 0xC0)) (q23 (win 0xC1)) ((List.range 24).map (fun i => win (0x80 + i)))
  | _, _ => d

/-- The longest computation is shown, and one longer than its COST counted (R179). -/
def Dev.jointCost (d : Dev) (gj n : Nat) (p : Option Prog) : Dev :=
  let d := if n > d.get SRV_CYC then (d.put SRV_CYC n).put SRV_CYCGJ gj else d
  if p.any (fun p => decide (p.cost < n)) then (d.bump 0x606C).raise (srcNo 5 15) gj else d

/-- JEND (R167, R176, R179): SV and AV are reported and cleared, the joint's computation ends, and the handler returns. -/
def Dev.jend (d : Dev) (e : Nat) : Dev :=
  match (d.engine e).bind (fun g => (g.banks[g.curBank]?).map (fun b => (g, b))) with
  | none => d
  | some (g, b) =>
    if b.slot < 5 then
      let d := d.updE e (fun g => { g with banks := updAt g.banks g.curBank (fun b => { b with sv := false, av := false }) })
      let d := match d.slotJoint e b.slot with
        | none => d
        | some gj =>
          (d.jointEnd gj (b.sv || b.av) (fun o => fileGet ramDefault g.em (windowBase b.slot + o))).jointCost gj g.cycles
            (d.slotProg e b.slot)
      d.leaveHandler e
    else d.leaveHandler e

/-- PLANEV (R176): QREF, E, VREF, AREF and ESAT of the slot's joint are written to its window. -/
def Dev.planev (d : Dev) (e : Nat) : Dev :=
  match (d.engine e).bind (fun g => g.banks[g.curBank]?) with
  | none => d
  | some b =>
    match (if b.slot < 5 then d.slotJoint e b.slot else none).bind (fun gj => (d.planVals gj).map (fun v => (gj, v))) with
    | none => d
    | some (gj, v) =>
      (d.updE e (fun g => (g.putWindow b.slot v.window).withEsat b.slot v.esat)).updJ gj (fun j => { j with fe := v.fe })

/-! The instructions, in the order of the table. -/

def execNop (e : Fin 16) (s : State) : Out := s.run (fun d => d.bankOp e 0x00 id)

def execLdw (e : Fin 16) (dd i : Fin 8) (pm : PostMod) (s : State) : Out :=
  s.run (fun d => d.ctxOp e 0x01 (some pm) 1 (fun c => do
    let w ← c.readW i
    let c ← c.post i pm
    .ok { c with bank := c.bank.setD dd w }))

def execLde (e : Fin 16) (dd j : Fin 8) (pm : PostMod) (s : State) : Out :=
  s.run (fun d => d.ctxOp e 0x02 (some pm) 1 (fun c => do
    let w ← c.readE j
    let c ← c.post j pm
    .ok { c with bank := c.bank.setD dd w }))

def execStw (e : Fin 16) (i : Fin 8) (pm : PostMod) (ds : Fin 8) (s : State) : Out :=
  s.run (fun d => d.ctxOp e 0x03 (some pm) 1 (fun c => do
    c.modeOk i
    let c ← c.writeW (c.bank.ptr i) (c.bank.dr ds)
    c.post i pm))

def execSte (e : Fin 16) (j : Fin 8) (pm : PostMod) (ds : Fin 8) (s : State) : Out :=
  s.run (fun d => d.ctxOp e 0x04 (some pm) 1 (fun c => do
    c.modeOk j
    let c ← c.writeE (c.bank.ptr j) (c.bank.dr ds)
    c.post j pm))

/-- One cycle only inside a cached loop, 2 otherwise (R170). -/
def execLdc (e : Fin 16) (dd : Fin 8) (pm : PostMod) (s : State) : Out :=
  s.run (fun d => d.instr e 0x05 (some pm) (fun b => if b.cv then 1 else 2) (fun c => do
    let w ← c.readC (c.bank.ptr 7)
    let c ← c.post 7 pm
    .ok { c with bank := (c.bank.setD dd w).advance }))

def execLdi (e : Fin 16) (dd : Fin 8) (imm : BitVec 12) (s : State) : Out :=
  s.run (fun d => d.bankOp e 0x06 (fun b => b.setD dd (ofQ23 (imm.toInt * 4096))))

def execLdil (e : Fin 16) (dd : Fin 8) (imm : BitVec 12) (s : State) : Out :=
  s.run (fun d => d.bankOp e 0x07 (fun b => b.setD dd (insField (b.dr dd) 11 0 imm.toNat)))

def execLdig (e : Fin 16) (dd : Fin 8) (imm : BitVec 8) (s : State) : Out :=
  s.run (fun d => d.bankOp e 0x08 (fun b => b.setD dd (insField (b.dr dd) 31 24 imm.toNat)))

def execMov (e : Fin 16) (dd ds : Fin 8) (s : State) : Out :=
  s.run (fun d => d.bankOp e 0x09 (fun b => b.setD dd (b.dr ds)))

def execPldi (e : Fin 16) (n : Fin 8) (imm : BitVec 14) (s : State) : Out :=
  s.run (fun d => d.bankOp e 0x0A (fun b => b.setP n imm.toNat))

/-- The signed immediate goes through the pointer's descriptor; the reserved MODE traps (R171). -/
def execPadd (e : Fin 16) (n : Fin 8) (imm : BitVec 12) (s : State) : Out :=
  s.run (fun d => d.ctxOp e 0x0B none 1 (fun c =>
    match modPtr (c.bank.ptr n) (c.bank.pd.getD n 0) (c.bank.b.getD n 0) imm.toInt with
    | some v => .ok { c with bank := c.bank.setP n v }
    | none => .error trapData))

/-- PDn is written and the pointer latched as the buffer start Bn (R171). -/
def execSetpd (e : Fin 16) (n ds : Fin 8) (s : State) : Out :=
  s.run (fun d => d.bankOp e 0x0C (fun b =>
    { b with pd := updAt b.pd n (fun _ => b.dr ds), b := updAt b.b n (fun _ => b.ptr n) }))

def execMvst (e : Fin 16) (dd : Fin 8) (s : State) : Out :=
  s.run (fun d => d.ctxOp e 0x0D none 1 (fun c => .ok { c with bank := c.bank.setD dd (c.bank.status c.eng.curBank) }))

/-- Only the RW fields Z, N, SV and AV are written (R165). -/
def execStst (e : Fin 16) (ds : Fin 8) (s : State) : Out :=
  s.run (fun d => d.bankOp e 0x0E (fun b =>
    let w := (b.dr ds).toNat
    { b with z := bitOf w 0, n := bitOf w 1, sv := bitOf w 2, av := bitOf w 3 }))

def execMvbs (e : Fin 16) (dd : Fin 8) (s : State) : Out :=
  s.run (fun d => d.bankOp e 0x0F (fun b => b.setD dd b.bsr))

def execClr (e : Fin 16) (a : Fin 4) (s : State) : Out := s.run (fun d => d.bankOp e 0x10 (fun b => b.accum a 0))

def execMpy (e : Fin 16) (a : Fin 4) (x y : Fin 8) (s : State) : Out :=
  s.run (fun d => d.bankOp e 0x11 (fun b => b.accum a (q23 (b.dr x) * q23 (b.dr y))))

def execMac (e : Fin 16) (a : Fin 4) (x y : Fin 8) (s : State) : Out :=
  s.run (fun d => d.bankOp e 0x12 (fun b => b.accum a (b.acc a + q23 (b.dr x) * q23 (b.dr y))))

def execMsu (e : Fin 16) (a : Fin 4) (x y : Fin 8) (s : State) : Out :=
  s.run (fun d => d.bankOp e 0x13 (fun b => b.accum a (b.acc a - q23 (b.dr x) * q23 (b.dr y))))

def execMacm (e : Fin 16) (a : Fin 4) (i : Fin 8) (pi : PostMod) (j : Fin 8) (pj : PostMod) (s : State) : Out :=
  s.run (fun d => d.ctxOp e 0x14 none 1 (fun c => do
    let x ← c.readW i
    let y ← c.readE j
    let c ← c.post i pi
    let c ← c.post j pj
    .ok { c with bank := c.bank.accum a (c.bank.acc a + q23 x * q23 y) }))

def execMulg (e : Fin 16) (a : Fin 4) (x g : Fin 8) (s : State) : Out :=
  s.run (fun d => d.bankOp e 0x15 (fun b => b.accum a (gainProd (b.dr x) (b.dr g))))

/-- The gain shift saturates first, the accumulation after it (R166). -/
def execMacg (e : Fin 16) (a : Fin 4) (x g : Fin 8) (s : State) : Out :=
  s.run (fun d => d.bankOp e 0x16 (fun b =>
    let p := satAcc (gainProd (b.dr x) (b.dr g))
    (b.accum a (b.acc a + p.1)).stickyAv p.2))

def execLda (e : Fin 16) (a : Fin 4) (x : Fin 8) (s : State) : Out :=
  s.run (fun d => d.bankOp e 0x17 (fun b => b.accum a (q23 (b.dr x) * 8388608)))

def execAdda (e : Fin 16) (a m : Fin 4) (s : State) : Out :=
  s.run (fun d => d.bankOp e 0x18 (fun b => b.accum a (b.acc a + b.acc m)))

/-- Shift by −63 to 63: left shifts saturate, right shifts round (R172). -/
def execSha (e : Fin 16) (a : Fin 4) (sh : Int) (s : State) : Out :=
  s.run (fun d => d.bankOp e 0x19 (fun b => b.accum a (shrRne (b.acc a) (-sh))))

def execRnd (e : Fin 16) (dd : Fin 8) (a : Fin 4) (s : State) : Out :=
  s.run (fun d => d.bankOp e 0x1A (fun b =>
    let r := roundQ23 (b.acc a) 0
    ((b.setD dd (ofQ23 r.1)).flags r.1).stickySv r.2))

def execStaw (e : Fin 16) (i : Fin 8) (pm : PostMod) (a : Fin 4) (s : State) : Out :=
  s.run (fun d => d.ctxOp e 0x1B (some pm) 1 (fun c => do
    c.modeOk i
    let r := c.bank.blockRound (c.bank.acc a)
    let c ← c.writeW (c.bank.ptr i) r.1
    ({ c with bank := r.2 }).post i pm))

def execStae (e : Fin 16) (j : Fin 8) (pm : PostMod) (a : Fin 4) (s : State) : Out :=
  s.run (fun d => d.ctxOp e 0x1C (some pm) 1 (fun c => do
    c.modeOk j
    let r := c.bank.blockRound (c.bank.acc a)
    let c ← c.writeE (c.bank.ptr j) r.1
    ({ c with bank := r.2 }).post j pm))

def execAdd (e : Fin 16) (dd x y : Fin 8) (s : State) : Out :=
  s.run (fun d => d.bankOp e 0x1D (fun b => b.alu dd (q23 (b.dr x) + q23 (b.dr y))))

def execSub (e : Fin 16) (dd x y : Fin 8) (s : State) : Out :=
  s.run (fun d => d.bankOp e 0x1E (fun b => b.alu dd (q23 (b.dr x) - q23 (b.dr y))))

def execNeg (e : Fin 16) (dd x : Fin 8) (s : State) : Out :=
  s.run (fun d => d.bankOp e 0x1F (fun b => b.alu dd (-(q23 (b.dr x)))))

def execAbs (e : Fin 16) (dd x : Fin 8) (s : State) : Out :=
  s.run (fun d => d.bankOp e 0x20 (fun b => b.alu dd (absInt (q23 (b.dr x)))))

def execMin (e : Fin 16) (dd x y : Fin 8) (s : State) : Out :=
  s.run (fun d => d.bankOp e 0x21 (fun b => b.alu dd (min (q23 (b.dr x)) (q23 (b.dr y)))))

def execMax (e : Fin 16) (dd x y : Fin 8) (s : State) : Out :=
  s.run (fun d => d.bankOp e 0x22 (fun b => b.alu dd (max (q23 (b.dr x)) (q23 (b.dr y)))))

def execClmp (e : Fin 16) (dd x y : Fin 8) (s : State) : Out :=
  s.run (fun d => d.bankOp e 0x23 (fun b =>
    let m := absInt (q23 (b.dr y))
    b.alu dd (clampInt (q23 (b.dr x)) (-m) m)))

def execSgn (e : Fin 16) (dd x : Fin 8) (s : State) : Out :=
  s.run (fun d => d.bankOp e 0x24 (fun b => b.alu dd (sgnQ23 (q23 (b.dr x)))))

def execDiv (e : Fin 16) (dd x y : Fin 8) (s : State) : Out :=
  s.run (fun d => d.instr e 0x25 none (fun _ => 26) (fun c =>
    let r := divQ23 (q23 (c.bank.dr x)) (q23 (c.bank.dr y))
    .ok { c with bank := (((c.bank.setD dd (ofQ23 r.1)).flags r.1).stickySv r.2).advance }))

/-- Z and N from the difference; nothing is written. -/
def execCmp (e : Fin 16) (x y : Fin 8) (s : State) : Out :=
  s.run (fun d => d.bankOp e 0x26 (fun b => b.flags (q23 (b.dr x) - q23 (b.dr y))))

def execDmac (e : Fin 16) (a m : Fin 4) (i : Fin 8) (pi : PostMod) (j : Fin 8) (pj p7 : PostMod) (s : State) : Out :=
  s.run (fun d => d.draw.ctxOp e 0x30 none 1 (fun c => do
    let x ← c.readW i
    let y ← c.readE j
    let k ← c.third 0 (freeWord d.freeCtr)
    let c ← c.post i pi
    let c ← c.post j pj
    let c ← c.post 7 p7
    let b := c.bank.accum a (c.bank.acc a + q23 x * q23 k)
    .ok { c with bank := b.accum m (b.acc m + q23 y * q23 k) }))

def execTapmv (e : Fin 16) (a : Fin 4) (i : Fin 8) (pi : PostMod) (j : Fin 8) (pj : PostMod) (s : State) : Out :=
  s.run (fun d => d.ctxOp e 0x31 none 1 (fun c => do
    let x ← c.readW i
    let y ← c.readE j
    let c ← c.writeW (c.bank.ptr i + 1) x
    let c ← c.post i pi
    let c ← c.post j pj
    .ok { c with bank := c.bank.accum a (c.bank.acc a + q23 x * q23 y) }))

def execTapmv2 (e : Fin 16) (a m : Fin 4) (i : Fin 8) (pi : PostMod) (j : Fin 8) (pj p7 : PostMod) (s : State) : Out :=
  s.run (fun d => d.draw.ctxOp e 0x32 none 1 (fun c => do
    let x ← c.readW i
    let y ← c.readE j
    let k ← c.third 0 (freeWord d.freeCtr)
    let c ← c.writeW (c.bank.ptr i + 1) x
    let c ← c.writeE (c.bank.ptr j + 1) y
    let c ← c.post i pi
    let c ← c.post j pj
    let c ← c.post 7 p7
    let b := c.bank.accum a (c.bank.acc a + q23 x * q23 k)
    .ok { c with bank := b.accum m (b.acc m + q23 y * q23 k) }))

/-- The butterfly a ± w·b on complex values, real parts in WM and imaginary parts in EM (R175). -/
def execBfly (e : Fin 16) (pa pb p7 : PostMod) (s : State) : Out :=
  s.run (fun d => d.draw.draw.ctxOp e 0x33 none 4 (fun c => do
    let ar ← c.readW 0
    let ai ← c.readE 0
    let br ← c.readW 1
    let bi ← c.readE 1
    let wc ← c.third 0 (freeWord d.freeCtr)
    let ws ← c.third 1 (freeWord (d.freeCtr + 1))
    let tr := q23 wc * q23 br - q23 ws * q23 bi
    let ti := q23 wc * q23 bi + q23 ws * q23 br
    let r0 := c.bank.blockRound (q23 ar * 8388608 + tr)
    let r1 := r0.2.blockRound (q23 ai * 8388608 + ti)
    let r2 := r1.2.blockRound (q23 ar * 8388608 - tr)
    let r3 := r2.2.blockRound (q23 ai * 8388608 - ti)
    let pa0 := c.bank.ptr 0
    let pb0 := c.bank.ptr 1
    let c ← c.writeW pa0 r0.1
    let c ← c.writeE pa0 r1.1
    let c ← c.writeW pb0 r2.1
    let c ← c.writeE pb0 r3.1
    let c ← ({ c with bank := r3.2 }).post 0 pa
    let c ← c.post 1 pb
    c.post 7 p7))

def execBstage (e : Fin 16) (s : State) : Out :=
  s.run (fun d => d.bankOp e 0x38 (fun b =>
    { b with shift := b.grow, bexp := signed 8 (encSigned 8 (b.bexp + b.grow)), grow := 0 }))

def execBclr (e : Fin 16) (s : State) : Out :=
  s.run (fun d => d.bankOp e 0x39 (fun b => { b with shift := 0, grow := 0, bexp := 0 }))

/-- LOOP #n, #len (R169): a body of at most 64 instructions fills the cache, which then belongs to this bank (R170). -/
def execLoop (e : Fin 16) (n : BitVec 16) (len : BitVec 8) (s : State) : Out :=
  s.run (fun d => d.instr e 0x40 none (fun _ => if len.toNat ≤ 64 then 2 + len.toNat else 2) (fun c =>
    let cached := decide (len.toNat ≤ 64)
    let b := c.bank
    let b := { b with la := true, cv := cached, lc := n.toNat, ls := b.pc + 1, le := b.pc + len.toNat, pc := b.pc + 1 }
    let g := c.eng
    .ok { c with bank := b, eng := { g with cacheOwner := if cached then some g.curBank else g.cacheOwner } }))

def condHolds (cc : Cond) (b : Bank) : Bool :=
  match cc with
  | .always => true
  | .z => b.z
  | .nz => !b.z
  | .n => b.n
  | .nn => !b.n
  | .sv => b.sv
  | .av => b.av

def execBr (e : Fin 16) (cc : Cond) (target : BitVec 14) (s : State) : Out :=
  s.run (fun d => d.instr e 0x41 none (fun b => if condHolds cc b then 2 else 1) (fun c =>
    .ok { c with bank := if condHolds cc c.bank then c.bank.jump target.toNat else c.bank.advance }))

/-- A ninth return address traps (R178). -/
def execCall (e : Fin 16) (target : BitVec 14) (s : State) : Out :=
  s.run (fun d => d.instr e 0x42 none (fun _ => 2) (fun c =>
    if c.bank.stack.length ≥ 8 then .error trapOver
    else .ok { c with bank := ({ c.bank with stack := (c.bank.pc + 1) :: c.bank.stack }).jump target.toNat }))

def execRet (e : Fin 16) (s : State) : Out :=
  s.run (fun d => d.instr e 0x43 none (fun _ => 2) (fun c =>
    match c.bank.stack with
    | [] => .error trapUnder
    | r :: rest => .ok { c with bank := ({ c.bank with stack := rest }).jump r }))

def execReti (e : Fin 16) (s : State) : Out :=
  s.run (fun d =>
    let d' := d.bankOp e 0x44 id
    if d.runs e 0x44 none then d'.leaveHandler e else d')

/-- Bank 0 sleeps until an event is delivered; a pending one keeps it awake (R177). -/
def execWait (e : Fin 16) (s : State) : Out :=
  s.run (fun d => d.ctxOp e 0x45 none 1 (fun c =>
    .ok { c with eng := { c.eng with asleep := c.eng.handlers.isEmpty && c.eng.pend == 0 } }))

def execEvraise (e : Fin 16) (s : State) : Out :=
  s.run (fun d =>
    let d' := d.bankOp e 0x46 id
    if d.runs e 0x46 none then d'.raise (srcNo 5 13) e else d')

/-- The active loop is left at the end of this instruction (R169). -/
def execBrklp (e : Fin 16) (s : State) : Out :=
  s.run (fun d => d.bankOp e 0x47 (fun b => if b.la then { b with la := false, cv := false, lc := 0 } else b))

def execPlanev (e : Fin 16) (s : State) : Out :=
  s.run (fun d =>
    let d' := d.instr e 0x48 none (fun _ => 220) (fun c => .ok { c with bank := c.bank.advance })
    if d.runs e 0x48 none then d'.planev e else d')

def execJend (e : Fin 16) (s : State) : Out :=
  s.run (fun d =>
    let d' := d.instr e 0x49 none (fun _ => 30) (fun c => .ok { c with bank := c.bank.advance })
    if d.runs e 0x49 none then d'.jend e else d')

end Sys2Proof.Machine
end

