-- ==== Sys2Proof/Machine/Dispatch.lean ====
section
/-! DEFINITION. The meaning of every command, arm by arm. -/

namespace Sys2Proof.Machine

def exec (i : Instr) (s : State) : Host.Outcome State Fault Refusal :=
  match i with
  | .powerOnReset => Sys2Proof.Machine.execPowerOnReset s
  | .vauxLost => Sys2Proof.Machine.execVauxLost s
  | .supplyReset rail => Sys2Proof.Machine.execSupplyReset rail s
  | .mainRailsRestored seqErr => Sys2Proof.Machine.execMainRailsRestored seqErr s
  | .perstAssert => Sys2Proof.Machine.execPerstAssert s
  | .perstRelease => Sys2Proof.Machine.execPerstRelease s
  | .clockLoss => Sys2Proof.Machine.execClockLoss s
  | .warmReset w => Sys2Proof.Machine.execWarmReset w s
  | .hibernateArm key => Sys2Proof.Machine.execHibernateArm key s
  | .hibernateEnter => Sys2Proof.Machine.execHibernateEnter s
  | .hibernateWake => Sys2Proof.Machine.execHibernateWake s
  | .pllLock core servo safa tref => Sys2Proof.Machine.execPllLock core servo safa tref s
  | .timePllLock tref25 => Sys2Proof.Machine.execTimePllLock tref25 s
  | .trefLost => Sys2Proof.Machine.execTrefLost s
  | .trefBack => Sys2Proof.Machine.execTrefBack s
  | .memoryTestDone fail engines => Sys2Proof.Machine.execMemoryTestDone fail engines s
  | .laneTestDone part bricks fail f => Sys2Proof.Machine.execLaneTestDone part bricks fail f s
  | .crossDieLinkDown => Sys2Proof.Machine.execCrossDieLinkDown s
  | .crossDieLinkUp => Sys2Proof.Machine.execCrossDieLinkUp s
  | .imageVerifyDone f tgts => Sys2Proof.Machine.execImageVerifyDone f tgts s
  | .tapTestLogicReset hedge => Sys2Proof.Machine.execTapTestLogicReset hedge s
  | .tapUpdateIr hedge code => Sys2Proof.Machine.execTapUpdateIr hedge code s
  | .testenHigh => Sys2Proof.Machine.execTestenHigh s
  | .registerWrite off w e => Sys2Proof.Machine.execRegisterWrite off w e s
  | .bar0InvalidAccess off size read => Sys2Proof.Machine.execBar0InvalidAccess off size read s
  | .lowWordRead off => Sys2Proof.Machine.execLowWordRead off s
  | .timeReadLatch => Sys2Proof.Machine.execTimeReadLatch s
  | .plannerRestart => Sys2Proof.Machine.execPlannerRestart s
  | .wallRejoin w => Sys2Proof.Machine.execWallRejoin w s
  | .engineRejoin mask => Sys2Proof.Machine.execEngineRejoin mask s
  | .checkUnitSelftest fail => Sys2Proof.Machine.execCheckUnitSelftest fail s
  | .hedgeUnlockKey key inTime => Sys2Proof.Machine.execHedgeUnlockKey key inTime s
  | .unlockWindowExpiry => Sys2Proof.Machine.execUnlockWindowExpiry s
  | .safaHostReset => Sys2Proof.Machine.execSafaHostReset s
  | .feedbackClearFault n => Sys2Proof.Machine.execFeedbackClearFault n s
  | .feedbackPreset n v => Sys2Proof.Machine.execFeedbackPreset n v s
  | .feedbackEnable n w => Sys2Proof.Machine.execFeedbackEnable n w s
  | .auxStop a => Sys2Proof.Machine.execAuxStop a s
  | .auxDriverOff a => Sys2Proof.Machine.execAuxDriverOff a s
  | .auxDriverOn a => Sys2Proof.Machine.execAuxDriverOn a s
  | .rephaseDone a => Sys2Proof.Machine.execRephaseDone a s
  | .portEnable p => Sys2Proof.Machine.execPortEnable p s
  | .portStop p => Sys2Proof.Machine.execPortStop p s
  | .hysInputWrite l w => Sys2Proof.Machine.execHysInputWrite l w s
  | .refdomWrite k => Sys2Proof.Machine.execRefdomWrite k s
  | .ringEnable r w => Sys2Proof.Machine.execRingEnable r w s
  | .commandDoorbell r w => Sys2Proof.Machine.execCommandDoorbell r w s
  | .consumerDoorbell r w => Sys2Proof.Machine.execConsumerDoorbell r w s
  | .heartbeatPageWrite => Sys2Proof.Machine.execHeartbeatPageWrite s
  | .commandAccept f => Sys2Proof.Machine.execCommandAccept f s
  | .completionWrite => Sys2Proof.Machine.execCompletionWrite s
  | .coalesceTimeout r => Sys2Proof.Machine.execCoalesceTimeout r s
  | .eventEntryWrite => Sys2Proof.Machine.execEventEntryWrite s
  | .telemetryWrite => Sys2Proof.Machine.execTelemetryWrite s
  | .hostDmaFail r => Sys2Proof.Machine.execHostDmaFail r s
  | .heartbeatTimeout => Sys2Proof.Machine.execHeartbeatTimeout s
  | .queueEngineReset w => Sys2Proof.Machine.execQueueEngineReset w s
  | .functionLevelReset => Sys2Proof.Machine.execFunctionLevelReset s
  | .queueResetDone => Sys2Proof.Machine.execQueueResetDone s
  | .attach img copies repOk => Sys2Proof.Machine.execAttach img copies repOk s
  | .detach => Sys2Proof.Machine.execDetach s
  | .heartbeat => Sys2Proof.Machine.execHeartbeat s
  | .modelLoad => Sys2Proof.Machine.execModelLoad s
  | .modelFetchDone f => Sys2Proof.Machine.execModelFetchDone f s
  | .modelActivate => Sys2Proof.Machine.execModelActivate s
  | .safetyParamLoad f => Sys2Proof.Machine.execSafetyParamLoad f s
  | .safetySetChecked h => Sys2Proof.Machine.execSafetySetChecked h s
  | .scheduleLoad => Sys2Proof.Machine.execScheduleLoad s
  | .scheduleCheckDone f => Sys2Proof.Machine.execScheduleCheckDone f s
  | .modeSwitch => Sys2Proof.Machine.execModeSwitch s
  | .segAppend f => Sys2Proof.Machine.execSegAppend f s
  | .segFlush => Sys2Proof.Machine.execSegFlush s
  | .targetSet f => Sys2Proof.Machine.execTargetSet f s
  | .limitsSet => Sys2Proof.Machine.execLimitsSet s
  | .groupMove f => Sys2Proof.Machine.execGroupMove f s
  | .commonsRequest => Sys2Proof.Machine.execCommonsRequest s
  | .commonsRelease => Sys2Proof.Machine.execCommonsRelease s
  | .auxProfile f => Sys2Proof.Machine.execAuxProfile f s
  | .auxTarget => Sys2Proof.Machine.execAuxTarget s
  | .hlSetpoint f => Sys2Proof.Machine.execHlSetpoint f s
  | .stateRead => Sys2Proof.Machine.execStateRead s
  | .logFetch wrOk => Sys2Proof.Machine.execLogFetch wrOk s
  | .telemetryConfig => Sys2Proof.Machine.execTelemetryConfig s
  | .servoProgramLoad => Sys2Proof.Machine.execServoProgramLoad s
  | .servoLoadCheckDone f static => Sys2Proof.Machine.execServoLoadCheckDone f static s
  | .timeConfig => Sys2Proof.Machine.execTimeConfig s
  | .diag loop wrOk masked fail => Sys2Proof.Machine.execDiag loop wrOk masked fail s
  | .sourceAssertion src => Sys2Proof.Machine.execSourceAssertion src s
  | .masonInterruptEntry c late => Sys2Proof.Machine.execMasonInterruptEntry c late s
  | .masonHandlerReturn c => Sys2Proof.Machine.execMasonHandlerReturn c s
  | .engineVectorEntry e f => Sys2Proof.Machine.execEngineVectorEntry e f s
  | .taskReady id pri aff => Sys2Proof.Machine.execTaskReady id pri aff s
  | .hodTick => Sys2Proof.Machine.execHodTick s
  | .taskDelay id wake => Sys2Proof.Machine.execTaskDelay id wake s
  | .taskWait id o tmo => Sys2Proof.Machine.execTaskWait id o tmo s
  | .semaphorePost n => Sys2Proof.Machine.execSemaphorePost n s
  | .waitTimeout id => Sys2Proof.Machine.execWaitTimeout id s
  | .masonFail c => Sys2Proof.Machine.execMasonFail c s
  | .waitLong id => Sys2Proof.Machine.execWaitLong id s
  | .hodWindowEnd => Sys2Proof.Machine.execHodWindowEnd s
  | .fwRefetch c ok => Sys2Proof.Machine.execFwRefetch c ok s
  | .transferRequest port path beats par => Sys2Proof.Machine.execTransferRequest port path beats par s
  | .lockRequest lv idx lock => Sys2Proof.Machine.execLockRequest lv idx lock s
  | .lockWaitTimeout lv idx => Sys2Proof.Machine.execLockWaitTimeout lv idx s
  | .lockBackoffExpiry lv idx => Sys2Proof.Machine.execLockBackoffExpiry lv idx s
  | .portHang port => Sys2Proof.Machine.execPortHang port s
  | .refetchDone kind f => Sys2Proof.Machine.execRefetchDone kind f s
  | .assemblyStart => Sys2Proof.Machine.execAssemblyStart s
  | .lastBlockArrival w => Sys2Proof.Machine.execLastBlockArrival w s
  | .csuLatch parity => Sys2Proof.Machine.execCsuLatch parity s
  | .sepRecordDeliver => Sys2Proof.Machine.execSepRecordDeliver s
  | .recLate => Sys2Proof.Machine.execRecLate s
  | .checkPoint outside => Sys2Proof.Machine.execCheckPoint outside s
  | .outerIteration w mis par => Sys2Proof.Machine.execOuterIteration w mis par s
  | .refactorDone w => Sys2Proof.Machine.execRefactorDone w s
  | .solveDeadline => Sys2Proof.Machine.execSolveDeadline s
  | .commitPoint badA badB silent => Sys2Proof.Machine.execCommitPoint badA badB silent s
  | .commitRecordReceive chanA w intact => Sys2Proof.Machine.execCommitRecordReceive chanA w intact s
  | .commitWatchExpiry begun observes => Sys2Proof.Machine.execCommitWatchExpiry begun observes s
  | .wallGiveUp w => Sys2Proof.Machine.execWallGiveUp w s
  | .dualActWindowClose => Sys2Proof.Machine.execDualActWindowClose s
  | .strideBoundary => Sys2Proof.Machine.execStrideBoundary s
  | .plannerStopped => Sys2Proof.Machine.execPlannerStopped s
  | .beatTick => Sys2Proof.Machine.execBeatTick s
  | .pollSend p slot => Sys2Proof.Machine.execPollSend p slot s
  | .respReceive p f => Sys2Proof.Machine.execRespReceive p f s
  | .respWindowClose p slot => Sys2Proof.Machine.execRespWindowClose p slot s
  | .beatEndSend p => Sys2Proof.Machine.execBeatEndSend p s
  | .joinExchange p => Sys2Proof.Machine.execJoinExchange p s
  | .joinRespReceive p f => Sys2Proof.Machine.execJoinRespReceive p f s
  | .backupFrameReceive p => Sys2Proof.Machine.execBackupFrameReceive p s
  | .heathlineLinkChange p link => Sys2Proof.Machine.execHeathlineLinkChange p link s
  | .setpointFreeze => Sys2Proof.Machine.execSetpointFreeze s
  | .engineDeadlineCheck e => Sys2Proof.Machine.execEngineDeadlineCheck e s
  | .cmBlockReady gj => Sys2Proof.Machine.execCmBlockReady gj s
  | .nop e => Sys2Proof.Machine.execNop e s
  | .ldw e dd i1 pm => Sys2Proof.Machine.execLdw e dd i1 pm s
  | .lde e dd j pm => Sys2Proof.Machine.execLde e dd j pm s
  | .stw e i1 pm ds => Sys2Proof.Machine.execStw e i1 pm ds s
  | .ste e j pm ds => Sys2Proof.Machine.execSte e j pm ds s
  | .ldc e dd pm => Sys2Proof.Machine.execLdc e dd pm s
  | .ldi e dd imm => Sys2Proof.Machine.execLdi e dd imm s
  | .ldil e dd imm => Sys2Proof.Machine.execLdil e dd imm s
  | .ldig e dd imm => Sys2Proof.Machine.execLdig e dd imm s
  | .mov e dd ds => Sys2Proof.Machine.execMov e dd ds s
  | .pldi e n imm => Sys2Proof.Machine.execPldi e n imm s
  | .padd e n imm => Sys2Proof.Machine.execPadd e n imm s
  | .setpd e n ds => Sys2Proof.Machine.execSetpd e n ds s
  | .mvst e dd => Sys2Proof.Machine.execMvst e dd s
  | .stst e ds => Sys2Proof.Machine.execStst e ds s
  | .mvbs e dd => Sys2Proof.Machine.execMvbs e dd s
  | .clr e a => Sys2Proof.Machine.execClr e a s
  | .mpy e a x y => Sys2Proof.Machine.execMpy e a x y s
  | .mac e a x y => Sys2Proof.Machine.execMac e a x y s
  | .msu e a x y => Sys2Proof.Machine.execMsu e a x y s
  | .macm e a i1 pi j pj => Sys2Proof.Machine.execMacm e a i1 pi j pj s
  | .mulg e a x g => Sys2Proof.Machine.execMulg e a x g s
  | .macg e a x g => Sys2Proof.Machine.execMacg e a x g s
  | .lda e a x => Sys2Proof.Machine.execLda e a x s
  | .adda e a m => Sys2Proof.Machine.execAdda e a m s
  | .sha e a sh => Sys2Proof.Machine.execSha e a sh s
  | .rnd e dd a => Sys2Proof.Machine.execRnd e dd a s
  | .staw e i1 pm a => Sys2Proof.Machine.execStaw e i1 pm a s
  | .stae e j pm a => Sys2Proof.Machine.execStae e j pm a s
  | .add e dd x y => Sys2Proof.Machine.execAdd e dd x y s
  | .sub e dd x y => Sys2Proof.Machine.execSub e dd x y s
  | .neg e dd x => Sys2Proof.Machine.execNeg e dd x s
  | .abs e dd x => Sys2Proof.Machine.execAbs e dd x s
  | .min e dd x y => Sys2Proof.Machine.execMin e dd x y s
  | .max e dd x y => Sys2Proof.Machine.execMax e dd x y s
  | .clmp e dd x y => Sys2Proof.Machine.execClmp e dd x y s
  | .sgn e dd x => Sys2Proof.Machine.execSgn e dd x s
  | .div e dd x y => Sys2Proof.Machine.execDiv e dd x y s
  | .cmp e x y => Sys2Proof.Machine.execCmp e x y s
  | .dmac e a m i1 pi j pj p7 => Sys2Proof.Machine.execDmac e a m i1 pi j pj p7 s
  | .tapmv e a i1 pi j pj => Sys2Proof.Machine.execTapmv e a i1 pi j pj s
  | .tapmv2 e a m i1 pi j pj p7 => Sys2Proof.Machine.execTapmv2 e a m i1 pi j pj p7 s
  | .bfly e pa pb p7 => Sys2Proof.Machine.execBfly e pa pb p7 s
  | .bstage e => Sys2Proof.Machine.execBstage e s
  | .bclr e => Sys2Proof.Machine.execBclr e s
  | .loop e n len => Sys2Proof.Machine.execLoop e n len s
  | .br e cc target => Sys2Proof.Machine.execBr e cc target s
  | .call e target => Sys2Proof.Machine.execCall e target s
  | .ret e => Sys2Proof.Machine.execRet e s
  | .reti e => Sys2Proof.Machine.execReti e s
  | .wait e => Sys2Proof.Machine.execWait e s
  | .evraise e => Sys2Proof.Machine.execEvraise e s
  | .brklp e => Sys2Proof.Machine.execBrklp e s
  | .planev e => Sys2Proof.Machine.execPlanev e s
  | .jend e => Sys2Proof.Machine.execJend e s
  | .safetyBeat h cyc => Sys2Proof.Machine.execSafetyBeat h cyc s
  | .noRecord => Sys2Proof.Machine.execNoRecord s
  | .hedgeTickTimeout => Sys2Proof.Machine.execHedgeTickTimeout s
  | .offPulseEnd h n => Sys2Proof.Machine.execOffPulseEnd h n s
  | .readbackFault h n level => Sys2Proof.Machine.execReadbackFault h n level s
  | .safetyInputAccept h i1 level held => Sys2Proof.Machine.execSafetyInputAccept h i1 level held s
  | .discrepancyTimeout h i1 => Sys2Proof.Machine.execDiscrepancyTimeout h i1 s
  | .twohandSyncTimeout h i1 => Sys2Proof.Machine.execTwohandSyncTimeout h i1 s
  | .subtelegramReceive h lost => Sys2Proof.Machine.execSubtelegramReceive h lost s
  | .sepRecordReceive intact => Sys2Proof.Machine.execSepRecordReceive intact s
  | .crossCheckPoint bad wrOk => Sys2Proof.Machine.execCrossCheckPoint bad wrOk s
  | .verdictReceive h v => Sys2Proof.Machine.execVerdictReceive h v s
  | .brakeReleaseDelay h a => Sys2Proof.Machine.execBrakeReleaseDelay h a s
  | .tss1Expiry h a => Sys2Proof.Machine.execTss1Expiry h a s
  | .safetyChannelFault h => Sys2Proof.Machine.execSafetyChannelFault h s
  | .feedbackEdge n lv t => Sys2Proof.Machine.execFeedbackEdge n lv t s
  | .indexEdge n => Sys2Proof.Machine.execIndexEdge n s
  | .feedbackLatch t => Sys2Proof.Machine.execFeedbackLatch t s
  | .ssiWordComplete n word high par => Sys2Proof.Machine.execSsiWordComplete n word high par s
  | .speedStillTimeout n => Sys2Proof.Machine.execSpeedStillTimeout n s
  | .emulationTick => Sys2Proof.Machine.execEmulationTick s
  | .auxProfileTick => Sys2Proof.Machine.execAuxProfileTick s
  | .hysUpdate l => Sys2Proof.Machine.execHysUpdate l s
  | .modulatorOutput ch fast sum => Sys2Proof.Machine.execModulatorOutput ch fast sum s
  | .modulatorStuck ch => Sys2Proof.Machine.execModulatorStuck ch s
  | .mainsUpdate a0 a1 a2 freq => Sys2Proof.Machine.execMainsUpdate a0 a1 a2 freq s
  | .dipEnd => Sys2Proof.Machine.execDipEnd s
  | .rideThroughExpiry => Sys2Proof.Machine.execRideThroughExpiry s
  | .announceReceive p h b => Sys2Proof.Machine.execAnnounceReceive p h b s
  | .syncReceive p follow h o => Sys2Proof.Machine.execSyncReceive p follow h o s
  | .delayReqSend k => Sys2Proof.Machine.execDelayReqSend k s
  | .delayRespReceive p h who t4 => Sys2Proof.Machine.execDelayRespReceive p h who t4 s
  | .announceTimeout k => Sys2Proof.Machine.execAnnounceTimeout k s
  | .syncTimeout k => Sys2Proof.Machine.execSyncTimeout k s
  | .plantLinkChange p up => Sys2Proof.Machine.execPlantLinkChange p up s
  | .tcForward p drop event dwell => Sys2Proof.Machine.execTcForward p drop event dwell s
  | .holdLong => Sys2Proof.Machine.execHoldLong s
  | .lockRelease lv idx => Sys2Proof.Machine.execLockRelease lv idx s
  | .mortarTransferDone path => Sys2Proof.Machine.execMortarTransferDone path s
  | .slaveEnableWrite en => Sys2Proof.Machine.execSlaveEnableWrite en s
  | .domainNumberWrite w => Sys2Proof.Machine.execDomainNumberWrite w s
  | .clearingTestEnd h n pass => Sys2Proof.Machine.execClearingTestEnd h n pass s
  | .hibReady => Sys2Proof.Machine.execHibReady s
  | .glbTempUpdate t => Sys2Proof.Machine.execGlbTempUpdate t s
  | .modulatorRecovery ch => Sys2Proof.Machine.execModulatorRecovery ch s

end Sys2Proof.Machine
end

