-- ==== Sys2Proof/WellFormed.lean ====
section
/-! DEFINITION. Which commands are well formed: the operands that a plain number or list carries lie where the spec lets them
lie. An operand of a finite type has no ill-formed value. -/

namespace Sys2Proof

/-- Courses 0 to 7 and bricks 0 to 16 of a wall (R106). -/
def bricksOk (l : List (Nat × Nat)) : Bool := l.all (fun x => decide (x.1 < 8) && decide (x.2 < 17))

/-- A target of an event source (Table of EVC_TGT). -/
def TgtSet.ok (t : TgtSet) : Bool :=
  decide (t.src < 256) && decide (t.kind < 4) && decide (t.pri < 16) && decide (t.tidx < 2 ^ 16)

/-- Operand ports of a brick are one lock, a course memory has 16 banks, mortar memory 256 lock words (R403). -/
def lockOk (lv : Fin 3) (lock : Nat) : Bool :=
  match lv with
  | 0 => decide (lock < 8 * 17 * 2)
  | 1 => decide (lock < 16 * 16)
  | 2 => decide (lock < 256)

/-- A frame's first bit comes before its end, and its bytes fit an Ethernet payload (R263). -/
def HtlFrame.ok (f : HtlFrame) : Bool := decide (f.first ≤ f.last) && decide (f.etype < 65536) && decide (f.bytes.length ≤ 1500)

/-- Event sources and semaphores a task can wait for (R395). -/
def WaitObj.ok : WaitObj → Bool
  | .source s => decide (s < 256)
  | .semaphore n => decide (n < 64)

/-- Members of a PTP header in their fields (R295). -/
def PtpHdr.ok (h : PtpHdr) : Bool :=
  decide (h.domain < 256) && decide (h.sdoId < 4096) && decide (h.version < 16) && decide (h.minor < 16) &&
  decide (h.source < 2 ^ 80) && decide (h.clockId < 2 ^ 64) && decide (h.seq < 2 ^ 16) &&
  decide (-(2 ^ 63) ≤ h.corr) && decide (h.corr < 2 ^ 63) && decide (-128 ≤ h.logInt) && decide (h.logInt < 128)

/-- A PTP timestamp. -/
def PtpTime.ok (t : PtpTime) : Bool := decide (t.sec < 2 ^ 48) && decide (t.ns < 1000000000)

def Instr.wf : Instr → Bool
  | .laneTestDone _ bricks _ _ => bricksOk bricks
  | .imageVerifyDone _ tgts => tgts.all TgtSet.ok
  | .bar0InvalidAccess _ size _ => decide (1 ≤ size)
  | .refetchDone kind _ => kind == 1 || kind == 2 || kind == 4 || kind == 5
  | .outerIteration _ mis _ => mis.all (fun f => decide (f.course < 8) && decide (f.brick < 17))
  | .transferRequest _ _ beats _ => decide (1 ≤ beats) && decide (beats ≤ 64)
  | .lockRequest lv _ lock => lockOk lv lock
  | .pollSend _ slot => decide (slot < 128)
  | .respWindowClose _ slot => decide (slot < 128)
  | .respReceive _ f => f.ok
  | .joinRespReceive _ f => f.ok
  | .sha _ _ sh => decide (-63 ≤ sh) && decide (sh ≤ 63)
  | .loop _ n len => n != 0 && len != 0
  | .taskWait _ o _ => o.ok
  | .subtelegramReceive h lost => h || !lost
  | .announceReceive _ h b => h.ok && decide (b.gm.length = 5) && decide (b.gmId < 2 ^ 64)
  | .syncReceive _ _ h o => h.ok && o.ok
  | .delayRespReceive _ h who t4 => h.ok && decide (who < 2 ^ 80) && t4.ok
  | .tcForward _ _ event _ => (match event with | some c => decide (-(2 ^ 63) ≤ c) && decide (c < 2 ^ 63) | none => true)
  | .powerOnReset .. | .vauxLost .. | .supplyReset .. | .mainRailsRestored .. | .perstAssert .. | .perstRelease ..
  | .clockLoss .. | .warmReset .. | .hibernateArm .. | .hibernateEnter .. | .hibernateWake .. | .pllLock ..
  | .timePllLock .. | .trefLost .. | .trefBack .. | .memoryTestDone .. | .crossDieLinkDown .. | .crossDieLinkUp ..
  | .tapTestLogicReset .. | .tapUpdateIr .. | .testenHigh .. | .registerWrite .. | .lowWordRead .. | .timeReadLatch ..
  | .plannerRestart .. | .wallRejoin .. | .engineRejoin .. | .checkUnitSelftest .. | .hedgeUnlockKey ..
  | .unlockWindowExpiry .. | .safaHostReset .. | .feedbackClearFault .. | .feedbackPreset .. | .feedbackEnable ..
  | .auxStop .. | .auxDriverOff .. | .auxDriverOn .. | .rephaseDone .. | .portEnable .. | .portStop .. | .hysInputWrite ..
  | .refdomWrite .. | .ringEnable .. | .commandDoorbell .. | .consumerDoorbell .. | .heartbeatPageWrite ..
  | .commandAccept .. | .completionWrite .. | .coalesceTimeout .. | .eventEntryWrite .. | .telemetryWrite ..
  | .hostDmaFail .. | .heartbeatTimeout .. | .queueEngineReset .. | .functionLevelReset .. | .queueResetDone ..
  | .attach .. | .detach .. | .heartbeat .. | .modelLoad .. | .modelFetchDone .. | .modelActivate .. | .safetyParamLoad ..
  | .safetySetChecked .. | .scheduleLoad .. | .scheduleCheckDone .. | .modeSwitch .. | .segAppend .. | .segFlush ..
  | .targetSet .. | .limitsSet .. | .groupMove .. | .commonsRequest .. | .commonsRelease .. | .auxProfile ..
  | .auxTarget .. | .hlSetpoint .. | .stateRead .. | .logFetch .. | .telemetryConfig .. | .servoProgramLoad ..
  | .servoLoadCheckDone .. | .timeConfig .. | .diag .. | .sourceAssertion .. | .masonInterruptEntry ..
  | .masonHandlerReturn .. | .engineVectorEntry .. | .taskReady .. | .hodTick .. | .taskDelay .. | .semaphorePost ..
  | .waitTimeout .. | .masonFail .. | .waitLong .. | .hodWindowEnd .. | .fwRefetch .. | .lockWaitTimeout ..
  | .lockBackoffExpiry .. | .portHang .. | .assemblyStart .. | .lastBlockArrival .. | .csuLatch .. | .sepRecordDeliver ..
  | .recLate .. | .checkPoint .. | .refactorDone .. | .solveDeadline .. | .commitPoint .. | .commitRecordReceive ..
  | .commitWatchExpiry .. | .wallGiveUp .. | .dualActWindowClose .. | .strideBoundary .. | .plannerStopped ..
  | .beatTick .. | .beatEndSend .. | .joinExchange .. | .backupFrameReceive .. | .heathlineLinkChange ..
  | .setpointFreeze .. | .engineDeadlineCheck .. | .cmBlockReady .. | .nop .. | .ldw .. | .lde .. | .stw .. | .ste ..
  | .ldc .. | .ldi .. | .ldil .. | .ldig .. | .mov .. | .pldi .. | .padd .. | .setpd .. | .mvst .. | .stst .. | .mvbs ..
  | .clr .. | .mpy .. | .mac .. | .msu .. | .macm .. | .mulg .. | .macg .. | .lda .. | .adda .. | .rnd .. | .staw ..
  | .stae .. | .add .. | .sub .. | .neg .. | .abs .. | .min .. | .max .. | .clmp .. | .sgn .. | .div .. | .cmp ..
  | .dmac .. | .tapmv .. | .tapmv2 .. | .bfly .. | .bstage .. | .bclr .. | .br .. | .call .. | .ret ..
  | .reti .. | .wait .. | .evraise .. | .brklp .. | .planev .. | .jend .. | .safetyBeat .. | .noRecord ..
  | .hedgeTickTimeout .. | .offPulseEnd .. | .readbackFault .. | .safetyInputAccept .. | .discrepancyTimeout ..
  | .twohandSyncTimeout .. | .sepRecordReceive .. | .crossCheckPoint .. | .verdictReceive .. | .brakeReleaseDelay ..
  | .tss1Expiry .. | .safetyChannelFault .. | .feedbackEdge .. | .indexEdge .. | .feedbackLatch .. | .ssiWordComplete ..
  | .speedStillTimeout .. | .emulationTick .. | .auxProfileTick .. | .hysUpdate .. | .modulatorOutput ..
  | .modulatorStuck .. | .mainsUpdate .. | .dipEnd .. | .rideThroughExpiry .. | .delayReqSend .. | .announceTimeout ..
  | .syncTimeout .. | .plantLinkChange .. | .holdLong .. | .lockRelease .. | .mortarTransferDone .. | .slaveEnableWrite ..
  | .domainNumberWrite .. | .clearingTestEnd .. | .hibReady .. | .glbTempUpdate .. | .modulatorRecovery .. => true

end Sys2Proof
end

