-- ==== Sys2Proof/Safety.lean ====
section
/-! DEFINITION. What counts as a safe run, and the terms the statements use: the machine does not stop, its waiting commands
are well formed, no channel drives an output side of an arm that it holds in STO; and what a command leaves alone. -/

namespace Sys2Proof.Machine

/-- `n` steps from a state end in a state: none of them stops. -/
def SafeRun (n : Nat) (s : State) : Prop := ∃ t, Sys2Proof.core.run n s = .next t

/-- Every waiting command is well formed. -/
def State.queueWf (s : State) : Prop := ∀ c ∈ s.pending, c.wf = true

/-- Side n of a channel is commanded high. -/
def Dev.sideHigh (d : Dev) (h : Bool) (n : Nat) : Bool := bitOf (d.ch h).cmd n

/-- An arm in STO has both of its sides low in the channel, but for a side in its clearing test (R233, R234). -/
def Dev.stoLow (d : Dev) (h : Bool) : Prop :=
  ∀ a, a < 8 → ((d.ch h).arm a).st = .sto →
    (d.sideHigh h a = true → bitOf (d.ch h).clearing a = true) ∧
    (d.sideHigh h (8 + a) = true → bitOf (d.ch h).clearing (8 + a) = true)

/-- A channel with no set in force drives no side (R254). -/
def Dev.noSetLow (d : Dev) (h : Bool) : Prop := d.safety.inForce = false → (d.ch h).cmd = 0

/-- The outputs of both channels are safe. -/
def Dev.outputsSafe (d : Dev) : Prop := ∀ h, d.stoLow h ∧ d.noSetLow h

/-! What a command leaves alone. -/

/-- The parts of a device beside its register file and its interface output. -/
inductive Part where
  | hold | latch | evReq | freeCtr | boot | time | host | hod | engSrcs | heath | kiln | planner | servo | commons | safety
  | field | fbs | ret | fabric | mains
  deriving DecidableEq, Repr

/-- A part is the same in two devices. -/
def Part.same (d d' : Dev) : Part → Prop
  | .hold => d'.hold = d.hold
  | .latch => d'.latch = d.latch
  | .evReq => d'.evReq = d.evReq
  | .freeCtr => d'.freeCtr = d.freeCtr
  | .boot => d'.boot = d.boot
  | .time => d'.time = d.time
  | .host => d'.host = d.host
  | .hod => d'.hod = d.hod
  | .engSrcs => d'.engSrcs = d.engSrcs
  | .heath => d'.heath = d.heath
  | .kiln => d'.kiln = d.kiln
  | .planner => d'.planner = d.planner
  | .servo => d'.servo = d.servo
  | .commons => d'.commons = d.commons
  | .safety => d'.safety = d.safety
  | .field => d'.field = d.field
  | .fbs => d'.fbs = d.fbs
  | .ret => d'.ret = d.ret
  | .fabric => d'.fabric = d.fabric
  | .mains => d'.mains = d.mains

/-- From `d` to `d'` nothing changes but the parts listed, the registers at the offsets listed and the interface output. -/
def Dev.only (d d' : Dev) (parts : List Part) (offs : List Nat) : Prop :=
  (∀ p, p ∉ parts → p.same d d') ∧ (∀ o, o ∉ offs → d'.reg o = d.reg o)

/-- From `d` to `d'` nothing changes but the parts listed, registers and the interface output. -/
def Dev.onlyParts (d d' : Dev) (parts : List Part) : Prop := ∀ p, p ∉ parts → p.same d d'

/-- A command completes: it answers the next state, with the queue as it was and the device as `post` says. -/
def Completes (i : Instr) (s : State) (post : Dev → Prop) : Prop :=
  ∃ t, exec i s = .next t ∧ t.pending = s.pending ∧ post t.dev

/-! Resets. -/

/-- `d'` is what a reset of the main die for a cause leaves of it (R440): cell time 0, no command, task, node, model, plan, parameter
set, hold, path or measurement, channel A at reset with every side low, and every register but those it keeps and those that
leaving reset writes (GLB_ID, the axes' and TST_BOOTST) at its reset value; the retention bank is kept. -/
def Dev.mainWasReset (d d' : Dev) (cause : Nat) : Prop :=
  d'.get GLB_RSTCAUSE = cause ∧ d'.time = TimeSt.zero ∧ d'.host = HostSt.zero ∧ d'.hod = HodSt.zero ∧ d'.heath = HeathSt.zero ∧
  d'.kiln = KilnSt.zero ∧ d'.planner = PlannerSt.zero ∧ d'.servo = Dev.zero.servo ∧ d'.commons = CommonsSt.zero ∧
  d'.fabric = FabricSt.zero ∧ d'.mains = MainsSt.zero ∧ d'.safety.a = Channel.zero ∧ d'.safety.inForce = false ∧
  d'.session = 0 ∧ d'.plState = 0 ∧ d'.reg 0 = 0x00A20860 ∧
  (∀ o, o ≠ 0 → keptReg o = false → ¬ (0xA800 ≤ o ∧ o ≤ 0xAC0C) → o ≠ 0xF800 → d'.reg o = resetOf o) ∧
  (∀ o, 0xBA00 ≤ o → o < 0xBBE0 → d'.reg o = d.reg o) ∧ d'.ret = d.ret

/-- A reset of the main die leaves the Hedge its set, with every arm in STO and every side low (R216, R250, R254). -/
def Dev.hedgeKept (d d' : Dev) : Prop :=
  (d'.ch true).set = (d.ch true).set ∧ (d'.ch true).cmd = 0 ∧ (∀ a, a < 8 → ((d'.ch true).arm a).st = .sto)

/-! Host commands. -/

/-- The journal numbers its commands: no number twice, and the next one is free. -/
def Dev.journalOk (d : Dev) : Prop := (d.host.cmds.map Cmd.id).Nodup ∧ ∀ c ∈ d.host.cmds, c.id < d.host.nextId

/-- Command `c` of an opcode is the one that starts next, in a main die out of reset. -/
def State.starts (s : State) (op : Nat) (c : Cmd) : Prop :=
  s.dev.up = true ∧ s.dev.journalOk ∧ startable s.dev.host.cmds op = some c

/-- In `d` command `c` is complete, with what its completion carries, and the completion waits to be written unless the command
completes into the journal alone (R357, R371). -/
def Dev.endedAs (d : Dev) (c : Cmd) (st : Status) (progress parts res0 res1 : Nat) : Prop :=
  d.cmd? c.id = some { c with started := true, progress := progress, done := some ⟨st, progress, parts, res0, res1⟩ } ∧
  (c.journalOnly = false → d.session ≠ 4 → c.id ∈ d.host.cplQ)

/-- In `d` command `c` has started and is not complete. -/
def Dev.runsOn (d : Dev) (c : Cmd) : Prop := d.cmd? c.id = some { c with started := true }

/-- A command's row ends it with a status and does nothing else. -/
def EndsOnly (i : Instr) (s : State) (c : Cmd) (st : Status) : Prop :=
  Completes i s (fun d => d.endedAs c st 0 0 0 0 ∧ s.dev.only d [.host] [])

/-- `d'` is what a reset of the queue engine outside BOOT leaves (R376): every ring register at its reset value, every journal entry
kept and marked as accepted before the reset, no completion waiting to be written, RSTBUSY set, ATTACHED turned into RESYNC. -/
def Dev.queueWasReset (d d' : Dev) : Prop :=
  d'.is HQE_RSTBUSY = true ∧ d'.is HQE_CPLHELD = false ∧ d'.session = (if d.session = 2 then 3 else d.session) ∧
  (∀ o, 0x1100 ≤ o → o < 0x1680 → d'.reg o = resetOf o ∧ d'.holding o = 0) ∧
  d'.host.cmds = d.host.cmds.map (fun c => { c with reattach := true, posted := none }) ∧ d'.host.cplQ = [] ∧
  d'.host.copies = d.host.copies ∧ d'.host.log = d.host.log ∧ d.onlyParts d' [.host, .hold] ∧
  (∀ o, (o < 0x1100 ∨ 0x1680 ≤ o) → o ≠ 0x1004 → d'.reg o = d.reg o) ∧
  (∀ o, (o < 0x1100 ∨ 0x1680 ≤ o) → d'.holding o = d.holding o)

/-! Hod. -/

/-- In `d` a task is READY, or a Mason runs it. -/
def Dev.readyOrRuns (d : Dev) (id : Nat) : Prop := ∃ t, d.task? id = some t ∧ (t.st = .ready ∨ ∃ c, t.st = .running c)

/-- From `d` to `d'` nothing changes but Hod, the parts listed and Hod's registers. -/
def Dev.onlyHod (d d' : Dev) (parts : List Part) : Prop :=
  d.onlyParts d' (.hod :: parts) ∧ (∀ o, o < 0xD000 → d'.reg o = d.reg o) ∧
  ((∀ t ∈ d.hod.tasks, t.pri < 32) → d.hod.masons.length ≤ 8 → ∀ o, 0xE000 ≤ o → d'.reg o = d.reg o)

/-! Safety channels. -/

/-- A channel has raised a safety source: channel A at once, the Hedge for the next refresh of its mirror (R260). -/
def Dev.raisedS (d : Dev) (h : Bool) (s det : Nat) : Prop :=
  if h then (s, det) ∈ d.safety.hdgEv else (srcNo 7 s, det) ∈ d.evReq

/-- Registers in which channel A shows its state and its counters. -/
def safaRegs : List Nat := [0x8000, 0x8004, 0x8008, 0x800C, 0x8010, 0x8014, 0x8018, 0x8040, 0x8044, 0x8048, 0x804C, 0x8050,
  0x8054, 0x8058]

/-- From `d` to `d'` an operation of one channel has changed nothing but its own state, its requests and its registers: the
other channel and the sets are as before. A stop request may leave it. -/
def Dev.onlyChannel (d d' : Dev) (h : Bool) : Prop :=
  d'.ch (!h) = d.ch (!h) ∧ d'.safety.inForce = d.safety.inForce ∧ (d'.ch h).set = (d.ch h).set ∧
  d.only d' [.safety, .evReq, .planner, .kiln, .host] (if h then [] else safaRegs)

/-- Every arm of a mask is in SS1 or STO in a channel. -/
def Dev.stopped (d : Dev) (h : Bool) (mask : Nat) : Prop := ∀ a, a < 8 → bitOf mask a = true → 2 ≤ ((d.ch h).arm a).st.code

/-- The commands that are an operation of one safety channel. -/
def ofChannel (h : Bool) : Instr → Bool
  | .safetyInputAccept g _ _ _ | .discrepancyTimeout g _ | .twohandSyncTimeout g _ | .subtelegramReceive g _
  | .safetyBeat g _ | .verdictReceive g _ | .offPulseEnd g _ | .readbackFault g _ _ | .clearingTestEnd g _ _
  | .brakeReleaseDelay g _ | .tss1Expiry g _ | .safetyChannelFault g => g == h
  | .noRecord | .sepRecordReceive _ => !h
  | .hedgeTickTimeout => h
  | .crossCheckPoint _ _ => true
  | _ => false

/-! Servo engines. -/

/-- The bank in use of an engine. -/
def Dev.bank? (d : Dev) (e : Nat) : Option Bank := (d.engine e).bind (fun g => g.banks[g.curBank]?)

/-- Words of an engine's memories (R162). -/
def Dev.wmAt (d : Dev) (e a : Nat) : Word := match d.engine e with | some g => fileGet ramDefault g.wm a | none => 0
def Dev.emAt (d : Dev) (e a : Nat) : Word := match d.engine e with | some g => fileGet ramDefault g.em a | none => 0
def Dev.cmAt (d : Dev) (e a : Nat) : Word := match d.engine e with | some g => fileGet cmDefault g.cm a | none => 0

/-- An instruction of engine `e` has changed nothing but its bank in use, its data memories, its innermost handler's cycle count, the
owner of its loop cache, whether it sleeps, and the parts listed: every other engine, bank, register and unit is as before. -/
def Dev.engineFrame (d d' : Dev) (e : Nat) (ps : List Part) : Prop :=
  d.only d' (.servo :: ps) [] ∧ d'.servo = { d.servo with engines := d'.servo.engines } ∧
  (∀ k, k ≠ e → d'.engine k = d.engine k) ∧
  ∀ g, d.engine e = some g → ∃ g', d'.engine e = some g' ∧ g'.curBank = g.curBank ∧
    (∀ n, n ≠ g.curBank → g'.banks[n]? = g.banks[n]?) ∧
    (∃ n, g'.handlers = ranHandlers g.handlers n) ∧
    g' = { g with banks := g'.banks, handlers := g'.handlers, cacheOwner := g'.cacheOwner, asleep := g'.asleep,
                  wm := g'.wm, em := g'.em }

/-- Both data memories of an engine read as before, at every word. -/
def Dev.memFrame (d d' : Dev) (e : Nat) : Prop := ∀ a, d'.wmAt e a = d.wmAt e a ∧ d'.emAt e a = d.emAt e a

/-- Engine `e`, which was to run bank `b`, has run one instruction that leaves bank `b'` and touches no memory. -/
def Dev.ranBank (d d' : Dev) (e : Nat) (b' : Bank) (ps : List Part) : Prop :=
  d'.bank? e = some b' ∧ d.engineFrame d' e ps ∧ d.memFrame d' e ∧
  ∀ g g', d.engine e = some g → d'.engine e = some g' → g'.cacheOwner = g.cacheOwner ∧ g'.asleep = g.asleep

/-- The bank after an instruction that goes on to the next. -/
def Bank.next (b : Bank) : Bank := b.advance

/-- Engine `e`, which was to run bank `b`, has written the exact ALU result `v` to Dd: saturated to Q1.23, Z and N from it, and
the sticky SV where it saturated (R166). -/
def Dev.aluDone (d d' : Dev) (e : Nat) (b : Bank) (dd : Nat) (v : Int) : Prop :=
  ∃ r, r = clampInt v (-8388608) 8388607 ∧ d.ranBank d' e (Bank.next { b with
    d := updAt b.d dd (fun _ => BitVec.ofInt 32 r), z := decide (r = 0), n := decide (r < 0),
    sv := b.sv || decide (v < -8388608 ∨ 8388607 < v) }) []

/-- Engine `e`, which was to run bank `b`, has written the exact result `v`, in units of 2^−46, to An: saturated to 56 bits, Z and N
from it, and the sticky AV where it saturated (R166). -/
def Dev.accDone (d d' : Dev) (e : Nat) (b : Bank) (a : Nat) (v : Int) : Prop :=
  ∃ r, r = clampInt v accMin accMax ∧ d.ranBank d' e (Bank.next { b with
    a := updAt b.a a (fun _ => r), z := decide (r = 0), n := decide (r < 0),
    av := b.av || decide (v < accMin ∨ accMax < v) }) []

/-- Engine `e`, which was to run bank `b`, has stored a word at an address of WM or EM and gone on with bank `b'`; every other word of
both memories reads as before. -/
def Dev.stored (d d' : Dev) (e : Nat) (inWm : Bool) (a : Nat) (w : Word) (b' : Bank) : Prop :=
  d'.bank? e = some (Bank.next b') ∧ d.engineFrame d' e [] ∧ (if inWm then d'.wmAt e a else d'.emAt e a) = w ∧
  (∀ o, inWm = false ∨ o ≠ a → d'.wmAt e o = d.wmAt e o) ∧ (∀ o, inWm = true ∨ o ≠ a → d'.emAt e o = d.emAt e o)

/-- Engine `e` has trapped at its base level with a cause at an address (R178): SRV_TRAP shows it, it is counted and raised, the base
program restarts at its entry, and no other register of the bank and no memory word has changed. -/
def Dev.trappedBase (d d' : Dev) (e cause : Nat) (b : Bank) : Prop :=
  d'.reg 0x6020 = BitVec.ofNat 32 (e + 7 * 16 + cause * 256 + b.pc * 65536) ∧ d'.reg 0x6064 = bumpWord (d.reg 0x6064) ∧
  d'.evReq = d.evReq ++ [(92, e)] ∧ d'.bank? e = some { b with pc := (d.regions e 7).entry } ∧ d.memFrame d' e ∧
  d.only d' [.evReq, .servo] [0x6020, 0x6064]

end Sys2Proof.Machine
end

