-- ==== Sys2Proof/Certificates/Slice0/Obligations.lean ====
section
/-! DEFINITION. The statements about the model, each a rule of the spec or what follows from its rules; OBLIGATIONS.json lists
them with what they rest on. -/

open Sys2Proof Sys2Proof.Machine

/-- A step runs the command at the front of the queue on the state with the queue's rest: For every command c, every
rest of the queue and every device, a step with c in front is exec of c on the state with the rest; with no command
waiting a step is one TIME cycle (the model's choice, log 7): cell time, in units of 2^-48 ns, grows by 2^48·(1 + ADJ)
where PLL_TIME has locked, with ADJ in parts per billion, and nothing else changes. (R4, R291) -/
def Obligations.StepRunsFrontCommand : Prop :=
  (∀ (c : Instr) (rest : List Instr) (v : Dev), step ⟨c :: rest, v⟩ = exec c ⟨rest, v⟩) ∧
  (∀ v : Dev, ∃ t, step ⟨[], v⟩ = .next t ∧ t.pending = [] ∧ v.only t.dev [.time] [] ∧
    (v.time.started = false → t.dev.time = v.time) ∧
    (v.time.started = true → ∃ now frac, t.dev.time = { v.time with now := now, frac := frac } ∧ frac < 2 ^ 48 ∧
      ((now * 2 ^ 48 + frac : Nat) : Int) =
        (v.time.now * 2 ^ 48 + v.time.frac : Nat) + 2 ^ 48 + divRne (v.getS TIM_ADJ * (2 ^ 48 : Nat)) 1000000000))

/-- No run of the block stops, and a run takes exactly the commands at the front of its queue: From every state and for
every number of steps the machine answers a next state (no command of the table stops the block), and what then waits is
the queue less one command per step, in the order in which it stood: commands are taken first in, first out, and none is
lost, repeated or overtaken. In particular n steps on a queue of at least n commands equal the effects of these n
commands one after another. (R4, R5, R31) -/
def Obligations.NoRunStops : Prop := ∀ (n : Nat) (s : State),
  ∃ t, Sys2Proof.core.run n s = .next t ∧ t.pending = s.pending.drop n ∧
    ∀ (cs rest : List Instr), s.pending = cs ++ rest → cs.length = n →
      ∃ ds : List Dev, ds.length = n + 1 ∧ ds[0]? = some s.dev ∧ ds[n]? = some t.dev ∧
        ∀ k (_hk : k < n) c v w, cs[k]? = some c → ds[k]? = some v → ds[k + 1]? = some w →
          exec c ⟨cs.drop (k + 1) ++ rest, v⟩ = .next ⟨cs.drop (k + 1) ++ rest, w⟩

/-- A step keeps the waiting commands well formed, and reset has none waiting: Where every waiting command is well
formed, so is every command that waits after a step; no command adds to the queue. At reset no command waits. (R4) -/
def Obligations.QueueStaysWellFormed : Prop :=
  State.reset.queueWf ∧ State.reset.pending = [] ∧
  ∀ s t : State, s.queueWf → step s = .next t → t.queueWf ∧ t.pending = s.pending.drop 1

/-- After reset every register reads its reset value and both channels hold every arm in STO: In State.reset every
register but GLB_ID reads the reset value of its table, GLB_ID reads 0x00A20860 with no Hedge revision, the session is
BOOT, the planner IDLE, cell time is 0 and has not started, no set is in force, every arm of both channels is in STO and
every side is low. (R440, R216, R34, R291) -/
def Obligations.ResetValues : Prop :=
  (∀ o, o ≠ 0 → State.reset.dev.reg o = resetOf o) ∧ State.reset.dev.reg 0 = 0x00A20860 ∧
  State.reset.dev.session = 0 ∧ State.reset.dev.plState = 0 ∧ State.reset.dev.now = 0 ∧ State.reset.dev.time.started = false ∧
  State.reset.dev.safety.inForce = false ∧ State.reset.dev.outputsSafe ∧
  (∀ h a, a < 8 → ((State.reset.dev.ch h).arm a).st = .sto) ∧ (∀ h n, State.reset.dev.sideHigh h n = false)

/-- Power-on and the loss of VAUX leave every register, memory and unit at its reset state: POWER_ON_RESET and VAUX_LOST
complete in every state. Every register then reads as State.reset has it, every part of the device but the model's
counter of free values is that of State.reset (no retained joint or axis, no set, every arm of both channels in STO and
every side low), TESTEN keeps its level, and the two differ in whether VAUX is in range. Values without a reset value of
the spec are the model's (log 1 to 5). (R420, R216, R440) -/
def Obligations.PowerOnLeavesReset : Prop := ∀ s : State,
  Completes .powerOnReset s (fun d =>
    (∀ o, d.reg o = State.reset.dev.reg o) ∧ (∀ p : Part, p ≠ .freeCtr → p ≠ .boot → p.same State.reset.dev d) ∧
    d.freeCtr = s.dev.freeCtr ∧ d.boot = { State.reset.dev.boot with vaux := true, testen := s.dev.boot.testen } ∧ d.out = [] ∧
    (∀ h a, a < 8 → ((d.ch h).arm a).st = .sto) ∧ (∀ h n, d.sideHigh h n = false)) ∧
  Completes .vauxLost s (fun d =>
    (∀ o, d.reg o = State.reset.dev.reg o) ∧ (∀ p : Part, p ≠ .freeCtr → p ≠ .boot → p.same State.reset.dev d) ∧
    d.freeCtr = s.dev.freeCtr ∧ d.boot = { State.reset.dev.boot with vaux := false, testen := s.dev.boot.testen } ∧ d.out = [] ∧
    (∀ h a, a < 8 → ((d.ch h).arm a).st = .sto) ∧ (∀ h n, d.sideHigh h n = false))

/-- Every reset of the main die records its cause, clears the die and keeps the Hedge and the retention bank:
SUPPLY_RESET of a powered device that does not hibernate, PERST_ASSERT and CLOCK_LOSS of a running main die, WARM_RESET
with its key, TAP_UPDATE_IR of an intrusive main-die instruction and TESTEN_HIGH complete. GLB_RSTCAUSE then holds the
cause (TESTEN keeps it), every unit and register of the main die is at its reset value, channel A is reset with every
side low, the set is out of force, the Hedge keeps its set with every arm in STO and every side low, and the retention
bank keeps its content. A supply reset names its rail in LASTCAUSE and marks it out of range. What still holds the die
keeps it in stage 0; CLOCK_LOSS and WARM_RESET let it boot at once. (R438, R439, R440, R419, R441, R450, R451, R254) -/
def Obligations.MainDieResets : Prop := ∀ (s : State) (rail : Fin 4) (w : Word) (code : BitVec 8),
  (s.dev.boot.vaux = true → s.dev.boot.hib < 2 → s.dev.boot.railsOut = false → Completes (.supplyReset rail) s (fun d =>
    s.dev.mainWasReset d 2 ∧ s.dev.hedgeKept d ∧ d.get TST_STAGE = 0 ∧ d.boot.railsOut = true ∧
    d.get MNS_LASTCAUSE = rail.val + 1 ∧ d.is (MNS_INRANGE (rail.val + 1)) = false)) ∧
  (s.dev.resetHeld = false → s.dev.boot.perst = false → Completes .perstAssert s (fun d =>
    s.dev.mainWasReset d 1 ∧ s.dev.hedgeKept d ∧ d.get TST_STAGE = 0 ∧ d.boot.perst = true)) ∧
  (s.dev.up = true → Completes .clockLoss s (fun d =>
    s.dev.mainWasReset d 4 ∧ s.dev.hedgeKept d ∧ d.get TST_STAGE = (if s.dev.resetHeld then 0 else 1))) ∧
  (s.dev.linked = true → w.toNat % 2 = 1 → w.toNat / 65536 = 0x5752 → Completes (.warmReset w) s (fun d =>
    s.dev.mainWasReset d 3 ∧ s.dev.hedgeKept d ∧ d.get TST_STAGE = (if s.dev.resetHeld then 0 else 1))) ∧
  ([0, 3, 4, 5, 6].contains code.toNat = true → Completes (.tapUpdateIr false code) s (fun d =>
    s.dev.mainWasReset d 6 ∧ s.dev.hedgeKept d ∧ d.get TST_STAGE = 0 ∧ d.boot.irMain = code.toNat ∧ d.boot.intrusive = true)) ∧
  Completes .testenHigh s (fun d =>
    s.dev.mainWasReset d (s.dev.get GLB_RSTCAUSE) ∧ s.dev.hedgeKept d ∧ d.get TST_STAGE = 0 ∧ d.boot.testen = true)

/-- The main die leaves reset into stage PLL once nothing holds it: MAIN_RAILS_RESTORED, PERST_RELEASE and TAP_UPDATE_IR
of a non-intrusive main-die instruction complete. If what each removes was all that held the main die in reset (stage
0), the boot stands in stage 1; if something else holds it, the stage stays 0. (R443, R419, R450) -/
def Obligations.MainDieLeavesReset : Prop := ∀ (s : State) (code : BitVec 8), s.dev.get TST_STAGE = 0 →
  (∀ (q : Bool) (b : BootSt), s.dev.boot.vaux = true → s.dev.boot.railsOut = true → s.dev.boot.hib ≠ 3 →
    b = { s.dev.boot with railsOut := false, seqErr := s.dev.boot.seqErr || q } →
    Completes (.mainRailsRestored q) s (fun d =>
      d.get TST_STAGE = (if Dev.resetHeld { s.dev with boot := b } then 0 else 1) ∧ d.boot.railsOut = false)) ∧
  (∀ b : BootSt, b = { s.dev.boot with perst := false } →
    Completes .perstRelease s (fun d =>
      d.get TST_STAGE = (if Dev.resetHeld { s.dev with boot := b } then 0 else 1) ∧ d.boot.perst = false)) ∧
  (∀ b : BootSt, b = { s.dev.boot with irMain := code.toNat, intrusive := false } →
    [0, 3, 4, 5, 6].contains code.toNat = false →
    Completes (.tapUpdateIr false code) s (fun d =>
      d.get TST_STAGE = (if Dev.resetHeld { s.dev with boot := b } then 0 else 1) ∧ d.boot.irMain = code.toNat ∧
      d.boot.intrusive = false))

/-- The boot goes from PLL to memory test, lane test and BOOT, and a failed part stops or marks it: PLL_LOCK in stage 1
shows the three locks and TREF (while PLL_TIME has not locked), goes to stage 2 if PLL_CORE locks, and sets CAUSE 8
where PLL_SERVO or PLL_SAFA does not. MEMORY_TEST_DONE in stage 2 shows the failing parts in MFAIL and goes to stage 3,
unless mortar, Mason or channel A memory failed: then the stage stays 2 with CAUSE 7. LANE_TEST_DONE of an engine in
stage 3 shows its result and fails the engine, and that of the last part ends the tests in stage 5, BOOT. (R441, R443,
R445, R446) -/
def Obligations.BootStages : Prop := ∀ (s : State) (core servo safa fl : Bool) (tref : Option Bool) (fail : BitVec 6)
    (engines : BitVec 16) (e : Fin 16) (f : Fetch),
  (s.dev.get TST_STAGE = 1 → s.dev.is CLK_TIMELK = false →
    Completes (.pllLock core servo safa tref) s (fun d =>
      d.is CLK_CORELK = core ∧ d.is CLK_SERVOLK = servo ∧ d.is CLK_SAFALK = safa ∧ d.is CLK_TREFOK = tref.isSome ∧
      d.is CLK_TREF25 = (tref == some true) ∧ d.get TST_STAGE = (if core then 2 else 1) ∧
      (core = true → (servo && safa) = false → d.get TST_CAUSE = 8 ∧ d.boot.pllFail = true) ∧
      s.dev.onlyParts d [.boot])) ∧
  (s.dev.up = true → s.dev.get TST_STAGE = 2 →
    Completes (.memoryTestDone fail engines) s (fun d =>
      d.get TST_MFAIL = fail.toNat ∧
      (if fail.getLsbD 2 || fail.getLsbD 3 || fail.getLsbD 5 then d.get TST_STAGE = 2 ∧ d.get TST_CAUSE = 7 ∧ d.boot.partFail = true
       else d.get TST_STAGE = 3 ∧ d.boot = s.dev.boot) ∧
      (fail = 0 → d.evReq = s.dev.evReq) ∧ (fail ≠ 0 → d.evReq = s.dev.evReq ++ [(248, noDetail)]) ∧
      s.dev.onlyParts d [.boot, .evReq])) ∧
  (s.dev.up = true → s.dev.get TST_STAGE = 3 → bitOf s.dev.boot.laneLeft (e.val + 2) = true →
    Completes (.laneTestDone ⟨e.val + 2, by omega⟩ [] fl f) s (fun d =>
      bitOf (d.get TST_EFAIL) e.val = fl ∧ (fl = true → d.is (SRV_FAILED e.val) = true) ∧
      d.boot.laneLeft = setBit s.dev.boot.laneLeft (e.val + 2) false ∧
      d.get TST_STAGE = (if d.boot.laneLeft = 0 then 5 else 3) ∧ s.dev.onlyParts d [.boot, .evReq]))

/-- PLL_TIME starts cell time, TREF's loss is held over, and the cross-die link shows the Hedge's revision: In a main
die out of reset: TIME_PLL_LOCK of an unlocked PLL_TIME sets TREFOK, TREF25 and TIMELK and starts cell time at 0.
TREF_LOST after it sets TIMEHOLD, clears TREFOK and raises TREF_LOST; TREF_BACK in holdover clears TIMEHOLD, sets TREFOK
and raises TREF_BACK; cell time goes on through both. CROSS_DIE_LINK_DOWN clears XDIE, makes HDGREV 0 and raises
XDIE_DOWN; CROSS_DIE_LINK_UP with the Hedge powered sets XDIE, HDGREV reads 1, and XDIE_UP is raised after XDIE_DOWN.
Nothing else changes. (R442, R291, R34, R441, R443) -/
def Obligations.ClocksAndLink : Prop := ∀ (s : State) (t25 : Bool), s.dev.get TST_STAGE ≠ 0 →
  (s.dev.is CLK_TIMELK = false → Completes (.timePllLock t25) s (fun d =>
    d.is CLK_TREFOK = true ∧ d.is CLK_TREF25 = t25 ∧ d.is CLK_TIMELK = true ∧
    d.time = { s.dev.time with started := true, now := 0, frac := 0 } ∧ s.dev.only d [.time] [0x2000])) ∧
  (s.dev.is CLK_TIMELK = true → s.dev.is CLK_TIMEHOLD = false → Completes .trefLost s (fun d =>
    d.is CLK_TIMEHOLD = true ∧ d.is CLK_TREFOK = false ∧ d.evReq = s.dev.evReq ++ [(244, noDetail)] ∧
    s.dev.only d [.evReq] [0x2000])) ∧
  (s.dev.is CLK_TIMEHOLD = true → Completes .trefBack s (fun d =>
    d.is CLK_TIMEHOLD = false ∧ d.is CLK_TREFOK = true ∧ d.evReq = s.dev.evReq ++ [(245, noDetail)] ∧
    s.dev.only d [.evReq] [0x2000])) ∧
  Completes .crossDieLinkDown s (fun d =>
    d.is CLK_XDIE = false ∧ d.get GLB_HDGREV = 0 ∧ d.evReq = s.dev.evReq ++ [(246, noDetail)] ∧
    d.boot = { s.dev.boot with xdieLost := true } ∧ s.dev.only d [.boot, .evReq] [0x2000, 0]) ∧
  (s.dev.hedgeUp = true → Completes .crossDieLinkUp s (fun d =>
    d.is CLK_XDIE = true ∧ d.get GLB_HDGREV = 1 ∧ d.boot = { s.dev.boot with xdieLost := false } ∧
    d.evReq = s.dev.evReq ++ (if s.dev.boot.xdieLost then [(247, noDetail)] else []) ∧
    s.dev.only d [.boot, .evReq] [0x2000, 0]))

/-- Hibernate is armed by its key, reported with the bank written, entered by the rails and left by a wake without a
set: HIBERNATE_ARM with key 0x4842 arms while its conditions hold, and else only sets bit 11 of BLKERR with its event;
another key does nothing. HIB_READY of an arming whose conditions hold writes the retention bank (the measured position
and turn count of every delivering joint, marked valid, and the position of every IDLE or DRVOFF axis), sets HIBRDY and
raises HIB_READY. HIBERNATE_ENTER of an armed device puts the main die into reset, keeping GLB_RSTCAUSE and the retained
registers, and switches the Hedge off: it has no set, every arm in STO and every side low. HIBERNATE_WAKE leaves
hibernate with RSTCAUSE 5, no set in the Hedge and every side low. (R421, R422, R423, R424) -/
def Obligations.HibernatePath : Prop := ∀ (s : State) (key : BitVec 16),
  (s.dev.linked = true → s.dev.boot.hib = 0 → s.dev.hibOk = true → Completes (.hibernateArm 0x4842) s (fun d =>
    d.boot = { s.dev.boot with hib := 1 } ∧ s.dev.only d [.boot] [])) ∧
  (s.dev.linked = true → s.dev.hibOk = false → Completes (.hibernateArm 0x4842) s (fun d =>
    d.is (GLB_BLKERR 11) = true ∧ d.evReq = s.dev.evReq ++ (if s.dev.is (GLB_BLKERR 11) then [] else [(16, noDetail)]) ∧
    s.dev.only d [.evReq] [0x10])) ∧
  (key ≠ 0x4842 → Completes (.hibernateArm key) s (fun d => s.dev.only d [] [])) ∧
  (s.dev.up = true → s.dev.boot.hib = 1 → s.dev.hibOk = true → Completes .hibReady s (fun d =>
    d.is MNS_HIBRDY = true ∧ d.boot = { s.dev.boot with hib := 2 } ∧ d.evReq = s.dev.evReq ++ [(220, noDetail)] ∧
    (∀ m j, s.dev.kiln.active = some m → j ∈ m.joints → s.dev.jointDelivers j = true → j.gj < 60 →
      d.reg (0xBA00 + 8 * j.gj) = BitVec.ofInt 32 (s.dev.measQ j.gj) ∧
      d.reg (0xBA04 + 8 * j.gj) = BitVec.ofNat 32 (encSigned 16 (((s.dev.fb? j.gj).map (·.turn)).getD 0) + 2 ^ 31)) ∧
    (∀ a r, a < 16 → s.dev.axis a = some r → a < s.dev.ret.aux.length →
      d.ret.aux[a]? = (if s.dev.get (AUX_STATE a) = 1 ∨ s.dev.get (AUX_STATE a) = 6 then some (some r.pos) else s.dev.ret.aux[a]?)) ∧
    s.dev.onlyParts d [.boot, .evReq, .ret] ∧ (∀ o, o < 0xB8E0 → d.reg o = s.dev.reg o))) ∧
  (s.dev.boot.vaux = true → s.dev.boot.hib = 2 → Completes .hibernateEnter s (fun d =>
    s.dev.mainWasReset d (s.dev.get GLB_RSTCAUSE) ∧ d.get TST_STAGE = 0 ∧ d.boot.hib = 3 ∧ d.boot.railsOut = true ∧
    d.hedgeUp = false ∧ d.safety.b = Channel.zero ∧ (∀ h n, d.sideHigh h n = false) ∧ d.ret = s.dev.ret)) ∧
  (s.dev.boot.vaux = true → s.dev.boot.hib = 3 → Completes .hibernateWake s (fun d =>
    d.boot = { s.dev.boot with hib := 0, woke := true } ∧ d.get GLB_RSTCAUSE = 5 ∧ (d.ch true).set = none ∧
    (∀ n, d.sideHigh true n = false) ∧ d.ret = s.dev.ret ∧ s.dev.only d [.boot, .safety] [8]))

/-- TAP instructions take their place, the Hedge's intrusive ones stop every arm, and the temperature is shown:
TAP_TEST_LOGIC_RESET selects IDCODE in its TAP and changes nothing else. TAP_UPDATE_IR of the Hedge, powered, holds the
instruction; EXTEST, CLAMP or HIGHZ there put every arm of the Hedge in STO with every side low. GLB_TEMP_UPDATE shows
the temperature and sets OVER above 105 °C (1680 steps of 1/16 °C), never clearing it. (R447, R449, R467) -/
def Obligations.TestAccessAndTemperature : Prop := ∀ (s : State) (h : Bool) (code : BitVec 8) (t : BitVec 16),
  Completes (.tapTestLogicReset h) s (fun d =>
    d.boot = (if h then { s.dev.boot with irHedge := 2 } else { s.dev.boot with irMain := 2 }) ∧ s.dev.only d [.boot] []) ∧
  (s.dev.hedgeUp = true → Completes (.tapUpdateIr true code) s (fun d =>
    d.boot = { s.dev.boot with irHedge := code.toNat % 16 } ∧
    ([0, 3, 4].contains (code.toNat % 16) = true →
      (∀ a, a < 8 → ((d.ch true).arm a).st = .sto) ∧ (∀ n, d.sideHigh true n = false)))) ∧
  (s.dev.up = true → Completes (.glbTempUpdate t) s (fun d =>
    d.get GLB_TEMP = t.toNat ∧ d.is GLB_TEMP_OVER = (decide (1680 < t.toInt) || s.dev.is GLB_TEMP_OVER) ∧
    s.dev.only d [] [0x14]))

/-- A register-error bit that goes from 0 to 1 raises the register-error source, and one already set does not: Setting
bit b of GLB_REGERR.BLKERR of any device (the one operation with which every command sets it) sets the bit and appends
source 0 of group 1 to the requested events if the bit was 0, and changes nothing if it was 1. (R35) -/
def Obligations.RegisterErrorRaises : Prop := ∀ (d : Dev) (b : Nat), b < 16 →
  (d.get (GLB_BLKERR b) = 0 →
    (d.regErr b).get (GLB_BLKERR b) = 1 ∧ (d.regErr b).evReq = d.evReq ++ [(srcNo 1 0, noDetail)] ∧
    d.only (d.regErr b) [.evReq] [0x10] ∧
    ∀ c, c < 16 → c ≠ b → (d.regErr b).get (GLB_BLKERR c) = d.get (GLB_BLKERR c)) ∧
  (d.get (GLB_BLKERR b) = 1 → d.regErr b = d)

/-- A counter stops at all ones with SAT set, and only a write whose count field is 0 clears it: For every device and
every register of the counter class: an increment adds one to the count, or, from the last count on, leaves all ones
with SAT set, so that it counts no further; a write whose count field is 0 clears count and SAT whatever its other bits
say, and leaves 1 where an increment falls in the same cycle; any other write is ignored. (R12, R13) -/
def Obligations.CountersStopAndClear : Prop := ∀ (d : Dev) (off : Nat) (r : RegDesc) (w keep : Word),
  findReg off = some r → r.kind = .counter →
  ((d.reg off).toNat < 2 ^ 31 - 2 → ((d.bump off).reg off).toNat = (d.reg off).toNat + 1) ∧
  ((d.reg off).toNat % 2 ^ 31 ≥ 2 ^ 31 - 2 → (d.bump off).reg off = 0xFFFFFFFF) ∧
  (w.toNat % 2 ^ 31 = 0 → keep = 0 → ((d.writeReg r off w keep).reg off) = 0) ∧
  (w.toNat % 2 ^ 31 = 0 → keep ≠ 0 → ((d.writeReg r off w keep).reg off) = 1) ∧
  (w.toNat % 2 ^ 31 ≠ 0 → d.writeReg r off w keep = d) ∧
  d.only (d.writeReg r off w keep) [] [off] ∧ d.only (d.bump off) [] [off]

/-- An access that is not a single aligned 4-byte access to a register sets its block's error bit alone, and a read
returns 0: Where BAR0 acts, BAR0_INVALID_ACCESS of another size or to an offset no register occupies sets the block's
bit of BLKERR, raises the source only if the bit was 0, and returns 0 for a read; a REGISTER_WRITE to an offset that no
register occupies does the same. Nothing else changes. (R31, R35) -/
def Obligations.InvalidAccesses : Prop := ∀ (s : State) (off : BitVec 16) (size : Nat) (read : Bool) (w : Word) (e : WriteEnv),
  s.dev.linked = true →
  (size ≠ 4 ∨ occupied off.toNat = false → Completes (.bar0InvalidAccess off size read) s (fun d =>
    d.is (GLB_BLKERR (off.toNat / 4096)) = true ∧ d.out = (if read then [.readData 0] else []) ∧
    d.evReq = s.dev.evReq ++ (if s.dev.is (GLB_BLKERR (off.toNat / 4096)) then [] else [(16, noDetail)]) ∧
    s.dev.only d [.evReq] [0x10])) ∧
  (occupied off.toNat = false → Completes (.registerWrite off w e) s (fun d =>
    d.is (GLB_BLKERR (off.toNat / 4096)) = true ∧ d.out = [] ∧
    d.evReq = s.dev.evReq ++ (if s.dev.is (GLB_BLKERR (off.toNat / 4096)) then [] else [(16, noDetail)]) ∧
    s.dev.only d [.evReq] [0x10]))

/-- REGISTER_WRITE acts on each field by its access type: Where BAR0 acts: a write to HQE_COAL sets its two RW fields
and keeps the rest. A write of a reserved threshold to HTL_CFG leaves NODEMISS as it was, still writes JOINGOOD if that
value is legal, and sets bit 4 of BLKERR. A write to GLB_REGERR clears the bits written as 1, and those the device sets
in the same cycle read 1 afterwards, each that was 0 raising its source. A write to a read-only status word
(GLB_RSTCAUSE) changes nothing. The low word of a 64-bit RW value (FIO_EEKL) goes to its holding register only, and the
write of the high word brings both into effect. (R4, R5, R6, R7) -/
def Obligations.RegisterWriteByAccessType : Prop := ∀ (s : State) (w : Word) (e : WriteEnv) (m : Fin 8), s.dev.linked = true →
  Completes (.registerWrite 0x1010 w e) s (fun d =>
    d.get HQE_CTHR = w.toNat % 256 ∧ d.get HQE_CTIME = w.toNat / 256 % 65536 ∧
    (d.reg 0x1010).toNat / 2 ^ 24 = (s.dev.reg 0x1010).toNat / 2 ^ 24 ∧ s.dev.only d [] [0x1010]) ∧
  (w.toNat % 32 = 0 → 4 ≤ w.toNat / 256 % 256 → Completes (.registerWrite 0x4008 w e) s (fun d =>
    d.get HTL_NODEMISS = s.dev.get HTL_NODEMISS ∧ d.get HTL_JOINGOOD = w.toNat / 256 % 256 ∧ d.is (GLB_BLKERR 4) = true ∧
    s.dev.only d [.evReq] [0x4008, 0x10])) ∧
  Completes (.registerWrite 0x10 w e) s (fun d =>
    (∀ b, b < 16 → d.is (GLB_BLKERR b) = (bitOf e.keep.toNat b || (s.dev.is (GLB_BLKERR b) && !bitOf w.toNat b))) ∧
    d.evReq = s.dev.evReq ++ List.replicate
      ((List.range 16).filter (fun b => bitOf e.keep.toNat b && !s.dev.is (GLB_BLKERR b))).length (16, noDetail) ∧
    s.dev.only d [.evReq] [0x10]) ∧
  Completes (.registerWrite 8 w e) s (fun d => d.reg 8 = s.dev.reg 8 ∧ s.dev.only d [] []) ∧
  (∀ lo hi : BitVec 16, lo.toNat = 0xA604 + 0x20 * m.val → hi.toNat = 0xA608 + 0x20 * m.val →
    Completes (.registerWrite lo w e) s (fun d => d.holding lo.toNat = w ∧ s.dev.only d [.hold] []) ∧
    Completes (.registerWrite hi w e) s (fun d =>
      d.reg lo.toNat = s.dev.holding lo.toNat ∧ d.reg hi.toNat = w ∧ s.dev.only d [] [lo.toNat, hi.toNat]))

/-- A read of a low word latches its high word, and a read of TIM_NOWL latches the six time registers: Where BAR0 acts,
LOW_WORD_READ of a 64-bit register other than TIM_NOWL returns the low word and latches the high word; at the offset of
a high word it returns the word latched there, once, or else the register. TIME_READ_LATCH returns the low word of cell
time and latches cell time, its 16-bit fraction and plant time (cell time plus E, in seconds and nanoseconds) in the six
registers. Nothing else changes. (R7, R306) -/
def Obligations.LatchedReads : Prop := ∀ (s : State) (off : BitVec 16) (r : RegDesc), s.dev.linked = true →
  (findReg off.toNat = some r → r.kind = .low64 → off ≠ 0x3020 → Completes (.lowWordRead off) s (fun d =>
    d.out = [.readData (s.dev.reg off.toNat)] ∧ fileGet (fun _ => 0) d.latch (off.toNat + 4) = s.dev.reg (off.toNat + 4) ∧
    s.dev.only d [.latch] [])) ∧
  (findReg off.toNat = some r → r.kind = .high64 → Completes (.lowWordRead off) s (fun d =>
    d.out = [.readData (fileGet (fun o => s.dev.reg o) s.dev.latch off.toNat)] ∧ d.latch = fileDel s.dev.latch off.toNat ∧
    s.dev.only d [.latch] [])) ∧
  Completes .timeReadLatch s (fun d =>
    d.out = [.readData (BitVec.ofNat 32 s.dev.now)] ∧ d.get64 0x3020 = s.dev.now % 2 ^ 64 ∧
    d.get TIM_NOWF = s.dev.time.frac / 2 ^ 32 % 2 ^ 16 ∧
    d.get TIM_PLNS = (((s.dev.now : Int) + s.dev.epochE) % 1000000000).toNat ∧
    d.get TIM_PLSECL = encSigned 48 (((s.dev.now : Int) + s.dev.epochE) / 1000000000) % 2 ^ 32 ∧
    d.get TIM_PLSECH = encSigned 48 (((s.dev.now : Int) + s.dev.epochE) / 1000000000) / 2 ^ 32 % 2 ^ 16 ∧
    s.dev.only d [] [0x3020, 0x3024, 0x3028, 0x302C, 0x3030, 0x3034])

/-- Writes of the reference domain, the slave enables and the domain numbers: Where BAR0 acts: REFDOM_WRITE shows the
domain chosen and makes it the pending reference, or none pending where it is the one in force, and ends a slew if
another is chosen. SLAVE_ENABLE_WRITE sets both enables; a domain enabled from DISABLED with a clock identity set
listens, or is FAULTY while both links are down (the model's choice, log 258), one disabled is DISABLED.
DOMAIN_NUMBER_WRITE with equal numbers is ignored with bit 3 of BLKERR; with two different legal numbers it sets both.
(R297, R301, R307) -/
def Obligations.TimeControlWrites : Prop := ∀ (s : State) (k : Fin 2) (en : BitVec 2) (w : Word), s.dev.linked = true →
  Completes (.refdomWrite k) s (fun d =>
    d.get TIM_REFDOM = k.val ∧ d.time.refNext = (if k.val = s.dev.time.ref then none else some k.val) ∧
    d.time.ref = s.dev.time.ref ∧ (k.val ≠ s.dev.time.ref → d.is TIM_SLEWING = false) ∧ s.dev.onlyParts d [.time, .evReq]) ∧
  Completes (.slaveEnableWrite en) s (fun d =>
    (∀ j, j < 2 → d.is (TIM_SLVEN j) = bitOf en.toNat j ∧ (bitOf en.toNat j = false → d.get (TIM_DSTATE j) = 0) ∧
      (bitOf en.toNat j = true → s.dev.get (TIM_DSTATE j) = 0 → s.dev.clockId ≠ 0 →
        d.get (TIM_DSTATE j) = (if s.dev.time.plantUp.any id then 1 else 4))) ∧
    s.dev.onlyParts d [.time, .evReq]) ∧
  (w.toNat % 256 = w.toNat / 256 % 256 → Completes (.domainNumberWrite w) s (fun d =>
    d.is (GLB_BLKERR 3) = true ∧ s.dev.only d [.evReq] [0x10])) ∧
  (w.toNat % 256 ≠ w.toNat / 256 % 256 → w.toNat % 256 < 128 → w.toNat / 256 % 256 < 128 →
    Completes (.domainNumberWrite w) s (fun d =>
      d.get (TIM_DOMNO 0) = w.toNat % 256 ∧ d.get (TIM_DOMNO 1) = w.toNat / 256 % 256 ∧ s.dev.onlyParts d [.time, .evReq]))

/-- What the PTP messages of its master do to a slave domain: In a running Time and Sync unit, for a message of exactly
one enabled domain k whose record is x: an admissible Announce from another clock with fewer than 255 steps is recorded
as a foreign master heard now. A two-step Sync of the chosen master holds its receipt time and correction until the
Follow_Up of the same sequence number. A Delay_Req takes the next sequence number and notes its departure. A Delay_Resp
to it, after a complete Sync, adds one path delay, and TIM_DMPD shows the mean. A message the profile does not admit
only counts PTPERR. (R295, R296, R298) -/
def Obligations.PtpSlave : Prop := ∀ (s : State) (p k : Fin 2) (h : PtpHdr) (b : AnnBody) (o t4 : PtpTime) (x : Domain),
  s.dev.up = true → s.dev.time.started = true → s.dev.time.domains[k.val]? = some x →
  (s.dev.domainsOf h = [k.val] → PtpHdrOk h = true → b.steps < 255 → h.clockId ≠ s.dev.clockId →
    Completes (.announceReceive p h b) s (fun d =>
      (∃ f ∈ (d.dom k.val).foreign, f.port = p.val ∧ f.ident = h.source ∧ f.times.head? = some d.now) ∧
      s.dev.onlyParts d [.time, .evReq])) ∧
  (s.dev.domainsOf h = [k.val] → PtpHdrOk h = false → Completes (.announceReceive p h b) s (fun d =>
      d.reg 0x30B0 = bumpWord (s.dev.reg 0x30B0) ∧ d.evReq = s.dev.evReq ++ [(168, noDetail)] ∧ s.dev.only d [.evReq] [0x30B0])) ∧
  (s.dev.domainsOf h = [k.val] → PtpHdrOk h = true → -7 ≤ h.logInt → h.logInt ≤ 1 → x.master = some (p.val, h.source) →
    h.twoStep = true → Completes (.syncReceive p false h o) s (fun d =>
      (d.dom k.val).pend = some ⟨h.seq, (s.dev.now : Int) - s.dev.get (TIM_RXLAT p.val), h.corr⟩ ∧
      s.dev.only d [.time] [0x3060 + 0x20 * k.val])) ∧
  (∀ q : Nat × Nat, x.master = some q → Completes (.delayReqSend k) s (fun d =>
      (d.dom k.val).reqSeq = (x.reqSeq + 1) % 65536 ∧
      (d.dom k.val).req = some ((x.reqSeq + 1) % 65536, (s.dev.now : Int) + s.dev.get (TIM_TXLAT q.1)) ∧
      d.out = [.delayReq q.1 k.val ((x.reqSeq + 1) % 65536)] ∧ s.dev.only d [.time] [])) ∧
  (∀ t3 t1 t2 cS : Int, s.dev.domainsOf h = [k.val] → PtpHdrOk h = true → x.master = some (p.val, h.source) →
    x.req = some (h.seq, t3) → x.last = some (t1, t2, cS) →
    Completes (.delayRespReceive p h (s.dev.clockId * 65536 + p.val + 1) t4) s (fun d =>
      (∃ v, v = (t2 - t1 + ((t4.sec * 1000000000 + t4.ns : Nat) : Int) - t3) * 65536 - cS - h.corr ∧
        (d.dom k.val).delays = (max 0 (divRne v 131072) :: x.delays).take 8) ∧
      (d.dom k.val).req = none ∧ (d.dom k.val).gotResp = true ∧
      d.get (TIM_DMPD k.val) = encSigned 32 (d.dom k.val).mpd % 2 ^ 32 ∧ s.dev.only d [.time] [0x306C + 0x20 * k.val]))

/-- Timeouts of a domain, the links of the plant ports, a long holdover and the transparent clock: ANNOUNCE_TIMEOUT of a
domain in UNCALIBRATED or SLAVE with a master makes it listen without one; SYNC_TIMEOUT of a SLAVE makes it
UNCALIBRATED. PLANT_LINK_CHANGE of a link to its other level notes it and raises LINK_CHANGE with the port; with no link
left every enabled domain is FAULTY, and with one up again it listens. HOLD_LONG raises its source once, not before 60 s
of holdover. TC_FORWARD with TCEN counts and forwards a frame to the other port, adding dwell and latencies to the
correction of an event message, or counts a drop. (R297, R302, R303, R304) -/
def Obligations.PlantTimeouts : Prop := ∀ (s : State) (p k : Fin 2) (up : Bool) (drop : Bool) (ev : Option Int) (dwell t : Nat),
  s.dev.up = true →
  ((s.dev.dom k.val).master.isSome = true → s.dev.get (TIM_DSTATE k.val) = 2 ∨ s.dev.get (TIM_DSTATE k.val) = 3 →
    Completes (.announceTimeout k) s (fun d =>
      d.get (TIM_DSTATE k.val) = 1 ∧ (k.val < s.dev.time.domains.length → (d.dom k.val).master = none) ∧
      s.dev.onlyParts d [.time, .evReq])) ∧
  (s.dev.get (TIM_DSTATE k.val) = 3 → Completes (.syncTimeout k) s (fun d =>
    d.get (TIM_DSTATE k.val) = 2 ∧ s.dev.onlyParts d [.time, .evReq])) ∧
  (s.dev.time.plantUp.getD p.val false ≠ up → Completes (.plantLinkChange p up) s (fun d =>
    d.time.plantUp = updAt s.dev.time.plantUp p.val (fun _ => up) ∧ (170, p.val) ∈ d.evReq ∧
    (d.time.plantUp.any id = false → ∀ j, j < 2 → s.dev.get (TIM_DSTATE j) ≠ 0 → d.get (TIM_DSTATE j) = 4) ∧
    (d.time.plantUp.any id = true → ∀ j, j < 2 → s.dev.get (TIM_DSTATE j) = 4 → d.get (TIM_DSTATE j) = 1) ∧
    s.dev.onlyParts d [.time, .evReq])) ∧
  (s.dev.time.holdFrom = some t → s.dev.time.holdLong = false → Completes .holdLong s (fun d =>
    d.time.holdLong = true ∧ t + 60000000000 ≤ d.now ∧ s.dev.now ≤ d.now ∧ d.evReq = s.dev.evReq ++ [(167, noDetail)] ∧
    s.dev.only d [.time, .evReq] [])) ∧
  (s.dev.is CLK_TIMELK = true → s.dev.is TIM_TCEN = true → Completes (.tcForward p drop ev dwell) s (fun d =>
    if drop then d.reg 0x30AC = bumpWord (s.dev.reg 0x30AC) ∧ d.out = [] ∧ s.dev.only d [.time, .evReq] [0x30AC]
    else d.reg (0x30A0 + 4 * p.val) = bumpWord (s.dev.reg (0x30A0 + 4 * p.val)) ∧
      (∀ c, ev = some c → d.reg 0x30A8 = bumpWord (s.dev.reg 0x30A8)) ∧
      d.out = [.forward (1 - p.val) (ev.map (fun c => c +
        ((dwell + s.dev.get (TIM_RXLAT p.val) + s.dev.get (TIM_TXLAT (1 - p.val)) : Nat) : Int) * 65536))] ∧
      s.dev.only d [] [0x30A0 + 4 * p.val, 0x30A8]))

/-- The ALU instructions saturate to Q1.23, set Z and N from the result and SV when it saturates, and write one
register: On an engine that runs the instruction with bank b in use, ADD, SUB, NEG, ABS, MIN, MAX, CLMP and SGN write to
Dd the exact result (of the Q1.23 operands in bits [23:0], in steps of 2^-23) saturated to -2^23 .. 2^23 - 1 and sign-
extended to 32 bits, set Z and N from it, set the sticky SV if it saturated, and go on to the next instruction. Every
other register of the bank, the other banks and engines, the memories and all other state are unchanged. (R165, R166,
R172) -/
def Obligations.EngineAlu : Prop := ∀ (s : State) (e : Fin 16) (dd x y : Fin 8) (b : Bank), s.dev.bank? e = some b →
  (s.dev.runs e 0x1D none = true → Completes (.add e dd x y) s (fun d => s.dev.aluDone d e b dd (q23 (b.dr x) + q23 (b.dr y)))) ∧
  (s.dev.runs e 0x1E none = true → Completes (.sub e dd x y) s (fun d => s.dev.aluDone d e b dd (q23 (b.dr x) - q23 (b.dr y)))) ∧
  (s.dev.runs e 0x1F none = true → Completes (.neg e dd x) s (fun d => s.dev.aluDone d e b dd (-q23 (b.dr x)))) ∧
  (s.dev.runs e 0x20 none = true → Completes (.abs e dd x) s (fun d => s.dev.aluDone d e b dd (((q23 (b.dr x)).natAbs : Int)))) ∧
  (s.dev.runs e 0x21 none = true → Completes (.min e dd x y) s (fun d => s.dev.aluDone d e b dd (if q23 (b.dr x) ≤ q23 (b.dr y) then q23 (b.dr x) else q23 (b.dr y)))) ∧
  (s.dev.runs e 0x22 none = true → Completes (.max e dd x y) s (fun d => s.dev.aluDone d e b dd (if q23 (b.dr x) ≤ q23 (b.dr y) then q23 (b.dr y) else q23 (b.dr x)))) ∧
  (s.dev.runs e 0x23 none = true → Completes (.clmp e dd x y) s (fun d => s.dev.aluDone d e b dd (clampInt (q23 (b.dr x)) (-((q23 (b.dr y)).natAbs : Int)) (q23 (b.dr y)).natAbs))) ∧
  (s.dev.runs e 0x24 none = true → Completes (.sgn e dd x) s (fun d => s.dev.aluDone d e b dd (if q23 (b.dr x) = 0 then 0 else if q23 (b.dr x) < 0 then -8388608 else 8388607)))

/-- The accumulator instructions saturate to 56 bits, set Z and N from the result and AV when it saturates: On an engine
that runs the instruction with bank b in use, CLR, MPY, MAC, MSU, MULG, LDA, ADDA and SHA leave in An the exact result
in units of 2^-46 saturated to -2^55 .. 2^55 - 1, where a right shift rounds to nearest, ties to even; Z, N and the
sticky AV follow. MACG saturates its shifted product first and then the sum. Nothing else of the bank but the program
counter and loop state changes, nor any memory or other state. (R165, R166, R172) -/
def Obligations.EngineAccumulators : Prop := ∀ (s : State) (e : Fin 16) (a m : Fin 4) (x y : Fin 8) (sh : Int) (b : Bank),
  s.dev.bank? e = some b →
  (s.dev.runs e 0x10 none = true → Completes (.clr e a) s (fun d => s.dev.accDone d e b a (0))) ∧
  (s.dev.runs e 0x11 none = true → Completes (.mpy e a x y) s (fun d => s.dev.accDone d e b a (q23 (b.dr x) * q23 (b.dr y)))) ∧
  (s.dev.runs e 0x12 none = true → Completes (.mac e a x y) s (fun d => s.dev.accDone d e b a (b.acc a + q23 (b.dr x) * q23 (b.dr y)))) ∧
  (s.dev.runs e 0x13 none = true → Completes (.msu e a x y) s (fun d => s.dev.accDone d e b a (b.acc a - q23 (b.dr x) * q23 (b.dr y)))) ∧
  (s.dev.runs e 0x15 none = true → Completes (.mulg e a x y) s (fun d => s.dev.accDone d e b a (shrRne (q23 (b.dr x) * q23 (b.dr y)) (-gainShift (b.dr y))))) ∧
  (s.dev.runs e 0x17 none = true → Completes (.lda e a x) s (fun d => s.dev.accDone d e b a (q23 (b.dr x) * 2 ^ 23))) ∧
  (s.dev.runs e 0x18 none = true → Completes (.adda e a m) s (fun d => s.dev.accDone d e b a (b.acc a + b.acc m))) ∧
  (s.dev.runs e 0x19 none = true → Completes (.sha e a sh) s (fun d => s.dev.accDone d e b a (shrRne (b.acc a) (-sh)))) ∧
  (s.dev.runs e 0x16 none = true → Completes (.macg e a x y) s (fun d => ∃ v p r,
    v = shrRne (q23 (b.dr x) * q23 (b.dr y)) (-gainShift (b.dr y)) ∧
    p = clampInt v accMin accMax ∧ r = clampInt (b.acc a + p) accMin accMax ∧
    s.dev.ranBank d e (Bank.next { b with
      a := updAt b.a a (fun _ => r), z := decide (r = 0), n := decide (r < 0),
      av := (b.av || decide (b.acc a + p < accMin ∨ accMax < b.acc a + p)) || decide (v < accMin ∨ accMax < v) }) []))

/-- Moves, pointers, status, rounding, division and block scaling change exactly the registers the table names: On an
engine that runs the instruction with bank b in use, NOP, LDI, LDIL, LDIG, MOV, PLDI, SETPD, MVST, STST, MVBS, CMP, RND,
DIV, BSTAGE and BCLR leave the bank given (LDI sets [23:12] sign-extended; LDIL [11:0]; LDIG [31:24]; STST writes Z, N,
SV and AV alone; CMP sets Z and N from the difference; RND rounds An to nearest even by 23 bits and saturates with SV;
SETPD latches the pointer as buffer start; BSTAGE copies GROW to SHIFT, adds it to BEXP and clears it). DIV by a divisor
other than 0 gives the quotient rounded to nearest even and saturated; 0/0 is 0 and x/0 the saturated value of the sign
of x with SV. PADD modifies the pointer under its descriptor. Nothing else changes. (R165, R166, R171, R172, R173, R175)
-/
def Obligations.EngineRegisters : Prop := ∀ (s : State) (e : Fin 16) (dd x y n : Fin 8) (a : Fin 4) (i12 : BitVec 12) (i8 : BitVec 8)
    (i14 : BitVec 14) (b : Bank), s.dev.bank? e = some b →
  (s.dev.runs e 0x00 none = true → Completes (.nop e) s (fun d => s.dev.ranBank d e (Bank.next b) [])) ∧
  (s.dev.runs e 0x06 none = true → Completes (.ldi e dd i12) s (fun d => s.dev.ranBank d e (Bank.next { b with d := updAt b.d dd (fun _ => BitVec.ofInt 32 (i12.toInt * 2 ^ 12)) }) [])) ∧
  (s.dev.runs e 0x07 none = true → Completes (.ldil e dd i12) s (fun d => s.dev.ranBank d e (Bank.next { b with d := updAt b.d dd (fun _ => insField (b.dr dd) 11 0 i12.toNat) }) [])) ∧
  (s.dev.runs e 0x08 none = true → Completes (.ldig e dd i8) s (fun d => s.dev.ranBank d e (Bank.next { b with d := updAt b.d dd (fun _ => insField (b.dr dd) 31 24 i8.toNat) }) [])) ∧
  (s.dev.runs e 0x09 none = true → Completes (.mov e dd x) s (fun d => s.dev.ranBank d e (Bank.next { b with d := updAt b.d dd (fun _ => b.dr x) }) [])) ∧
  (s.dev.runs e 0x0A none = true → Completes (.pldi e n i14) s (fun d => s.dev.ranBank d e (Bank.next { b with p := updAt b.p n (fun _ => i14.toNat) }) [])) ∧
  (s.dev.runs e 0x0C none = true → Completes (.setpd e n x) s (fun d => s.dev.ranBank d e (Bank.next { b with pd := updAt b.pd n (fun _ => b.dr x), b := updAt b.b n (fun _ => b.ptr n) }) [])) ∧
  (s.dev.runs e 0x0D none = true → Completes (.mvst e dd) s (fun d => s.dev.ranBank d e (Bank.next { b with d := updAt b.d dd (fun _ =>
      b.status (((s.dev.engine e).map (fun (g : Engine) => g.curBank)).getD 0)) }) [])) ∧
  (s.dev.runs e 0x0E none = true → Completes (.stst e x) s (fun d => s.dev.ranBank d e (Bank.next { b with
      z := (b.dr x).getLsbD 0, n := (b.dr x).getLsbD 1, sv := (b.dr x).getLsbD 2, av := (b.dr x).getLsbD 3 }) [])) ∧
  (s.dev.runs e 0x0F none = true → Completes (.mvbs e dd) s (fun d => s.dev.ranBank d e (Bank.next { b with d := updAt b.d dd (fun _ => b.bsr) }) [])) ∧
  (s.dev.runs e 0x26 none = true → Completes (.cmp e x y) s (fun d => s.dev.ranBank d e (Bank.next { b with
      z := decide (q23 (b.dr x) = q23 (b.dr y)), n := decide (q23 (b.dr x) < q23 (b.dr y)) }) [])) ∧
  (s.dev.runs e 0x38 none = true → Completes (.bstage e) s (fun d => s.dev.ranBank d e (Bank.next { b with
      shift := b.grow, bexp := signed 8 (encSigned 8 (b.bexp + b.grow)), grow := 0 }) [])) ∧
  (s.dev.runs e 0x39 none = true → Completes (.bclr e) s (fun d => s.dev.ranBank d e (Bank.next { b with shift := 0, grow := 0, bexp := 0 }) [])) ∧
  (s.dev.runs e 0x1A none = true → Completes (.rnd e dd a) s (fun d => s.dev.aluDone d e b dd (divRne (b.acc a) (2 ^ 23)))) ∧
  (s.dev.runs e 0x25 none = true → Completes (.div e dd x y) s (fun d => ∃ v r sat,
    v = divRne (q23 (b.dr x) * 2 ^ 23 * (q23 (b.dr y)).sign) (q23 (b.dr y)).natAbs ∧
    (r, sat) = (if q23 (b.dr y) = 0 then
        (if q23 (b.dr x) = 0 then (0, false) else if 0 < q23 (b.dr x) then (8388607, true) else (-8388608, true))
      else (clampInt v (-8388608) 8388607, decide (v < -8388608 ∨ 8388607 < v))) ∧
    s.dev.ranBank d e (Bank.next { b with
      d := updAt b.d dd (fun _ => BitVec.ofInt 32 r), z := decide (r = 0), n := decide (r < 0),
      sv := b.sv || sat }) [])) ∧
  (s.dev.runs e 0x0B none = true → ∀ v, modPtr (b.ptr n) (b.pd.getD n 0) (b.b.getD n 0) i12.toInt = some v →
    Completes (.padd e n i12) s (fun d => s.dev.ranBank d e (Bank.next { b with p := updAt b.p n (fun _ => v) }) []))

/-- Loads bring the word at the pointer to Dd and then apply the post-modify: On an engine that runs the instruction
with bank b in use, through a pointer whose descriptor is not the reserved mode and that lies in a region the program
may read, LDW, LDE and LDC (through P7) bring the word of WM, EM or CM at the pointer to Dd, then modify the pointer as
the post-modify says, and change nothing else. (R162, R170, R171, R172) -/
def Obligations.EngineLoads : Prop := ∀ (s : State) (e : Fin 16) (dd n : Fin 8) (pm : PostMod) (b b1 : Bank),
  s.dev.bank? e = some b →
  (s.dev.runs e 0x01 (some pm) = true →
    pdMode (b.pd.getD n 0) ≠ 3 → b.post n pm = some b1 → okWm (s.dev.regions e b.slot) (b.ptr n) = true →
    Completes (.ldw e dd n pm) s (fun d =>
      s.dev.ranBank d e (Bank.next { b1 with d := updAt b1.d dd (fun _ => s.dev.wmAt e (b.ptr n)) }) [])) ∧
  (s.dev.runs e 0x02 (some pm) = true →
    pdMode (b.pd.getD n 0) ≠ 3 → b.post n pm = some b1 → okEm (s.dev.regions e b.slot) b.slot (b.ptr n) = true →
    Completes (.lde e dd n pm) s (fun d =>
      s.dev.ranBank d e (Bank.next { b1 with d := updAt b1.d dd (fun _ => s.dev.emAt e (b.ptr n)) }) [])) ∧
  (s.dev.runs e 0x05 (some pm) = true → pdMode (b.pd.getD 7 0) ≠ 3 → b.post 7 pm = some b1 → okCm (s.dev.regions e b.slot) (b.ptr 7) = true →
    Completes (.ldc e dd pm) s (fun d =>
      s.dev.ranBank d e (Bank.next { b1 with d := updAt b1.d dd (fun _ => s.dev.cmAt e (b.ptr 7)) }) []))

/-- Stores write one word at the pointer and leave every other word of both memories as it was: On an engine that runs
the instruction with bank b in use, through a pointer to a word the program may write: STW and STE store Ds; STAW and
STAE store An rounded by 23 bits and SHIFT more, saturated with SV, and raise GROW to the stored value's growth class.
The pointer is then modified. Every other word of WM and EM reads as before, and nothing else changes. (R163, R166,
R171, R172, R175, R178) -/
def Obligations.EngineStores : Prop := ∀ (s : State) (e : Fin 16) (n x : Fin 8) (a : Fin 4) (pm : PostMod) (b b1 b2 : Bank) (v r : Int),
  s.dev.bank? e = some b → pdMode (b.pd.getD n 0) ≠ 3 → b.post n pm = some b1 →
  v = divRne (b.acc a) (2 ^ (23 + b.shift)) → r = clampInt v (-8388608) 8388607 →
  b2 = { b1 with sv := b.sv || decide (v < -8388608 ∨ 8388607 < v), grow := max b.grow (growClass r) } →
  (okWm (s.dev.regions e b.slot) (b.ptr n) = true →
    (s.dev.runs e 0x03 (some pm) = true → Completes (.stw e n pm x) s (fun d => s.dev.stored d e true (b.ptr n) (b.dr x) b1)) ∧
    (s.dev.runs e 0x1B (some pm) = true →
      Completes (.staw e n pm a) s (fun d => s.dev.stored d e true (b.ptr n) (BitVec.ofInt 32 r) b2))) ∧
  (okEm (s.dev.regions e b.slot) b.slot (b.ptr n) = true → engineWord b.slot (b.ptr n) = false →
    (s.dev.runs e 0x04 (some pm) = true → Completes (.ste e n pm x) s (fun d => s.dev.stored d e false (b.ptr n) (b.dr x) b1)) ∧
    (s.dev.runs e 0x1C (some pm) = true →
      Completes (.stae e n pm a) s (fun d => s.dev.stored d e false (b.ptr n) (BitVec.ofInt 32 r) b2)))

/-- MACM and TAPMV multiply memory operands, and DMAC and TAPMV2 take their coefficient from the cached loop's third
operand: On an engine that runs with bank b in use, with both operands readable and linear post-modifies that the
pointers admit: MACM adds WM[Pi]·EM[Pj] to An; TAPMV does the same and writes x = WM[Pi] to WM[Pi + 1]; DMAC adds
WM[Pi]·c to An and EM[Pj]·c to Am; TAPMV2 does that and writes both samples one word up. With CV set c is CM[P7];
without it c is some word the statement does not name. Other words of both memories are as before. (R166, R170, R172,
R174) -/
def Obligations.EngineMultiplyMemory : Prop := ∀ (s : State) (e : Fin 16) (a m : Fin 4) (i j : Fin 8) (pi pj p7 : PostMod)
    (b b1 b2 b3 : Bank) (x y : Word),
  s.dev.bank? e = some b → b.post i pi = some b1 → b1.post j pj = some b2 → b2.post 7 p7 = some b3 →
  pdMode (b.pd.getD i 0) ≠ 3 → pdMode (b.pd.getD j 0) ≠ 3 → pdMode (b.pd.getD 7 0) ≠ 3 →
  okWm (s.dev.regions e b.slot) (b.ptr i) = true → okEm (s.dev.regions e b.slot) b.slot (b.ptr j) = true →
  x = s.dev.wmAt e (b.ptr i) → y = s.dev.emAt e (b.ptr j) →
  (s.dev.runs e 0x14 none = true → Completes (.macm e a i pi j pj) s (fun d =>
    s.dev.ranBank d e (Bank.next (b2.accum a (b.acc a + q23 x * q23 y))) [])) ∧
  (s.dev.runs e 0x31 none = true → okWm (s.dev.regions e b.slot) (b.ptr i + 1) = true → Completes (.tapmv e a i pi j pj) s (fun d =>
    d.bank? e = some (Bank.next (b2.accum a (b.acc a + q23 x * q23 y))) ∧ s.dev.engineFrame d e [] ∧
    d.wmAt e (b.ptr i + 1) = x ∧ (∀ o, o ≠ b.ptr i + 1 → d.wmAt e o = s.dev.wmAt e o) ∧ (∀ o, d.emAt e o = s.dev.emAt e o))) ∧
  ((b.cv = true → okCm (s.dev.regions e b.slot) (b.ptr 7 % 2 ^ 14) = true) →
    (s.dev.runs e 0x30 none = true →
      Completes (.dmac e a m i pi j pj p7) s (fun d => ∃ c b4, (b.cv = true → c = s.dev.cmAt e (b.ptr 7 % 2 ^ 14)) ∧
        b4 = b3.accum a (b.acc a + q23 x * q23 c) ∧
        s.dev.ranBank d e (Bank.next (b4.accum m (b4.acc m + q23 y * q23 c))) [.freeCtr])) ∧
    (s.dev.runs e 0x32 none = true → okWm (s.dev.regions e b.slot) (b.ptr i + 1) = true → okEm (s.dev.regions e b.slot) b.slot (b.ptr j + 1) = true →
      engineWord b.slot (b.ptr j + 1) = false →
      Completes (.tapmv2 e a m i pi j pj p7) s (fun d => ∃ c b4, (b.cv = true → c = s.dev.cmAt e (b.ptr 7 % 2 ^ 14)) ∧
        b4 = b3.accum a (b.acc a + q23 x * q23 c) ∧
        d.bank? e = some (Bank.next (b4.accum m (b4.acc m + q23 y * q23 c))) ∧ s.dev.engineFrame d e [.freeCtr] ∧
        d.wmAt e (b.ptr i + 1) = x ∧ d.emAt e (b.ptr j + 1) = y ∧
        (∀ o, o ≠ b.ptr i + 1 → d.wmAt e o = s.dev.wmAt e o) ∧ (∀ o, o ≠ b.ptr j + 1 → d.emAt e o = s.dev.emAt e o))))

/-- BFLY writes a + wb and a - wb, rounded with the block's shift, over its two points: On an engine that runs a cached
loop with bank b in use, with P0 and P1 at different words the program may write, BFLY forms t = w·b exactly and stores,
rounded by 23 bits and SHIFT more and saturated to Q1.23, a + t at P0 and a - t at P1, real parts in WM and imaginary
parts in EM, then modifies P0, P1 and P7. GROW is at least each stored value's growth class, every other word of both
memories is as before, and nothing outside the engine changes. (R166, R170, R175) -/
def Obligations.EngineButterfly : Prop := ∀ (s : State) (e : Fin 16) (pa pb p7 : PostMod) (b b1 b2 b3 : Bank) (rd : Int → Int)
    (ar ai br bi wc ws : Int),
  s.dev.runs e 0x33 none = true → s.dev.bank? e = some b → b.cv = true → b.post 0 pa = some b1 → b1.post 1 pb = some b2 →
  b2.post 7 p7 = some b3 →
  (∀ n, n = 0 ∨ n = 1 ∨ n = 7 → pdMode (b.pd.getD n 0) ≠ 3) → b.ptr 0 ≠ b.ptr 1 →
  (∀ n, n = 0 ∨ n = 1 → okWm (s.dev.regions e b.slot) (b.ptr n) = true ∧
    okEm (s.dev.regions e b.slot) b.slot (b.ptr n) = true ∧ engineWord b.slot (b.ptr n) = false) →
  (∀ n, n = 0 ∨ n = 1 → okCm (s.dev.regions e b.slot) ((b.ptr 7 + n) % 2 ^ 14) = true) →
  ar = q23 (s.dev.wmAt e (b.ptr 0)) → ai = q23 (s.dev.emAt e (b.ptr 0)) → br = q23 (s.dev.wmAt e (b.ptr 1)) →
  bi = q23 (s.dev.emAt e (b.ptr 1)) → wc = q23 (s.dev.cmAt e (b.ptr 7 % 2 ^ 14)) →
  ws = q23 (s.dev.cmAt e ((b.ptr 7 + 1) % 2 ^ 14)) →
  (∀ v, rd v = clampInt (divRne v (2 ^ (23 + b.shift))) (-8388608) 8388607) →
  Completes (.bfly e pa pb p7) s (fun d =>
    d.wmAt e (b.ptr 0) = BitVec.ofInt 32 (rd (ar * 2 ^ 23 + (wc * br - ws * bi))) ∧
    d.emAt e (b.ptr 0) = BitVec.ofInt 32 (rd (ai * 2 ^ 23 + (wc * bi + ws * br))) ∧
    d.wmAt e (b.ptr 1) = BitVec.ofInt 32 (rd (ar * 2 ^ 23 - (wc * br - ws * bi))) ∧
    d.emAt e (b.ptr 1) = BitVec.ofInt 32 (rd (ai * 2 ^ 23 - (wc * bi + ws * br))) ∧
    (∀ o, o ≠ b.ptr 0 → o ≠ b.ptr 1 → d.wmAt e o = s.dev.wmAt e o ∧ d.emAt e o = s.dev.emAt e o) ∧
    (∃ b4, d.bank? e = some b4 ∧ b4 = { Bank.next b3 with sv := b4.sv, grow := b4.grow } ∧ b.grow ≤ b4.grow ∧
      growClass (rd (ar * 2 ^ 23 + (wc * br - ws * bi))) ≤ b4.grow) ∧
    s.dev.engineFrame d e [.freeCtr])

/-- Loops, branches, calls and returns move the program counter as the table says: On an engine that runs with bank b in
use: LOOP #n, #len activates the loop over the next len instructions, cached if len is at most 64, the cache then
belonging to this bank. BR goes to the target if its condition holds and on otherwise. CALL with room on the stack
pushes the next address and goes to the target; RET pops it; a target outside an active loop's body leaves the loop.
BRKLP leaves it. An instruction at the loop's end branches to its start while passes remain and leaves it after the
last. (R169, R170, R172) -/
def Obligations.EngineControlFlow : Prop := ∀ (s : State) (e : Fin 16) (n : BitVec 16) (len : BitVec 8) (cc : Cond) (t : BitVec 14)
    (b : Bank), s.dev.bank? e = some b →
  (s.dev.runs e 0x40 none = true → Completes (.loop e n len) s (fun d =>
    d.bank? e = some { b with la := true, cv := decide (len.toNat ≤ 64), lc := n.toNat, ls := b.pc + 1, le := b.pc + len.toNat,
                              pc := b.pc + 1 } ∧
    (len.toNat ≤ 64 → ∀ g g', s.dev.engine e = some g → d.engine e = some g' → g'.cacheOwner = some g.curBank) ∧
    s.dev.engineFrame d e [] ∧ s.dev.memFrame d e)) ∧
  (s.dev.runs e 0x41 none = true → Completes (.br e cc t) s (fun d => s.dev.ranBank d e
    (if (match cc with | .always => true | .z => b.z | .nz => !b.z | .n => b.n | .nn => !b.n | .sv => b.sv | .av => b.av)
     then b.jump t.toNat else Bank.next b) [])) ∧
  (s.dev.runs e 0x42 none = true → b.stack.length < 8 → Completes (.call e t) s (fun d =>
    s.dev.ranBank d e (Bank.jump { b with stack := (b.pc + 1) :: b.stack } t.toNat) [])) ∧
  (s.dev.runs e 0x43 none = true → ∀ r rest, b.stack = r :: rest → Completes (.ret e) s (fun d =>
    s.dev.ranBank d e (Bank.jump { b with stack := rest } r) [])) ∧
  (s.dev.runs e 0x47 none = true → Completes (.brklp e) s (fun d => s.dev.ranBank d e
    (Bank.next (if b.la then { b with la := false, cv := false, lc := 0 } else b)) [])) ∧
  (b.jump t.toNat).pc = t.toNat ∧
  (b.la = true → (t.toNat < b.ls ∨ b.le < t.toNat) → (b.jump t.toNat).la = false ∧ (b.jump t.toNat).cv = false) ∧
  (b.la = true → b.ls ≤ t.toNat → t.toNat ≤ b.le → (b.jump t.toNat).la = true ∧ (b.jump t.toNat).lc = b.lc) ∧
  (b.la = true → b.pc = b.le → 1 < b.lc → Bank.next b = { b with lc := b.lc - 1, pc := b.ls }) ∧
  (b.la = true → b.pc = b.le → b.lc ≤ 1 → Bank.next b = { b with la := false, cv := false, lc := 0, pc := b.pc + 1 }) ∧
  (b.la = false ∨ b.pc ≠ b.le → Bank.next b = { b with pc := b.pc + 1 })

/-- A program that leaves its regions, its stack or its modes, or meets an undefined opcode, traps, and no operand is
written: On an engine that runs the instruction at its base level with bank b in use: an access of LDW, LDE, STW or STE
outside the program's regions or through the reserved mode, a ninth CALL and a RET of an empty stack record the trap in
SRV_TRAP with engine, slot, cause and address, count SRV_TRAPN and raise PROG_TRAP; the base program restarts at its
entry; no data register, no memory word and no other register of the bank changes. A word of the code memory whose
opcode is not in the table traps with cause 1 whatever instruction is executed there. (R172, R178) -/
def Obligations.EngineTraps : Prop := ∀ (s : State) (e : Fin 16) (dd n : Fin 8) (pm : PostMod) (t : BitVec 14) (b : Bank) (g : Engine),
  s.dev.engine e = some g → g.handlers = [] → s.dev.bank? e = some b → b.slot = 7 →
  (pdMode (b.pd.getD n 0) = 3 ∨ okWm (s.dev.regions e 7) (b.ptr n) = false →
    (s.dev.runs e 0x01 (some pm) = true → Completes (.ldw e dd n pm) s (fun d => s.dev.trappedBase d e 3 b)) ∧
    (s.dev.runs e 0x03 (some pm) = true → Completes (.stw e n pm dd) s (fun d => s.dev.trappedBase d e 3 b))) ∧
  (pdMode (b.pd.getD n 0) = 3 ∨ okEm (s.dev.regions e 7) 7 (b.ptr n) = false →
    (s.dev.runs e 0x02 (some pm) = true → Completes (.lde e dd n pm) s (fun d => s.dev.trappedBase d e 3 b)) ∧
    (s.dev.runs e 0x04 (some pm) = true → Completes (.ste e n pm dd) s (fun d => s.dev.trappedBase d e 3 b))) ∧
  (s.dev.runs e 0x42 none = true → 8 ≤ b.stack.length → Completes (.call e t) s (fun d => s.dev.trappedBase d e 5 b)) ∧
  (s.dev.runs e 0x43 none = true → b.stack = [] → Completes (.ret e) s (fun d => s.dev.trappedBase d e 6 b)) ∧
  (s.dev.up = true → s.dev.is (SRV_FAILED e) = false → g.asleep = false → fetchOk (s.dev.regions e 7) b.pc = true → b.pc < 0x2000 →
    opDefined (opcodeOf (s.dev.cmAt e b.pc)) = false → Completes (.nop e) s (fun d => s.dev.trappedBase d e 1 b))

/-- RETI and JEND leave a handler, JEND ends a joint's computation, WAIT sleeps, EVRAISE raises USER_EVENT and PLANEV
writes the plan's values: On an engine that runs the instruction: RETI in a handler with no pending event above the
level returned to goes back to the interrupted bank, whose loop cache is refilled, one cycle per instruction of the
body, if another bank has taken it; at the base level it only goes on. WAIT at the base level sleeps unless an event is
pending. EVRAISE raises source 13 of group 5 with the engine. PLANEV in a slot handler with a plan value writes QREF, E,
VREF and AREF to the slot window and sets ESAT in FBFLAGS as it saturated. JEND of a delivering joint puts VCMD and TCMD
of the window, in drive units, into the transmit buffer, where it is not frozen, and leaves the handler; it clears SV
and AV of its bank, of a slot without a joint too. (R146, R167, R170, R176, R177, R184) -/
def Obligations.EngineHandlers : Prop := ∀ (s : State) (e : Fin 16) (b : Bank) (g : Engine),
  s.dev.engine e = some g → s.dev.bank? e = some b →
  (s.dev.runs e 0x44 none = true → ∀ h rest b0 refill, g.handlers = h :: rest → h.vec ≠ 6 →
    Engine.curBank { g with handlers := rest } ≠ g.curBank → g.banks[Engine.curBank { g with handlers := rest }]? = some b0 →
    (refill = true ↔ b0.cv = true ∧ g.cacheOwner ≠ some (Engine.curBank { g with handlers := rest })) →
    s.dev.nextVector g (Engine.level { g with handlers := rest }) = none →
    Completes (.reti e) s (fun d => (∃ g', d.engine e = some g' ∧
      g'.handlers = (match rest with
        | k :: t => { k with cycles := k.cycles + (if refill then b0.le + 1 - b0.ls else 0) } :: t | [] => []) ∧
      g'.banks[g.curBank]? = some (Bank.next b) ∧ d.bank? e = some b0 ∧
      g'.cacheOwner = (if refill then some (Engine.curBank { g with handlers := rest }) else g.cacheOwner) ∧
      g'.wm = g.wm ∧ g'.em = g.em ∧ g'.pend = g.pend) ∧ s.dev.only d [.servo] [])) ∧
  (s.dev.runs e 0x44 none = true → g.handlers = [] → Completes (.reti e) s (fun d => s.dev.ranBank d e (Bank.next b) [])) ∧
  (s.dev.runs e 0x45 none = true → Completes (.wait e) s (fun d =>
    (∃ g', d.engine e = some g' ∧ g'.asleep = (g.handlers.isEmpty && g.pend == 0)) ∧
    d.bank? e = some (Bank.next b) ∧ s.dev.engineFrame d e [] ∧ s.dev.memFrame d e)) ∧
  (s.dev.runs e 0x46 none = true → Completes (.evraise e) s (fun d =>
    d.evReq = s.dev.evReq ++ [(93, e.val)] ∧ s.dev.ranBank d e (Bank.next b) [.evReq])) ∧
  (s.dev.runs e 0x48 none = true → ∀ gj v, b.slot < 5 → s.dev.slotJoint e b.slot = some gj → s.dev.planVals gj = some v →
    Completes (.planev e) s (fun d =>
      d.emAt e (windowBase b.slot + 0xA0) = BitVec.ofNat 32 (encSigned 64 v.qref) ∧
      d.emAt e (windowBase b.slot + 0xA1) = BitVec.ofNat 32 (encSigned 64 v.qref / 2 ^ 32) ∧
      d.emAt e (windowBase b.slot + 0xA2) = ofQ23 v.e ∧ d.emAt e (windowBase b.slot + 0xA3) = ofQ23 v.vref ∧
      d.emAt e (windowBase b.slot + 0xA4) = ofQ23 v.aref ∧
      (d.emAt e (windowBase b.slot + 0xA9)).getLsbD 2 = v.esat ∧ d.bank? e = some (Bank.next b) ∧
      (∀ o, ¬ (windowBase b.slot + 0xA0 ≤ o ∧ o ≤ windowBase b.slot + 0xA4) → o ≠ windowBase b.slot + 0xA9 →
        d.emAt e o = s.dev.emAt e o) ∧ s.dev.only d [.servo] [])) ∧
  (s.dev.runs e 0x49 none = true → ∀ h rest, g.handlers = h :: rest → h.vec ≠ 6 → b.slot < 5 →
    s.dev.nextVector g (Engine.level { g with handlers := rest }) = none →
    (s.dev.slotJoint e b.slot = none → Completes (.jend e) s (fun d =>
      (∃ g', d.engine e = some g' ∧ g'.handlers.length = rest.length ∧ g'.curBank = Engine.curBank { g with handlers := rest } ∧
        g'.banks[g.curBank]? = some { Bank.next b with sv := false, av := false }) ∧ s.dev.only d [.servo] [])) ∧
    (∀ gj j sv, s.dev.slotJoint e b.slot = some gj → s.dev.jrt gj = some j → s.dev.entry gj = some sv → j.delivering = true →
      Completes (.jend e) s (fun d =>
        (∃ j', d.jrt gj = some j' ∧ j'.done = true ∧ j'.tx = (if s.dev.servo.frozen then j.tx else
          some (driveUnits sv (q23 (s.dev.emAt e (windowBase b.slot + 0xC0))) (q23 (s.dev.emAt e (windowBase b.slot + 0xC1)))))) ∧
        (∃ g', d.engine e = some g' ∧ g'.handlers.length = rest.length ∧
          g'.banks[g.curBank]? = some { Bank.next b with sv := false, av := false }))))

/-- Rings are enabled only with a valid size, and a doorbell moves an index only if it fits the ring: Where BAR0 acts:
RING_ENABLE of a disabled ring with a size of 2^4 to 2^16 enables it with both indices 0, its size and generation as
written, and phase 1 for a device-written ring; an enabling write of another size, or a write that changes another field
of an enabled ring, only sets bit 1 of BLKERR. A COMMAND_DOORBELL or CONSUMER_DOORBELL of the ring's generation, with an
index in the ring (and, for a consumer, no further than the producer), moves the host's index and nothing else but the
journal, which a completion ring's acknowledged commands leave; any other doorbell is discarded, counted and raised.
(R351, R352, R353, R354) -/
def Obligations.RingsAndDoorbells : Prop := ∀ (s : State) (w : Word), s.dev.linked = true →
  (∀ r : Fin 73, s.dev.is (RING_EN r) = false → bitOf w.toNat 8 = true → 4 ≤ w.toNat % 32 → w.toNat % 32 ≤ 16 →
    Completes (.ringEnable r w) s (fun d =>
      d.is (RING_EN r) = true ∧ d.get (RING_LOG2SZ r) = w.toNat % 32 ∧ d.get (RING_GEN r) = w.toNat / 2 ^ 24 ∧
      d.reg (ringBase r + 12) = 0 ∧ bitOf d.host.ringStop r = false ∧
      (32 ≤ r.val → s.dev.host.phases.length = 41 → d.phase r = true) ∧
      s.dev.only d [.host] [ringBase r + 8, ringBase r + 12])) ∧
  (∀ r : Fin 73, (bitOf w.toNat 8 = true ∧ ¬ (4 ≤ w.toNat % 32 ∧ w.toNat % 32 ≤ 16)) ∨
      (s.dev.is (RING_EN r) = true ∧ w.toNat / 2 ^ 24 ≠ s.dev.get (RING_GEN r)) →
    Completes (.ringEnable r w) s (fun d => d.is (GLB_BLKERR 1) = true ∧ s.dev.only d [.evReq] [0x10])) ∧
  (∀ r : Fin 32, Completes (.commandDoorbell r w) s (fun d =>
    if s.dev.is (RING_EN r) = true ∧ w.toNat / 2 ^ 24 = s.dev.get (RING_GEN r) ∧ w.toNat % 65536 < s.dev.ringSize r
    then d.get (RING_HOSTIDX r) = w.toNat % 65536 ∧ d.get (RING_DEVIDX r) = s.dev.get (RING_DEVIDX r) ∧
      s.dev.only d [] [ringBase r + 12]
    else d.reg 0x1040 = bumpWord (s.dev.reg 0x1040) ∧ d.evReq = s.dev.evReq ++ [(3, noDetail)] ∧
      s.dev.only d [.evReq] [0x1040])) ∧
  (∀ r : Fin 41, Completes (.consumerDoorbell r w) s (fun d =>
    if s.dev.is (RING_EN (32 + r)) = true ∧ w.toNat / 2 ^ 24 = s.dev.get (RING_GEN (32 + r)) ∧
      w.toNat % 65536 < s.dev.ringSize (32 + r) ∧
      ringDist (s.dev.ringSize (32 + r)) (w.toNat % 65536) (s.dev.get (RING_HOSTIDX (32 + r))) ≤
        ringDist (s.dev.ringSize (32 + r)) (s.dev.get (RING_DEVIDX (32 + r))) (s.dev.get (RING_HOSTIDX (32 + r)))
    then d.get (RING_HOSTIDX (32 + r)) = w.toNat % 65536 ∧
      (32 ≤ r.val → d.host = s.dev.host) ∧
      (∀ c ∈ s.dev.host.cmds, (∀ i, c.posted ≠ some (32 + r.val, i)) → c ∈ d.host.cmds) ∧
      (∀ c i, r.val < 32 → c.posted = some (32 + r.val, i) →
        (c ∈ d.host.cmds ↔ c ∈ s.dev.host.cmds ∧
          ringDist (s.dev.ringSize (32 + r)) (w.toNat % 65536) (s.dev.get (RING_HOSTIDX (32 + r))) ≤
            ringDist (s.dev.ringSize (32 + r)) i (s.dev.get (RING_HOSTIDX (32 + r))))) ∧
      s.dev.only d [.host] [ringBase (32 + r) + 12, 0x1004]
    else d.reg 0x1040 = bumpWord (s.dev.reg 0x1040) ∧ d.evReq = s.dev.evReq ++ [(3, noDetail)] ∧
      s.dev.only d [.evReq] [0x1040]))

/-- The next command entry is accepted into the journal and checked in the order of R470, and a failed read stops its
ring: With a ring to fetch from and fewer than 256 commands outstanding, COMMAND_ACCEPT of 64 bytes read advances the
ring's index and, below 1,024 journal entries, enters the command: it waits for its start if it passes the checks of its
entry, of the session and of ADDR and LEN, and is otherwise complete with the status of the first check it fails. A
failed read stops the ring, sets its error bit and raises CMD_FETCH_ERR and the DMA error. The journal's numbers stay
distinct. (R360, R470, R356, R371, R472) -/
def Obligations.CommandsAccepted : Prop := ∀ (s : State) (r : Nat) (b : List Byte), s.dev.linked = true →
  s.dev.outstanding < 256 → s.dev.nextRing = some r →
  Completes (.commandAccept .failed) s (fun d =>
    d.is (RING_ERR r) = true ∧ bitOf d.host.ringStop r = true ∧ d.evReq = s.dev.evReq ++ [(4, noDetail), (8, noDetail)] ∧
    d.reg 0x104C = bumpWord (s.dev.reg 0x104C) ∧ d.host = { s.dev.host with ringStop := d.host.ringStop } ∧
    s.dev.only d [.host, .evReq] [ringBase r + 8, 0x104C]) ∧
  (s.dev.journalOk → s.dev.host.cmds.length < 1024 → Completes (.commandAccept (.bytes b)) s (fun d =>
    d.journalOk ∧ d.host.nextId = s.dev.host.nextId + 1 ∧ d.host.cmds.take s.dev.host.cmds.length = s.dev.host.cmds ∧
    d.host.cmds.length = s.dev.host.cmds.length + 1 ∧
    d.get (RING_DEVIDX r) = (s.dev.get (RING_DEVIDX r) + 1) % s.dev.ringSize r % 65536 ∧
    (∃ c, d.cmd? s.dev.host.nextId = some c ∧ c.ring = r ∧ c.opcode = uAt b 0 1 ∧ c.cid = uAt b 2 2 ∧ c.tag = uAt b 4 4 ∧
      c.addr = uAt b 8 8 ∧ c.len = uAt b 0x10 4 ∧ c.param = bytesAt b 0x18 40 ∧ c.accepted = s.dev.now ∧
      c.fence = (uAt b 1 1 % 2 == 1) ∧ c.done.map Cpl.status =
        (if entryOk b = false then some .rejectedParam
         else if (uAt b 0 1 = 1 ↔ s.dev.session = 2) then some .rejectedState
         else if addrOk (uAt b 0 1) (uAt b 8 8) (uAt b 0x10 4) = false then some .rejectedParam else none)) ∧
    d.host.copies = s.dev.host.copies.filter (fun m => m.cmd != some s.dev.host.nextId ||
      (entryOk b && (s.dev.session == 2) != (uAt b 0 1 == 1) && addrOk (uAt b 0 1) (uAt b 8 8) (uAt b 0x10 4))) ∧
    s.dev.only d [.host] [ringBase r + 12, 0x1004]))

/-- Completions, events and telemetry are written to their rings, and a full or failed ring is handled as its kind says:
COMPLETION_WRITE writes the first completion whose ring takes it at the producer index, with the ring's phase, and
advances the index; with none that may be written, one that waits outside HOSTLOST sets CPLHELD. EVENT_ENTRY_WRITE
enters the oldest waiting entry in the main and the retention log; if its vector is none it reaches no ring.
TELEMETRY_WRITE to a full ring drops the record, counts it and raises TEL_DROP. HOST_DMA_FAIL stops the ring whose next
entry it meets: a telemetry record is discarded, an event stays in the logs only, a completion waits with CPLHELD set.
COALESCE_TIMEOUT fires the vector of a ring with entries not yet signalled. (R353, R354, R355, R357, R358, R359, R472)
-/
def Obligations.EntriesWritten : Prop := ∀ (s : State),
  (s.dev.linked = true → ∀ c x, s.dev.waitingCpls.find? s.dev.cplWritable = some c → c.done = some x →
    Completes .completionWrite s (fun d => ∃ r, r = s.dev.cplRing c ∧
      Output.hostWrite (s.dev.ringAddr r + 32 * s.dev.get (RING_DEVIDX r)) (s.dev.cplEntry c x (s.dev.phase r)) ∈ d.out ∧
      d.get (RING_DEVIDX r) = (s.dev.get (RING_DEVIDX r) + 1) % s.dev.ringSize r % 65536 ∧
      d.host.cplQ = s.dev.host.cplQ.filter (· != c.id) ∧
      s.dev.only d [.host, .evReq] [ringBase r + 12, 0x1004])) ∧
  (s.dev.linked = true → s.dev.waitingCpls.find? s.dev.cplWritable = none → Completes .completionWrite s (fun d =>
    d.is HQE_CPLHELD = (s.dev.is HQE_CPLHELD || (!s.dev.waitingCpls.isEmpty && s.dev.session != 4)) ∧ d.out = [] ∧
    s.dev.only d [.evReq] [0x1004])) ∧
  (∀ e rest, s.dev.up = true → s.dev.host.evOut = e :: rest → Completes .eventEntryWrite s (fun d =>
    d.host.evOut = rest ∧ d.host.log = (s.dev.host.log ++ [e]).drop (s.dev.host.log.length + 1 - 4096) ∧
    d.ret.log = (s.dev.ret.log ++ [e]).drop (s.dev.ret.log.length + 1 - 8) ∧
    (e.vec = 0xFF → d.out = [] ∧ d.host.unsent = s.dev.host.unsent + 1 ∧ s.dev.only d [.host, .ret] []) ∧
    (e.vec ≠ 0xFF → s.dev.ringOn 64 = true → s.dev.hostOpen = true → s.dev.ringFull 64 = false → s.dev.host.drops = none →
      d.out = [.hostWrite (s.dev.ringAddr 64 + 32 * s.dev.get (RING_DEVIDX 64)) (e.bytes (s.dev.phase 64)), .msix e.vec] ∧
      d.get (RING_DEVIDX 64) = (s.dev.get (RING_DEVIDX 64) + 1) % s.dev.ringSize 64 % 65536 ∧ d.host.unsent = 0 ∧
      d.host.ringSeq = e.seq ∧ s.dev.only d [.host, .ret] [ringBase 64 + 12]))) ∧
  (∀ t rest, s.dev.up = true → s.dev.host.telOut = t :: rest → t.ring < 8 →
    s.dev.ringOn (65 + t.ring) = true → s.dev.hostOpen = true →
    (s.dev.ringFull (65 + t.ring) = true → Completes .telemetryWrite s (fun d =>
      d.host.telOut = rest ∧ d.reg 0x1048 = bumpWord (s.dev.reg 0x1048) ∧ d.evReq = s.dev.evReq ++ [(7, noDetail)] ∧
      d.out = [] ∧ s.dev.only d [.host, .evReq] [0x1048])) ∧
    (s.dev.ringFull (65 + t.ring) = false → Completes .telemetryWrite s (fun d =>
      d.host.telOut = rest ∧ d.get (RING_DEVIDX (65 + t.ring)) =
        (s.dev.get (RING_DEVIDX (65 + t.ring)) + 1) % s.dev.ringSize (65 + t.ring) % 65536 ∧
      (∀ k < 4, Output.hostWrite (s.dev.ringAddr (65 + t.ring) + 256 * s.dev.get (RING_DEVIDX (65 + t.ring)) + 64 * k)
        (bytesAt (telBytes t (s.dev.host.telSeq.getD t.ring 0) (s.dev.host.telDrop.getD t.ring false)
          (s.dev.phase (65 + t.ring))) (64 * k) 64) ∈ d.out) ∧
      s.dev.only d [.host] [ringBase (65 + t.ring) + 12])) ∧
    (∀ r : Fin 41, r.val = 33 + t.ring → s.dev.linked = true → s.dev.ringFull (65 + t.ring) = false →
      Completes (.hostDmaFail r) s (fun d => d.host.telOut = rest ∧ d.is (RING_ERR (65 + t.ring)) = true ∧
        bitOf d.host.ringStop (65 + t.ring) = true ∧ d.reg 0x104C = bumpWord (s.dev.reg 0x104C) ∧
        d.evReq = s.dev.evReq ++ [(8, noDetail)] ∧ s.dev.only d [.host, .evReq] [ringBase (65 + t.ring) + 8, 0x104C]))) ∧
  (s.dev.linked = true → s.dev.ringOn 64 = true → s.dev.ringFull 64 = false → s.dev.hostOpen = true →
    ∀ e rest, s.dev.host.evOut = e :: rest → e.vec ≠ 0xFF → Completes (.hostDmaFail 32) s (fun d =>
      d.host.evOut = rest ∧ d.host.log = (s.dev.host.log ++ [e]).drop (s.dev.host.log.length + 1 - 4096) ∧
      d.host.unsent = s.dev.host.unsent + 1 ∧ bitOf d.host.ringStop 64 = true ∧ d.out = [] ∧
      d.evReq = s.dev.evReq ++ [(8, noDetail)] ∧ s.dev.only d [.host, .evReq, .ret] [ringBase 64 + 8, 0x104C])) ∧
  (∀ (r : Fin 41) c, r.val < 32 → s.dev.linked = true → s.dev.ringOn (32 + r) = true → c ∈ s.dev.waitingCpls →
    s.dev.cplRing c = 32 + r.val → s.dev.cplWritable c = true → Completes (.hostDmaFail r) s (fun d =>
      d.host.cplQ = s.dev.host.cplQ ∧ d.is HQE_CPLHELD = true ∧ bitOf d.host.ringStop (32 + r) = true ∧ d.out = [] ∧
      s.dev.only d [.host, .evReq] [ringBase (32 + r) + 8, 0x104C, 0x1004])) ∧
  (∀ r : Fin 41, s.dev.linked = true → r.val ≠ 32 → s.dev.get HQE_CTIME ≠ 0 → s.dev.host.unsig.getD r 0 ≠ 0 →
    Completes (.coalesceTimeout r) s (fun d => d.out = [.msix (s.dev.get (RING_CQVEC (32 + r)))] ∧
      d.host.unsig.getD r 0 = 0 ∧ s.dev.only d [.host] []))

/-- The watchdog restarts by its page or HEARTBEAT and its timeout loses the host; a queue-engine reset keeps the
journal: HEARTBEAT_PAGE_WRITE in ATTACHED or RESYNC, and HEARTBEAT in ATTACHED, restart the watchdog at the present
time. HEARTBEAT_TIMEOUT in ATTACHED or RESYNC with a timeout set enters HOSTLOST, counts and raises HOST_LOST, and
records the time and the reaction run. QUEUE_ENGINE_RESET with its bit, or FUNCTION_LEVEL_RESET, outside BOOT clears
every ring register, keeps every journal entry, marked as accepted before the reset, sets RSTBUSY and turns ATTACHED
into RESYNC. QUEUE_RESET_DONE clears RSTBUSY and raises RESET_DONE. (R374, R376, R371, R377) -/
def Obligations.WatchdogAndEngineReset : Prop := ∀ (s : State) (w : Word),
  (s.dev.linked = true → s.dev.session = 2 ∨ s.dev.session = 3 → Completes .heartbeatPageWrite s (fun d =>
    d.host = { s.dev.host with hbAt := s.dev.now } ∧ d.get HQE_HBAGE = 0 ∧ s.dev.only d [.host] [0x100C])) ∧
  (∀ c, s.starts 3 c → s.dev.session = 2 → Completes .heartbeat s (fun d =>
    d.endedAs c .ok 0 0 s.dev.now (s.dev.reg 0x5414).toNat ∧ d.host.hbAt = s.dev.now ∧ d.get HQE_HBAGE = 0 ∧
    s.dev.only d [.host] [0x100C])) ∧
  (s.dev.up = true → s.dev.session = 2 ∨ s.dev.session = 3 → s.dev.get HQE_HBTMO ≠ 0 → Completes .heartbeatTimeout s (fun d =>
    d.session = 4 ∧ d.now = max s.dev.now (s.dev.host.hbAt + 1000000 * s.dev.get HQE_HBTMO) ∧ d.host.tloss = d.now ∧
    d.host.reactRun = (if s.dev.is HQE_REACT then 2 else 1) ∧ d.host.telOut = [] ∧
    d.reg 0x1050 = bumpWord (s.dev.reg 0x1050) ∧ (0, noDetail) ∈ d.evReq)) ∧
  (s.dev.linked = true → s.dev.session ≠ 0 → w.toNat % 2 = 1 →
    Completes (.queueEngineReset w) s (fun d => s.dev.queueWasReset d)) ∧
  (s.dev.linked = true → s.dev.session ≠ 0 → Completes .functionLevelReset s (fun d => s.dev.queueWasReset d)) ∧
  (s.dev.up = true → s.dev.is HQE_RSTBUSY = true → Completes .queueResetDone s (fun d =>
    d.is HQE_RSTBUSY = false ∧ (2, noDetail) ∈ d.evReq ∧ d.host = s.dev.host ∧ d.session = s.dev.session))

/-- The first ATTACH hands over the image, whose check decides the session; DETACH ends every other command: ATTACH with
parameters out of range is rejected. In BOOT, with PLLs and parts good, it registers the image and goes to verification;
with a failed part it ends UNIT_FAULT 3. Outside BOOT, with the running image's digest and no report asked for, it is OK
and the session ATTACHED again. IMAGE_VERIFY_DONE of a read that failed ends it UNIT_FAULT 1 with CAUSE 6, of an image
that fails check k REJECTED_PARAM with CAUSE k and its event, both back in stage 5; of an image that passes it is OK,
with the session ATTACHED, the stage RUN, FWVER shown and every Mason running. DETACH outside IDLE and STOPPED is
rejected; in them it is OK, the session DETACHED and no other command is left open. (R372, R373, R444, R374, R470) -/
def Obligations.SessionsBegin : Prop := ∀ (s : State) (img : Fetch) (cs : List Fetch) (ok : Bool) (c : Cmd),
  (s.starts 1 c → attachOk c = false → EndsOnly (.attach img cs ok) s c .rejectedParam) ∧
  (s.starts 1 c → attachOk c = true → s.dev.host.attaching = none → s.dev.session = 0 →
    (s.dev.boot.partFail || s.dev.boot.pllFail) = false → Completes (.attach img cs ok) s (fun d =>
      d.runsOn c ∧ d.host.attaching = some c.id ∧ d.get TST_STAGE = 6 ∧
      d.host.copies = s.dev.host.copies ++ [⟨0, 0, c.addr, c.len, 0, 0, some c.id, false⟩] ∧
      s.dev.only d [.host] [TST_STAGE.off])) ∧
  (s.starts 1 c → attachOk c = true → s.dev.host.attaching = none → s.dev.session = 0 →
    (s.dev.boot.partFail || s.dev.boot.pllFail) = true → Completes (.attach img cs ok) s (fun d =>
      d.endedAs c .unitFault 0 0 3 0 ∧ s.dev.only d [.host] [])) ∧
  (∀ b, s.starts 1 c → attachOk c = true → s.dev.host.attaching = none → s.dev.session ≠ 0 → c.u 0x18 8 = 0 →
    b.length = c.len → imageDigest b = s.dev.host.digest → Completes (.attach (.bytes b) cs ok) s (fun d =>
      d.endedAs c .ok 0 0 (s.dev.get HQE_FWVER) 0 ∧ d.session = 2 ∧ d.host.hbAt = s.dev.now ∧ d.host.digest = s.dev.host.digest)) ∧
  (∀ tgts, s.dev.up = true → s.dev.journalOk → s.dev.get TST_STAGE = 6 → s.dev.host.attaching = some c.id →
    s.dev.cmd? c.id = some c → c.done = none →
    Completes (.imageVerifyDone .failed tgts) s (fun d =>
      d.endedAs c .unitFault 0 0 1 0 ∧ d.get TST_STAGE = 5 ∧ d.get TST_CAUSE = 6 ∧ d.host.attaching = none ∧
      d.session = s.dev.session) ∧
    ∀ b, (imageCheck b c.len ≠ 0 → Completes (.imageVerifyDone (.bytes b) tgts) s (fun d =>
        d.endedAs c .rejectedParam 0 0 0 0 ∧ d.get TST_STAGE = 5 ∧ d.get TST_CAUSE = imageCheck b c.len ∧
        d.evReq = s.dev.evReq ++ [(250, noDetail)] ∧ d.session = s.dev.session)) ∧
      (imageCheck b c.len = 0 → s.dev.hod.masons.length = 8 → Completes (.imageVerifyDone (.bytes b) tgts) s (fun d =>
        d.endedAs c .ok 0 0 (uAt b 0x0C 4) 0 ∧ d.session = 2 ∧ d.get TST_STAGE = 7 ∧ d.get TST_CAUSE = 0 ∧
        d.host.hbAt = s.dev.now ∧ d.host.digest = imageDigest b ∧ (∀ m : Fin 8, (d.mason m).running = true)))) ∧
  (s.starts 2 c → s.dev.idleOrStopped = false → EndsOnly .detach s c .rejectedState) ∧
  (s.starts 2 c → s.dev.idleOrStopped = true → Completes .detach s (fun d =>
    d.session = 1 ∧ (∀ x ∈ d.host.cmds, x.done.isSome = true) ∧ d.host.copies.all (fun m => m.kind != 0 || m.index != 0 || m.cmd.isSome) = true ∧
    (∃ x, d.cmd? c.id = some x ∧ x.done.map Cpl.status = some .ok)))

/-- STATE_READ waits for its beat, LOG_FETCH writes the log in order, and telemetry and tests are set up and run:
STATE_READ with a reserved item or too short a buffer is rejected; else it waits for its cross-check point. LOG_FETCH of
a reserved log is rejected; with its buffer writable it writes the entries from FROMSEQ on and ends OK, or PARTIAL where
some have left the log. TELEMETRY_CONFIG of a reserved stream or with DECIM 0 is rejected; else the enabled rings of
RINGMASK deliver the stream as EN says, other streams stay, and it ends PARTIAL with the rings that are not enabled.
DIAG of a reserved test is rejected; of the vector alone it sends the vector unless masked. (R367, R368, R369, R370,
R470) -/
def Obligations.HostReads : Prop := ∀ (s : State) (c : Cmd) (wr masked : Bool) (loop : Fetch) (fail : BitVec 16),
  (s.starts 0x40 c → 1024 ≤ c.u 0x18 2 → EndsOnly .stateRead s c .rejectedParam) ∧
  (s.starts 0x40 c → c.u 0x18 2 < 1024 → ((bitsOf (c.u 0x18 2) 10).map itemSize).foldl (· + ·) 0 ≤ c.len →
    Completes .stateRead s (fun d => d.runsOn c ∧ d.host.stateRead = s.dev.host.stateRead ++ [c.id] ∧ s.dev.only d [.host] [])) ∧
  (s.starts 0x41 c → 2 ≤ c.u 0x18 1 → EndsOnly (.logFetch wr) s c .rejectedParam) ∧
  (s.starts 0x41 c → c.u 0x18 1 < 2 → s.dev.session ≠ 4 →
    ∀ sel : List EvEntry, sel = ((if c.u 0x18 1 = 0 then s.dev.host.log else s.dev.ret.log).filter
      (fun e => e.seq == c.u 0x1C 4 || newer 32 e.seq (c.u 0x1C 4))).take (min (c.u 0x20 2) (c.len / 32)) →
    Completes (.logFetch true) s (fun d => ∃ lost : Bool,
      d.endedAs c (if lost then .partial_ else .ok) sel.length (if lost then 1 else 0) ((sel.head?.map EvEntry.seq).getD 0)
        (((if c.u 0x18 1 = 0 then s.dev.host.log else s.dev.ret.log).getLast?.map EvEntry.seq).getD 0) ∧
      (lost = false ↔ ∀ k e, sel[k]? = some e → e.seq = (c.u 0x1C 4 + k) % 2 ^ 32) ∧
      d.out = (if sel = [] then [] else [.hostWrite c.addr (sel.flatMap (fun e => e.bytes false))]) ∧
      s.dev.only d [.host] [])) ∧
  (s.starts 0x42 c → c.u 0x19 1 = 0 ∨ 6 < c.u 0x19 1 ∨ c.u 0x1C 2 = 0 → EndsOnly .telemetryConfig s c .rejectedParam) ∧
  (s.starts 0x42 c → 1 ≤ c.u 0x19 1 → c.u 0x19 1 ≤ 6 → c.u 0x1A 1 < 2 → c.u 0x1C 2 ≠ 0 →
    Completes .telemetryConfig s (fun d => ∃ bad : List Nat,
      bad = (bitsOf (c.u 0x18 1) 8).filter (fun t => !s.dev.is (RING_EN (65 + t))) ∧
      (∃ p r0 r1, d.endedAs c (if bad = [] then .ok else .partial_) p (maskOf bad) r0 r1) ∧
      (∀ t ∈ bitsOf (c.u 0x18 1) 8, t ∉ bad →
        ((∃ x ∈ d.host.telCfg, x.ring = t ∧ x.stream = c.u 0x19 1) ↔ c.u 0x1A 1 = 1) ∧
        ∀ x ∈ d.host.telCfg, x.ring = t → x.stream = c.u 0x19 1 → x.decim = c.u 0x1C 2) ∧
      (∀ x : TelCfg, x.stream ≠ c.u 0x19 1 → (x ∈ d.host.telCfg ↔ x ∈ s.dev.host.telCfg)) ∧
      d.host.jointMask = (if c.u 0x19 1 = 3 then c.u 0x20 8 else s.dev.host.jointMask) ∧ s.dev.only d [.host] [])) ∧
  (s.starts 0x70 c → 8 ≤ c.u 0x18 2 → EndsOnly (.diag loop wr masked fail) s c .rejectedParam) ∧
  (s.starts 0x70 c → c.u 0x18 2 = 4 → c.u 0x1A 1 < 64 → Completes (.diag loop wr masked fail) s (fun d =>
    d.endedAs c (if masked then .partial_ else .ok) 1 (if masked then 4 else 0) 0 0 ∧
    d.out = (if masked then [] else [.msix (c.u 0x1A 1)]) ∧ s.dev.only d [.host] []))

/-- Loading, checking and activating a model, and the limits of arms: MODEL_LOAD while a load or an activation is under
way is rejected; else it registers its copy and sets LOADBUSY. MODEL_FETCH_DONE, with its check unit working, fills the
staged slot with a blob that passes R40 and ends OK; a blob that does not empties the slot and ends REJECTED_PARAM with
its parts; a failed read ends UNIT_FAULT 1 and leaves the slot. MODEL_ACTIVATE is rejected without a staged model,
outside its conditions, or where a joint would brake more weakly than the safety set monitors; else it waits with
ACTPEND. LIMITS_SET of a factor above 1, or that takes a joint's acceleration below DMON, is rejected with the arms;
else it waits. (R40, R43, R59, R60, R64, R75, R470) -/
def Obligations.ModelCommands : Prop := ∀ (s : State) (c : Cmd),
  (s.starts 0x10 c → (s.dev.is KLN_LOADBUSY || s.dev.kiln.activating.isSome) = true → EndsOnly .modelLoad s c .rejectedState) ∧
  (s.starts 0x10 c → (s.dev.is KLN_LOADBUSY || s.dev.kiln.activating.isSome) = false → Completes .modelLoad s (fun d =>
    d.runsOn c ∧ d.kiln = { s.dev.kiln with loading := some c.id } ∧ d.is KLN_LOADBUSY = true ∧
    d.host.copies = s.dev.host.copies ++ [⟨2, 0, c.addr, c.len, 0, 0, some c.id, false⟩] ∧
    s.dev.only d [.host, .kiln] [KLN_LOADBUSY.off])) ∧
  (s.dev.up = true → s.dev.journalOk → s.dev.kiln.loading = some c.id → s.dev.cmd? c.id = some c → c.done = none →
    Completes (.modelFetchDone .failed) s (fun d =>
      d.endedAs c .unitFault 0 0 1 0 ∧ d.kiln = { s.dev.kiln with loading := none } ∧ d.is KLN_LOADBUSY = false ∧
      d.get KLN_STGV = s.dev.get KLN_STGV) ∧
    ∀ b, s.dev.session ≠ 4 → s.dev.chkWorks 8 = true → Completes (.modelFetchDone (.bytes b)) s (fun d =>
      d.is KLN_LOADBUSY = false ∧ d.kiln.loading = none ∧ d.kiln.active = s.dev.kiln.active ∧
      (if checkModel c.len b = 0
       then d.endedAs c .ok b.length 0 0 0 ∧ d.kiln.staged = some (parseModel b) ∧ d.get KLN_STGV = 1
       else d.endedAs c .rejectedParam b.length (checkModel c.len b) 0 0 ∧ d.kiln.staged = none ∧ d.get KLN_STGV = 0))) ∧
  (s.starts 0x11 c → s.dev.kiln.staged = none → EndsOnly .modelActivate s c .rejectedState) ∧
  (∀ m, s.starts 0x11 c → s.dev.kiln.staged = some m →
    (s.dev.activateOk m = false → EndsOnly .modelActivate s c .rejectedState) ∧
    (s.dev.activateOk m = true → s.dev.dmonOk m = false → EndsOnly .modelActivate s c .rejectedParam) ∧
    (s.dev.activateOk m = true → s.dev.dmonOk m = true → Completes .modelActivate s (fun d =>
      d.runsOn c ∧ d.kiln = { s.dev.kiln with activating := some (c.id, c.accepted) } ∧ d.is KLN_ACTPEND = true ∧
      s.dev.only d [.host, .kiln] [KLN_ACTPEND.off]))) ∧
  (s.starts 0x23 c → 65536 < c.u 0x1C 4 ∨ 65536 < c.u 0x20 4 ∨ 65536 < c.u 0x24 4 ∨ 65536 < c.u 0x28 4 →
    EndsOnly .limitsSet s c .rejectedParam) ∧
  (∀ (arms : List Nat) (l : Limits) (old : Nat → Limits) (bad : List Nat), s.starts 0x23 c →
    arms = bitsOf (c.u 0x18 1) 8 → l = ⟨c.u 0x1C 4, c.u 0x20 4, c.u 0x24 4, c.u 0x28 4⟩ →
    l.sv ≤ 65536 → l.sa ≤ 65536 → l.sj ≤ 65536 → l.st ≤ 65536 →
    (∀ a, old a = match s.dev.kiln.limitsPend.reverse.find? (fun p => p.2.2.1 == a) with
      | some p => p.2.2.2 | none => s.dev.kiln.limits.getD a ⟨65536, 65536, 65536, 65536⟩) →
    bad = arms.filter (fun a => s.dev.kiln.active.any (fun m => (m.armJoints a).any (fun j =>
      decide (j.amax * (limitsOf (old a) l.sv l.sa l.sj l.st).sa < j.dmon * 65536)))) →
    (bad ≠ [] → Completes .limitsSet s (fun d => d.endedAs c .rejectedParam 0 (maskOf bad) 0 0 ∧ s.dev.only d [.host] [])) ∧
    (bad = [] → Completes .limitsSet s (fun d => d.runsOn c ∧ s.dev.only d [.host, .kiln] [] ∧
      d.kiln = { s.dev.kiln with limitsPend := s.dev.kiln.limitsPend ++
        (if arms = [] then [8] else arms).map (fun a => (c.id, c.accepted, a, l)) })))

/-- Segments, targets, flushes and group moves are checked as a whole and wait for their check point: SEG_APPEND of a
bad arm, count or length is REJECTED_PARAM, to an absent, prepared or full arm REJECTED_STATE; a failed read is
UNIT_FAULT 1, and so is one in HOSTLOST, where no buffer is read; entries at fault are rejected as R364 says; else the
segments wait for the check point and the command is OK with the queue's length. SEG_FLUSH and TARGET_SET inside the
arm's limits wait for the check point. GROUP_MOVE of a bad shape is REJECTED_PARAM and one while nothing is planned
REJECTED_STATE; one whose every arm passes is prepared with every arm's segments, PROGRESS 1. Nothing but the journal
and the Kiln's queues changes. (R362, R364, R365, R366, R470) -/
def Obligations.MotionCommands : Prop := ∀ (s : State) (c : Cmd) (f : Fetch) (b : List Byte) (m : Model) (arm n : Nat),
  arm = c.u 0x18 1 → n = c.u 0x19 1 →
  (s.starts 0x20 c → 7 < arm ∨ n = 0 ∨ 32 < n ∨ c.len ≠ 128 * n → EndsOnly (.segAppend f) s c .rejectedParam) ∧
  (s.starts 0x20 c → arm ≤ 7 → 1 ≤ n → n ≤ 32 → c.len = 128 * n →
    (s.dev.presentModel arm = none → EndsOnly (.segAppend f) s c .rejectedState) ∧
    (s.dev.presentModel arm = some m → ∀ q : List Seg, q = (s.dev.queueAt m arm s.dev.nextCheck).segs →
      (256 < q.length + n ∨ s.dev.prepared arm = true → EndsOnly (.segAppend f) s c .rejectedState) ∧
      (q.length + n ≤ 256 → s.dev.prepared arm = false → s.dev.session = 4 →
        Completes (.segAppend f) s (fun d => d.endedAs c .unitFault 0 0 1 0 ∧ s.dev.only d [.host] [])) ∧
      (q.length + n ≤ 256 → s.dev.prepared arm = false → s.dev.session ≠ 4 →
        Completes (.segAppend .failed) s (fun d => d.endedAs c .unitFault 0 0 1 0 ∧ d.evReq = s.dev.evReq ++ [(8, noDetail)] ∧
          s.dev.only d [.host, .evReq] [0x104C]) ∧
        (∀ st, s.dev.segFault m arm c.accepted (q.getLast?.map Seg.tend) (segEntries b 0 n) = some st →
          EndsOnly (.segAppend (.bytes b)) s c st) ∧
        (s.dev.segFault m arm c.accepted (q.getLast?.map Seg.tend) (segEntries b 0 n) = none →
          Completes (.segAppend (.bytes b)) s (fun d => d.endedAs c .ok n 0 (q.length + n) 0 ∧
            d.kiln = { s.dev.kiln with changes := s.dev.kiln.changes ++
              [.append arm ((segEntries b 0 n).map (parseSeg (m.armJoints arm).length))] } ∧
            s.dev.only d [.host, .kiln] []))))) ∧
  (s.starts 0x21 c → Completes .segFlush s (fun d => d.runsOn c ∧
    d.kiln = { s.dev.kiln with changes := s.dev.kiln.changes ++ [.flush arm (c.u 0x20 8) c.id] } ∧
    s.dev.only d [.host, .kiln] [])) ∧
  (s.starts 0x22 c → 7 < arm ∨ c.u 0x1A 2 = 0 → EndsOnly (.targetSet f) s c .rejectedParam) ∧
  (s.starts 0x22 c → arm ≤ 7 → c.u 0x1A 2 ≠ 0 → s.dev.presentModel arm = some m → c.len = 4 * (m.armJoints arm).length →
    (s.dev.prepared arm = true → EndsOnly (.targetSet f) s c .rejectedState) ∧
    (s.dev.prepared arm = false → s.dev.session ≠ 4 → ∀ pos, pos = vecAt b 0 (m.armJoints arm).length →
      ((∃ x ∈ (m.armJoints arm).zip pos, x.2 < x.1.qmin ∨ x.1.qmax < x.2) →
        EndsOnly (.targetSet (.bytes b)) s c .rejectedParam) ∧
      ((∀ x ∈ (m.armJoints arm).zip pos, x.1.qmin ≤ x.2 ∧ x.2 ≤ x.1.qmax) →
        Completes (.targetSet (.bytes b)) s (fun d => d.runsOn c ∧
          d.kiln = { s.dev.kiln with changes := s.dev.kiln.changes ++ [.target arm (c.u 0x1A 2) c.id pos] } ∧
          s.dev.only d [.host, .kiln] [])))) ∧
  (s.starts 0x24 c → ∀ (arms : List Nat) (k : Nat → Nat), arms = bitsOf arm 8 → (∀ a, k a = c.u (0x1A + a) 1) →
    (arms = [] ∨ 1 < n ∨ 64 < (arms.map k).foldl (· + ·) 0 ∨ c.len ≠ 128 * (arms.map k).foldl (· + ·) 0 ∨
        (∃ a < 8, a ∉ arms ∧ k a ≠ 0) → EndsOnly (.groupMove f) s c .rejectedParam) ∧
    (arms ≠ [] → n ≤ 1 → (arms.map k).foldl (· + ·) 0 ≤ 64 → c.len = 128 * (arms.map k).foldl (· + ·) 0 →
        (∀ a < 8, a ∉ arms → k a = 0) →
      (s.dev.planning = false → EndsOnly (.groupMove f) s c .rejectedState) ∧
      (s.dev.planning = true → s.dev.session ≠ 4 → s.dev.kiln.active = some m →
        ∀ (ents : Nat → List (List Byte)) (queue : Nat → List Seg),
        (∀ a, ents a = segEntries b (((arms.filter (fun x => decide (x < a))).map k).foldl (· + ·) 0) (k a)) →
        (∀ a, queue a = if n = 1 then (s.dev.queueAt m a s.dev.nextCheck).segs.filter (fun x => decide (x.tend ≤ c.u 0x28 8))
          else (s.dev.queueAt m a s.dev.nextCheck).segs) →
        (∀ a ∈ arms, (s.dev.presentModel a).isSome = true ∧ s.dev.prepared a = false ∧ (queue a).length + k a ≤ 256 ∧
          (k a ≠ 0 → s.dev.segFault m a c.accepted ((queue a).getLast?.map Seg.tend) (ents a) = none ∧
            (n = 1 → c.u 0x28 8 < uAt ((ents a).headD []) 8 8))) →
        Completes (.groupMove (.bytes b)) s (fun d =>
          d.cmd? c.id = some { c with started := true, progress := 1 } ∧
          d.kiln = { s.dev.kiln with group := s.dev.kiln.group ++ [⟨c.id, n == 1, c.u 0x28 8, s.dev.now,
            arms.map (fun a => (a, (ents a).map (parseSeg (m.armJoints a).length)))⟩] } ∧ s.dev.only d [.host, .kiln] []))))

/-- Schedules, servo containers, safety sets, modes and the time layout are loaded, checked and wait for their instant:
SCHEDULE_LOAD and SERVO_PROGRAM_LOAD outside their conditions are REJECTED_STATE, else they register their copy and are
fetched. SCHEDULE_CHECK_DONE and SERVO_LOAD_CHECK_DONE with their check unit working reject what fails and let the rest
await its boundary; a failed read is UNIT_FAULT 1. SAFETY_PARAM_LOAD with torque on, a load under way or a beat change
awaited is REJECTED_STATE, without the cross-die link UNIT_FAULT 3, else both channels check it; SAFETY_SET_CHECKED of
the second channel gives both channels the set only if both found nothing. MODE_SWITCH and TIME_CONFIG are rejected
outside their ranges, else they wait. (R148, R150, R181, R254, R273, R274, R281, R294, R470) -/
def Obligations.LoadsAndSwitches : Prop := ∀ (s : State) (c : Cmd) (b : List Byte) (f : Fetch) (st : BitVec 8) (h : Bool),
  (∀ blocked, blocked = (!s.dev.idleOrStopped || s.dev.heath.switch.isSome || s.dev.heath.loading.isSome ||
      s.dev.heath.awaiting.isSome || s.dev.beatChanging) → s.starts 0x13 c →
    (blocked = true → EndsOnly .scheduleLoad s c .rejectedState) ∧
    (blocked = false → Completes .scheduleLoad s (fun d => d.runsOn c ∧ d.heath = { s.dev.heath with loading := some c.id } ∧
      d.host.copies = s.dev.host.copies ++ [⟨4, 0, c.addr, c.len, 0, 0, some c.id, false⟩] ∧ s.dev.only d [.host, .heath] []))) ∧
  (s.dev.up = true → s.dev.journalOk → s.dev.heath.loading = some c.id → s.dev.cmd? c.id = some c → c.done = none →
    Completes (.scheduleCheckDone .failed) s (fun d => d.endedAs c .unitFault 0 0 1 0 ∧
      d.heath = { s.dev.heath with loading := none }) ∧
    (s.dev.session ≠ 4 → s.dev.chkWorks 13 = true → Completes (.scheduleCheckDone (.bytes b)) s (fun d =>
      d.heath.loading = none ∧ d.heath.sched = s.dev.heath.sched ∧
      (if checkSched b c.len s.dev.time.layout.tb = 0
       then d.cmd? c.id = some { c with progress := b.length } ∧ d.heath.awaiting = some (parseSched b, c.id)
       else d.endedAs c .rejectedParam b.length (checkSched b c.len s.dev.time.layout.tb) 0 0 ∧
         d.heath.awaiting = s.dev.heath.awaiting)))) ∧
  (s.starts 0x50 c →
    ((s.dev.servo.loading.isSome || s.dev.servo.pending.isSome || s.dev.beatChanging) = true →
      EndsOnly .servoProgramLoad s c .rejectedState) ∧
    ((s.dev.servo.loading.isSome || s.dev.servo.pending.isSome || s.dev.beatChanging) = false →
      Completes .servoProgramLoad s (fun d => d.runsOn c ∧ d.servo = { s.dev.servo with loading := some c.id } ∧
        d.host.copies = s.dev.host.copies ++ [⟨5, 0, c.addr, c.len, 0, 0, some c.id, false⟩] ∧
        s.dev.only d [.host, .servo] []))) ∧
  (s.dev.up = true → s.dev.journalOk → s.dev.servo.loading = some c.id → s.dev.cmd? c.id = some c → c.done = none →
    Completes (.servoLoadCheckDone .failed st) s (fun d => d.endedAs c .unitFault 0 0 1 0 ∧
      d.servo = { s.dev.servo with loading := none }) ∧
    (s.dev.session ≠ 4 → srvHeadOk b c.len = false → Completes (.servoLoadCheckDone (.bytes b) st) s (fun d =>
      d.endedAs c .rejectedParam b.length 0x8000 0 0xFF ∧ d.servo = { s.dev.servo with loading := none })) ∧
    (s.dev.session ≠ 4 → s.dev.chkWorks 9 = true → srvHeadOk b c.len = true → s.dev.idleOrStopped = true →
      ∀ pf jf, pf = progFaults b (srvEntries b) st.toNat →
        jf = jointFaults b s.dev.time.layout.tb (srvEntries b) (srvProgs b)
          (match s.dev.kiln.active with | some m => m.joints.map JointEnt.gj | none => []) →
        Completes (.servoLoadCheckDone (.bytes b) st) s (fun d => d.servo.loading = none ∧ d.servo.params = s.dev.servo.params ∧
          (if pf = [] ∧ jf = []
           then d.cmd? c.id = some { c with progress := b.length } ∧ d.is SRV_PPEND = true ∧
             ∃ ps, d.servo.pending = some (ps, c.id, s.dev.now) ∧ ps.entries = srvEntries b ∧ ps.progs = srvProgs b
           else d.endedAs c .rejectedParam b.length (srvParts pf jf) 0 (srvResult1 pf jf) ∧
             d.servo.pending = s.dev.servo.pending)))) ∧
  (s.starts 0x12 c →
    ((s.dev.torqueOn || s.dev.loading || s.dev.beatChanging) = true →
      EndsOnly (.safetyParamLoad f) s c .rejectedState) ∧
    ((s.dev.torqueOn || s.dev.loading || s.dev.beatChanging) = false →
      (s.dev.is CLK_XDIE = false → Completes (.safetyParamLoad f) s (fun d =>
        d.endedAs c .unitFault 0 0 3 0 ∧ s.dev.only d [.host] [])) ∧
      (s.dev.is CLK_XDIE = true → s.dev.session ≠ 4 → Completes (.safetyParamLoad (.bytes b)) s (fun d => d.runsOn c ∧
        d.safety = { s.dev.safety with load := some (c.id, b), loadA := none, loadB := none } ∧
        s.dev.only d [.host, .safety] [])))) ∧
  (∀ own other, s.dev.journalOk → s.dev.cmd? c.id = some c → c.done = none → s.dev.safety.load = some (c.id, b) →
    s.dev.chUp h = true → own = checkSet s.dev.kiln.active c.len s.dev.time.layout.tb b →
    (if h then s.dev.safety.loadA else s.dev.safety.loadB) = other →
    Completes (.safetySetChecked h) s (fun d => d.safety.inForce = s.dev.safety.inForce ∧
      (∀ k, (d.ch k).set = (s.dev.ch k).set ∧ (d.ch k).cmd = (s.dev.ch k).cmd) ∧
      match other with
      | none => d.safety.load = some (c.id, b) ∧ (if h then d.safety.loadB else d.safety.loadA) = some own
      | some o => d.safety.load = none ∧
        (if own = 0 ∧ o = 0
         then (∀ k, (d.ch k).next = some (parseSet b)) ∧ d.cmd? c.id = some { c with progress := b.length }
         else (∀ k, (d.ch k).next = (s.dev.ch k).next) ∧
           d.endedAs c .rejectedParam b.length (if h then o + 256 * own else own + 256 * o) 0 0))) ∧
  (s.starts 0x14 c →
    (c.u 0x18 1 = 0 ∨ 16 ≤ c.u 0x18 1 → EndsOnly .modeSwitch s c .rejectedParam) ∧
    (1 ≤ c.u 0x18 1 → c.u 0x18 1 < 16 →
      (∀ p ∈ bitsOf (c.u 0x18 1) 4, s.dev.portRuns p = true ∧
        ∀ x, s.dev.section? p = some x → (c.u (0x19 + p) 1) < x.modes.length) →
      (s.dev.heath.switch.isSome || s.dev.heath.loading.isSome || s.dev.heath.awaiting.isSome || s.dev.beatChanging) = false →
      Completes .modeSwitch s (fun d => d.runsOn c ∧ d.heath = { s.dev.heath with
          switch := some ⟨c.u 0x18 1, (List.range 4).map (fun p => c.u (0x19 + p) 1), c.id, c.accepted, none, [], [], none⟩ } ∧
        s.dev.only d [.host, .heath] []))) ∧
  (s.starts 0x60 c → ∀ l : Layout, l = ⟨c.u 0x18 1, c.u 0x19 1, c.u 0x1C 4⟩ →
    (2 < l.tb ∨ l.strb < 4 ∨ 16 < l.strb ∨ l.beat ≤ l.bphase ∨ l.stride < 500000 → EndsOnly .timeConfig s c .rejectedParam) ∧
    (l.tb ≤ 2 → 4 ≤ l.strb → l.strb ≤ 16 → l.bphase < l.beat → 500000 ≤ l.stride →
      timingWordsOk (s.dev.reg 0x5400).toNat (s.dev.reg 0x5404).toNat l.stride = true →
      missWithin (s.dev.get SLV_MSTOP) (s.dev.reg 0x5010).toNat = true →
      ((s.dev.is CLK_TIMELK = false ∨ s.dev.time.pending.isSome = true → EndsOnly .timeConfig s c .rejectedState) ∧
      (s.dev.is CLK_TIMELK = true → s.dev.time.pending = none → s.dev.plState = 0 → s.dev.loadsBusy = false →
        s.dev.get HTL_PEN = 0 → Completes .timeConfig s (fun d => d.runsOn c ∧
          d.time = { s.dev.time with pending := some (l, c.accepted + 10000, c.id) } ∧ s.dev.only d [.host, .time] [])))))

/-- Commons are asked for and axes and loops commanded, each checked before it waits: COMMONS_REQUEST of an arm that the
commons of the active model does not admit is REJECTED_PARAM; an admitted one, and every COMMONS_RELEASE, waits for the
latch in order. AUX_TARGET outside its ranges is REJECTED_PARAM, on an axis that is not ready REJECTED_STATE; else it
takes effect at the next tick and an earlier one that waits is SUPERSEDED. AUX_PROFILE of a bad shape is REJECTED_PARAM,
on an axis that is not ready REJECTED_STATE, and with a table that does not rise REJECTED_PARAM; else its table waits.
HL_SETPOINT of another length than 64 is REJECTED_PARAM, for a loop not enabled or owned REJECTED_STATE, for no loop OK;
else the setpoints wait. (R189, R330, R331, R333, R343, R470) -/
def Obligations.CommonsAndAxisCommands : Prop := ∀ (s : State) (c : Cmd) (f : Fetch) (b : List Byte) (a : Nat),
  a = c.u 0x18 1 →
  (s.starts 0x28 c → ∀ ok : Bool, (ok = true ↔ ∃ m e, s.dev.kiln.active = some m ∧
      m.commons.find? (fun e => e.cid == c.u 0x19 1) = some e ∧ a < 8 ∧ bitOf e.armmask a = true) →
    (ok = false → EndsOnly .commonsRequest s c .rejectedParam) ∧
    (ok = true → Completes .commonsRequest s (fun d => d.runsOn c ∧
      d.commons = { s.dev.commons with queue := s.dev.commons.queue ++ [⟨s.dev.now, true, a, c.u 0x19 1, c.u 0x1C 4, c.id⟩] } ∧
      s.dev.only d [.host, .commons] []))) ∧
  (s.starts 0x29 c → Completes .commonsRelease s (fun d => d.runsOn c ∧
    d.commons = { s.dev.commons with queue := s.dev.commons.queue ++ [⟨s.dev.now, false, a, c.u 0x19 1, 0, c.id⟩] } ∧
    s.dev.only d [.host, .commons] [])) ∧
  (s.starts 0x31 c → 16 ≤ a ∨ 5000000 * 256 < c.u 0x28 4 ∨ (c.u 0x30 4 ≠ 0 ∧ c.u 0x30 4 < s.dev.get (AUX_DSTOP a)) →
    EndsOnly .auxTarget s c .rejectedParam) ∧
  (∀ r, s.starts 0x31 c → a < 16 → c.u 0x28 4 ≤ 5000000 * 256 → (c.u 0x30 4 = 0 ∨ s.dev.get (AUX_DSTOP a) ≤ c.u 0x30 4) →
    s.dev.axis a = some r →
    (s.dev.get (AUX_STATE a) ∉ [1, 2, 3] → EndsOnly .auxTarget s c .rejectedState) ∧
    (s.dev.get (AUX_STATE a) ∈ [1, 2, 3] → Completes .auxTarget s (fun d =>
      ((∀ t, r.next = some t → t.cmd ≠ c.id) → d.runsOn c) ∧
      d.axis a = some { r with next := some ⟨c.i 0x20 8, c.u 0x28 4, c.u 0x2C 4, c.u 0x30 4, c.id⟩ } ∧
      (∀ k, k ≠ a → d.axis k = s.dev.axis k) ∧
      (∀ t x, r.next = some t → t.cmd ≠ c.id → s.dev.cmd? t.cmd = some x → x.done = none →
        ∃ y, d.cmd? t.cmd = some y ∧ y.done.map Cpl.status = some .superseded) ∧ s.dev.only d [.host, .field] []))) ∧
  (s.starts 0x30 c → 16 ≤ a ∨ c.u 0x1A 2 = 0 ∨ 1024 < c.u 0x1A 2 ∨ c.len ≠ 16 * c.u 0x1A 2 →
    EndsOnly (.auxProfile f) s c .rejectedParam) ∧
  (∀ r, s.starts 0x30 c → a < 16 → 1 ≤ c.u 0x1A 2 → c.u 0x1A 2 ≤ 1024 → c.len = 16 * c.u 0x1A 2 → c.u 0x20 8 = 0 →
    s.dev.axis a = some r →
    (s.dev.get (AUX_STATE a) ∉ [1, 2, 3] ∨ (r.run.isSome = true ∧ r.wait.isSome = true) →
      EndsOnly (.auxProfile f) s c .rejectedState) ∧
    (s.dev.get (AUX_STATE a) ∈ [1, 2, 3] → r.wait = none → s.dev.session ≠ 4 →
      (b.length ≠ c.len ∨ auxTableOk (s.dev.get (AUX_VMAX a)) 0 (auxSegs b (c.u 0x1A 2)) = false →
        Completes (.auxProfile (.bytes b)) s (fun d => d.endedAs c .rejectedParam 0 0 0 0 ∧ d.axis a = some r ∧
          s.dev.only d [.host] [])) ∧
      (b.length = c.len → auxTableOk (s.dev.get (AUX_VMAX a)) 0 (auxSegs b (c.u 0x1A 2)) = true →
        Completes (.auxProfile (.bytes b)) s (fun d => d.runsOn c ∧
          d.host.copies = s.dev.host.copies ++ [⟨6, a, c.addr, c.len, 0, 0, some c.id, false⟩] ∧
          d.axis a = some { r with wait := some ⟨auxSegs b (c.u 0x1A 2), (s.dev.now / 10000 + 1) * 10000, false, 0, 0, c.id⟩ } ∧
          s.dev.only d [.host, .field] [])))) ∧
  (s.starts 0x38 c → ∀ loops, loops = bitsOf (c.u 0x18 4) 32 →
    (c.len ≠ 64 → EndsOnly (.hlSetpoint f) s c .rejectedParam) ∧
    (c.len = 64 →
      ((∃ l ∈ loops, s.dev.is (HYS_EN l) = false ∨ s.dev.is (HYS_OWNED l) = true) ∨ s.dev.field.hl.isSome = true →
        EndsOnly (.hlSetpoint f) s c .rejectedState) ∧
      ((∀ l ∈ loops, s.dev.is (HYS_EN l) = true ∧ s.dev.is (HYS_OWNED l) = false) → s.dev.field.hl = none → s.dev.session ≠ 4 →
        (loops = [] → EndsOnly (.hlSetpoint (.bytes b)) s c .ok) ∧
        (loops ≠ [] → Completes (.hlSetpoint (.bytes b)) s (fun d => d.runsOn c ∧
          d.field = { s.dev.field with hl := some ⟨c.id, loops, c.u 0x20 8, loops.map (fun l => (l, uAt b (2 * l) 2))⟩ } ∧
          s.dev.only d [.host, .field] [])))))

/-- An assertion is counted, logged for the host and delivered to its target, and Masons and engines take and leave
handlers by level: SOURCE_ASSERTION of a requested source takes the request and counts it. With target none it only
makes the host entry the source asks for; a Mason that runs gets it PENDING, or merged if it is already; Hod gets a post
where no task waits. MASON_INTERRUPT_ENTRY takes the highest pending source above the Mason's level, late over a handler
just entered whose source goes back to PENDING. MASON_HANDLER_RETURN ends the handler's source and tail-chains to a
source above the level returned to. ENGINE_VECTOR_ENTRY at the base level enters the handler of the highest pending
vector, or computes its joint at once where the slot runs the ROM's default chain; with both handler banks in use each
vector held above the running level is counted and raised once under NEST_FULL. (R177, R379, R381, R382, R384, R385,
R386, R387, R390) -/
def Obligations.EventDelivery : Prop := ∀ (s : State), s.dev.up = true →
  (∀ (src : BitVec 8) det rest, takeReq src.toNat s.dev.evReq = some (det, rest) →
    ∀ hosts : List EvEntry, hosts = (if src = 224 ∨ s.dev.is (EVC_HVEN src.toNat) = true ∨ s.dev.is (EVC_LOG src.toNat) = true
      then [⟨s.dev.now, src.toNat, if src = 224 then 0 else if s.dev.is (EVC_HVEN src.toNat) then s.dev.get (EVC_HVEC src.toNat)
        else 0xFF, 1, det, s.dev.get HTL_BEAT + 2 ^ 32 * s.dev.planSeq, s.dev.host.evSeq, 0⟩] else []) →
    ((src = 224 ∨ s.dev.get (EVC_KIND src.toNat) = 0) → Completes (.sourceAssertion src) s (fun d =>
      d.evReq = rest ∧ d.host.evOut = s.dev.host.evOut ++ hosts ∧ d.host.evSeq = (if hosts = [] then s.dev.host.evSeq else (s.dev.host.evSeq + 1) % 2 ^ 32) ∧
      d.reg (0xC800 + 4 * src.toNat) = bumpWord (s.dev.reg (0xC800 + 4 * src.toNat)) ∧
      s.dev.only d [.evReq, .host] [0xC800 + 4 * src.toNat])) ∧
    (src ≠ 224 → s.dev.get (EVC_KIND src.toNat) = 1 →
      ((s.dev.mason (s.dev.get (EVC_TIDX src.toNat) % 8)).code ∉ [0, 4]) → Completes (.sourceAssertion src) s (fun d =>
        d.evReq = rest ∧ d.host.evOut = s.dev.host.evOut ++ hosts ∧ d.is (EVC_PEND src.toNat) = true ∧
        d.reg 0xCC00 = (if s.dev.is (EVC_PEND src.toNat) then bumpWord (s.dev.reg 0xCC00) else s.dev.reg 0xCC00) ∧
        s.dev.only d [.evReq, .host] [0xC800 + 4 * src.toNat, (EVC_PEND src.toNat).off, 0xCC00])) ∧
    (src ≠ 224 → s.dev.get (EVC_KIND src.toNat) = 2 → s.dev.waiters (.source src.toNat) = [] →
      Completes (.sourceAssertion src) s (fun d =>
        d.evReq = rest ∧ d.host.evOut = s.dev.host.evOut ++ hosts ∧
        d.hod = { s.dev.hod with posts := s.dev.hod.posts.filter (· != src.toNat) ++ [src.toNat] } ∧
        s.dev.only d [.evReq, .host, .hod] [0xC800 + 4 * src.toNat]))) ∧
  (∀ (c : Fin 8) (late : Bool) m src, s.dev.hod.masons[c.val]? = some m → m.failed = false → m.running = true →
    s.dev.nextSource c m.level = some src →
    (late = false ∨ m.handlers = [] → Completes (.masonInterruptEntry c late) s (fun d =>
      d.is (EVC_PEND src) = false ∧ d.is (EVC_ACT src) = true ∧
      (∃ m', d.hod.masons[c.val]? = some m' ∧ m'.handlers = (src, s.dev.get (EVC_PRI src)) :: m.handlers ∧ m'.task = m.task) ∧
      s.dev.onlyParts d [.hod])) ∧
    (∀ h rest, late = true → m.handlers = h :: rest → h.1 < 256 → h.1 ≠ src → Completes (.masonInterruptEntry c late) s (fun d =>
      d.is (EVC_PEND src) = false ∧ d.is (EVC_ACT src) = true ∧ d.is (EVC_PEND h.1) = true ∧ d.is (EVC_ACT h.1) = false ∧
      (∃ m', d.hod.masons[c.val]? = some m' ∧ m'.handlers = (src, s.dev.get (EVC_PRI src)) :: rest ∧ m'.task = m.task) ∧
      s.dev.onlyParts d [.hod]))) ∧
  (∀ (c : Fin 8) m h rest (lvl : Int), s.dev.hod.masons[c.val]? = some m → m.failed = false → m.handlers = h :: rest → h.1 < 256 →
    lvl = (match rest with | x :: _ => (x.2 : Int) | [] => -1) →
    (∀ src, s.dev.nextSource c lvl = some src → Completes (.masonHandlerReturn c) s (fun d =>
      d.is (EVC_PEND src) = false ∧ d.is (EVC_ACT src) = true ∧
      (∃ m', d.hod.masons[c.val]? = some m' ∧ m'.handlers = (src, s.dev.get (EVC_PRI src)) :: rest) ∧ s.dev.onlyParts d [.hod])) ∧
    (s.dev.nextSource c lvl = none → Completes (.masonHandlerReturn c) s (fun d =>
      d.is (EVC_ACT h.1) = false ∧ (∃ m', d.hod.masons[c.val]? = some m' ∧ m'.handlers = rest) ∧ s.dev.onlyParts d [.hod]))) ∧
  (∀ (e : Fin 16) g v, s.dev.is (SRV_FAILED e) = false → s.dev.engine e = some g → s.dev.nextVector g g.level = some v →
    (g.handlers = [] → s.dev.romSlot e v = false → Completes (.engineVectorEntry e .none) s (fun d =>
      (∃ g' h', d.engine e = some g' ∧ g'.handlers = [h'] ∧ h'.bank = 1 ∧ h'.vec = v ∧ h'.prio = s.dev.get (EVC_ENGPRI v) ∧
        h'.entering = true ∧ h'.cycles = 0 ∧ bitOf g'.pend v = false ∧ g'.asleep = false) ∧
      (∀ k, k ≠ e.val → d.engine k = s.dev.engine k) ∧ s.dev.only d [.servo, .engSrcs] [])) ∧
    (∀ gj j, g.handlers = [] → s.dev.romSlot e v = true → s.dev.slotJoint e v = some gj → s.dev.jrt gj = some j →
      j.delivering = true → (s.dev.entry gj).isSome = true → (s.dev.planVals gj).isSome = true →
      Completes (.engineVectorEntry e .none) s (fun d =>
        (∃ g', d.engine e = some g' ∧ g'.handlers = [] ∧ bitOf g'.pend v = false) ∧ (∃ j', d.jrt gj = some j' ∧ j'.done = true))) ∧
    (∀ h h' rest L, g.handlers = h :: h' :: rest → h.entering = false →
      L = (List.range 7).filter (fun v => bitOf g.pend v && decide (g.level < s.dev.get (EVC_ENGPRI v)) && !bitOf g.nestSeen v) →
      Completes (.engineVectorEntry e .none) s (fun d =>
        (∃ g', d.engine e = some g' ∧ g' = { g with nestSeen := g'.nestSeen } ∧
          ∀ k, bitOf g'.nestSeen k = (bitOf g.nestSeen k || L.contains k)) ∧
        d.reg 0x6068 = L.foldl (fun r _ => bumpWord r) (s.dev.reg 0x6068) ∧
        d.evReq = s.dev.evReq ++ L.map (fun _ => (94, e.val)) ∧ s.dev.only d [.servo, .evReq] [0x6068])))

/-- Tasks become READY, are delayed, wait and are woken, and a tick wakes exactly the tasks that are due: TASK_READY of
a dormant task makes it READY with its priority and affinity, and it runs if a Mason of its affinity is idle. TASK_DELAY
and TASK_WAIT take a running task off its Mason: it is delayed to its wake time, or waits on its object with its time-
out; a post or count already there ends the wait at once with OK. SEMAPHORE_POST wakes the first waiter with OK, or
counts. WAIT_TIMEOUT ends a wait with TIMEOUT and is counted. HOD_TICK comes at the next whole microsecond and readies
every task whose wake time has come, and no other leaves the delay list. WAIT_LONG is raised once for a readiness longer
than the limit. (R392, R393, R394, R395, R396) -/
def Obligations.TasksScheduled : Prop := ∀ (s : State) (id : BitVec 8), s.dev.up = true →
  (∀ (pri : Fin 32) (aff : BitVec 8), (∀ t, s.dev.task? id.toNat = some t → t.st = .dormant) →
    Completes (.taskReady id pri aff) s (fun d =>
      (∃ t, d.task? id.toNat = some t ∧ t.pri = pri ∧ t.aff = aff.toNat) ∧ d.readyOrRuns id.toNat ∧
      ((∃ c < 8, bitOf aff.toNat c = true ∧ (s.dev.mason c).code = 1) → ∃ c t, d.task? id.toNat = some t ∧ t.st = .running c ∧
        bitOf aff.toNat c = true) ∧ s.dev.onlyHod d [])) ∧
  (s.dev.time.started = true → Completes .hodTick s (fun d => ∃ n, n = max (s.dev.hod.tick + 1) ((s.dev.now + 999) / 1000) ∧
    d.hod.tick = n ∧ d.now = 1000 * n ∧ d.hod.delays = s.dev.hod.delays.filter (fun x => decide (n < x.1)) ∧
    (∀ x ∈ s.dev.hod.delays, x.1 ≤ n → (s.dev.task? x.2).isSome = true → d.readyOrRuns x.2) ∧
    s.dev.onlyParts d [.hod, .time])) ∧
  (∀ t c, s.dev.task? id.toNat = some t → t.st = .running c → (s.dev.mason c).code = 2 →
    (∀ wake, Completes (.taskDelay id wake) s (fun d =>
      d.hod.delays = insDelay wake id.toNat s.dev.hod.delays ∧
      ((∀ p, id.toNat ∉ s.dev.readyOf p) → ∃ t', d.task? id.toNat = some t' ∧ t'.st = .delayed wake ∧ t'.pri = t.pri) ∧
      s.dev.onlyHod d [])) ∧
    (∀ (n : Nat) tmo k, n < 64 → s.dev.hod.sems[n]? = some k →
      (0 < k → Completes (.taskWait id (.semaphore n) tmo) s (fun d =>
        d.hod.sems[n]? = some (k - 1) ∧ (∃ t', d.task? id.toNat = some t' ∧ t'.st = .running c ∧ t'.resOk = true) ∧
        s.dev.only d [.hod] [])) ∧
      (k = 0 → Completes (.taskWait id (.semaphore n) tmo) s (fun d =>
        d.hod.sems = s.dev.hod.sems ∧ ((∀ p, id.toNat ∉ s.dev.readyOf p) → ∃ t', d.task? id.toNat = some t' ∧
          t'.st = .waiting (.semaphore n) (tmo.map (fun x => (s.dev.now + 999) / 1000 + x)) ∧ t'.order = s.dev.hod.waits) ∧
        s.dev.onlyHod d []))) ∧
    (∀ (k : Nat) tmo, s.dev.get (EVC_KIND k) = 2 →
      (k ∈ s.dev.hod.posts → Completes (.taskWait id (.source k) tmo) s (fun d =>
        k ∉ d.hod.posts ∧ (∃ t', d.task? id.toNat = some t' ∧ t'.st = .running c ∧ t'.resOk = true) ∧ s.dev.only d [.hod] [])) ∧
      (k ∉ s.dev.hod.posts → Completes (.taskWait id (.source k) tmo) s (fun d =>
        d.hod.posts = s.dev.hod.posts ∧ ((∀ p, id.toNat ∉ s.dev.readyOf p) → ∃ t', d.task? id.toNat = some t' ∧
          t'.st = .waiting (.source k) (tmo.map (fun x => (s.dev.now + 999) / 1000 + x))) ∧ s.dev.onlyHod d [])))) ∧
  (∀ (n : Fin 64) k, s.dev.hod.sems[n.val]? = some k →
    (s.dev.waiters (.semaphore n) = [] → Completes (.semaphorePost n) s (fun d =>
      d.hod = { s.dev.hod with sems := d.hod.sems } ∧ d.hod.sems[n.val]? = some (k + 1) ∧
      (∀ j, j ≠ n.val → d.hod.sems[j]? = s.dev.hod.sems[j]?) ∧ s.dev.only d [.hod] [])) ∧
    (∀ w ws, s.dev.waiters (.semaphore n) = w :: ws → Completes (.semaphorePost n) s (fun d =>
      d.hod.sems = s.dev.hod.sems ∧ (∃ t, d.task? w = some t ∧ t.resOk = true) ∧ d.readyOrRuns w ∧ s.dev.onlyHod d []))) ∧
  (∀ t o tm, s.dev.task? id.toNat = some t → t.st = .waiting o (some tm) → Completes (.waitTimeout id) s (fun d =>
    d.now = max s.dev.now (1000 * tm) ∧ d.hod.timeouts = s.dev.hod.timeouts + 1 ∧
    (∃ t', d.task? id.toNat = some t' ∧ t'.resOk = false) ∧ d.readyOrRuns id.toNat ∧ s.dev.onlyHod d [.time])) ∧
  (∀ t, s.dev.task? id.toNat = some t → t.st = .ready → t.long = false → Completes (.waitLong id) s (fun d =>
    d.task? id.toNat = some { t with long := true } ∧ d.reg 0xD10C = bumpWord (s.dev.reg 0xD10C) ∧
    d.now = max s.dev.now (t.since + 1000 * s.dev.get HOD_WAITLIM + 1) ∧ d.evReq = s.dev.evReq ++ [(227, noDetail)] ∧
    s.dev.only d [.hod, .time, .evReq] [0xD10C]))

/-- A failed Mason gives up its task and its handlers' sources, a firmware page is fetched again, and the load window
ends: MASON_FAIL of a Mason that runs raises its failure, leaves it failed with no handler and no task, returns each
handler's source to PENDING and makes its task READY. FW_REFETCH raises its source; a re-fetch that succeeds changes
nothing else, one that fails, or that the host cannot serve, counts and raises REFETCH_FAIL and fails the Mason.
HOD_WINDOW_END comes at the window's end, at a whole millisecond, raises the window's source, and starts the counts of
the next. (R396, R398, R399, R410) -/
def Obligations.MasonsAndLoad : Prop := ∀ (s : State) (c : Fin 8), s.dev.up = true →
  (∀ m, s.dev.hod.masons[c.val]? = some m → m.code ≠ 0 → m.code ≠ 4 → Completes (.masonFail c) s (fun d =>
    (∃ m', d.hod.masons[c.val]? = some m' ∧ m'.failed = true ∧ m'.handlers = [] ∧ m'.task = none) ∧
    (225, c.val) ∈ d.evReq ∧ ((∀ h ∈ m.handlers, h.1 < 256) → ∀ h ∈ m.handlers, d.is (EVC_PEND h.1) = true ∧ d.is (EVC_ACT h.1) = false) ∧
    (∀ id, m.task = some id → (s.dev.task? id).isSome = true → d.readyOrRuns id) ∧ s.dev.onlyParts d [.hod, .evReq])) ∧
  (s.dev.hostServes = true → Completes (.fwRefetch c true) s (fun d =>
    d.evReq = s.dev.evReq ++ [(226, c.val)] ∧ s.dev.only d [.evReq] [])) ∧
  (∀ ok, (ok && s.dev.hostServes) = false → Completes (.fwRefetch c ok) s (fun d =>
    (226, c.val) ∈ d.evReq ∧ (19, noDetail) ∈ d.evReq ∧ ((∀ t ∈ s.dev.hod.tasks, t.pri < 32) → d.reg 0xF054 = bumpWord (s.dev.reg 0xF054)) ∧
    (∀ m, s.dev.hod.masons[c.val]? = some m → m.code ≠ 0 → ∃ m', d.hod.masons[c.val]? = some m' ∧ m'.failed = true))) ∧
  (s.dev.time.started = true → Completes .hodWindowEnd s (fun d =>
    d.now = max (s.dev.hod.winAt + 1000000 * s.dev.get HOD_LWIN) ((s.dev.now + 999999) / 1000000 * 1000000) ∧
    d.hod.winAt = d.now ∧ d.hod.switches = 0 ∧ d.hod.preempts = 0 ∧ d.hod.timeouts = 0 ∧ d.hod.undels = 0 ∧
    d.hod.qmax = s.dev.hod.ready.map List.length ∧ d.hod.wmax = List.replicate 32 0 ∧ (229, noDetail) ∈ d.evReq ∧
    d.hod.tasks = s.dev.hod.tasks ∧ d.hod.ready = s.dev.hod.ready ∧ d.hod.delays = s.dev.hod.delays ∧
    s.dev.onlyParts d [.hod, .time, .evReq, .host]))

/-- A path is granted by safety class and priority, and a lock goes to its requesters in order, with back-off after a
time-out: TRANSFER_REQUEST of a closed port is discarded and counted. An idle path grants the request at once; a safety-
class request revokes a transfer of another class; any other waits. MORTAR_TRANSFER_DONE grants a waiting request such
that no safety-class request loses to another class and none of its class had a higher priority; without one the path
idles. LOCK_REQUEST takes a free lock that nobody waits for, and else waits last. LOCK_WAIT_TIMEOUT of a sequence that
holds a lock gives all of them up and backs off for 8 times its index in its level plus 1, doubled with each time-out of
a run; LOCK_BACKOFF_EXPIRY ends that; LOCK_RELEASE frees the locks and ends its run of time-outs, and a freed lock goes
to its first waiter. (R402, R403, R404, R406, R407, R408) -/
def Obligations.MortarPathsAndLocks : Prop := ∀ (s : State), s.dev.up = true →
  (∀ (port : Fin 39) path beats par, s.dev.is (FAB_CLOSED port) = true →
    Completes (.transferRequest port path beats par) s (fun d =>
      d.reg 0xF04C = bumpWord (s.dev.reg 0xF04C) ∧ s.dev.only d [] [0xF04C])) ∧
  (∀ (port : Fin 39) path beats (r : XferReq), s.dev.is (FAB_CLOSED port) = false → r = ⟨port, 0, s.dev.fabric.order, beats⟩ →
    Completes (.transferRequest port path beats none) s (fun d =>
      d.fabric.order = s.dev.fabric.order + 1 ∧ (∀ k, k ≠ path → d.pathOf k = s.dev.pathOf k) ∧
      s.dev.only d [.fabric] [0xF044] ∧
      match (s.dev.pathOf path).active with
      | none => (s.dev.pathOf path).waiting = [] → d.pathOf path = { s.dev.pathOf path with active := some r, parked := some port }
      | some a =>
        if portSafety port = true ∧ portSafety a.port = false
        then d.pathOf path = { s.dev.pathOf path with
                                 active := some r, parked := some port,
                                 revoked := (s.dev.pathOf path).revoked ++ [{ a with age := min 15 (a.age + 1) }] } ∧
          d.reg 0xF044 = bumpWord (s.dev.reg 0xF044)
        else d.pathOf path = { s.dev.pathOf path with waiting := (s.dev.pathOf path).waiting ++ [r] } ∧
          d.reg 0xF044 = s.dev.reg 0xF044)) ∧
  (∀ path, Completes (.mortarTransferDone path) s (fun d =>
    (∀ k, k ≠ path → d.pathOf k = s.dev.pathOf k) ∧ s.dev.only d [.fabric] [] ∧
    ((s.dev.pathOf path).revoked = [] →
      ((s.dev.pathOf path).waiting = [] → d.pathOf path = { s.dev.pathOf path with active := none }) ∧
      ((s.dev.pathOf path).waiting ≠ [] → ∃ w ∈ (s.dev.pathOf path).waiting, (d.pathOf path).active = some { w with age := 0 } ∧
        (d.pathOf path).parked = some w.port ∧
        ∀ q ∈ (s.dev.pathOf path).waiting, (portSafety q.port = true → portSafety w.port = true) ∧
          (portSafety q.port = portSafety w.port → q.prio ≤ w.prio))))) ∧
  (∀ (lv : Fin 3) idx, ∀ q : LockSeq, q = s.dev.seqOf lv idx →
    (∀ lock, q.backoff = none → q.wait = none → lock ∉ q.held → Completes (.lockRequest lv idx lock) s (fun d =>
      s.dev.only d [.fabric] [] ∧
      (if s.dev.lockHolder lv lock = none ∧ s.dev.lockWaiters lv lock = []
       then d.seqOf lv idx = { q with held := q.held ++ [lock] } ∧ d.fabric.queues = s.dev.fabric.queues
       else d.seqOf lv idx = { q with wait := some lock } ∧ d.lockWaiters lv lock = s.dev.lockWaiters lv lock ++ [idx]))) ∧
    (q.wait.isSome = true → q.held ≠ [] → Completes (.lockWaitTimeout lv idx) s (fun d =>
      d.seqOf lv idx = { q with held := [], wait := none, k := q.k + 1, backoff := some (8 * (lockIndex lv idx + 1) * 2 ^ min q.k 4) } ∧
      d.reg 0xF040 = bumpWord (s.dev.reg 0xF040) ∧ d.fabric.lktSeen = true ∧
      (s.dev.fabric.lktSeen = false → (20, noDetail) ∈ d.evReq) ∧ (q.k = 3 → (21, noDetail) ∈ d.evReq) ∧
      s.dev.onlyParts d [.fabric, .evReq])) ∧
    (q.backoff.isSome = true → Completes (.lockBackoffExpiry lv idx) s (fun d =>
      d.seqOf lv idx = { q with backoff := none } ∧ s.dev.only d [.fabric] [])) ∧
    Completes (.lockRelease lv idx) s (fun d => (d.seqOf lv idx).k = 0 ∧ (d.seqOf lv idx).backoff = q.backoff ∧
      (d.seqOf lv idx).wait = none ∧ s.dev.only d [.fabric] [] ∧
      (∀ n i rest, q.held = [n] → q.wait = none → s.dev.lockWaiters lv n = i :: rest → i ≠ idx →
        n ∈ (d.seqOf lv i).held ∧ d.lockWaiters lv n = rest ∧ (d.seqOf lv idx).held = [])))

/-- A hung port is closed and its owner reacts, and a re-fetch gives its slot back or leaves it unusable: PORT_HANG of a
port not closed gives up its grants, locks and waits, closes it, counts and raises it with an error record; then its
owner reacts: an engine or a Mason fails, the Kiln's assembly and the separation record in construction are lost, a
Heathline port is disabled, the host engine is reset. REFETCH_DONE of a copy that matches makes a model slot valid, an
assembly that waited for it being built at once; one that fails, does not match, or that the host cannot serve, leaves a
model slot unusable, due again, and marks any other copy bad, with its counter and event. (R64, R405, R408, R409, R412)
-/
def Obligations.PortHangsAndRefetches : Prop := ∀ (s : State), s.dev.up = true →
  (∀ p : Fin 39, s.dev.is (FAB_CLOSED p) = false → 4 ≤ p.val → p.val ≠ 6 →
    (∀ t ∈ s.dev.hod.tasks, t.pri < 32) →
    Completes (.portHang p) s (fun d =>
      d.is (FAB_CLOSED p) = true ∧ d.reg 0xF048 = bumpWord (s.dev.reg 0xF048) ∧ (22, p.val) ∈ d.evReq ∧
      (∀ x ∈ d.fabric.paths, ∀ r ∈ x.waiting, r.port ≠ p.val) ∧
      (p.val = 4 → d.kiln.assembling = false ∧ d.kiln.delivered = false ∧ d.kiln.prob = none) ∧
      (p.val = 5 ∨ p.val = 38 → d.commons.built = none) ∧
      (7 ≤ p.val → p.val < 23 → d.is (SRV_FAILED (p.val - 7)) = true) ∧
      (∀ m, 23 ≤ p.val → p.val < 31 → s.dev.hod.masons[p.val - 23]? = some m → m.code ≠ 0 →
        ∃ m', d.hod.masons[p.val - 23]? = some m' ∧ m'.failed = true) ∧
      (p.val = 31 → d.is HQE_RSTBUSY = true) ∧
      (32 ≤ p.val → p.val < 36 → d.is (HTL_PENP (p.val - 32)) = false))) ∧
  (∀ (kind : Nat) (b : List Byte) (m : MCopy), s.dev.kiln.refetch.contains kind = true → s.dev.hostServes = true →
    (kind = 2 → s.dev.host.copies.find? (fun m => m.kind == kind && m.cmd.isNone) = some m →
      (m.matches b = true → Completes (.refetchDone kind (.bytes b)) s (fun d =>
        d.get KLN_STGV = 1 ∧ d.kiln = { s.dev.kiln with refetch := s.dev.kiln.refetch.filter (· != kind) } ∧
        s.dev.only d [.kiln] [KLN_STGV.off])) ∧
      (m.matches b = false → Completes (.refetchDone kind (.bytes b)) s (fun d =>
        d.get KLN_STGV = 3 ∧ d.kiln = s.dev.kiln ∧ d.reg 0xF054 = bumpWord (s.dev.reg 0xF054) ∧ (19, noDetail) ∈ d.evReq ∧
        (39, noDetail) ∈ d.evReq ∧ (∀ x ∈ d.host.copies, x.kind = kind → x.bad = true)))) ∧
    (kind = 1 → s.dev.host.copies.find? (fun m => m.kind == kind && m.cmd.isNone) = some m → m.matches b = true →
      Completes (.refetchDone kind (.bytes b)) s (fun d =>
        d.get KLN_ACTV = 1 ∧ d.kiln.refetch = s.dev.kiln.refetch.filter (· != kind) ∧
        ((s.dev.plState = 0 ∨ s.dev.kiln.assembling = false ∨ s.dev.kiln.prob.isSome = true) → d.kiln.prob = s.dev.kiln.prob) ∧
        (s.dev.plState ≠ 0 → s.dev.kiln.assembling = true → s.dev.kiln.prob = none → s.dev.kiln.active.isSome = true →
          s.dev.is (FAB_CLOSED 4) = false → ∃ p, d.kiln.prob = some p ∧ p.epoch = d.get KLN_EPOCH ∧
            p.s = (if s.dev.kiln.last.isSome then s.dev.s + s.dev.ts else s.dev.s)))) ∧
    (kind = 1 → Completes (.refetchDone kind .failed) s (fun d =>
      d.get KLN_ACTV = 3 ∧ d.kiln.refetch = s.dev.kiln.refetch ∧ d.kiln.prob = none ∧ d.kiln.delivered = false ∧
      d.kiln.active = s.dev.kiln.active ∧ (8, noDetail) ∈ d.evReq ∧ (39, noDetail) ∈ d.evReq)) ∧
    (kind = 4 ∨ kind = 5 → Completes (.refetchDone kind .failed) s (fun d =>
      d.kiln = { s.dev.kiln with refetch := s.dev.kiln.refetch.filter (· != kind) } ∧ (19, noDetail) ∈ d.evReq ∧
      (∀ x ∈ d.host.copies, x.kind = kind → x.bad = true)))) ∧
  (∀ (kind : Nat) f, s.dev.kiln.refetch.contains kind = true → s.dev.hostServes = false → Completes (.refetchDone kind f) s (fun d =>
    (19, noDetail) ∈ d.evReq ∧ d.reg 0xF054 = bumpWord (s.dev.reg 0xF054) ∧ s.dev.onlyParts d [.kiln, .planner, .host, .evReq]))

/-- An assembly takes a new epoch, its problem reaches the walls, and an iteration gives the wall its next iterate:
ASSEMBLY_START of a planner that is not IDLE with speculation enabled advances the epoch and builds, where it can, the
problem of the next stride. LAST_BLOCK_ARRIVAL delivers it: a wall without a role takes nothing, one still solving keeps
it as its next. OUTER_ITERATION of a wall at work, without adaptation due, takes the step's iterate, residuals and best
iterate and counts it, or abandons a problem that saturates. REFACTOR_DONE lets the wall iterate. CHECK_POINT with no
activation due latches KNOTS, OBJW and the limits that are due, and applies every waiting change of a reference. (R46,
R61, R68, R80, R81, R94, R95, R98, R104) -/
def Obligations.AssemblyAndIterations : Prop := ∀ (s : State) (w : Fin 2), s.dev.up = true →
  (∀ m, s.dev.plState ≠ 0 → s.dev.kiln.active = some m → s.dev.kiln.ctrl % 2 = 1 → (s.dev.reg 0x5000).toNat % 2 = 1 →
    Completes .assemblyStart s (fun d =>
      d.get KLN_EPOCH = (s.dev.get KLN_EPOCH + 1) % 65536 ∧ d.kiln.assembling = true ∧ d.kiln.delivered = false ∧
      d.kiln.last = some (s.dev.get KLN_EPOCH, s.dev.kiln.delivered, s.dev.kiln.rebuilding) ∧
      d.now = max s.dev.now (s.dev.s + s.dev.ts - s.dev.leadA) ∧ d.kiln.asmAt = d.now ∧
      (if s.dev.canBuild then ∃ p, d.kiln.prob = some p ∧ p.s = s.dev.s + s.dev.ts ∧ p.epoch = d.get KLN_EPOCH ∧
        p.modelid = m.modelid else d.kiln.prob = none) ∧ s.dev.onlyParts d [.kiln, .time, .evReq])) ∧
  (∀ p x, s.dev.plState ≠ 0 → s.dev.kiln.prob = some p → s.dev.planner.walls[w.val]? = some x →
    (s.dev.role w = 0 → Completes (.lastBlockArrival w) s (fun d =>
      d.kiln = { s.dev.kiln with delivered := true, assembling := d.kiln.assembling } ∧
      (s.dev.kiln.delivered = false → d.kiln.assembling = false) ∧ s.dev.onlyParts d [.kiln])) ∧
    (s.dev.role w ≠ 0 → p.s = s.dev.s + s.dev.ts → s.dev.planner.phase = 0 → Completes (.lastBlockArrival w) s (fun d =>
      d.kiln.delivered = true ∧ d.planner.walls[w.val]? = some { x with next := some p } ∧ s.dev.onlyParts d [.kiln, .planner]))) ∧
  (∀ p x, s.dev.planner.walls[w.val]? = some x → x.problem = some p → x.iterating = true → x.refactor = false →
    (∀ steps brk it prim dual viol, p.outer x.cfg x.r x.pc x.cur = .ok ((steps, brk), .ok it) →
      p.residuals it = .ok (prim, dual, viol) → (x.cfg.rhoint = 0 ∨ (x.iters + 1) % x.cfg.rhoint ≠ 0) →
      Completes (.outerIteration w [] []) s (fun d => ∃ x', d.planner.walls[w.val]? = some x' ∧ x'.cur = it ∧
        x'.iters = x.iters + 1 ∧ x'.innerN = x.innerN + steps ∧ x'.prim = prim ∧ x'.dual = dual ∧ x'.r = x.r ∧
        x'.brkn = x.brkn + (if brk then 1 else 0) ∧
        x'.best = (if x.folded && x.foldDue.isNone && (match x.best with | some b => decide (viol ≤ b.2.1) | none => true)
          then some (it, viol, x.iters + 1) else x.best) ∧
        x'.converged = (x.folded && x.foldDue.isNone && decide (prim ≤ 2 ^ (30 - x.cfg.tolp)) &&
          decide (dual ≤ 2 ^ (30 - x.cfg.told))) ∧
        x'.iterating = (!x'.converged &&
          decide (x.iters + 1 < (if x.doubled then min 255 (2 * x.cfg.itcap) else x.cfg.itcap))) ∧
        s.dev.onlyParts d [.planner, .evReq])) ∧
    (∀ k i, (p.outer x.cfg x.r x.pc x.cur = .error (.sat k i) ∨
        ∃ cg, p.outer x.cfg x.r x.pc x.cur = .ok (cg, .error (.sat k i))) → Completes (.outerIteration w [] []) s (fun d =>
      (∃ x', d.planner.walls[w.val]? = some x' ∧ x'.abandoned = 1 ∧ x'.iterating = false ∧ x'.best = none ∧
        x'.sat = some (x.sat.getD (k, i)) ∧ x'.iters = x.iters) ∧
      d.get (SLV_PHASE w) = 4 ∧ d.reg (wallCtr w 8) = bumpWord (s.dev.reg (wallCtr w 8)) ∧
      s.dev.onlyParts d [.planner, .evReq])) ∧
    Completes (.refactorDone w) s (fun d => d.planner.walls[w.val]? = some { x with refactor := false } ∧
      s.dev.only d [.planner] [])) ∧
  (∀ outside, s.dev.modelDue = none → Completes (.checkPoint outside) s (fun d =>
    d.now = max s.dev.now (s.dev.s + 70000) ∧ d.kiln.knots = (s.dev.reg 0x5010).toNat ∧ d.kiln.objw = (s.dev.reg 0x5014).toNat ∧
    d.kiln.limitsPend = s.dev.kiln.limitsPend.filter (fun p => !decide (p.2.1 + 20000 ≤ d.now)) ∧
    (s.dev.kiln.active.isSome = true → d.kiln.changes = []) ∧ d.kiln.active = s.dev.kiln.active))

/-- The deadline and the commit point move the stride on, a record goes to its receiver, and a missed commit is taken
over: SOLVE_DEADLINE comes at its lead and ends the stride's solving. COMMIT_POINT of a healthy active wall with no
standby makes its record with the next SEQ and its token, and accounts it unless it stays silent. COMMIT_RECORD_RECEIVE
of an intact, consistent record of a token not stale enters an empty slot and is accepted if its token is the
authority's; a closed port's record is discarded and counted. COMMIT_WATCH_EXPIRY does nothing if both receivers
accepted; else the standby claims the next token, becomes active and opens both windows. (R24, R113, R114, R118, R123,
R124, R125, R126, R127, R134, R136, R137) -/
def Obligations.DeadlineAndCommit : Prop := ∀ (s : State), s.dev.up = true →
  (s.dev.plState ≠ 0 → Completes .solveDeadline s (fun d => d.planner.phase = 1 ∧ d.kiln.last = none ∧
    d.now = max s.dev.now (s.dev.s + s.dev.ts - s.dev.leadD))) ∧
  (∀ (w : Fin 2) x inf (silent : Bool), s.dev.plState ≠ 0 → s.dev.planner.walls[w.val]? = some x → s.dev.active? = some w.val →
    s.dev.role (1 - w.val) = 0 → x.token = s.dev.get SLV_AUTH → s.dev.chkWorks 10 = true →
    s.dev.planner.servo.inForce = some inf → Completes (.commitPoint false false silent) s (fun d =>
      d.planner.phase = 2 ∧ d.planner.servo.accepted = false ∧ d.planner.chanA.accepted = false ∧
      d.now = max s.dev.now (s.dev.s + s.dev.ts - s.dev.leadC) ∧
      (∃ x' r, d.planner.walls[w.val]? = some x' ∧ x'.record = some r ∧ x'.held = silent ∧
        r.seq = (s.dev.planner.lastSeq + 1) % 2 ^ 32 ∧ r.token = x.token ∧ r.wall = w.val) ∧
      d.planner.lastSeq = (if silent then s.dev.planner.lastSeq else (s.dev.planner.lastSeq + 1) % 2 ^ 32) ∧
      (silent = false → x.cand = none → s.dev.planner.counted ≠ some true → d.get SLV_MISSC = min 255 (s.dev.get SLV_MISSC + 1)) ∧
      (silent = false → ∀ k p, x.cand = some (k, some p) → p.kind ≠ 2 → d.get SLV_MISSC = 0))) ∧
  (∀ (chanA : Bool) (w : Fin 2) x p inf, s.dev.planner.walls[w.val]? = some x → x.record = some p →
    (x.portClosed = true → ∀ intact, Completes (.commitRecordReceive chanA w intact) s (fun d =>
      (∃ x', d.planner.walls[w.val]? = some x' ∧ x'.record = none) ∧ (∀ h, (d.rx h) = s.dev.rx h) ∧
      (p.bytes.length ≤ 4096 → p.bytes ≠ [] → d.reg 0x543C = bumpWord (s.dev.reg 0x543C)))) ∧
    (x.portClosed = false → x.held = false → s.dev.planning = true → s.dev.planner.restart = none →
      (s.dev.rx chanA).inForce = some inf → (s.dev.rx chanA).slot = none → s.dev.chkWorks 11 = true →
      (p.token = inf.token ∨ newer 16 p.token inf.token = true) → s.dev.consistent inf p = true →
      Completes (.commitRecordReceive chanA w true) s (fun d =>
        d.rx chanA = { s.dev.rx chanA with
                         slot := some p, accepted := (s.dev.rx chanA).accepted || p.token == s.dev.get SLV_AUTH } ∧
        d.rx (!chanA) = s.dev.rx (!chanA) ∧
        (chanA = false → d.get SLV_CMTSEQ = p.seq % 2 ^ 32)))) ∧
  (s.dev.planner.phase = 2 → s.dev.planning = true → s.dev.planner.restart = none → ∀ begun obs,
    (s.dev.planner.servo.accepted = true → s.dev.planner.chanA.accepted = true →
      Completes (.commitWatchExpiry begun obs) s (fun d =>
        d.now = max s.dev.now (s.dev.s + s.dev.ts - s.dev.leadC + s.dev.watch) ∧ s.dev.only d [.time] [])) ∧
    (∀ (a x : Nat), (s.dev.planner.servo.accepted && s.dev.planner.chanA.accepted) = false → s.dev.active? = some a →
      s.dev.standby? = some x → s.dev.planner.recov = none → Completes (.commitWatchExpiry begun obs) s (fun d =>
        d.get SLV_ACTWALL = x ∧ d.role x = 1 ∧ d.get SLV_AUTH = (s.dev.get SLV_AUTH + 1) % 65536 ∧
        d.is SLV_WINDOW = true ∧ d.is SLV_RECOV = true ∧ d.planner.recov = some (x, 0) ∧
        d.planner.window = some (d.now, some a))))

/-- A stride boundary brings the record's plan or a shifted one into force, and the planner stops, restarts and loses
walls by rule: STRIDE_BOUNDARY starts a stride: in a planner that runs the record of the slot comes into force in both
receivers, or the plan is shifted and the miss counted, unless the stride is a miss already; a restart plan comes into
force and ends the stop branch. PLANNER_STOPPED follows three beats of standstill. PLANNER_RESTART outside STOPPED is a
register error. WALL_GIVE_UP takes the role of a wall, or of one without a role that is available its availability, and,
of the active wall with no standby, asks for a stop. WALL_REJOIN of a wall with a role is a register error, else its
test runs. DUAL_ACT_WINDOW_CLOSE closes the former wall's port. CSU_LATCH answers without a model and builds the
separation record of a running planner; it is delivered before its time, or late. (R24, R117, R118, R125, R128, R130,
R131, R133, R135, R137, R210, R211) -/
def Obligations.BoundaryAndControl : Prop := ∀ (s : State), s.dev.up = true →
  (s.dev.time.ticked = true → Completes .strideBoundary s (fun d =>
    d.planner.phase = 0 ∧ d.planner.timing = (s.dev.reg 0x5400).toNat ∧ d.planner.redun = (s.dev.reg 0x5404).toNat ∧
    (s.dev.planner.restart = none → s.dev.planning = true →
      (∀ p, s.dev.planner.servo.slot = some p → d.planner.servo.inForce = some p ∧ d.planner.servo.slot = none ∧
        (bitOf p.flags 1 = true → d.is SRV_STOPBR = true ∧ d.plState = 3 ∧ d.planner.te.isSome = true)) ∧
      (∀ p, s.dev.planner.chanA.slot = some p → d.planner.chanA.inForce = some p ∧ d.planner.chanA.slot = none) ∧
      (s.dev.planner.servo.slot = none → (s.dev.planner.counted ≠ some true → d.get SLV_MISSC = min 255 (s.dev.get SLV_MISSC + 1)) ∧
        (s.dev.planner.counted = some true → d.get SLV_MISSC = s.dev.get SLV_MISSC) ∧
        d.reg 0x5448 = bumpWord (s.dev.reg 0x5448) ∧
        d.planner.servo.inForce = s.dev.planner.servo.inForce.map (fun p =>
          { p with t0 := p.t0 + s.dev.ts, shifts := min 255 (p.shifts + 1) }))) ∧
    (∀ p, s.dev.planner.restart = some p → s.dev.plState = 1 → d.planner.servo.inForce = some p ∧
      d.planner.chanA.inForce = some p ∧ d.planner.te = none ∧ d.planner.restart = none ∧ d.is SRV_STOPBR = false))) ∧
  (s.dev.plState = 3 → 3 ≤ s.dev.planner.standBeats → Completes .plannerStopped s (fun d =>
    d.plState = 4 ∧ s.dev.only d [] [SLV_PLSTATE.off])) ∧
  (s.dev.linked = true →
    (s.dev.plState ≠ 4 → Completes .plannerRestart s (fun d => d.is (GLB_BLKERR 5) = true ∧ s.dev.only d [.evReq] [0x10])) ∧
    (∀ a m, s.dev.active? = some a → s.dev.kiln.active = some m → s.dev.plState = 4 → s.dev.noRequest false = true →
      s.dev.noRequest true = true → Completes .plannerRestart s (fun d =>
        d.plState = 1 ∧ d.get SLV_MISSC = 0 ∧ (∃ p, d.planner.restart = some p ∧ p.kind = 3 ∧ p.t0 = s.dev.s + s.dev.ts ∧
          p.token = s.dev.planner.lastToken ∧ p.seq = s.dev.planner.lastSeq) ∧ s.dev.onlyParts d [.planner, .boot])) ∧
    (∀ (w : Fin 2) x, s.dev.planner.walls[w.val]? = some x → Completes (.wallRejoin w) s (fun d =>
      if s.dev.role w = 0 then d.planner.walls[w.val]? = some { x with testing := true } ∧ s.dev.only d [.planner] []
      else d.is (GLB_BLKERR 5) = true ∧ s.dev.only d [.evReq] [0x10]))) ∧
  (∀ (w : Fin 2) x, s.dev.planner.walls[w.val]? = some x →
    (s.dev.role w = 0 → x.avail = false → Completes (.wallGiveUp w) s (fun d => s.dev.only d [] [])) ∧
    (s.dev.role w ≠ 0 ∨ x.avail = true → s.dev.active? ≠ some w.val → Completes (.wallGiveUp w) s (fun d =>
      d.role w = 0 ∧ d.wallAvail w = false ∧ (16 * (3 + w.val) + 12, noDetail) ∈ d.evReq ∧
      s.dev.onlyParts d [.planner, .evReq])) ∧
    (s.dev.active? = some w.val → s.dev.plState ≠ 0 → s.dev.planner.recov = none → s.dev.role (1 - w.val) < 2 →
      Completes (.wallGiveUp w) s (fun d => d.role w = 0 ∧ d.wallAvail w = false ∧ d.planner.stopReq = true ∧
        d.safety.ss1A = true ∧ d.safety.ss1B = true))) ∧
  (∀ t f, s.dev.planner.window = some (t, f) → Completes .dualActWindowClose s (fun d =>
    d.planner.window = none ∧ d.is SLV_WINDOW = false ∧ d.now = max s.dev.now (t + 250000) ∧
    (∀ w x, f = some w → s.dev.active? ≠ some w → s.dev.planner.walls[w]? = some x →
      d.planner.walls[w]? = some { x with portClosed := true }) ∧ s.dev.only d [.planner, .time] [SLV_WINDOW.off])) ∧
  (∀ parity, s.dev.modelDue = none →
    (s.dev.kiln.active = none → Completes (.csuLatch parity) s (fun d =>
      d.now = max s.dev.now (s.dev.s + 60000) ∧ d.commons = { s.dev.commons with queue := [] } ∧
      d.kiln = { s.dev.kiln with convs := s.dev.kiln.convs.map s.dev.convLatch } ∧
      (∀ r ∈ s.dev.commons.queue, ∀ x, s.dev.cmd? r.cmd = some x → ∃ y, d.cmd? r.cmd = some y ∧ y.done.isSome = true))) ∧
    (∀ m, s.dev.kiln.active = some m → s.dev.plState ≠ 0 → parity = false → Completes (.csuLatch parity) s (fun d =>
      ∃ r, d.commons.built = some r ∧ d.commons.lateAt = none ∧ r.tfrom = s.dev.s + s.dev.sepTd ∧
        r.tto = r.tfrom + s.dev.ts ∧ r.rseq = (s.dev.commons.rseq + 1) % 2 ^ 32 ∧ d.commons.rseq = r.rseq))) ∧
  (∀ r, s.dev.commons.built = some r → s.dev.now < r.tfrom → Completes .sepRecordDeliver s (fun d =>
    d.commons = { s.dev.commons with built := none, sent := pieces 4096 r.bytes } ∧ s.dev.only d [.commons] [])) ∧
  (∀ t, (s.dev.commons.lateAt = some t ∨ (s.dev.commons.lateAt = none ∧ ∃ r, s.dev.commons.built = some r ∧ r.tfrom = t)) →
    Completes .recLate s (fun d => d.now = max s.dev.now t ∧ d.commons = { s.dev.commons with lateAt := none, built := none } ∧
      d.reg 0x711C = bumpWord (s.dev.reg 0x711C) ∧ d.evReq = s.dev.evReq ++ [(108, noDetail)] ∧
      s.dev.only d [.time, .commons, .evReq] [0x711C]))

/-- The beat tick advances the beat count, polls leave in their slots, and a response is accepted, or missing when its
window closes: BEAT_TICK comes at the next beat instant, advances HTL_BEAT by one and the beat in the stride, and raises
the beat's source, with beat 0 the stride's. POLL_SEND of a slot in the schedule in force sends its poll at its offset.
RESP_RECEIVE passes over a frame of another EtherType, discards one with a wrong FCS, a wrong header for the slot of its
window, or no window of an awaited response, and counts it; it keeps an awaited response in its window, whose safety
sub-telegrams of a JOINED node go to channel A. RESP_WINDOW_CLOSE of a slot that has answered changes no register; of
one that has not it counts the miss and raises RESP_MISSING. BEAT_END_SEND sends the port's BEAT_END once, with the
bytes of its BEAT_HEAD, and, when every running port has, raises BEAT_DONE. (R25, R265, R266, R269, R270, R271, R289,
R293) -/
def Obligations.HeathlineBeat : Prop := ∀ (s : State),
  (s.dev.up = true → s.dev.time.started = true → Completes .beatTick s (fun d =>
    d.get HTL_BEAT = (s.dev.get HTL_BEAT + 1) % 2 ^ 32 ∧ d.time.ticked = true ∧ d.time.beatAt = s.dev.nextBeat.1 ∧
    d.now = max s.dev.now s.dev.nextBeat.1 ∧
    d.time.bis = (if s.dev.nextBeat.2 || !s.dev.time.ticked then 0 else (s.dev.time.bis + 1) % s.dev.time.layout.strb) ∧
    (172, noDetail) ∈ d.evReq ∧ (d.time.bis = 0 → (173, noDetail) ∈ d.evReq ∧ d.time.strideAt = d.time.beatAt) ∧
    d.servo.frozen = false ∧
    s.dev.onlyParts d [.evReq, .freeCtr, .boot, .time, .host, .engSrcs, .heath, .planner, .servo, .safety, .field, .fbs, .ret,
      .fabric, .mains] ∧
    (∀ o, o < 0x4000 → o ≠ 0x100C → o ≠ 0x3040 → d.reg o = s.dev.reg o))) ∧
  (∀ (p : Fin 4), s.dev.portRuns p = true →
    (∀ x : SlotEnt, (s.dev.slots p).find? (fun y => y.slot == x.slot) = some x → Completes (.pollSend p x.slot) s (fun d =>
      d.now = max s.dev.now (s.dev.time.beatAt + x.tpoll) ∧
      (∃ f, f.length = 16 + x.pollLen ∧ d.out = [.heathFrame p (s.dev.ethHead p ++ htlBody f)] ∧
        f.take 16 = htlHead 2 (s.dev.get (HTL_MODE p)) x.slot (if s.dev.onLine x.laddr then x.laddr else 0xFE)
          (s.dev.get HTL_BEAT) (htlRest x.pollLen 0 0)) ∧
      s.dev.only d [.time, .freeCtr] [])) ∧
    (∀ slot, (∀ x ∈ s.dev.slots p, x.slot ≠ slot) → Completes (.pollSend p slot) s (fun d => d.out = [] ∧ s.dev.only d [] [])) ∧
    (∀ f : HtlFrame, (s.dev.port p).link = false ∨ f.etype ≠ s.dev.get HTL_ETYPE →
      Completes (.respReceive p f) s (fun d => s.dev.only d [] [])) ∧
    (∀ f : HtlFrame, (s.dev.port p).link = true → f.etype = s.dev.get HTL_ETYPE →
      (f.fcsOk = false → Completes (.respReceive p f) s (fun d =>
        d.reg (HTL_PERR p 0) = bumpWord (s.dev.reg (HTL_PERR p 0)) ∧ d.evReq = s.dev.evReq ++ [(149, noDetail)] ∧
        s.dev.only d [.evReq] [HTL_PERR p 0])) ∧
      (∀ sec, f.fcsOk = true → 20 ≤ f.bytes.length →
        crc32c (f.bytes.take (f.bytes.length - 4)) = uAt f.bytes (f.bytes.length - 4) 4 → uAt f.bytes 0 1 = 0x13 →
        s.dev.section? p = some sec →
        (∀ x n, ((s.dev.slots p).filter s.dev.awaits).find? (fun y => inWindow sec y f) = some x → s.dev.node? x.laddr = some n →
          (s.dev.headAgrees p x f.bytes = false → Completes (.respReceive p f) s (fun d =>
            d.reg (HTL_PERR p 2) = bumpWord (s.dev.reg (HTL_PERR p 2)) ∧ d.evReq = s.dev.evReq ++ [(149, noDetail)] ∧
            s.dev.only d [.evReq] [HTL_PERR p 2])) ∧
          (s.dev.headAgrees p x f.bytes = true → Completes (.respReceive p f) s (fun d =>
            (∃ n', d.node? x.laddr = some n' ∧ n'.got = n.got ++ [x.slot] ∧
              (x.slot, bytesAt (f.bytes.drop 16) (24 * x.nax + 32 * x.nsafe) x.raux) ∈ n'.inputs) ∧
            (0 < x.nax → (154, noDetail) ∈ d.evReq) ∧
            (s.dev.nstate x.laddr = 6 → (d.ch false).tel = (s.dev.ch false).tel ++ (List.range x.nsafe).map (fun k =>
              (x.laddr, s.dev.get HTL_BEAT, bytesAt (f.bytes.drop 16) (24 * x.nax + 32 * k) 32))) ∧
            s.dev.only d [.heath, .servo, .fbs, .safety, .evReq] [0x604C]))) ∧
        (((s.dev.slots p).filter s.dev.awaits).find? (fun y => inWindow sec y f) = none →
          ∀ k, k = (if ((s.dev.slots p).filter s.dev.awaits).any (fun y =>
              y.slot == uAt f.bytes 2 1 && y.laddr == uAt f.bytes 3 1) then 3 else 5) →
          Completes (.respReceive p f) s (fun d =>
            d.reg (HTL_PERR p k) = bumpWord (s.dev.reg (HTL_PERR p k)) ∧ d.evReq = s.dev.evReq ++ [(149, noDetail)] ∧
            s.dev.only d [.evReq] [HTL_PERR p k])))) ∧
    (∀ sec (x : SlotEnt) n, s.dev.section? p = some sec → (s.dev.slots p).find? (fun y => y.slot == x.slot) = some x →
      s.dev.node? x.laddr = some n →
      (n.got.contains x.slot = true → Completes (.respWindowClose p x.slot) s (fun d =>
        d.now = max s.dev.now (s.dev.time.beatAt + sec.windowEnd x) ∧ s.dev.only d [.time, .heath] [])) ∧
      (n.got.contains x.slot = false → n.polled = true → s.dev.onLine x.laddr = true →
        Completes (.respWindowClose p x.slot) s (fun d =>
          d.now = max s.dev.now (s.dev.time.beatAt + sec.windowEnd x) ∧
          d.reg (HTL_PERR p 4) = bumpWord (s.dev.reg (HTL_PERR p 4)) ∧ (148, x.laddr) ∈ d.evReq ∧
          s.dev.only d [.time, .heath, .servo, .fbs, .evReq] [HTL_PERR p 4, 0x604C]))) ∧
    (∀ r, s.dev.heath.ports[p.val]? = some r →
      (r.endSent = true → Completes (.beatEndSend p) s (fun d => d.out = [] ∧ s.dev.only d [] [])) ∧
      (r.endSent = false → Completes (.beatEndSend p) s (fun d =>
        d.now = max s.dev.now (s.dev.time.beatAt + s.dev.endStart p +
          (if ∀ q : Fin 4, q ≠ p → s.dev.portRuns q = false ∨ (s.dev.port q).endSent = true then frameTime 16 else 0)) ∧
        d.get (HTL_BEATEND p) = s.dev.endStart p / 8 % 65536 ∧ d.heath.ports[p.val]? = some { r with endSent := true } ∧
        d.out = [.heathFrame p (s.dev.ethHead p ++ htlBody (htlHead 4 (s.dev.get (HTL_MODE p)) 0xFF 0 (s.dev.get HTL_BEAT) r.head))] ∧
        ((∀ q : Fin 4, q ≠ p → s.dev.portRuns q = false ∨ (s.dev.port q).endSent = true) → (155, noDetail) ∈ d.evReq) ∧
        s.dev.only d [.time, .heath, .servo, .evReq] [0x4020 + 4 * p.val]))))

/-- A join exchange goes step by step, a wrong station is refused, and the ports' controls act at the next boundary:
JOIN_EXCHANGE after the port's BEAT_END sends the exchange of the entry next in turn, once a beat. JOIN_RESP_RECEIVE of
its answer in the window takes ASSIGN to ANNOUNCE, ANNOUNCE to SYNC and a probe of the right station to MEASURE; a
station of another vendor or product is refused with its cause. BACKUP_FRAME_RECEIVE shows, counts and raises the
backup. HEATHLINE_LINK_CHANGE sets the link. PORT_ENABLE and PORT_STOP set and clear PEN, and the port restarts or stops
at the next boundary. CHECK_UNIT_SELFTEST ends with the failing channels shown and raised and their ports' PEN clear.
(R261, R275, R277, R279, R284, R286, R287) -/
def Obligations.HeathlineJoinAndPorts : Prop := ∀ (s : State) (p : Fin 4),
  (s.dev.portRuns p = true → ∀ r, s.dev.heath.ports[p.val]? = some r →
    (r.endSent = false ∨ r.exchanged = true → Completes (.joinExchange p) s (fun d => d.out = [] ∧ s.dev.only d [] [])) ∧
    (∀ sec a, r.endSent = true → r.exchanged = false → s.dev.section? p = some sec → s.dev.joinNext p = some a →
      Completes (.joinExchange p) s (fun d =>
        d.now = max s.dev.now (s.dev.time.beatAt + s.dev.joinStart p) ∧
        d.out = [.heathFrame p (s.dev.ethHead p ++ htlBody (s.dev.joinFrame p sec a))] ∧
        d.nstate a.laddr = max 1 (s.dev.nstate a.laddr) ∧
        (∃ r', d.heath.ports[p.val]? = some r' ∧ r'.exchange = some a.laddr ∧ r'.exchanged = true ∧
          r'.served = (if s.dev.nstate a.laddr < 2 then a.laddr else r.served)) ∧
        s.dev.only d [.time, .heath] [(HTL_NSTATE a.laddr).off])) ∧
    (r.link = true → Completes (.backupFrameReceive p) s (fun d =>
      d.is (HTL_BKUP p) = true ∧ d.reg (HTL_PERR p 7) = bumpWord (s.dev.reg (HTL_PERR p 7)) ∧
      d.heath.ports[p.val]? = some { r with bkup := true } ∧ d.evReq = s.dev.evReq ++ [(152, noDetail)] ∧
      s.dev.only d [.heath, .evReq] [HTL_PERR p 7, 0x4020 + 4 * p.val])) ∧
    (r.link = false → Completes (.backupFrameReceive p) s (fun d => s.dev.only d [] [])) ∧
    (∀ (f : HtlFrame) sec a, r.link = true → f.etype = s.dev.get HTL_ETYPE → f.fcsOk = true → f.bytes.length = 36 →
      crc32c (f.bytes.take 32) = uAt f.bytes 32 4 → uAt f.bytes 0 1 = 0x16 → uAt f.bytes 1 1 = s.dev.get (HTL_MODE p) →
      uAt f.bytes 2 1 = 0xFF → uAt f.bytes 4 4 = s.dev.get HTL_BEAT → uAt f.bytes 8 2 = 16 →
      s.dev.section? p = some sec → r.exchange = some a.laddr → sec.entry? a.laddr = some a → uAt f.bytes 0xC 2 = a.station →
      (s.dev.joinWindow p sec a).1 ≤ f.first → f.last ≤ (s.dev.joinWindow p sec a).2 →
      (s.dev.nstate a.laddr = 3 → uAt f.bytes 3 1 = a.laddr → bitOf (uAt f.bytes 0xA 1) 0 = true →
        Completes (.joinRespReceive p f) s (fun d => d.nstate a.laddr = 4 ∧
          s.dev.only d [.heath] [(HTL_NSTATE a.laddr).off])) ∧
      (s.dev.nstate a.laddr = 4 → uAt f.bytes 3 1 = a.laddr → bitOf (uAt f.bytes 0xA 1) 0 = true →
        Completes (.joinRespReceive p f) s (fun d => d.nstate a.laddr = 5 ∧ d.get (HTL_NMISSC a.laddr) = 0 ∧
          s.dev.only d [.heath] [(HTL_NSTATE a.laddr).off])) ∧
      (s.dev.nstate a.laddr = 1 → uAt f.bytes 3 1 = 0xFE → uAt f.bytes 16 4 = a.vendor → uAt f.bytes 20 4 = a.product →
        covers sec a.laddr (uAt f.bytes 28 1) (uAt f.bytes 29 1) = true →
        Completes (.joinRespReceive p f) s (fun d => d.nstate a.laddr = 2 ∧
          s.dev.only d [.heath] [(HTL_NSTATE a.laddr).off])) ∧
      (s.dev.nstate a.laddr = 1 → uAt f.bytes 3 1 = 0xFE → uAt f.bytes 16 4 ≠ a.vendor ∨ uAt f.bytes 20 4 ≠ a.product →
        Completes (.joinRespReceive p f) s (fun d => d.nstate a.laddr = 0 ∧ d.get (HTL_NJREFC a.laddr) = 1 ∧
          d.reg (HTL_PERR p 6) = bumpWord (s.dev.reg (HTL_PERR p 6)) ∧ (147, a.laddr) ∈ d.evReq ∧
          s.dev.onlyParts d [.heath, .servo, .evReq])))) ∧
  (∀ link r, s.dev.up = true → s.dev.heath.ports[p.val]? = some r → Completes (.heathlineLinkChange p link) s (fun d =>
    d.heath = { s.dev.heath with ports := d.heath.ports } ∧ d.heath.ports[p.val]? = some { r with link := link } ∧
    (∀ q, q ≠ p.val → d.heath.ports[q]? = s.dev.heath.ports[q]?) ∧ s.dev.only d [.heath] [])) ∧
  (∀ r, s.dev.linked = true → s.dev.heath.ports[p.val]? = some r →
    (s.dev.is (HTL_PENP p) = false →
      Completes (.portEnable p) s (fun d =>
        d.is (HTL_PENP p) = true ∧ (∀ q : Fin 4, q ≠ p → d.is (HTL_PENP q) = s.dev.is (HTL_PENP q)) ∧
        d.heath.ports[p.val]? = some { r with restart := s.dev.heath.sched.isSome, stop := false } ∧
        d.is (FAB_CLOSED (32 + p)) = false ∧
        d.evReq = s.dev.evReq ++ (if s.dev.is (FAB_CLOSED (32 + p)) then [(23, 32 + p.val)] else []) ∧
        s.dev.only d [.heath, .evReq] [0x4004, 0xF014]) ∧
      Completes (.portStop p) s (fun d => d.is (HTL_PENP p) = false ∧ s.dev.only d [] [0x4004])) ∧
    (s.dev.is (HTL_PENP p) = true →
      Completes (.portStop p) s (fun d =>
        d.is (HTL_PENP p) = false ∧ (∀ q : Fin 4, q ≠ p → d.is (HTL_PENP q) = s.dev.is (HTL_PENP q)) ∧
        d.heath.ports[p.val]? = some { r with stop := true, restart := false } ∧ s.dev.only d [.heath] [0x4004]) ∧
      Completes (.portEnable p) s (fun d => d.is (HTL_PENP p) = true ∧ s.dev.only d [] [0x4004]))) ∧
  (∀ fail : BitVec 16, s.dev.linked = true → Completes (.checkUnitSelftest fail) s (fun d =>
    d.is CHK_DONE = true ∧ d.get CHK_FAIL = fail.toNat ∧
    (∀ c : Fin 16, bitOf fail.toNat c = true → (241, c.val) ∈ d.evReq ∧ (c.val < 8 → d.is (HTL_PENP (c % 4)) = false)) ∧
    (∀ q : Fin 4, bitOf fail.toNat q = false → bitOf fail.toNat (4 + q.val) = false → d.is (HTL_PENP q) = s.dev.is (HTL_PENP q)) ∧
    s.dev.only d [.heath, .evReq] [0xE000, 0xE004, 0x4004]))

/-- The freeze takes what stands in the transmit buffers, an engine that missed its deadline fails, and a block's record
is made: SETPOINT_FREEZE comes 8 us before the end of the beat and freezes the buffers once: a joint with a new setpoint
sends it, one without keeps the previous with its stale flag, and each that should have had one is counted and raised in
order. ENGINE_DEADLINE_CHECK comes 4 us before it and fails an engine with a joint that has no output and no trap, and
raises it; where a joint's feedback is missing, or each has its output, it changes nothing. CM_BLOCK_READY makes the
joint's record of 128 bytes, offers it and raises its source. ENGINE_REJOIN starts the lane test of the failed engines
named and flags one that has not failed. (R28, R145, R152, R155, R157, R159, R160) -/
def Obligations.EnginePoints : Prop := ∀ (s : State),
  (s.dev.up = true → s.dev.is CLK_SERVOLK = true →
    (s.dev.servo.frozen = true → Completes .setpointFreeze s (fun d => s.dev.only d [] [])) ∧
    (s.dev.servo.frozen = false → ∀ late, late = (s.dev.servo.joints.filter (fun j =>
        (j.delivering || s.dev.servo.unbound.contains j.gj) && j.tx.isNone)).map JointRt.gj →
      Completes .setpointFreeze s (fun d =>
        d.servo = { s.dev.servo with frozen := true, joints := d.servo.joints } ∧
        d.servo.joints = s.dev.servo.joints.map (fun j => match j.tx with
          | some v => { j with sent := some v, stale := false, tx := none }
          | none => { j with stale := true }) ∧
        d.evReq = s.dev.evReq ++ late.map (fun gj => (80, gj)) ∧
        d.reg 0x6040 = late.foldl (fun r _ => bumpWord r) (s.dev.reg 0x6040) ∧
        d.now = (if s.dev.time.started then max s.dev.now (s.dev.time.beatAt + s.dev.time.layout.beat - 8000) else s.dev.now) ∧
        s.dev.only d [.servo, .time, .evReq] [0x6040]))) ∧
  (∀ (e : Fin 16), s.dev.up = true → s.dev.is (SRV_FAILED e) = false →
    ∀ js t, js = (s.dev.boundJoints e).filter (fun j => j.delivering && !j.moved) →
    t = (if s.dev.time.started then max s.dev.now (s.dev.time.beatAt + s.dev.time.layout.beat - 12000) else s.dev.now) →
    ((∃ j ∈ js, j.missing = true) ∨ (∀ j ∈ js, j.tx.isSome = true ∨ j.trapNow = true) →
      Completes (.engineDeadlineCheck e) s (fun d => d.now = t ∧ s.dev.only d [.time] [])) ∧
    ((∀ j ∈ js, j.missing = false) → ∀ j ∈ js, j.tx = none → j.trapNow = false → Completes (.engineDeadlineCheck e) s (fun d =>
      d.is (SRV_FAILED e) = true ∧ (∀ k : Fin 16, k ≠ e → d.is (SRV_FAILED k) = s.dev.is (SRV_FAILED k)) ∧ d.now = t ∧
      (87, e.val) ∈ d.evReq ∧ d.reg 0x6058 = bumpWord (s.dev.reg 0x6058)))) ∧
  (∀ (gj : Fin 60) j b ent, s.dev.up = true → s.dev.jrt gj = some j → j.cmDone = some b → s.dev.entry gj = some ent →
    Completes (.cmBlockReady gj) s (fun d =>
      d.jrt gj = some { j with cmDone := none } ∧ d.evReq = s.dev.evReq ++ [(90, gj.val)] ∧
      d.host = { s.dev.host with telOut := d.host.telOut, telCfg := d.host.telCfg } ∧
      (∀ t ∈ s.dev.host.telCfg, t.stream = 2 → t.decim ≤ t.skipped + 1 → ∃ r ∈ d.host.telOut,
        r.ring = t.ring ∧ r.stream = 2 ∧ r.sub = gj.val ∧ r.time = b.tend ∧ r.payload.length = 128) ∧
      s.dev.only d [.servo, .evReq, .host] [0x6060])) ∧
  (∀ mask : BitVec 16, s.dev.linked = true →
    ((∀ e : Fin 16, bitOf mask.toNat e = true → s.dev.is (SRV_FAILED e) = true) →
      Completes (.engineRejoin mask) s (fun d => s.dev.only d [.servo] [])) ∧
    (∀ e : Fin 16, bitOf mask.toNat e = true → s.dev.is (SRV_FAILED e) = false →
      Completes (.engineRejoin mask) s (fun d => d.is (GLB_BLKERR 6) = true ∧ s.dev.only d [.servo, .evReq] [0x10])) ∧
    Completes (.engineRejoin mask) s (fun d => ∀ e g, s.dev.engine e = some g →
      d.engine e = some (if e < 16 ∧ bitOf mask.toNat e = true ∧ s.dev.is (SRV_FAILED e) = true
        then { g with testing := true } else g)))

/-- After an operation of a running safety channel, in any state, an arm in STO has no side high but one in its clearing
test, and without a set no side is high: Whatever the state, an operation of a running safety channel (its beat, an
input, a sub-telegram, a verdict, a readback, the end of a pulse or a test, a time-out, a fault, its cross-check point)
leaves the channel's output sides safe: an arm in STO has its torque and brake sides low, but for a side in its clearing
test; with no set in force every side is low. (R216, R221, R231, R233, R234, R254) -/
def Obligations.SafeSides : Prop := ∀ (s : State) (h : Bool) (c : Instr), ofChannel h c = true → s.dev.chUp h = true →
  Completes c s (fun d => d.stoLow h ∧ d.noSetLow h)

/-- Two keys in order unlock the window, any other write locks it, a reset needs it unlocked, and without a tick the
Hedge puts every arm into STO: HEDGE_UNLOCK_KEY acts over the cross-die link: the first key arms the sequence, the
second in time unlocks, any other write locks, as UNLOCK_WINDOW_EXPIRY does. SAFA_HOST_RESET in the locked window is
flagged and ignored; in the unlocked window with HOSTACK it asks a reset of all arms. HEDGE_TICK_TIMEOUT latches the
clock fault in the Hedge, raises it and puts every arm into STO, and channel A is as before. (R235, R248, R251, R258) -/
def Obligations.UnlockAndClock : Prop := ∀ (s : State),
  (∀ (key : BitVec 16) (inTime : Bool), s.dev.linked = true →
    (s.dev.is CLK_XDIE = false → Completes (.hedgeUnlockKey key inTime) s (fun d => s.dev.only d [] [])) ∧
    (s.dev.is CLK_XDIE = true → s.dev.hedgeUp = true → ∀ u, u = (key == 0x05A5 && s.dev.safety.keySeen && inTime) →
      Completes (.hedgeUnlockKey key inTime) s (fun d =>
        d.safety = { s.dev.safety with unlocked := u, keySeen := key == 0x0A5A } ∧ d.is SAFA_UNLOCKED = u ∧
        d.is HDG_UNLOCKED = u ∧ s.dev.only d [.safety] [0x8000, 0x9080]))) ∧
  (s.dev.hedgeUp = true → s.dev.safety.unlocked = true → Completes .unlockWindowExpiry s (fun d =>
    d.safety = { s.dev.safety with unlocked := false, keySeen := false } ∧ d.is SAFA_UNLOCKED = false ∧
    d.is HDG_UNLOCKED = false ∧ s.dev.only d [.safety] [0x8000, 0x9080])) ∧
  (s.dev.safety.unlocked = false → Completes .unlockWindowExpiry s (fun d => s.dev.only d [] [])) ∧
  (s.dev.linked = true →
    (s.dev.safety.unlocked = false → Completes .safaHostReset s (fun d =>
      d.is (GLB_BLKERR 8) = true ∧ s.dev.only d [.evReq] [0x10])) ∧
    (∀ st, s.dev.safety.unlocked = true → s.dev.setOf false = some st → Completes .safaHostReset s (fun d =>
      d.safety = (if st.hostack then { s.dev.safety with resetArms := 0xFF } else s.dev.safety) ∧ s.dev.only d [.safety] []))) ∧
  (s.dev.chUp true = true → Completes .hedgeTickTimeout s (fun d =>
    (∀ a, a < 8 → ((d.ch true).arm a).st = .sto) ∧ bitOf (d.ch true).faults 8 = true ∧ d.raisedS true 13 noDetail ∧
    (∀ n, d.sideHigh true n = true → bitOf (s.dev.ch true).clearing n = true) ∧
    s.dev.onlyChannel d true ∧ s.dev.only d [.safety] []))

/-- A wrong tick, a missing record, a failed verdict and a disagreement stop the arms, and the cross-check point sends
verdicts and changes sets: SAFETY_BEAT with a tick outside its bounds puts every arm into STO; an SS1 request of the
main die stops every arm; a side whose test beat this is goes low and is in its off-pulse where its functions want it
on; channel A counts beats without a record. NO_RECORD at two stops every arm. SEP_RECORD_RECEIVE enters an intact,
newer record of the set. VERDICT_RECEIVE counts a verdict that fails its CRC, takes the other channel's STO and SS1, and
a wrong beat or set stops every arm. CROSS_CHECK_POINT sends the verdicts, changes both sets together, resets an arm
whose causes, and those of the whole channels, are gone in both, and ends the state reads. (R220, R231, R236, R240,
R241, R245, R246, R247, R248, R251, R255) -/
def Obligations.SafetyBeats : Prop := ∀ (s : State) (h : Bool), s.dev.chUp h = true →
  (∀ cyc, Completes (.safetyBeat h cyc) s (fun d => (d.ch h).cyc = cyc ∧ s.dev.onlyChannel d h ∧
      (tickOk h s.dev.time.layout.beat cyc = false →
        (∀ a, a < 8 → ((d.ch h).arm a).st = .sto) ∧ bitOf (d.ch h).faults 8 = true ∧ d.raisedS h 13 noDetail) ∧
      ((if h then s.dev.safety.ss1B && s.dev.is CLK_XDIE else s.dev.safety.ss1A) = true → d.stopped h 0xFF ∧
        (if h then d.safety.ss1B else d.safety.ss1A) = false) ∧
      (h = false → d.safety.noRec =
        if (s.dev.plState = 1 ∨ s.dev.plState = 2) ∧ s.dev.recordAt s.dev.time.beatAt = none then s.dev.safety.noRec + 1
        else 0) ∧
      (∀ st (n : Fin 16) ns, s.dev.setOf h = some st → ns = 1000000000 / s.dev.time.layout.beat → bitOf (s.dev.ch h).cmd n = true →
        bitOf (s.dev.ch h).clearing n = false →
        s.dev.get HTL_BEAT % ns = (2 * n.val + (if h then 1 else 0)) * ns / 32 →
        d.sideHigh h n = false ∧ bitOf (d.ch h).pulse n = bitOf (d.wantSides h) n))) ∧
  (h = false →
    (2 ≤ s.dev.safety.noRec → Completes .noRecord s (fun d => d.stopped false 0xFF ∧ bitOf (d.ch false).faults 6 = true ∧
      d.raisedS false 11 noDetail ∧ s.dev.onlyChannel d false)) ∧
    (s.dev.safety.noRec < 2 → Completes .noRecord s (fun d =>
      (∀ a, ((d.ch false).arm a).st = ((s.dev.ch false).arm a).st) ∧ s.dev.only d [.safety] safaRegs)) ∧
    (∀ (intact : Bool), Completes (.sepRecordReceive intact) s (fun d =>
      d.commons = { s.dev.commons with sent := [] } ∧
      (sepParse s.dev.commons.sent.flatten = none → d.safety.recs = s.dev.safety.recs) ∧
      (∀ r, sepParse s.dev.commons.sent.flatten = some r → d.safety.recs =
        (if intact && (match s.dev.safety.recs with | q :: _ => newer 32 r.rseq q.rseq | [] => true) &&
          ((s.dev.setOf false).map (·.seppcrc) == some r.seppcrc) then (r :: s.dev.safety.recs).take 2 else s.dev.safety.recs)) ∧
      s.dev.only d [.safety, .commons] safaRegs))) ∧
  (∀ v, (∀ b, v = some b → b.length ≠ 64 ∨ crc16 (b.take 62) ≠ uAt b 62 2) → Completes (.verdictReceive h v) s (fun d =>
    (d.ch h).verMiss = (s.dev.ch h).verMiss + 1 ∧ bitOf (d.ch h).faults 10 = true ∧
    (d.ch h).lastVerdict = (s.dev.ch h).lastVerdict ∧ s.dev.onlyChannel d h ∧
    (1 ≤ (s.dev.ch h).verMiss → d.stopped h 0xFF ∧ bitOf (d.ch h).faults 7 = true))) ∧
  (∀ b, b.length = 64 → crc16 (b.take 62) = uAt b 62 2 → Completes (.verdictReceive h (some b)) s (fun d =>
    (d.ch h).verMiss = 0 ∧ (d.ch h).lastVerdict = b ∧ s.dev.onlyChannel d h ∧
    (∀ a, a < 8 →
      (uAt b (0x10 + a) 1 % 4 = 3 → ((d.ch h).arm a).st = .sto) ∧
      (uAt b (0x10 + a) 1 % 4 = 2 → 2 ≤ ((d.ch h).arm a).st.code)) ∧
    (uAt b 0 4 ≠ s.dev.get HTL_BEAT ∨ uAt b 4 4 ≠ ((s.dev.setOf h).map (·.setcrc)).getD 0 →
      d.stopped h 0xFF ∧ bitOf (d.ch h).faults 7 = true))) ∧
  (∀ bad wrOk,
    Completes (.crossCheckPoint bad wrOk) s (fun d =>
      (∃ b, Output.verdict h b ∈ d.out ∧ b.length = 64 ∧ b.take 4 = leBytes 4 (s.dev.get HTL_BEAT)) ∧
      (s.dev.up = true → s.dev.time.started = true →
        d.now = max s.dev.now (s.dev.time.beatAt + s.dev.time.layout.beat - 25000)) ∧
      (s.dev.up = true → d.host.stateRead = [])) ∧
    (s.dev.chUp (!h) = true → s.dev.is CLK_XDIE = true →
      (∀ na nb, s.dev.safety.a.next = some na → s.dev.safety.b.next = some nb → Completes (.crossCheckPoint bad wrOk) s (fun d =>
        d.safety.inForce = (na.setcrc == nb.setcrc) ∧ (d.ch false).set = some na ∧ (d.ch true).set = some nb ∧
        (d.ch false).next = none ∧ (d.ch true).next = none)) ∧
      (∀ st (a : Fin 8), s.dev.safety.a.next = none → s.dev.setOf false = some st → (∀ g, (s.dev.ch g).arms.length = 8) →
        bitOf s.dev.safety.resetArms a = true →
        (∀ g, (s.dev.ch g).judged = true ∧ s.dev.calm g = true ∧ (s.dev.ch g).causesGone st a = true ∧ (s.dev.ch g).fltSides a = []) → Completes (.crossCheckPoint bad wrOk) s (fun d =>
          d.safety.resetArms = 0 ∧ ∀ g, ((d.ch g).arm a).st = .run ∧ ((d.ch g).arm a).latched = false ∧
            ∀ i, i < st.pairs.length → bitOf ((d.ch g).pair i).lat a = false))))

/-- An input that demands is latched and stops its arms, a discrepancy is a fault of its pair, and a sub-telegram is
accepted or counted: SAFETY_INPUT_ACCEPT sets the level of its pair; a new demand of an emergency stop or light curtain
is latched for its arms, raised and reacts as its REACT says, STO of its arms or SS1 of them and of every present arm.
DISCREPANCY_TIMEOUT of a pair in discrepancy puts it, or the even pair of a two-hand control, into FAULT, counted and
raised, with its reaction where the demand is new. TWOHAND_SYNC_TIMEOUT takes ARMING to BLOCKED and leaves every other
state. SUBTELEGRAM_RECEIVE takes the oldest sub-telegram handed over; of an axis of the set it accepts one that passes
its checks in its beat, and otherwise keeps its position, speed and counter, counts and raises it; one of a sensor it
keeps for the stride. (R201, R219, R222, R223, R226, R235, R236) -/
def Obligations.SafetyInputs : Prop := ∀ (s : State) (h : Bool), s.dev.chUp h = true →
  (∀ (i : Fin 16) p, (s.dev.ch h).pairs[i.val]? = some p →
    (∀ level held, Completes (.safetyInputAccept h i level held) s (fun d =>
      ((d.ch h).pair i).level = level ∧ s.dev.onlyChannel d h)) ∧
    (∀ level held, s.dev.setOf h = none → Completes (.safetyInputAccept h i level held) s (fun d =>
      (d.ch h).pairs[i.val]? = some { p with level := level } ∧ (s.dev.safety.inForce = false → (d.ch h).cmd = 0))) ∧
    (∀ st e held, s.dev.setOf h = some st → st.pairs[i.val]? = some e → e.type = 1 ∨ e.type = 4 → p.level = true → p.fault = false →
      p.startTest = false → Completes (.safetyInputAccept h i false held) s (fun d =>
        (d.ch h).pairs[i.val]? = some { p with level := false, lat := unionMask p.lat e.armmask } ∧ d.raisedS h 0 i ∧
        (e.react = 0 → ∀ a, a < 8 → bitOf e.armmask a = true → ((d.ch h).arm a).st = .sto) ∧
        (e.react ≠ 0 → d.stopped h (unionMask e.armmask s.dev.presentArms)))) ∧
    (∀ st e held, s.dev.setOf h = some st → st.pairs[i.val]? = some e → e.type = 1 ∨ e.type = 4 → p.fault = false →
      p.startTest = false → Completes (.safetyInputAccept h i true held) s (fun d =>
        (d.ch h).pairs[i.val]? = some { p with level := true } ∧ (∀ a, ((d.ch h).arm a).st = ((s.dev.ch h).arm a).st))) ∧
    (∀ st k q e, s.dev.setOf h = some st → k = st.home i → (s.dev.ch h).pairs[k]? = some q → st.pairs[k]? = some e → e.type ≠ 0 →
      p.disc = true → q.fault = false → Completes (.discrepancyTimeout h i) s (fun d =>
        (d.ch h).pairs[k]? = some { q with fault := true, faultStep := 0, sawLow := false,
                                           lat := if latches e.type then unionMask q.lat e.armmask else q.lat } ∧
        bitOf (d.ch h).faults 0 = true ∧ d.raisedS h 4 k ∧ d.raisedS h 0 k ∧ s.dev.onlyChannel d h ∧
        (latches e.type = true → (s.dev.ch h).pairCode st k = 0 ∨ minusMask e.armmask q.lat ≠ 0 →
          (e.react = 0 → ∀ a, a < 8 → bitOf e.armmask a = true → ((d.ch h).arm a).st = .sto) ∧
          (e.react ≠ 0 → d.stopped h (unionMask e.armmask s.dev.presentArms))))) ∧
    (∀ st, s.dev.setOf h = some st → p.disc = false → Completes (.discrepancyTimeout h i) s (fun d =>
      (d.ch h).pairs = (s.dev.ch h).pairs ∧ (∀ a, ((d.ch h).arm a).st = ((s.dev.ch h).arm a).st) ∧
      s.dev.only d [.safety] safaRegs))) ∧
  (∀ (i : Fin 16) st p, s.dev.setOf h = some st → (s.dev.ch h).pairs[st.home i]? = some p →
    (∀ f, p.two = .arming f → Completes (.twohandSyncTimeout h i) s (fun d =>
      ((d.ch h).pair (st.home i)).two = .blocked ∧ s.dev.onlyChannel d h)) ∧
    ((∀ f, p.two ≠ .arming f) → Completes (.twohandSyncTimeout h i) s (fun d =>
      (d.ch h).pairs = (s.dev.ch h).pairs ∧ (∀ a, ((d.ch h).arm a).st = ((s.dev.ch h).arm a).st) ∧
      s.dev.only d [.safety] safaRegs))) ∧
  (∀ lost, (s.dev.ch h).tel = [] ∨ (h && lost) = true → Completes (.subtelegramReceive h lost) s (fun d =>
    (d.ch h).tel = (s.dev.ch h).tel.tail ∧ (d.ch h).axes = (s.dev.ch h).axes ∧
    (∀ a, ((d.ch h).arm a).st = ((s.dev.ch h).arm a).st) ∧ s.dev.only d [.safety] (if h then [] else safaRegs))) ∧
  (∀ lost laddr beat b rest st, (h && lost) = false → (s.dev.ch h).tel = (laddr, beat, b) :: rest → s.dev.setOf h = some st →
    (∀ j x, st.joints.find? (fun k => k.node == laddr && k.axis == uAt b 2 1) = some j →
      st.sensors.find? (fun k => k.node == laddr) = none → (s.dev.ch h).axis j.gj = some x →
      (beat = s.dev.get HTL_BEAT → axisAccept laddr b x = true → Completes (.subtelegramReceive h lost) s (fun d =>
        (d.ch h).axis j.gj = some { x with pos := sAt b 6 4, spd := sAt b 10 4, seq := some (uAt b 0 2), got := true,
                                               back := some (x.back.getD (x.pos, x.spd)) } ∧ (d.ch h).tel = rest ∧
        (∀ g, g ≠ j.gj → (d.ch h).axis g = (s.dev.ch h).axis g) ∧ s.dev.only d [.safety] (if h then [] else safaRegs))) ∧
      (beat ≠ s.dev.get HTL_BEAT ∨ axisAccept laddr b x = false → Completes (.subtelegramReceive h lost) s (fun d =>
        (d.ch h).axis j.gj = some { x with err := true } ∧ (d.ch h).tel = rest ∧
        (∀ g, g ≠ j.gj → (d.ch h).axis g = (s.dev.ch h).axis g) ∧ d.raisedS h 5 j.gj ∧
        (h = false → d.reg 0x8044 = bumpWord (s.dev.reg 0x8044)) ∧ s.dev.onlyChannel d h))) ∧
    (∀ x, st.sensors.find? (fun k => k.node == laddr) = some x → beat = s.dev.get HTL_BEAT →
      Completes (.subtelegramReceive h lost) s (fun d => (d.ch h).tel = rest ∧
        (d.ch h).sensors = (s.dev.ch h).sensors.map (fun r => if r.sid = x.sid then { r with subs := r.subs ++ [b] } else r) ∧
        s.dev.only d [.safety] (if h then [] else safaRegs))))

/-- Pulses, readbacks, clearing tests, the brake's delay, the end of TSS1 and a channel's own fault act on the sides and
the arms: OFF_PULSE_END ends the side's pulse. READBACK_FAULT of a side whose readback differs from its command latches
the fault, puts its arm into STO, the side low and every other arm at least into SS1; one that agrees changes no arm.
CLEARING_TEST_END ends the side's test, and clears the side's fault and asks the arm's reset where it passed.
BRAKE_RELEASE_DELAY turns the brake side on for a ready arm whose torque is on. TSS1_EXPIRY takes SS1 to STO where the
request covers the arm or the channel has failed, to HOLD otherwise. SAFETY_CHANNEL_FAULT fails the channel: the Hedge
puts every arm into STO, channel A stops every arm. (R230, R231, R233, R238, R250, R251) -/
def Obligations.SafetyOutputs : Prop := ∀ (s : State) (h : Bool), s.dev.chUp h = true →
  (∀ (n : Fin 16),
    Completes (.offPulseEnd h n) s (fun d => bitOf (d.ch h).pulse n = false ∧
      (∀ k, k ≠ n.val → bitOf (d.ch h).pulse k = (bitOf (s.dev.ch h).pulse k && bitOf (d.wantSides h) k)) ∧
      (∀ a, ((d.ch h).arm a).st = ((s.dev.ch h).arm a).st) ∧ s.dev.onlyChannel d h ∧
      s.dev.only d [.safety] (if h then [] else safaRegs)) ∧
    (∀ level, bitOf (s.dev.ch h).cmd n ≠ level → Completes (.readbackFault h n level) s (fun d =>
      bitOf (d.ch h).outFlt n = true ∧ bitOf (d.ch h).faults 2 = true ∧ ((d.ch h).arm (n % 8)).st = .sto ∧
      d.sideHigh h n = false ∧ d.raisedS h 7 n ∧ d.stopped h 0xFF ∧ s.dev.onlyChannel d h)) ∧
    (∀ level, bitOf (s.dev.ch h).cmd n = level → Completes (.readbackFault h n level) s (fun d =>
      (d.ch h).outFlt = (s.dev.ch h).outFlt ∧ (∀ a, ((d.ch h).arm a).st = ((s.dev.ch h).arm a).st) ∧
      s.dev.only d [.safety] (if h then [] else safaRegs))) ∧
    (∀ pass : Bool, bitOf (s.dev.ch h).clearing n = true → Completes (.clearingTestEnd h n pass) s (fun d =>
      bitOf (d.ch h).clearing n = false ∧ bitOf (d.ch h).outFlt n = (bitOf (s.dev.ch h).outFlt n && !pass) ∧
      bitOf d.safety.resetArms (n % 8) = (bitOf s.dev.safety.resetArms (n % 8) || pass) ∧ s.dev.onlyChannel d h)) ∧
    (∀ pass : Bool, bitOf (s.dev.ch h).clearing n = false → Completes (.clearingTestEnd h n pass) s (fun d =>
      (d.ch h).outFlt = (s.dev.ch h).outFlt ∧ d.safety.resetArms = s.dev.safety.resetArms ∧
      s.dev.only d [.safety] (if h then [] else safaRegs)))) ∧
  (∀ (a : Fin 8) r, (s.dev.ch h).arms[a.val]? = some r →
    (∀ st, s.dev.setOf h = some st → (s.dev.ch h).ready st a = true → r.phase = 2 → r.st ≠ .sto →
      Completes (.brakeReleaseDelay h a) s (fun d =>
        (d.ch h).arms[a.val]? = some { r with phase := 3 } ∧
        (s.dev.sidesFree h = true → bitOf (s.dev.ch h).outFlt (8 + a) = false → bitOf (s.dev.ch h).pulse (8 + a) = false →
          d.sideHigh h (8 + a) = true) ∧
        s.dev.only d [.safety] (if h then [] else safaRegs))) ∧
    (r.phase ≠ 2 ∨ r.st = .sto → Completes (.brakeReleaseDelay h a) s (fun d =>
      (∃ r', (d.ch h).arms[a.val]? = some r' ∧ r'.st = r.st ∧ r'.phase ≤ r.phase) ∧
      s.dev.only d [.safety] (if h then [] else safaRegs))) ∧
    (r.st = .ss1 → Completes (.tss1Expiry h a) s (fun d =>
      ((d.ch h).arm a).st = (if r.covered || (s.dev.ch h).failed then .sto else .hold) ∧
      (∀ k, k ≠ a.val → ((d.ch h).arm k).st = ((s.dev.ch h).arm k).st) ∧ s.dev.onlyChannel d h)) ∧
    (r.st ≠ .ss1 → Completes (.tss1Expiry h a) s (fun d =>
      (∀ k, ((d.ch h).arm k).st = ((s.dev.ch h).arm k).st) ∧ s.dev.only d [.safety] (if h then [] else safaRegs)))) ∧
  Completes (.safetyChannelFault h) s (fun d =>
    (d.ch h).failed = true ∧ bitOf (d.ch h).faults 9 = true ∧ d.raisedS h 14 noDetail ∧
    (h = true → ∀ a, a < 8 → ((d.ch true).arm a).st = .sto) ∧
    (h = false → d.stopped false 0xFF) ∧ s.dev.onlyChannel d h)

/-- Edges count, illegal transitions are flagged, an index captures, the latch samples every channel, and SSI words pass
or fail: FEEDBACK_ENABLE writes the configuration of a channel that may be written and, from off and out of FAULT,
starts it with count 0, the written configuration taking force at the beat; FEEDBACK_CLEAR_FAULT starts it from FAULT.
FEEDBACK_PRESET waits for the next latch. FEEDBACK_EDGE of a live channel counts up or down by its sequence, or flags
and counts an illegal transition. INDEX_EDGE captures the count and, where the zero resets it, starts the channel at 0.
FEEDBACK_LATCH latches every channel's count. SSI_WORD_COMPLETE unrolls a word that passes and counts one that fails.
SPEED_STILL_TIMEOUT clears the history. EMULATION_TICK emits at the next whole microsecond what fits. (R312, R314, R315,
R317, R319, R320, R321, R323, R325, R326, R346) -/
def Obligations.FeedbackChannels : Prop := ∀ (s : State) (n : Fin 24) (r : FbRt), s.dev.field.fb[n.val]? = some r →
  ∀ start : Nat, start = (if (s.dev.fbCfg n).mode = 0 then 0
    else if ((s.dev.fbCfg n).refn || (s.dev.fbCfg n).mode == 3) = true then 1 else 2) →
  (s.dev.linked = true →
    (s.dev.get (FIO_STATE n) = 3 → Completes (.feedbackClearFault n) s (fun d =>
      d.get (FIO_STATE n) = start ∧ d.is (FIO_FAULTB n) = false ∧
      d.field.fb[n.val]? = some { r with x := 0, hist := [], rev := false, illegal := [], word := none, good := 0, bad := 0, spdSsi := none } ∧
      s.dev.only d [.field, .evReq] [fioReg n 0x2C, 0xA700])) ∧
    (s.dev.get (FIO_STATE n) ≠ 3 → Completes (.feedbackClearFault n) s (fun d => s.dev.only d [] [])) ∧
    (∀ v : Word, Completes (.feedbackPreset n v) s (fun d => d.field.fb[n.val]? = some { r with preset := some v.toInt } ∧
      (∀ k, k ≠ n.val → d.field.fb[k]? = s.dev.field.fb[k]?) ∧ s.dev.only d [.field] [])) ∧
    (∀ w : Word,
      (s.dev.fbLocked n = true → Completes (.feedbackEnable n w) s (fun d =>
        d.is (GLB_BLKERR 10) = true ∧ s.dev.only d [.evReq] [0x10])) ∧
      (s.dev.fbLocked n = false → Completes (.feedbackEnable n w) s (fun d =>
        d.reg (fioReg n 0) = (s.dev.writeAt (fioReg n 0) w 0).reg (fioReg n 0) ∧
        ((s.dev.fbCfg n).mode = 0 → (d.fbCfg n).mode ≠ 0 → s.dev.get (FIO_STATE n) ≠ 3 →
          d.get (FIO_STATE n) = (if ((d.fbCfg n).refn || (d.fbCfg n).mode == 3) = true then 1 else 2) ∧
          ∃ r', d.field.fb[n.val]? = some r' ∧ r'.cfg = r.cfg ∧ r'.x = 0 ∧ r'.hist = [] ∧ r'.word = none) ∧
        ((s.dev.fbCfg n).mode ≠ 0 ∨ s.dev.get (FIO_STATE n) = 3 → d.field = s.dev.field ∧ d.get (FIO_STATE n) = s.dev.get (FIO_STATE n)) ∧
        s.dev.only d [.field, .evReq] [fioReg n 0, fioReg n 0x2C, 0xA700, 0x10])))) ∧
  (s.dev.up = true →
    (∀ (lv : BitVec 3) (t : Nat) (δ : Int), (s.dev.get (FIO_STATE n) = 1 ∨ s.dev.get (FIO_STATE n) = 2) →
      ((r.cfg.mode = 1 ∧ (quadPos lv.toNat + 4 - quadPos (s.dev.get (FIO_LEVEL n))) % 4 = (if δ = 1 then 1 else if δ = -1 then 3 else 0)) ∨
       (r.cfg.mode = 2 ∧ if δ = 0 then lv.toNat = s.dev.get (FIO_LEVEL n) else
          ∃ a b, hallPos (s.dev.get (FIO_LEVEL n)) = some a ∧ hallPos lv.toNat = some b ∧ lv.toNat ≠ s.dev.get (FIO_LEVEL n) ∧
            (b + 6 - a) % 6 = if δ = 1 then 1 else 5)) → (δ = 0 ∨ δ = 1 ∨ δ = -1) →
      Completes (.feedbackEdge n lv t) s (fun d => d.get (FIO_LEVEL n) = lv.toNat ∧
        (∃ r', d.field.fb[n.val]? = some r' ∧ r'.x = r.x + (if r.cfg.dir then -δ else δ)) ∧
        s.dev.only d [.field] [fioReg n 0x2C])) ∧
    (∀ (lv : BitVec 3) (t : Nat), (s.dev.get (FIO_STATE n) = 1 ∨ s.dev.get (FIO_STATE n) = 2) → r.cfg.mode = 1 →
      (quadPos lv.toNat + 4 - quadPos (s.dev.get (FIO_LEVEL n))) % 4 = 2 → Completes (.feedbackEdge n lv t) s (fun d =>
        d.get (FIO_LEVEL n) = lv.toNat ∧ d.is (FIO_QERR n) = true ∧ d.is (FIO_QSUM n) = true ∧ (176, n.val) ∈ d.evReq ∧
        d.reg (fioReg n 0x34) = bumpWord (s.dev.reg (fioReg n 0x34)) ∧
        (∃ r', d.field.fb[n.val]? = some r' ∧ r'.x = r.x) ∧
        s.dev.only d [.field, .evReq] [fioReg n 0x2C, fioReg n 0x34, 0xA700, 0xA704])) ∧
    (∀ (lv : BitVec 3) (t : Nat), s.dev.get (FIO_STATE n) = 0 ∨ s.dev.get (FIO_STATE n) = 3 →
      Completes (.feedbackEdge n lv t) s (fun d => d.get (FIO_LEVEL n) = lv.toNat ∧ s.dev.only d [] [fioReg n 0x2C])) ∧
    ((s.dev.get (FIO_STATE n) = 1 ∨ s.dev.get (FIO_STATE n) = 2) → r.cfg.mode = 1 → r.cfg.zmode ≠ 0 →
      Completes (.indexEdge n) s (fun d => d.reg (fioReg n 0x28) = BitVec.ofInt 32 r.x ∧ d.is (FIO_ZSEEN n) = true ∧
        (179, n.val) ∈ d.evReq ∧
        (if r.cfg.zmode = 2 ∧ s.dev.get (FIO_STATE n) = 1 ∧ r.preset = none
         then d.get (FIO_STATE n) = 2 ∧ d.field.fb[n.val]? = some { r with x := 0 }
         else d.field = s.dev.field ∧ d.get (FIO_STATE n) = s.dev.get (FIO_STATE n)) ∧
        s.dev.only d [.field, .evReq, .kiln] [fioReg n 0x28, fioReg n 0x2C])) ∧
    (s.dev.get (FIO_STATE n) = 0 ∨ r.cfg.mode ≠ 1 ∨ r.cfg.zmode = 0 →
      Completes (.indexEdge n) s (fun d => s.dev.only d [] [])) ∧
    (∀ t, Completes (.feedbackLatch t) s (fun d =>
      (s.dev.get (FIO_STATE n) ≠ 0 → ∃ r', d.field.fb[n.val]? = some r' ∧ r'.x = r.preset.getD r.x ∧ r'.latched = r'.x ∧
        r'.tLatch = t ∧ r'.preset = none ∧ d.reg (fioReg n 0x20) = BitVec.ofInt 32 r'.x ∧
        (r.cfg.mode ≠ 3 → d.get (FIO_SPDST n) = (speedAt r' t).1 ∧ r'.spd = (speedAt r' t).2)) ∧
      (s.dev.get (FIO_STATE n) = 0 → d.field.fb[n.val]? = some { r with x := r.preset.getD r.x, preset := none }) ∧
      s.dev.onlyParts d [.field, .evReq, .servo, .fbs] ∧ (∀ o, o < 0xA000 → o ≠ 0x604C → d.reg o = s.dev.reg o))) ∧
    (∀ (word : BitVec 40) (high par : Bool) (raw w : Nat),
      (r.cfg.mode ≠ 3 ∨ s.dev.get (FIO_STATE n) = 0 → Completes (.ssiWordComplete n word high par) s (fun d => s.dev.only d [] [])) ∧
      (r.cfg.mode = 3 → s.dev.get (FIO_STATE n) ≠ 0 → raw = word.toNat % 2 ^ r.cfg.nbits →
        w = (if r.cfg.gray then grayDecode r.cfg.nbits raw else raw) →
        (ssiFails r.cfg r.word high par raw w = true → Completes (.ssiWordComplete n word high par) s (fun d =>
          d.field.fb[n.val]? = some { r with bad := r.bad + 1, good := 0 } ∧ (180, n.val) ∈ d.evReq ∧
          d.reg (fioReg n 0x34) = bumpWord (s.dev.reg (fioReg n 0x34)) ∧
          (3 ≤ r.bad → d.get (FIO_STATE n) = 3) ∧ s.dev.onlyParts d [.field, .evReq, .servo, .fbs])) ∧
        (ssiFails r.cfg r.word high par raw w = false → Completes (.ssiWordComplete n word high par) s (fun d =>
          (∃ r', d.field.fb[n.val]? = some r' ∧ r'.word = some w ∧ r'.good = r.good + 1 ∧ r'.bad = 0 ∧
            r'.x = (match r.word with
              | some q => r.x + signed r.cfg.nbits ((w + (2 ^ r.cfg.nbits - q)) % 2 ^ r.cfg.nbits)
              | none => (w : Int))) ∧
          s.dev.onlyParts d [.field, .evReq, .servo, .fbs])))) ∧
    Completes (.speedStillTimeout n) s (fun d => d.field.fb[n.val]? = some { r with hist := [], rev := false } ∧
      (∀ k, k ≠ n.val → d.field.fb[k]? = s.dev.field.fb[k]?) ∧ s.dev.only d [.field] []) ∧
    (s.dev.time.started = true → Completes .emulationTick s (fun d =>
      d.now = (s.dev.now / 1000 + 1) * 1000 ∧ d.field = { s.dev.field with ee := d.field.ee } ∧
      (∀ (m : Fin 8) e, s.dev.field.ee[m.val]? = some e →
        (e.cfg % 4 = 0 → d.field.ee[m.val]? = some e) ∧
        (e.cfg % 4 ≠ 0 → ∀ (δ : Int) (k : Nat), δ = divRne ((d.eeSource e.cfg - e.p0) * e.k) (2 ^ 48) - e.emitted →
          k = min δ.natAbs (200 / max 1 (e.cfg / 4096 % 256)) →
          ∃ e', d.field.ee[m.val]? = some e' ∧ e'.emitted = e.emitted + (if δ < 0 then -(k : Int) else k) ∧
            d.reg (eeReg m 0xC) = BitVec.ofInt 32 e'.emitted ∧ d.get (EE_LAG m) = min (δ.natAbs - k) 65535)) ∧
      s.dev.only d [.field, .time, .evReq] ((List.range 8).flatMap (fun m => [eeReg m 0xC, eeReg m 0x10])))))

/-- An axis turns its driver off and on, re-phases, moves and stops at the tick, and a hysteretic loop updates its
output: AUX_STOP is due at the next tick. AUX_DRIVER_OFF of a disabled or idle axis turns its driver off, keeps its
position and drops what waits; otherwise it is flagged. AUX_DRIVER_ON makes the re-phase, or goes IDLE with PHSKIP;
REPHASE_DONE comes at its end and goes IDLE. AUX_PROFILE_TICK at the next whole 10 µs moves an axis in target mode by
its rule, and a due stop ends its commands. HYS_INPUT_WRITE gives a loop that is not owned a fresh input. HYS_UPDATE
takes the safe output where the input is stale, and otherwise computes the error, the accumulator and the output. (R328,
R329, R330, R337, R338, R339, R340, R341, R342, R343, R344) -/
def Obligations.AxesAndLoops : Prop := ∀ (s : State),
  (∀ (a : Fin 16) (r : AuxRt), s.dev.field.aux[a.val]? = some r →
    (s.dev.linked = true →
      Completes (.auxStop a) s (fun d => d.field.aux[a.val]? = some { r with stopDue := true } ∧
        (∀ k, k ≠ a.val → d.field.aux[k]? = s.dev.field.aux[k]?) ∧ s.dev.only d [.field] []) ∧
      (s.dev.get (AUX_STATE a) = 0 ∨ s.dev.get (AUX_STATE a) = 1 → Completes (.auxDriverOff a) s (fun d =>
        d.is (AUX_DRVOFF a) = true ∧ d.get (AUX_STATE a) = 6 ∧
        (a.val < s.dev.ret.aux.length → d.ret.aux[a.val]? = some (some r.pos)) ∧
        d.field.aux[a.val]? = some { r with wait := none, next := none } ∧
        s.dev.only d [.ret, .field, .host] [auxReg a 8, auxReg a 0x0C])) ∧
      (s.dev.get (AUX_STATE a) ≠ 0 → s.dev.get (AUX_STATE a) ≠ 1 → Completes (.auxDriverOff a) s (fun d =>
        d.is (GLB_BLKERR 10) = true ∧ s.dev.only d [.evReq] [0x10])) ∧
      (s.dev.get (AUX_STATE a) ≠ 6 → Completes (.auxDriverOn a) s (fun d => s.dev.only d [] [])) ∧
      (s.dev.get (AUX_STATE a) = 6 →
        (s.dev.is (AUX_PHSKIP a) = true → Completes (.auxDriverOn a) s (fun d =>
          d.is (AUX_DRVOFF a) = false ∧ d.get (AUX_STATE a) = 1 ∧ d.out = [] ∧ s.dev.only d [.ret] [auxReg a 8, auxReg a 0x0C])) ∧
        (s.dev.is (AUX_PHSKIP a) = false → Completes (.auxDriverOn a) s (fun d =>
          d.is (AUX_DRVOFF a) = false ∧ d.get (AUX_STATE a) = 5 ∧
          d.out = (if rephaseSteps r.pos (s.dev.get (AUX_RSTPH a)) = 0 then []
            else [.steps a (rephaseSteps r.pos (s.dev.get (AUX_RSTPH a)))]) ∧
          (∃ r', d.field.aux[a.val]? = some r' ∧ r'.pos = r.pos ∧ r'.emitted = r.emitted ∧
            r'.rephaseEnd = s.dev.now + (rephaseSteps r.pos (s.dev.get (AUX_RSTPH a))).natAbs * 50000 + 1000000) ∧
          d.reg (auxReg a 0x30) = s.dev.reg (auxReg a 0x30) + BitVec.ofInt 32 (rephaseSteps r.pos (s.dev.get (AUX_RSTPH a))) ∧
          s.dev.only d [.field] [auxReg a 8, auxReg a 0x0C, auxReg a 0x30])))) ∧
    (s.dev.up = true →
      (s.dev.get (AUX_STATE a) = 5 → Completes (.rephaseDone a) s (fun d => d.get (AUX_STATE a) = 1 ∧
        d.now = max s.dev.now r.rephaseEnd ∧
        d.evReq = s.dev.evReq ++ [(197, a.val)] ∧ s.dev.only d [.ret, .time, .evReq] [auxReg a 0x0C])) ∧
      (s.dev.get (AUX_STATE a) ≠ 5 → Completes (.rephaseDone a) s (fun d => s.dev.only d [] [])) ∧
      (s.dev.time.started = true → Completes .auxProfileTick s (fun d =>
        d.now = (s.dev.now / 10000 + 1) * 10000 ∧
        (∀ n, s.dev.get (AUX_STATE a) = 2 → r.stopDue = false → r.next = none → r.wait = none → r.run = none →
          n = targetTick r.pos r.vel r.tgt (vmax16 (s.dev.get (AUX_VMAX a))) (acc16 (s.dev.get (AUX_AMAX a)))
            (acc16 (s.dev.get (AUX_DMAX a))) →
          (∃ r', d.field.aux[a.val]? = some r' ∧ r'.pos = n.1 ∧ r'.vel = n.2.1) ∧
          d.get64 (auxReg a 0x10) = encSigned 64 n.1 % 2 ^ 64 ∧
          (if n.2.2.1 then d.get (AUX_STATE a) = 1 ∧ (192, a.val) ∈ d.evReq else d.get (AUX_STATE a) = 2)) ∧
        (s.dev.get (AUX_STATE a) = 2 ∨ s.dev.get (AUX_STATE a) = 3 → r.stopDue = true →
          (d.get (AUX_STATE a) = 4 ∨ d.get (AUX_STATE a) = 1) ∧
          ∃ r', d.field.aux[a.val]? = some r' ∧ r'.stopDue = false ∧ r'.cmd = none ∧ r'.run = none ∧ r'.wait = none ∧ r'.next = none) ∧
        (s.dev.get (AUX_STATE a) = 0 → s.dev.is (AUX_EN a) = true → r.stopDue = false → r.next = none → r.wait = none →
          r.run = none → d.get (AUX_STATE a) = 1 ∧ ∃ r', d.field.aux[a.val]? = some r' ∧ r'.pos = r.pos) ∧
        s.dev.onlyParts d [.time, .field, .ret, .host, .evReq] ∧ (∀ o, o < 0xA800 → d.reg o = s.dev.reg o))))) ∧
  (∀ (l : Fin 32) (r : HysRt), s.dev.field.hys[l.val]? = some r →
    (∀ w : Word, s.dev.linked = true →
      (s.dev.is (HYS_OWNED l) = true → Completes (.hysInputWrite l w) s (fun d =>
        d.is (GLB_BLKERR 11) = true ∧ s.dev.only d [.evReq] [0x10])) ∧
      (s.dev.is (HYS_OWNED l) = false → Completes (.hysInputWrite l w) s (fun d =>
        d.get (HYS_IN l) = w.toNat % 65536 ∧
        d.field.hys[l.val]? = some { r with fresh := s.dev.is (HYS_SRC l) || r.fresh } ∧
        s.dev.only d [.field, .evReq] [hysReg l 0x14, 0x10]))) ∧
    (s.dev.up = true →
      (s.dev.is (HYS_EN l) = false → Completes (.hysUpdate l) s (fun d => s.dev.only d [.mains] [])) ∧
      (s.dev.is (HYS_EN l) = true → s.dev.field.hl = none →
        ∀ stale lim sel, stale = (if r.fresh then 0 else r.stale + 1) → lim = s.dev.get (HYS_STALE l) →
          sel = (s.dev.reg (hysReg l 0)).toNat / 4 % 2 + (s.dev.reg (hysReg l 0)).toNat / 16 % 8 * 2 →
        (lim ≠ 0 → lim ≤ stale → Completes (.hysUpdate l) s (fun d =>
          d.is (HYS_FLT l) = true ∧ d.is (HYS_OUT l) = s.dev.is (HYS_SAFE l) ∧
          (s.dev.is (HYS_FLT l) = false → (200, l.val) ∈ d.evReq ∧ d.reg 0xB400 = bumpWord (s.dev.reg 0xB400)) ∧
          s.dev.only d [.field, .mains, .evReq] [hysReg l 0x18, hysReg l 0x1C, 0xB400])) ∧
        (lim = 0 ∨ stale < lim → ∀ (inp sp e acc u : Int),
          inp = (if s.dev.is (HYS_SRC l) then signed 16 (s.dev.get (HYS_IN l))
            else s.dev.field.mod.getD (s.dev.get (HYS_MODCH l)) 0) → sp = signed 16 (s.dev.get (HYS_SP l)) →
          e = satS 16 (if s.dev.is (HYS_POL l) then inp - sp else sp - inp) →
          acc = clampInt ((if s.dev.is (HYS_FLT l) = false ∧ sel = r.sel then r.acc else 0) + e * signed 16 (s.dev.get (HYS_KI l)))
            (signed 16 (s.dev.get (HYS_ILO l)) * 32768) (signed 16 (s.dev.get (HYS_IHI l)) * 32768) →
          u = satS 16 (e + divRne acc 32768) →
          Completes (.hysUpdate l) s (fun d =>
            d.is (HYS_FLT l) = false ∧
            (∃ r', d.field.hys[l.val]? = some r' ∧ r'.acc = acc ∧ r'.stale = stale ∧ r'.fresh = false ∧ r'.sel = sel) ∧
            d.is (HYS_OUT l) = (if s.dev.is (HYS_OUT l)
              then !(decide (u < -((s.dev.get (HYS_HB l) : Nat) : Int)) && decide (s.dev.get (HYS_TMINON l) ≤ r.nOn))
              else decide (((s.dev.get (HYS_HB l) : Nat) : Int) < u) && decide (s.dev.get (HYS_TMINOFF l) ≤ r.nOff)) ∧
            s.dev.only d [.field, .mains, .evReq] [hysReg l 0x18, hysReg l 0x1C, 0xB404])))))

/-- Modulator values reach their loops and buses, a stuck channel is flagged, and the monitor enters and leaves dip and
ride-through: MODULATOR_OUTPUT of a channel that is not stuck scales its sum and gives it to the loops that read the
channel, or to the precise value. MODULATOR_STUCK flags, counts and raises it once, and MODULATOR_RECOVERY clears the
flag. MAINS_UPDATE shows the amplitudes of the phases in use and the frequency, enters a dip where a phase is below its
threshold, and shows the state; off, it ends everything. DIP_END, once calm for RTEND, records the dip and ends it and
any ride-through. RIDE_THROUGH_EXPIRY ends the ride-through with a count, its source and a stop request. (R425, R426,
R427, R428, R431, R432, R434) -/
def Obligations.MainsMonitor : Prop := ∀ (s : State), s.dev.up = true →
  (∀ (ch : Fin 8) (sum : Nat),
    (∀ fast, s.dev.is (MNS_STUCK ch) = true → Completes (.modulatorOutput ch fast sum) s (fun d => s.dev.only d [] [])) ∧
    (s.dev.is (MNS_STUCK ch) = false →
      Completes (.modulatorOutput ch true sum) s (fun d =>
        (∀ x, s.dev.field.mod[ch.val]? = some x → d.field.mod[ch.val]? = some (modValue ((s.dev.reg 0xB800).toNat / 256 % 256) sum)) ∧
        (∀ k, k ≠ ch.val → d.field.mod[k]? = s.dev.field.mod[k]?) ∧
        (∀ (l : Fin 32) r, s.dev.field.hys[l.val]? = some r → d.field.hys[l.val]? =
          some { r with fresh := r.fresh || (!s.dev.is (HYS_SRC l) && s.dev.get (HYS_MODCH l) == ch.val) }) ∧
        s.dev.only d [.field, .mains, .evReq] [0xB880]) ∧
      Completes (.modulatorOutput ch false sum) s (fun d =>
        (∀ x, s.dev.mains.precise[ch.val]? = some x →
          d.mains.precise[ch.val]? = some (modValue (s.dev.decimation ch false) sum)) ∧
        (∀ k, k ≠ ch.val → d.mains.precise[k]? = s.dev.mains.precise[k]?) ∧
        s.dev.onlyParts d [.mains] ∧ (∀ o, o < 0xB8A0 → d.reg o = s.dev.reg o)) ∧
      Completes (.modulatorStuck ch) s (fun d => d.is (MNS_STUCK ch) = true ∧
        d.reg 0xB914 = bumpWord (s.dev.reg 0xB914) ∧ d.evReq = s.dev.evReq ++ [(218, ch.val)] ∧
        s.dev.only d [.evReq] [0xB880, 0xB914])) ∧
    (s.dev.is (MNS_STUCK ch) = true → Completes (.modulatorStuck ch) s (fun d => s.dev.only d [] [])) ∧
    Completes (.modulatorRecovery ch) s (fun d => d.is (MNS_STUCK ch) = false ∧
      (∀ k : Fin 8, k ≠ ch → d.is (MNS_STUCK k) = s.dev.is (MNS_STUCK k)) ∧ s.dev.only d [] [0xB880])) ∧
  (∀ (a0 a1 a2 : BitVec 16) (freq : Word),
    (s.dev.is MNS_EN = true → ∀ amp : Nat → Nat, (∀ p, amp p = if p ∈ s.dev.phases ∧ s.dev.is (MNS_STUCK (s.dev.get (MNS_PH p))) = false
        then [a0.toNat, a1.toNat, a2.toNat].getD p 0 else 0) →
      Completes (.mainsUpdate a0 a1 a2 freq) s (fun d =>
        (s.dev.time.started = true → d.now = (s.dev.now / 50000 + 1) * 50000) ∧
        (∀ p, p < 3 → d.get (MNS_AMP p) = amp p) ∧ d.get MNS_FREQ = freq.toNat ∧
        (s.dev.mains.dip = none →
          ((∃ p ∈ s.dev.phases, s.dev.belowPm (amp p) (s.dev.get MNS_DIPTHR) = true) →
            (∃ dp, d.mains.dip = some dp ∧ dp.start = d.now ∧ dp.updates = 0) ∧ (208, noDetail) ∈ d.evReq ∧
            d.reg 0xB900 = bumpWord (s.dev.reg 0xB900)) ∧
          ((∀ p ∈ s.dev.phases, s.dev.belowPm (amp p) (s.dev.get MNS_DIPTHR) = false) → d.mains.dip = none)) ∧
        d.get MNS_MSTATE = (if d.mains.dip.isSome then 2 else if d.mains.swell then 3 else 1) ∧
        s.dev.onlyParts d [.time, .mains, .evReq, .planner, .kiln, .host] ∧ (∀ o, o < 0xB880 → d.reg o = s.dev.reg o))) ∧
    (s.dev.is MNS_EN = false → Completes (.mainsUpdate a0 a1 a2 freq) s (fun d =>
      d.mains.dip = none ∧ d.mains.rt = none ∧ d.mains.swell = false ∧ d.get MNS_MSTATE = 0 ∧ d.is MNS_RT = false ∧
      s.dev.onlyParts d [.time, .mains, .evReq] ∧ (∀ o, o ≠ 0xB880 → d.reg o = s.dev.reg o)))) ∧
  (s.dev.mains.dip = none → Completes .dipEnd s (fun d => s.dev.only d [] [])) ∧
  (∀ dp, s.dev.mains.dip = some dp →
    (dp.calm < 20 * s.dev.get MNS_RTEND → Completes .dipEnd s (fun d => s.dev.only d [] [])) ∧
    (20 * s.dev.get MNS_RTEND ≤ dp.calm → Completes .dipEnd s (fun d =>
      d.mains.dip = none ∧ d.mains.rt = none ∧ (209, noDetail) ∈ d.evReq ∧ d.get64 0xB8C0 = dp.start % 2 ^ 64 ∧
      d.get MNS_DIPDUR = min 65535 (dp.updates / 20) ∧ d.get MNS_PHASES = dp.phases % 8 ∧
      d.get MNS_RESID = min 1023 (divRne (dp.low * 100) (s.dev.get MNS_UNOM)).toNat ∧
      s.dev.only d [.mains, .evReq, .planner, .kiln, .host] [0xB880, 0xB8C0, 0xB8C4, 0xB8C8, 0xB8CC, 0xB910]))) ∧
  (s.dev.mains.rt = none → Completes .rideThroughExpiry s (fun d => s.dev.only d [] [])) ∧
  (∀ t, s.dev.mains.rt = some t → Completes .rideThroughExpiry s (fun d =>
    d.now = max s.dev.now (t + s.dev.get MNS_TRT * 1000000) ∧ d.mains = { s.dev.mains with rt := none } ∧
    d.is MNS_RT = false ∧ d.reg 0xB910 = bumpWord (s.dev.reg 0xB910) ∧ (215, noDetail) ∈ d.evReq ∧
    d.planner.stopReq = true ∧ s.dev.only d [.time, .mains, .evReq, .planner, .kiln, .host] [0xB880, 0xB910]))
end

