-- ==== Sys2Proof/Laws/Regs.lean ====
section
/-! SUPPORT. Reading after writing: sparse word files, the register file and its fields, and that a write keeps the canonical
form of a file. -/

namespace Sys2Proof.Machine

/-! Word files. -/

theorem fileGet_fileIns_same (g : Nat → Word) (f : List (Nat × Word)) (a : Nat) (w : Word) :
    fileGet g (fileIns f a w) a = w := by
  induction f with
  | nil => simp [fileIns, fileGet]
  | cons p r ih =>
    obtain ⟨k, v⟩ := p
    simp only [fileIns]
    split
    · simp [fileGet]
    · split
      · simp [fileGet]
      · have : ¬ k = a := fun e => by simp_all
        simp [fileGet, this, ih]

theorem fileGet_fileIns_ne (g : Nat → Word) (f : List (Nat × Word)) (a b : Nat) (w : Word) (h : b ≠ a) :
    fileGet g (fileIns f a w) b = fileGet g f b := by
  have h' : ¬ a = b := fun e => h e.symm
  induction f with
  | nil => simp [fileIns, fileGet, h']
  | cons p r ih =>
    obtain ⟨k, v⟩ := p
    simp only [fileIns]
    split
    · simp [fileGet, h']
    · split
      · rename_i e; subst e; simp [fileGet, h']
      · simp [fileGet, ih]

theorem fileGet_fileDel_same (g : Nat → Word) (f : List (Nat × Word)) (a : Nat) : fileGet g (fileDel f a) a = g a := by
  induction f with
  | nil => rfl
  | cons p r ih =>
    obtain ⟨k, v⟩ := p
    simp only [fileDel]
    split
    · exact ih
    · simp [fileGet, *]

theorem fileGet_fileDel_ne (g : Nat → Word) (f : List (Nat × Word)) (a b : Nat) (h : b ≠ a) :
    fileGet g (fileDel f a) b = fileGet g f b := by
  have h' : ¬ a = b := fun e => h e.symm
  induction f with
  | nil => rfl
  | cons p r ih =>
    obtain ⟨k, v⟩ := p
    simp only [fileDel]
    split
    · rename_i e; subst e; simp [fileGet, h', ih]
    · simp [fileGet, ih]

/-- A read after a write of the same place gives what was written. -/
@[simp] theorem fileGet_filePut_same (g : Nat → Word) (f : List (Nat × Word)) (a : Nat) (w : Word) :
    fileGet g (filePut g f a w) a = w := by
  unfold filePut
  split
  · rename_i e; rw [fileGet_fileDel_same]; exact e.symm
  · exact fileGet_fileIns_same g f a w

/-- A write leaves every other place alone. -/
theorem fileGet_filePut_ne (g : Nat → Word) (f : List (Nat × Word)) (a b : Nat) (w : Word) (h : b ≠ a) :
    fileGet g (filePut g f a w) b = fileGet g f b := by
  unfold filePut
  split
  · exact fileGet_fileDel_ne g f a b h
  · exact fileGet_fileIns_ne g f a b w h

/-- The canonical form of a word file from an address on: addresses strictly rising, no entry equal to what an unlisted
address reads as. -/
def fileWfFrom (g : Nat → Word) : Nat → List (Nat × Word) → Bool
  | _, [] => true
  | lo, (k, v) :: r => decide (lo ≤ k) && decide (v ≠ g k) && fileWfFrom g (k + 1) r

theorem fileWfFrom_mono (g : Nat → Word) (f : List (Nat × Word)) (lo lo' : Nat) (h : lo' ≤ lo)
    (hf : fileWfFrom g lo f = true) : fileWfFrom g lo' f = true := by
  cases f with
  | nil => rfl
  | cons p r =>
    obtain ⟨k, v⟩ := p
    simp only [fileWfFrom, Bool.and_eq_true, decide_eq_true_eq] at *
    exact ⟨⟨by omega, hf.1.2⟩, hf.2⟩

theorem fileDel_above (g : Nat → Word) (f : List (Nat × Word)) (lo a : Nat) (h : a < lo)
    (hf : fileWfFrom g lo f = true) : fileDel f a = f := by
  induction f generalizing lo with
  | nil => rfl
  | cons p r ih =>
    obtain ⟨k, v⟩ := p
    simp only [fileWfFrom, Bool.and_eq_true, decide_eq_true_eq] at hf
    have : ¬ k = a := by omega
    simp only [fileDel, this, if_false]
    rw [ih (k + 1) (by omega) hf.2]

theorem fileDel_wf (g : Nat → Word) (f : List (Nat × Word)) (lo a : Nat) (hf : fileWfFrom g lo f = true) :
    fileWfFrom g lo (fileDel f a) = true := by
  induction f generalizing lo with
  | nil => rfl
  | cons p r ih =>
    obtain ⟨k, v⟩ := p
    simp only [fileWfFrom, Bool.and_eq_true, decide_eq_true_eq] at hf
    simp only [fileDel]
    split
    · exact fileWfFrom_mono g _ (k + 1) lo (by omega) (ih (k + 1) hf.2)
    · simp only [fileWfFrom, Bool.and_eq_true, decide_eq_true_eq]
      exact ⟨hf.1, ih (k + 1) hf.2⟩

theorem fileIns_wf (g : Nat → Word) (f : List (Nat × Word)) (lo a : Nat) (w : Word) (hw : w ≠ g a) (ha : lo ≤ a)
    (hf : fileWfFrom g lo f = true) : fileWfFrom g lo (fileIns f a w) = true := by
  induction f generalizing lo with
  | nil => simp [fileIns, fileWfFrom, hw, ha]
  | cons p r ih =>
    obtain ⟨k, v⟩ := p
    have hc := hf
    simp only [fileWfFrom, Bool.and_eq_true, decide_eq_true_eq] at hf
    simp only [fileIns]
    split
    · simp only [fileWfFrom, Bool.and_eq_true, decide_eq_true_eq]
      exact ⟨⟨ha, hw⟩, ⟨by omega, hf.1.2⟩, hf.2⟩
    · split
      · rename_i e
        subst e
        simp only [fileWfFrom, Bool.and_eq_true, decide_eq_true_eq]
        exact ⟨⟨ha, hw⟩, hf.2⟩
      · simp only [fileWfFrom, Bool.and_eq_true, decide_eq_true_eq]
        exact ⟨hf.1, ih (k + 1) (by omega) hf.2⟩

/-- A write keeps the canonical form. -/
theorem filePut_wf (g : Nat → Word) (f : List (Nat × Word)) (a : Nat) (w : Word) (hf : fileWfFrom g 0 f = true) :
    fileWfFrom g 0 (filePut g f a w) = true := by
  unfold filePut
  split
  · exact fileDel_wf g f 0 a hf
  · exact fileIns_wf g f 0 a w (by assumption) (by omega) hf

/-! The register file. -/

@[simp] theorem reg_setReg_same (d : Dev) (o : Nat) (w : Word) : (d.setReg o w).reg o = w :=
  fileGet_filePut_same resetOf d.regs o w

@[simp] theorem reg_setReg_ne (d : Dev) (o p : Nat) (w : Word) (h : p ≠ o) : (d.setReg o w).reg p = d.reg p :=
  fileGet_filePut_ne resetOf d.regs o p w h

theorem reg_setReg (d : Dev) (o p : Nat) (w : Word) : (d.setReg o w).reg p = if p = o then w else d.reg p := by
  split
  · rename_i e; subst e; simp
  · simp [*]

/-- The canonical form of the register file. -/
def Dev.regsWf (d : Dev) : Bool := fileWfFrom resetOf 0 d.regs

theorem setReg_regsWf (d : Dev) (o : Nat) (w : Word) (h : d.regsWf = true) : (d.setReg o w).regsWf = true :=
  filePut_wf resetOf d.regs o w h

/-! Fields of a word. -/

/-- What bits [hi:lo] of a word read as. -/
def fldOf (w : Word) (hi lo : Nat) : Nat := w.toNat / 2 ^ lo % 2 ^ (hi - lo + 1)

theorem get_eq (d : Dev) (f : Fld) : d.get f = fldOf (d.reg f.off) f.hi f.lo := rfl

theorem insField_toNat (w : Word) (hi lo v : Nat) (h1 : lo ≤ hi) (h2 : hi < 32) :
    (insField w hi lo v).toNat =
      w.toNat % 2 ^ lo + (v % 2 ^ (hi - lo + 1)) * 2 ^ lo + w.toNat / 2 ^ (hi + 1) * 2 ^ (hi + 1) := by
  simp only [insField, BitVec.toNat_ofNat]
  apply Nat.mod_eq_of_lt
  have hw := w.isLt
  have a1 : w.toNat % 2 ^ lo < 2 ^ lo := Nat.mod_lt _ (Nat.two_pow_pos _)
  have a2 : v % 2 ^ (hi - lo + 1) < 2 ^ (hi - lo + 1) := Nat.mod_lt _ (Nat.two_pow_pos _)
  have e1 : 2 ^ (hi - lo + 1) * 2 ^ lo = 2 ^ (hi + 1) := by rw [← Nat.pow_add]; congr 1; omega
  have a3 : (v % 2 ^ (hi - lo + 1)) * 2 ^ lo + 2 ^ lo ≤ 2 ^ (hi + 1) := by
    calc (v % 2 ^ (hi - lo + 1)) * 2 ^ lo + 2 ^ lo = (v % 2 ^ (hi - lo + 1) + 1) * 2 ^ lo := by rw [Nat.add_mul, Nat.one_mul]
      _ ≤ 2 ^ (hi - lo + 1) * 2 ^ lo := Nat.mul_le_mul_right _ a2
      _ = 2 ^ (hi + 1) := e1
  have e2 : 2 ^ (31 - hi) * 2 ^ (hi + 1) = 2 ^ 32 := by rw [← Nat.pow_add]; congr 1; omega
  have a4 : w.toNat / 2 ^ (hi + 1) < 2 ^ (31 - hi) := by
    rw [Nat.div_lt_iff_lt_mul (Nat.two_pow_pos _), e2]; exact hw
  have a5 : w.toNat / 2 ^ (hi + 1) * 2 ^ (hi + 1) + 2 ^ (hi + 1) ≤ 2 ^ 32 := by
    calc w.toNat / 2 ^ (hi + 1) * 2 ^ (hi + 1) + 2 ^ (hi + 1) = (w.toNat / 2 ^ (hi + 1) + 1) * 2 ^ (hi + 1) := by
          rw [Nat.add_mul, Nat.one_mul]
      _ ≤ 2 ^ (31 - hi) * 2 ^ (hi + 1) := Nat.mul_le_mul_right _ a4
      _ = 2 ^ 32 := e2
  omega

theorem div_two_pow_add (x lo n : Nat) : x / 2 ^ (lo + n) = x / 2 ^ lo / 2 ^ n := by
  rw [Nat.pow_add, Nat.div_div_eq_div_mul]

/-- A field reads as what was inserted, cut to its width. -/
theorem fldOf_insField_same (w : Word) (hi lo v : Nat) (h1 : lo ≤ hi) (h2 : hi < 32) :
    fldOf (insField w hi lo v) hi lo = v % 2 ^ (hi - lo + 1) := by
  unfold fldOf
  rw [insField_toNat w hi lo v h1 h2]
  have e1 : 2 ^ (hi + 1) = 2 ^ lo * 2 ^ (hi - lo + 1) := by rw [← Nat.pow_add]; congr 1; omega
  have e2 : w.toNat % 2 ^ lo + v % 2 ^ (hi - lo + 1) * 2 ^ lo + w.toNat / 2 ^ (hi + 1) * 2 ^ (hi + 1) =
      w.toNat % 2 ^ lo + 2 ^ lo * (v % 2 ^ (hi - lo + 1) + w.toNat / 2 ^ (hi + 1) * 2 ^ (hi - lo + 1)) := by
    rw [e1, Nat.mul_add, Nat.mul_comm (v % _), ← Nat.add_assoc]
    congr 1
    rw [Nat.mul_left_comm]
  rw [e2, Nat.add_mul_div_left _ _ (Nat.two_pow_pos _), Nat.div_eq_of_lt (Nat.mod_lt _ (Nat.two_pow_pos _)), Nat.zero_add,
    Nat.add_mul_mod_self_right, Nat.mod_mod]

/-- A field above the one inserted is as before. -/
theorem fldOf_insField_above (w : Word) (hi lo v hi' lo' : Nat) (h1 : lo ≤ hi) (h2 : hi < 32) (h3 : hi < lo') :
    fldOf (insField w hi lo v) hi' lo' = fldOf w hi' lo' := by
  unfold fldOf
  have key : (insField w hi lo v).toNat / 2 ^ (hi + 1) = w.toNat / 2 ^ (hi + 1) := by
    rw [insField_toNat w hi lo v h1 h2, Nat.add_mul_div_right _ _ (Nat.two_pow_pos _)]
    have a1 : w.toNat % 2 ^ lo < 2 ^ lo := Nat.mod_lt _ (Nat.two_pow_pos _)
    have a2 : v % 2 ^ (hi - lo + 1) < 2 ^ (hi - lo + 1) := Nat.mod_lt _ (Nat.two_pow_pos _)
    have e1 : 2 ^ (hi - lo + 1) * 2 ^ lo = 2 ^ (hi + 1) := by rw [← Nat.pow_add]; congr 1; omega
    have a3 : (v % 2 ^ (hi - lo + 1)) * 2 ^ lo + 2 ^ lo ≤ 2 ^ (hi + 1) := by
      calc (v % 2 ^ (hi - lo + 1)) * 2 ^ lo + 2 ^ lo = (v % 2 ^ (hi - lo + 1) + 1) * 2 ^ lo := by rw [Nat.add_mul, Nat.one_mul]
        _ ≤ 2 ^ (hi - lo + 1) * 2 ^ lo := Nat.mul_le_mul_right _ a2
        _ = 2 ^ (hi + 1) := e1
    rw [Nat.div_eq_of_lt (by omega), Nat.zero_add]
  obtain ⟨n, rfl⟩ : ∃ n, lo' = hi + 1 + n := ⟨lo' - (hi + 1), by omega⟩
  rw [div_two_pow_add _ (hi + 1) n, div_two_pow_add w.toNat (hi + 1) n, key]

/-- A field below the one inserted is as before. -/
theorem fldOf_insField_below (w : Word) (hi lo v hi' lo' : Nat) (h1 : lo ≤ hi) (h2 : hi < 32) (h3 : hi' < lo)
    (h4 : lo' ≤ hi') : fldOf (insField w hi lo v) hi' lo' = fldOf w hi' lo' := by
  unfold fldOf
  have cut : ∀ x : Nat, x / 2 ^ lo' % 2 ^ (hi' - lo' + 1) = x % 2 ^ lo / 2 ^ lo' % 2 ^ (hi' - lo' + 1) := by
    intro x
    have e : 2 ^ lo = 2 ^ lo' * 2 ^ (lo - lo') := by rw [← Nat.pow_add]; congr 1; omega
    have dv : 2 ^ (hi' - lo' + 1) ∣ 2 ^ (lo - lo') := Nat.pow_dvd_pow 2 (by omega)
    rw [e, Nat.mod_mul_right_div_self, Nat.mod_mod_of_dvd _ dv]
  rw [cut, cut w.toNat]
  congr 2
  rw [insField_toNat w hi lo v h1 h2]
  have e1 : 2 ^ (hi + 1) = 2 ^ lo * 2 ^ (hi - lo + 1) := by rw [← Nat.pow_add]; congr 1; omega
  rw [e1, Nat.mul_left_comm, Nat.add_mul_mod_self_left, Nat.add_mul_mod_self_right, Nat.mod_mod]

/-- A well-placed field. -/
abbrev Fld.ok (f : Fld) : Prop := f.lo ≤ f.hi ∧ f.hi < 32

/-- A field reads as what was put, cut to its width. -/
theorem get_put_same (d : Dev) (f : Fld) (v : Nat) (h : f.ok) : (d.put f v).get f = v % 2 ^ (f.hi - f.lo + 1) := by
  simp only [get_eq, Dev.put, reg_setReg_same]
  exact fldOf_insField_same _ _ _ _ h.1 h.2

/-- Fields of other registers are as before. -/
theorem get_put_off (d : Dev) (f g : Fld) (v : Nat) (h : g.off ≠ f.off) : (d.put f v).get g = d.get g := by
  simp only [get_eq, Dev.put]
  rw [reg_setReg_ne _ _ _ _ h]

/-- Other fields of the same register are as before. -/
theorem get_put_apart (d : Dev) (f g : Fld) (v : Nat) (h : f.ok) (hg : g.ok) (h' : g.hi < f.lo ∨ f.hi < g.lo) :
    (d.put f v).get g = d.get g := by
  by_cases e : g.off = f.off
  · simp only [get_eq, Dev.put, e, reg_setReg_same]
    rcases h' with h' | h'
    · exact fldOf_insField_below _ _ _ _ _ _ h.1 h.2 h' hg.1
    · exact fldOf_insField_above _ _ _ _ _ _ h.1 h.2 h'
  · exact get_put_off d f g v e

theorem is_eq (d : Dev) (f : Fld) : d.is f = decide (d.get f = 1) := by
  simp only [Dev.is]
  by_cases h : d.get f = 1 <;> simp [h]

/-- A one-bit field reads as the truth value put. -/
theorem is_putB_same (d : Dev) (f : Fld) (b : Bool) (h : f.ok) : (d.putB f b).is f = b := by
  have hp : 1 < 2 ^ (f.hi - f.lo + 1) := Nat.one_lt_two_pow (by omega)
  rw [is_eq, Dev.putB, get_put_same _ _ _ h]
  cases b
  · simp
  · simp [Nat.mod_eq_of_lt hp]

theorem is_put_off (d : Dev) (f g : Fld) (v : Nat) (h : g.off ≠ f.off) : (d.put f v).is g = d.is g := by
  simp only [Dev.is, get_put_off d f g v h]

theorem is_put_apart (d : Dev) (f g : Fld) (v : Nat) (h : f.ok) (hg : g.ok) (h' : g.hi < f.lo ∨ f.hi < g.lo) :
    (d.put f v).is g = d.is g := by
  simp only [Dev.is, get_put_apart d f g v h hg h']

theorem reg_put_ne (d : Dev) (f : Fld) (v p : Nat) (h : p ≠ f.off) : (d.put f v).reg p = d.reg p :=
  reg_setReg_ne d f.off p _ h

/-- Writing two words of a 64-bit value and reading them back. -/
theorem get64_put64 (d : Dev) (off v : Nat) : (d.put64 off v).get64 off = v % 2 ^ 64 := by
  simp only [Dev.get64, Dev.put64, reg_setReg_same]
  rw [reg_setReg_ne _ _ _ _ (by omega), reg_setReg_same]
  simp only [BitVec.toNat_ofNat]
  omega

/-- A counter that has not reached its end counts one (R12). -/
theorem bumpWord_count (w : Word) (h : w.toNat < 2 ^ 31 - 2) : bumpWord w = BitVec.ofNat 32 (w.toNat + 1) := by
  have e : w.toNat % 2 ^ 31 = w.toNat := Nat.mod_eq_of_lt (by omega)
  have q : w.toNat / 2 ^ 31 = 0 := Nat.div_eq_of_lt (by omega)
  simp only [bumpWord, e, q]
  rw [if_neg (by omega), Nat.zero_mul, Nat.add_zero]

/-- A counter at its end stays there with SAT set (R12). -/
theorem bumpWord_stuck (w : Word) (h : 2 ^ 31 - 2 ≤ w.toNat % 2 ^ 31) : bumpWord w = 0xFFFFFFFF := by
  simp only [bumpWord]
  rw [if_pos h]

@[simp] theorem reg_bump_same (d : Dev) (o : Nat) : (d.bump o).reg o = bumpWord (d.reg o) := reg_setReg_same d o _
theorem reg_bump_ne (d : Dev) (o p : Nat) (h : p ≠ o) : (d.bump o).reg p = d.reg p := reg_setReg_ne d o p _ h

end Sys2Proof.Machine
end

