-- ==== Sys2Proof/Laws/State.lean ====
section
/-! SUPPORT. What the elementary updates of the device leave alone: one lemma for each field and update, so that no proof
unfolds a record update. -/

namespace Sys2Proof.Machine

variable (d : Dev)

@[simp] theorem setReg_hold (o : Nat) (w : Word) : (d.setReg o w).hold = d.hold := rfl
@[simp] theorem setReg_latch (o : Nat) (w : Word) : (d.setReg o w).latch = d.latch := rfl
@[simp] theorem setReg_out (o : Nat) (w : Word) : (d.setReg o w).out = d.out := rfl
@[simp] theorem setReg_evReq (o : Nat) (w : Word) : (d.setReg o w).evReq = d.evReq := rfl
@[simp] theorem setReg_freeCtr (o : Nat) (w : Word) : (d.setReg o w).freeCtr = d.freeCtr := rfl
@[simp] theorem setReg_boot (o : Nat) (w : Word) : (d.setReg o w).boot = d.boot := rfl
@[simp] theorem setReg_time (o : Nat) (w : Word) : (d.setReg o w).time = d.time := rfl
@[simp] theorem setReg_host (o : Nat) (w : Word) : (d.setReg o w).host = d.host := rfl
@[simp] theorem setReg_hod (o : Nat) (w : Word) : (d.setReg o w).hod = d.hod := rfl
@[simp] theorem setReg_engSrcs (o : Nat) (w : Word) : (d.setReg o w).engSrcs = d.engSrcs := rfl
@[simp] theorem setReg_heath (o : Nat) (w : Word) : (d.setReg o w).heath = d.heath := rfl
@[simp] theorem setReg_kiln (o : Nat) (w : Word) : (d.setReg o w).kiln = d.kiln := rfl
@[simp] theorem setReg_planner (o : Nat) (w : Word) : (d.setReg o w).planner = d.planner := rfl
@[simp] theorem setReg_servo (o : Nat) (w : Word) : (d.setReg o w).servo = d.servo := rfl
@[simp] theorem setReg_commons (o : Nat) (w : Word) : (d.setReg o w).commons = d.commons := rfl
@[simp] theorem setReg_safety (o : Nat) (w : Word) : (d.setReg o w).safety = d.safety := rfl
@[simp] theorem setReg_field (o : Nat) (w : Word) : (d.setReg o w).field = d.field := rfl
@[simp] theorem setReg_fbs (o : Nat) (w : Word) : (d.setReg o w).fbs = d.fbs := rfl
@[simp] theorem setReg_ret (o : Nat) (w : Word) : (d.setReg o w).ret = d.ret := rfl
@[simp] theorem setReg_fabric (o : Nat) (w : Word) : (d.setReg o w).fabric = d.fabric := rfl
@[simp] theorem setReg_mains (o : Nat) (w : Word) : (d.setReg o w).mains = d.mains := rfl

@[simp] theorem put_hold (f : Fld) (v : Nat) : (d.put f v).hold = d.hold := rfl
@[simp] theorem put_latch (f : Fld) (v : Nat) : (d.put f v).latch = d.latch := rfl
@[simp] theorem put_out (f : Fld) (v : Nat) : (d.put f v).out = d.out := rfl
@[simp] theorem put_evReq (f : Fld) (v : Nat) : (d.put f v).evReq = d.evReq := rfl
@[simp] theorem put_freeCtr (f : Fld) (v : Nat) : (d.put f v).freeCtr = d.freeCtr := rfl
@[simp] theorem put_boot (f : Fld) (v : Nat) : (d.put f v).boot = d.boot := rfl
@[simp] theorem put_time (f : Fld) (v : Nat) : (d.put f v).time = d.time := rfl
@[simp] theorem put_host (f : Fld) (v : Nat) : (d.put f v).host = d.host := rfl
@[simp] theorem put_hod (f : Fld) (v : Nat) : (d.put f v).hod = d.hod := rfl
@[simp] theorem put_engSrcs (f : Fld) (v : Nat) : (d.put f v).engSrcs = d.engSrcs := rfl
@[simp] theorem put_heath (f : Fld) (v : Nat) : (d.put f v).heath = d.heath := rfl
@[simp] theorem put_kiln (f : Fld) (v : Nat) : (d.put f v).kiln = d.kiln := rfl
@[simp] theorem put_planner (f : Fld) (v : Nat) : (d.put f v).planner = d.planner := rfl
@[simp] theorem put_servo (f : Fld) (v : Nat) : (d.put f v).servo = d.servo := rfl
@[simp] theorem put_commons (f : Fld) (v : Nat) : (d.put f v).commons = d.commons := rfl
@[simp] theorem put_safety (f : Fld) (v : Nat) : (d.put f v).safety = d.safety := rfl
@[simp] theorem put_field (f : Fld) (v : Nat) : (d.put f v).field = d.field := rfl
@[simp] theorem put_fbs (f : Fld) (v : Nat) : (d.put f v).fbs = d.fbs := rfl
@[simp] theorem put_ret (f : Fld) (v : Nat) : (d.put f v).ret = d.ret := rfl
@[simp] theorem put_fabric (f : Fld) (v : Nat) : (d.put f v).fabric = d.fabric := rfl
@[simp] theorem put_mains (f : Fld) (v : Nat) : (d.put f v).mains = d.mains := rfl

@[simp] theorem putB_hold (f : Fld) (b : Bool) : (d.putB f b).hold = d.hold := rfl
@[simp] theorem putB_latch (f : Fld) (b : Bool) : (d.putB f b).latch = d.latch := rfl
@[simp] theorem putB_out (f : Fld) (b : Bool) : (d.putB f b).out = d.out := rfl
@[simp] theorem putB_evReq (f : Fld) (b : Bool) : (d.putB f b).evReq = d.evReq := rfl
@[simp] theorem putB_freeCtr (f : Fld) (b : Bool) : (d.putB f b).freeCtr = d.freeCtr := rfl
@[simp] theorem putB_boot (f : Fld) (b : Bool) : (d.putB f b).boot = d.boot := rfl
@[simp] theorem putB_time (f : Fld) (b : Bool) : (d.putB f b).time = d.time := rfl
@[simp] theorem putB_host (f : Fld) (b : Bool) : (d.putB f b).host = d.host := rfl
@[simp] theorem putB_hod (f : Fld) (b : Bool) : (d.putB f b).hod = d.hod := rfl
@[simp] theorem putB_engSrcs (f : Fld) (b : Bool) : (d.putB f b).engSrcs = d.engSrcs := rfl
@[simp] theorem putB_heath (f : Fld) (b : Bool) : (d.putB f b).heath = d.heath := rfl
@[simp] theorem putB_kiln (f : Fld) (b : Bool) : (d.putB f b).kiln = d.kiln := rfl
@[simp] theorem putB_planner (f : Fld) (b : Bool) : (d.putB f b).planner = d.planner := rfl
@[simp] theorem putB_servo (f : Fld) (b : Bool) : (d.putB f b).servo = d.servo := rfl
@[simp] theorem putB_commons (f : Fld) (b : Bool) : (d.putB f b).commons = d.commons := rfl
@[simp] theorem putB_safety (f : Fld) (b : Bool) : (d.putB f b).safety = d.safety := rfl
@[simp] theorem putB_field (f : Fld) (b : Bool) : (d.putB f b).field = d.field := rfl
@[simp] theorem putB_fbs (f : Fld) (b : Bool) : (d.putB f b).fbs = d.fbs := rfl
@[simp] theorem putB_ret (f : Fld) (b : Bool) : (d.putB f b).ret = d.ret := rfl
@[simp] theorem putB_fabric (f : Fld) (b : Bool) : (d.putB f b).fabric = d.fabric := rfl
@[simp] theorem putB_mains (f : Fld) (b : Bool) : (d.putB f b).mains = d.mains := rfl

@[simp] theorem put64_hold (o v : Nat) : (d.put64 o v).hold = d.hold := rfl
@[simp] theorem put64_latch (o v : Nat) : (d.put64 o v).latch = d.latch := rfl
@[simp] theorem put64_out (o v : Nat) : (d.put64 o v).out = d.out := rfl
@[simp] theorem put64_evReq (o v : Nat) : (d.put64 o v).evReq = d.evReq := rfl
@[simp] theorem put64_freeCtr (o v : Nat) : (d.put64 o v).freeCtr = d.freeCtr := rfl
@[simp] theorem put64_boot (o v : Nat) : (d.put64 o v).boot = d.boot := rfl
@[simp] theorem put64_time (o v : Nat) : (d.put64 o v).time = d.time := rfl
@[simp] theorem put64_host (o v : Nat) : (d.put64 o v).host = d.host := rfl
@[simp] theorem put64_hod (o v : Nat) : (d.put64 o v).hod = d.hod := rfl
@[simp] theorem put64_engSrcs (o v : Nat) : (d.put64 o v).engSrcs = d.engSrcs := rfl
@[simp] theorem put64_heath (o v : Nat) : (d.put64 o v).heath = d.heath := rfl
@[simp] theorem put64_kiln (o v : Nat) : (d.put64 o v).kiln = d.kiln := rfl
@[simp] theorem put64_planner (o v : Nat) : (d.put64 o v).planner = d.planner := rfl
@[simp] theorem put64_servo (o v : Nat) : (d.put64 o v).servo = d.servo := rfl
@[simp] theorem put64_commons (o v : Nat) : (d.put64 o v).commons = d.commons := rfl
@[simp] theorem put64_safety (o v : Nat) : (d.put64 o v).safety = d.safety := rfl
@[simp] theorem put64_field (o v : Nat) : (d.put64 o v).field = d.field := rfl
@[simp] theorem put64_fbs (o v : Nat) : (d.put64 o v).fbs = d.fbs := rfl
@[simp] theorem put64_ret (o v : Nat) : (d.put64 o v).ret = d.ret := rfl
@[simp] theorem put64_fabric (o v : Nat) : (d.put64 o v).fabric = d.fabric := rfl
@[simp] theorem put64_mains (o v : Nat) : (d.put64 o v).mains = d.mains := rfl

@[simp] theorem bump_hold (o : Nat) : (d.bump o).hold = d.hold := rfl
@[simp] theorem bump_latch (o : Nat) : (d.bump o).latch = d.latch := rfl
@[simp] theorem bump_out (o : Nat) : (d.bump o).out = d.out := rfl
@[simp] theorem bump_evReq (o : Nat) : (d.bump o).evReq = d.evReq := rfl
@[simp] theorem bump_freeCtr (o : Nat) : (d.bump o).freeCtr = d.freeCtr := rfl
@[simp] theorem bump_boot (o : Nat) : (d.bump o).boot = d.boot := rfl
@[simp] theorem bump_time (o : Nat) : (d.bump o).time = d.time := rfl
@[simp] theorem bump_host (o : Nat) : (d.bump o).host = d.host := rfl
@[simp] theorem bump_hod (o : Nat) : (d.bump o).hod = d.hod := rfl
@[simp] theorem bump_engSrcs (o : Nat) : (d.bump o).engSrcs = d.engSrcs := rfl
@[simp] theorem bump_heath (o : Nat) : (d.bump o).heath = d.heath := rfl
@[simp] theorem bump_kiln (o : Nat) : (d.bump o).kiln = d.kiln := rfl
@[simp] theorem bump_planner (o : Nat) : (d.bump o).planner = d.planner := rfl
@[simp] theorem bump_servo (o : Nat) : (d.bump o).servo = d.servo := rfl
@[simp] theorem bump_commons (o : Nat) : (d.bump o).commons = d.commons := rfl
@[simp] theorem bump_safety (o : Nat) : (d.bump o).safety = d.safety := rfl
@[simp] theorem bump_field (o : Nat) : (d.bump o).field = d.field := rfl
@[simp] theorem bump_fbs (o : Nat) : (d.bump o).fbs = d.fbs := rfl
@[simp] theorem bump_ret (o : Nat) : (d.bump o).ret = d.ret := rfl
@[simp] theorem bump_fabric (o : Nat) : (d.bump o).fabric = d.fabric := rfl
@[simp] theorem bump_mains (o : Nat) : (d.bump o).mains = d.mains := rfl

@[simp] theorem raise_regs (a b : Nat) : (d.raise a b).regs = d.regs := rfl
@[simp] theorem raise_hold (a b : Nat) : (d.raise a b).hold = d.hold := rfl
@[simp] theorem raise_latch (a b : Nat) : (d.raise a b).latch = d.latch := rfl
@[simp] theorem raise_out (a b : Nat) : (d.raise a b).out = d.out := rfl
@[simp] theorem raise_freeCtr (a b : Nat) : (d.raise a b).freeCtr = d.freeCtr := rfl
@[simp] theorem raise_boot (a b : Nat) : (d.raise a b).boot = d.boot := rfl
@[simp] theorem raise_time (a b : Nat) : (d.raise a b).time = d.time := rfl
@[simp] theorem raise_host (a b : Nat) : (d.raise a b).host = d.host := rfl
@[simp] theorem raise_hod (a b : Nat) : (d.raise a b).hod = d.hod := rfl
@[simp] theorem raise_engSrcs (a b : Nat) : (d.raise a b).engSrcs = d.engSrcs := rfl
@[simp] theorem raise_heath (a b : Nat) : (d.raise a b).heath = d.heath := rfl
@[simp] theorem raise_kiln (a b : Nat) : (d.raise a b).kiln = d.kiln := rfl
@[simp] theorem raise_planner (a b : Nat) : (d.raise a b).planner = d.planner := rfl
@[simp] theorem raise_servo (a b : Nat) : (d.raise a b).servo = d.servo := rfl
@[simp] theorem raise_commons (a b : Nat) : (d.raise a b).commons = d.commons := rfl
@[simp] theorem raise_safety (a b : Nat) : (d.raise a b).safety = d.safety := rfl
@[simp] theorem raise_field (a b : Nat) : (d.raise a b).field = d.field := rfl
@[simp] theorem raise_fbs (a b : Nat) : (d.raise a b).fbs = d.fbs := rfl
@[simp] theorem raise_ret (a b : Nat) : (d.raise a b).ret = d.ret := rfl
@[simp] theorem raise_fabric (a b : Nat) : (d.raise a b).fabric = d.fabric := rfl
@[simp] theorem raise_mains (a b : Nat) : (d.raise a b).mains = d.mains := rfl

@[simp] theorem send_regs (o : Output) : (d.send o).regs = d.regs := rfl
@[simp] theorem send_hold (o : Output) : (d.send o).hold = d.hold := rfl
@[simp] theorem send_latch (o : Output) : (d.send o).latch = d.latch := rfl
@[simp] theorem send_evReq (o : Output) : (d.send o).evReq = d.evReq := rfl
@[simp] theorem send_freeCtr (o : Output) : (d.send o).freeCtr = d.freeCtr := rfl
@[simp] theorem send_boot (o : Output) : (d.send o).boot = d.boot := rfl
@[simp] theorem send_time (o : Output) : (d.send o).time = d.time := rfl
@[simp] theorem send_host (o : Output) : (d.send o).host = d.host := rfl
@[simp] theorem send_hod (o : Output) : (d.send o).hod = d.hod := rfl
@[simp] theorem send_engSrcs (o : Output) : (d.send o).engSrcs = d.engSrcs := rfl
@[simp] theorem send_heath (o : Output) : (d.send o).heath = d.heath := rfl
@[simp] theorem send_kiln (o : Output) : (d.send o).kiln = d.kiln := rfl
@[simp] theorem send_planner (o : Output) : (d.send o).planner = d.planner := rfl
@[simp] theorem send_servo (o : Output) : (d.send o).servo = d.servo := rfl
@[simp] theorem send_commons (o : Output) : (d.send o).commons = d.commons := rfl
@[simp] theorem send_safety (o : Output) : (d.send o).safety = d.safety := rfl
@[simp] theorem send_field (o : Output) : (d.send o).field = d.field := rfl
@[simp] theorem send_fbs (o : Output) : (d.send o).fbs = d.fbs := rfl
@[simp] theorem send_ret (o : Output) : (d.send o).ret = d.ret := rfl
@[simp] theorem send_fabric (o : Output) : (d.send o).fabric = d.fabric := rfl
@[simp] theorem send_mains (o : Output) : (d.send o).mains = d.mains := rfl

@[simp] theorem draw_regs  : (d.draw ).regs = d.regs := rfl
@[simp] theorem draw_hold  : (d.draw ).hold = d.hold := rfl
@[simp] theorem draw_latch  : (d.draw ).latch = d.latch := rfl
@[simp] theorem draw_out  : (d.draw ).out = d.out := rfl
@[simp] theorem draw_evReq  : (d.draw ).evReq = d.evReq := rfl
@[simp] theorem draw_boot  : (d.draw ).boot = d.boot := rfl
@[simp] theorem draw_time  : (d.draw ).time = d.time := rfl
@[simp] theorem draw_host  : (d.draw ).host = d.host := rfl
@[simp] theorem draw_hod  : (d.draw ).hod = d.hod := rfl
@[simp] theorem draw_engSrcs  : (d.draw ).engSrcs = d.engSrcs := rfl
@[simp] theorem draw_heath  : (d.draw ).heath = d.heath := rfl
@[simp] theorem draw_kiln  : (d.draw ).kiln = d.kiln := rfl
@[simp] theorem draw_planner  : (d.draw ).planner = d.planner := rfl
@[simp] theorem draw_servo  : (d.draw ).servo = d.servo := rfl
@[simp] theorem draw_commons  : (d.draw ).commons = d.commons := rfl
@[simp] theorem draw_safety  : (d.draw ).safety = d.safety := rfl
@[simp] theorem draw_field  : (d.draw ).field = d.field := rfl
@[simp] theorem draw_fbs  : (d.draw ).fbs = d.fbs := rfl
@[simp] theorem draw_ret  : (d.draw ).ret = d.ret := rfl
@[simp] theorem draw_fabric  : (d.draw ).fabric = d.fabric := rfl
@[simp] theorem draw_mains  : (d.draw ).mains = d.mains := rfl

@[simp] theorem updCmd_regs (i : Nat) (f : Cmd → Cmd) : (d.updCmd i f).regs = d.regs := rfl
@[simp] theorem updCmd_hold (i : Nat) (f : Cmd → Cmd) : (d.updCmd i f).hold = d.hold := rfl
@[simp] theorem updCmd_latch (i : Nat) (f : Cmd → Cmd) : (d.updCmd i f).latch = d.latch := rfl
@[simp] theorem updCmd_out (i : Nat) (f : Cmd → Cmd) : (d.updCmd i f).out = d.out := rfl
@[simp] theorem updCmd_evReq (i : Nat) (f : Cmd → Cmd) : (d.updCmd i f).evReq = d.evReq := rfl
@[simp] theorem updCmd_freeCtr (i : Nat) (f : Cmd → Cmd) : (d.updCmd i f).freeCtr = d.freeCtr := rfl
@[simp] theorem updCmd_boot (i : Nat) (f : Cmd → Cmd) : (d.updCmd i f).boot = d.boot := rfl
@[simp] theorem updCmd_time (i : Nat) (f : Cmd → Cmd) : (d.updCmd i f).time = d.time := rfl
@[simp] theorem updCmd_hod (i : Nat) (f : Cmd → Cmd) : (d.updCmd i f).hod = d.hod := rfl
@[simp] theorem updCmd_engSrcs (i : Nat) (f : Cmd → Cmd) : (d.updCmd i f).engSrcs = d.engSrcs := rfl
@[simp] theorem updCmd_heath (i : Nat) (f : Cmd → Cmd) : (d.updCmd i f).heath = d.heath := rfl
@[simp] theorem updCmd_kiln (i : Nat) (f : Cmd → Cmd) : (d.updCmd i f).kiln = d.kiln := rfl
@[simp] theorem updCmd_planner (i : Nat) (f : Cmd → Cmd) : (d.updCmd i f).planner = d.planner := rfl
@[simp] theorem updCmd_servo (i : Nat) (f : Cmd → Cmd) : (d.updCmd i f).servo = d.servo := rfl
@[simp] theorem updCmd_commons (i : Nat) (f : Cmd → Cmd) : (d.updCmd i f).commons = d.commons := rfl
@[simp] theorem updCmd_safety (i : Nat) (f : Cmd → Cmd) : (d.updCmd i f).safety = d.safety := rfl
@[simp] theorem updCmd_field (i : Nat) (f : Cmd → Cmd) : (d.updCmd i f).field = d.field := rfl
@[simp] theorem updCmd_fbs (i : Nat) (f : Cmd → Cmd) : (d.updCmd i f).fbs = d.fbs := rfl
@[simp] theorem updCmd_ret (i : Nat) (f : Cmd → Cmd) : (d.updCmd i f).ret = d.ret := rfl
@[simp] theorem updCmd_fabric (i : Nat) (f : Cmd → Cmd) : (d.updCmd i f).fabric = d.fabric := rfl
@[simp] theorem updCmd_mains (i : Nat) (f : Cmd → Cmd) : (d.updCmd i f).mains = d.mains := rfl

@[simp] theorem dropCopy_regs (i : Nat) : (d.dropCopy i).regs = d.regs := rfl
@[simp] theorem dropCopy_hold (i : Nat) : (d.dropCopy i).hold = d.hold := rfl
@[simp] theorem dropCopy_latch (i : Nat) : (d.dropCopy i).latch = d.latch := rfl
@[simp] theorem dropCopy_out (i : Nat) : (d.dropCopy i).out = d.out := rfl
@[simp] theorem dropCopy_evReq (i : Nat) : (d.dropCopy i).evReq = d.evReq := rfl
@[simp] theorem dropCopy_freeCtr (i : Nat) : (d.dropCopy i).freeCtr = d.freeCtr := rfl
@[simp] theorem dropCopy_boot (i : Nat) : (d.dropCopy i).boot = d.boot := rfl
@[simp] theorem dropCopy_time (i : Nat) : (d.dropCopy i).time = d.time := rfl
@[simp] theorem dropCopy_hod (i : Nat) : (d.dropCopy i).hod = d.hod := rfl
@[simp] theorem dropCopy_engSrcs (i : Nat) : (d.dropCopy i).engSrcs = d.engSrcs := rfl
@[simp] theorem dropCopy_heath (i : Nat) : (d.dropCopy i).heath = d.heath := rfl
@[simp] theorem dropCopy_kiln (i : Nat) : (d.dropCopy i).kiln = d.kiln := rfl
@[simp] theorem dropCopy_planner (i : Nat) : (d.dropCopy i).planner = d.planner := rfl
@[simp] theorem dropCopy_servo (i : Nat) : (d.dropCopy i).servo = d.servo := rfl
@[simp] theorem dropCopy_commons (i : Nat) : (d.dropCopy i).commons = d.commons := rfl
@[simp] theorem dropCopy_safety (i : Nat) : (d.dropCopy i).safety = d.safety := rfl
@[simp] theorem dropCopy_field (i : Nat) : (d.dropCopy i).field = d.field := rfl
@[simp] theorem dropCopy_fbs (i : Nat) : (d.dropCopy i).fbs = d.fbs := rfl
@[simp] theorem dropCopy_ret (i : Nat) : (d.dropCopy i).ret = d.ret := rfl
@[simp] theorem dropCopy_fabric (i : Nat) : (d.dropCopy i).fabric = d.fabric := rfl
@[simp] theorem dropCopy_mains (i : Nat) : (d.dropCopy i).mains = d.mains := rfl

@[simp] theorem updCh_regs (h : Bool) (f : Channel → Channel) : (d.updCh h f).regs = d.regs := rfl
@[simp] theorem updCh_hold (h : Bool) (f : Channel → Channel) : (d.updCh h f).hold = d.hold := rfl
@[simp] theorem updCh_latch (h : Bool) (f : Channel → Channel) : (d.updCh h f).latch = d.latch := rfl
@[simp] theorem updCh_out (h : Bool) (f : Channel → Channel) : (d.updCh h f).out = d.out := rfl
@[simp] theorem updCh_evReq (h : Bool) (f : Channel → Channel) : (d.updCh h f).evReq = d.evReq := rfl
@[simp] theorem updCh_freeCtr (h : Bool) (f : Channel → Channel) : (d.updCh h f).freeCtr = d.freeCtr := rfl
@[simp] theorem updCh_boot (h : Bool) (f : Channel → Channel) : (d.updCh h f).boot = d.boot := rfl
@[simp] theorem updCh_time (h : Bool) (f : Channel → Channel) : (d.updCh h f).time = d.time := rfl
@[simp] theorem updCh_host (h : Bool) (f : Channel → Channel) : (d.updCh h f).host = d.host := rfl
@[simp] theorem updCh_hod (h : Bool) (f : Channel → Channel) : (d.updCh h f).hod = d.hod := rfl
@[simp] theorem updCh_engSrcs (h : Bool) (f : Channel → Channel) : (d.updCh h f).engSrcs = d.engSrcs := rfl
@[simp] theorem updCh_heath (h : Bool) (f : Channel → Channel) : (d.updCh h f).heath = d.heath := rfl
@[simp] theorem updCh_kiln (h : Bool) (f : Channel → Channel) : (d.updCh h f).kiln = d.kiln := rfl
@[simp] theorem updCh_planner (h : Bool) (f : Channel → Channel) : (d.updCh h f).planner = d.planner := rfl
@[simp] theorem updCh_servo (h : Bool) (f : Channel → Channel) : (d.updCh h f).servo = d.servo := rfl
@[simp] theorem updCh_commons (h : Bool) (f : Channel → Channel) : (d.updCh h f).commons = d.commons := rfl
@[simp] theorem updCh_field (h : Bool) (f : Channel → Channel) : (d.updCh h f).field = d.field := rfl
@[simp] theorem updCh_fbs (h : Bool) (f : Channel → Channel) : (d.updCh h f).fbs = d.fbs := rfl
@[simp] theorem updCh_ret (h : Bool) (f : Channel → Channel) : (d.updCh h f).ret = d.ret := rfl
@[simp] theorem updCh_fabric (h : Bool) (f : Channel → Channel) : (d.updCh h f).fabric = d.fabric := rfl
@[simp] theorem updCh_mains (h : Bool) (f : Channel → Channel) : (d.updCh h f).mains = d.mains := rfl

@[simp] theorem reg_raise (a b : Nat) (p : Nat) : (d.raise a b).reg p = d.reg p := rfl
@[simp] theorem get_raise (a b : Nat) (g : Fld) : (d.raise a b).get g = d.get g := rfl
@[simp] theorem is_raise (a b : Nat) (g : Fld) : (d.raise a b).is g = d.is g := rfl
@[simp] theorem reg_send (o : Output) (p : Nat) : (d.send o).reg p = d.reg p := rfl
@[simp] theorem get_send (o : Output) (g : Fld) : (d.send o).get g = d.get g := rfl
@[simp] theorem is_send (o : Output) (g : Fld) : (d.send o).is g = d.is g := rfl
@[simp] theorem reg_draw  (p : Nat) : (d.draw ).reg p = d.reg p := rfl
@[simp] theorem get_draw  (g : Fld) : (d.draw ).get g = d.get g := rfl
@[simp] theorem is_draw  (g : Fld) : (d.draw ).is g = d.is g := rfl
@[simp] theorem reg_updCmd (i : Nat) (f : Cmd → Cmd) (p : Nat) : (d.updCmd i f).reg p = d.reg p := rfl
@[simp] theorem get_updCmd (i : Nat) (f : Cmd → Cmd) (g : Fld) : (d.updCmd i f).get g = d.get g := rfl
@[simp] theorem is_updCmd (i : Nat) (f : Cmd → Cmd) (g : Fld) : (d.updCmd i f).is g = d.is g := rfl
@[simp] theorem reg_dropCopy (i : Nat) (p : Nat) : (d.dropCopy i).reg p = d.reg p := rfl
@[simp] theorem get_dropCopy (i : Nat) (g : Fld) : (d.dropCopy i).get g = d.get g := rfl
@[simp] theorem is_dropCopy (i : Nat) (g : Fld) : (d.dropCopy i).is g = d.is g := rfl
@[simp] theorem reg_updCh (h : Bool) (f : Channel → Channel) (p : Nat) : (d.updCh h f).reg p = d.reg p := rfl
@[simp] theorem get_updCh (h : Bool) (f : Channel → Channel) (g : Fld) : (d.updCh h f).get g = d.get g := rfl
@[simp] theorem is_updCh (h : Bool) (f : Channel → Channel) (g : Fld) : (d.updCh h f).is g = d.is g := rfl

@[simp] theorem raise_evReq (a b : Nat) : (d.raise a b).evReq = d.evReq ++ [(a, b)] := rfl
@[simp] theorem send_out (o : Output) : (d.send o).out = d.out ++ [o] := rfl
@[simp] theorem draw_freeCtr : d.draw.freeCtr = d.freeCtr + 1 := rfl
@[simp] theorem reg_withOut (o : List Output) (p : Nat) : Dev.reg { d with out := o } p = d.reg p := rfl
@[simp] theorem get_withOut (o : List Output) (g : Fld) : Dev.get { d with out := o } g = d.get g := rfl
@[simp] theorem is_withOut (o : List Output) (g : Fld) : Dev.is { d with out := o } g = d.is g := rfl

/-- What setting a block's register-error bit does: nothing where it is set, else the bit and the event (R35). -/
theorem regErr_cases (b : Nat) :
    (d.is (GLB_BLKERR b) = true ∧ d.regErr b = d) ∨
    (d.is (GLB_BLKERR b) = false ∧ d.regErr b = (d.putB (GLB_BLKERR b) true).raise (srcNo 1 0) noDetail) := by
  unfold Dev.regErr
  cases h : d.is (GLB_BLKERR b) <;> simp

/-- A command's effect on the device: the next state, with the queue as it was. -/
theorem run_next (s : State) (f : Dev → Dev) : s.run f = .next { s with dev := f { s.dev with out := [] } } := rfl

/-- A step on a waiting command. -/
theorem step_cons (c : Instr) (rest : List Instr) (v : Dev) : step ⟨c :: rest, v⟩ = exec c ⟨rest, v⟩ := rfl

/-- A step with no command waiting. -/
theorem step_nil (v : Dev) : step ⟨[], v⟩ = .next ⟨[], Dev.timeCycle { v with out := [] }⟩ := rfl

end Sys2Proof.Machine
end

