-- ==== Sys2Proof/Laws/Frame.lean ====
section
/-! SUPPORT. How frames are put together: an update that changes nothing but some parts and registers, after another. -/

namespace Sys2Proof.Machine

theorem only_refl (d : Dev) : d.only d [] [] := ⟨fun p _ => by cases p <;> rfl, fun _ _ => rfl⟩

theorem only_mono {d d' : Dev} {ps qs : List Part} {os rs : List Nat} (h : d.only d' ps os) (hp : ps ⊆ qs) (ho : os ⊆ rs) :
    d.only d' qs rs :=
  ⟨fun p n => h.1 p (fun m => n (hp m)), fun o n => h.2 o (fun m => n (ho m))⟩

theorem same_trans {d d' d'' : Dev} {p : Part} (h : p.same d d') (h' : p.same d' d'') : p.same d d'' := by
  cases p <;> exact Eq.trans h' h

theorem only_trans {d d' d'' : Dev} {ps qs : List Part} {os rs : List Nat} (h : d.only d' ps os) (h' : d'.only d'' qs rs) :
    d.only d'' (ps ++ qs) (os ++ rs) :=
  ⟨fun p n => same_trans (h.1 p (fun m => n (List.mem_append_left _ m))) (h'.1 p (fun m => n (List.mem_append_right _ m))),
   fun o n => (h'.2 o (fun m => n (List.mem_append_right _ m))).trans (h.2 o (fun m => n (List.mem_append_left _ m)))⟩

theorem only_setReg (d : Dev) (o : Nat) (w : Word) : d.only (d.setReg o w) [] [o] :=
  ⟨fun p _ => by cases p <;> rfl, fun p n => reg_setReg_ne d o p w (fun e => n (e ▸ List.mem_singleton_self _))⟩

theorem only_put (d : Dev) (f : Fld) (v : Nat) : d.only (d.put f v) [] [f.off] := only_setReg d f.off _
theorem only_putB (d : Dev) (f : Fld) (b : Bool) : d.only (d.putB f b) [] [f.off] := only_setReg d f.off _
theorem only_bump (d : Dev) (o : Nat) : d.only (d.bump o) [] [o] := only_setReg d o _

theorem only_raise (d : Dev) (a b : Nat) : d.only (d.raise a b) [.evReq] [] :=
  ⟨fun p n => by cases p <;> first | rfl | exact absurd (List.mem_singleton_self _) n, fun _ _ => rfl⟩

theorem only_send (d : Dev) (o : Output) : d.only (d.send o) [] [] := ⟨fun p _ => by cases p <;> rfl, fun _ _ => rfl⟩

/-- Updates one after another over a list. -/
theorem only_foldl {α : Type} (f : Dev → α → Dev) (ps : List Part) (os : List Nat)
    (hf : ∀ (d : Dev) a, d.only (f d a) ps os) (l : List α) (d : Dev) : d.only (l.foldl f d) ps os := by
  induction l generalizing d with
  | nil => exact only_mono (only_refl d) (List.nil_subset _) (List.nil_subset _)
  | cons a l ih =>
    exact only_mono (only_trans (hf d a) (ih (f d a))) (List.append_subset.2 ⟨fun _ h => h, fun _ h => h⟩)
      (List.append_subset.2 ⟨fun _ h => h, fun _ h => h⟩)

/-- Updates one after another over a list, for the parts alone. -/
theorem onlyParts_foldl {α : Type} (f : Dev → α → Dev) (ps : List Part) (hf : ∀ (d : Dev) a, d.onlyParts (f d a) ps) (l : List α)
    (d : Dev) : d.onlyParts (l.foldl f d) ps := by
  induction l generalizing d with
  | nil => intro p _; cases p <;> rfl
  | cons a l ih => exact fun p n => same_trans (hf d a p n) (ih (f d a) p n)

end Sys2Proof.Machine
end

