-- ==== Sys2Proof/Laws/Keeps.lean ====
section
/-! SUPPORT. Frames by predicates: a device that has kept all parts but some and all registers but some, one update at a time. -/

namespace Sys2Proof.Machine

/-- From `d` to `d'` only parts in `P` and registers in `R` may have changed. -/
def Dev.keeps (d d' : Dev) (P : Part → Prop) (R : Nat → Prop) : Prop :=
  (∀ p, ¬ P p → p.same d d') ∧ (∀ o, ¬ R o → d'.reg o = d.reg o)

variable {d d' : Dev} {P : Part → Prop} {R : Nat → Prop}

theorem keeps_refl (d : Dev) (P : Part → Prop) (R : Nat → Prop) : d.keeps d P R :=
  ⟨fun p _ => by cases p <;> rfl, fun _ _ => rfl⟩

theorem keeps_only {ps : List Part} {os : List Nat} (h : d.keeps d' (· ∈ ps) (· ∈ os)) : d.only d' ps os := h

theorem keeps_parts {ps : List Part} (h : d.keeps d' (· ∈ ps) R) : d.onlyParts d' ps := h.1

theorem keeps_setReg {o : Nat} {w : Word} (hr : R o) (h : d.keeps d' P R) : d.keeps (d'.setReg o w) P R :=
  ⟨fun p n => by have := h.1 p n; cases p <;> exact this,
   fun o' n => (reg_setReg_ne d' o o' w (fun e => n (e ▸ hr))).trans (h.2 o' n)⟩

theorem keeps_put {f : Fld} {v : Nat} (hr : R f.off) (h : d.keeps d' P R) : d.keeps (d'.put f v) P R := keeps_setReg hr h
theorem keeps_putB {f : Fld} {b : Bool} (hr : R f.off) (h : d.keeps d' P R) : d.keeps (d'.putB f b) P R := keeps_setReg hr h
theorem keeps_bump {o : Nat} (hr : R o) (h : d.keeps d' P R) : d.keeps (d'.bump o) P R := keeps_setReg hr h

theorem keeps_put64 {o v : Nat} (hr : R o) (hr' : R (o + 4)) (h : d.keeps d' P R) : d.keeps (d'.put64 o v) P R :=
  keeps_setReg hr' (keeps_setReg hr h)

theorem keeps_raise {a b : Nat} (hp : P .evReq) (h : d.keeps d' P R) : d.keeps (d'.raise a b) P R :=
  ⟨fun p n => by have := h.1 p n; cases p <;> first | exact this | exact absurd hp n, h.2⟩

theorem keeps_send {o : Output} (h : d.keeps d' P R) : d.keeps (d'.send o) P R :=
  ⟨fun p n => by have := h.1 p n; cases p <;> exact this, h.2⟩

theorem keeps_out {o : List Output} (h : d.keeps d' P R) : d.keeps { d' with out := o } P R :=
  ⟨fun p n => by have := h.1 p n; cases p <;> exact this, h.2⟩

theorem keeps_from_out {o : List Output} (h : Dev.keeps { d with out := o } d' P R) : d.keeps d' P R :=
  ⟨fun p n => by have := h.1 p n; cases p <;> exact this, h.2⟩

theorem keeps_draw (hp : P .freeCtr) (h : d.keeps d' P R) : d.keeps d'.draw P R :=
  ⟨fun p n => by have := h.1 p n; cases p <;> first | exact this | exact absurd hp n, h.2⟩

theorem keeps_regErr {b : Nat} (hr : R 0x10) (hp : P .evReq) (h : d.keeps d' P R) : d.keeps (d'.regErr b) P R := by
  rcases regErr_cases d' b with ⟨_, e⟩ | ⟨_, e⟩
  · rw [e]; exact h
  · rw [e]; exact keeps_raise hp (keeps_putB hr h)

theorem keeps_field {x : FieldSt} (hp : P .field) (h : d.keeps d' P R) : d.keeps { d' with field := x } P R :=
  ⟨fun p n => by have := h.1 p n; cases p <;> first | exact this | exact absurd hp n, h.2⟩
theorem keeps_boot {x : BootSt} (hp : P .boot) (h : d.keeps d' P R) : d.keeps { d' with boot := x } P R :=
  ⟨fun p n => by have := h.1 p n; cases p <;> first | exact this | exact absurd hp n, h.2⟩
theorem keeps_time {x : TimeSt} (hp : P .time) (h : d.keeps d' P R) : d.keeps { d' with time := x } P R :=
  ⟨fun p n => by have := h.1 p n; cases p <;> first | exact this | exact absurd hp n, h.2⟩
theorem keeps_host {x : HostSt} (hp : P .host) (h : d.keeps d' P R) : d.keeps { d' with host := x } P R :=
  ⟨fun p n => by have := h.1 p n; cases p <;> first | exact this | exact absurd hp n, h.2⟩
theorem keeps_hod {x : HodSt} (hp : P .hod) (h : d.keeps d' P R) : d.keeps { d' with hod := x } P R :=
  ⟨fun p n => by have := h.1 p n; cases p <;> first | exact this | exact absurd hp n, h.2⟩
theorem keeps_heath {x : HeathSt} (hp : P .heath) (h : d.keeps d' P R) : d.keeps { d' with heath := x } P R :=
  ⟨fun p n => by have := h.1 p n; cases p <;> first | exact this | exact absurd hp n, h.2⟩
theorem keeps_kiln {x : KilnSt} (hp : P .kiln) (h : d.keeps d' P R) : d.keeps { d' with kiln := x } P R :=
  ⟨fun p n => by have := h.1 p n; cases p <;> first | exact this | exact absurd hp n, h.2⟩
theorem keeps_planner {x : PlannerSt} (hp : P .planner) (h : d.keeps d' P R) : d.keeps { d' with planner := x } P R :=
  ⟨fun p n => by have := h.1 p n; cases p <;> first | exact this | exact absurd hp n, h.2⟩
theorem keeps_servo {x : ServoSt} (hp : P .servo) (h : d.keeps d' P R) : d.keeps { d' with servo := x } P R :=
  ⟨fun p n => by have := h.1 p n; cases p <;> first | exact this | exact absurd hp n, h.2⟩
theorem keeps_commons {x : CommonsSt} (hp : P .commons) (h : d.keeps d' P R) : d.keeps { d' with commons := x } P R :=
  ⟨fun p n => by have := h.1 p n; cases p <;> first | exact this | exact absurd hp n, h.2⟩
theorem keeps_safety {x : SafetySt} (hp : P .safety) (h : d.keeps d' P R) : d.keeps { d' with safety := x } P R :=
  ⟨fun p n => by have := h.1 p n; cases p <;> first | exact this | exact absurd hp n, h.2⟩
theorem keeps_ret {x : RetSt} (hp : P .ret) (h : d.keeps d' P R) : d.keeps { d' with ret := x } P R :=
  ⟨fun p n => by have := h.1 p n; cases p <;> first | exact this | exact absurd hp n, h.2⟩
theorem keeps_fabric {x : FabricSt} (hp : P .fabric) (h : d.keeps d' P R) : d.keeps { d' with fabric := x } P R :=
  ⟨fun p n => by have := h.1 p n; cases p <;> first | exact this | exact absurd hp n, h.2⟩
theorem keeps_mains {x : MainsSt} (hp : P .mains) (h : d.keeps d' P R) : d.keeps { d' with mains := x } P R :=
  ⟨fun p n => by have := h.1 p n; cases p <;> first | exact this | exact absurd hp n, h.2⟩

/-- Updates one after another over a list whose members meet a condition. -/
theorem keeps_foldl {α : Type} (f : Dev → α → Dev) (Q : α → Prop)
    (hf : ∀ (x : Dev) (a : α), Q a → d.keeps x P R → d.keeps (f x a) P R) (l : List α) (hl : ∀ a ∈ l, Q a)
    (h : d.keeps d' P R) : d.keeps (l.foldl f d') P R := by
  induction l generalizing d' with
  | nil => exact h
  | cons a l ih => exact ih (fun b m => hl b (List.mem_cons_of_mem _ m)) (hf d' a (hl a List.mem_cons_self) h)

/-- A field of a register that is kept reads as before. -/
theorem keeps_get {f : Fld} (h : d.keeps d' P R) (hr : ¬ R f.off) : d'.get f = d.get f := by
  rw [get_eq, get_eq, h.2 _ hr]

theorem keeps_is {f : Fld} (h : d.keeps d' P R) (hr : ¬ R f.off) : d'.is f = d.is f := by
  simp only [Dev.is, keeps_get h hr]

end Sys2Proof.Machine
end

