-- ==== Sys2Proof/Laws/Boot.lean ====
section
/-! SUPPORT. What a reset of the main die leaves, and what leaving reset changes (R440, R443). -/

namespace Sys2Proof.Machine

theorem bitOf_zero (n : Nat) : bitOf 0 n = false := by simp [bitOf]

theorem unionMask_zero : unionMask 0 0 = 0 := by decide
theorem minusMask_zero (n : Nat) : minusMask 0 n = 0 := by
  have h : (List.range 16).filter (fun i => bitOf 0 i && !bitOf n i) = [] := by simp [bitOf_zero]
  simp only [minusMask, h]; rfl

/-- With no set in force a channel's sides are low (R254). -/
theorem drive_noSet (d : Dev) (h : Bool) (n : d.safety.inForce = false) : ((d.drive h).ch h).cmd = 0 := by
  cases h <;>
  · simp only [Dev.drive, Dev.wantSides, Dev.sidesFree, Dev.updCh, Dev.ch, Dev.setOf, n, Bool.false_eq_true, if_false, if_true,
      Bool.and_false, Bool.false_and, minusMask_zero, unionMask_zero]

theorem drive_regs (d : Dev) (h : Bool) : (d.drive h).regs = d.regs := by
  cases h <;> simp only [Dev.drive] <;> split <;> rfl

theorem drive_reg (d : Dev) (h : Bool) (o : Nat) : (d.drive h).reg o = d.reg o := by
  simp only [Dev.reg, drive_regs]

theorem drive_keeps {d0 d : Dev} {P : Part → Prop} {R : Nat → Prop} (h : Bool) (hp : P .safety) (k : d0.keeps d P R) :
    d0.keeps (d.drive h) P R := by
  refine ⟨fun p n => ?_, fun o n => by rw [drive_reg]; exact k.2 o n⟩
  have := k.1 p n
  have e : ∀ q, q ≠ Part.safety → q.same d (d.drive h) := by
    intro q hq
    cases h <;> simp only [Dev.drive] <;> split <;> cases q <;> first | rfl | exact absurd rfl hq
  exact same_trans this (e p (fun c => n (c ▸ hp)))

theorem drive_inForce (d : Dev) (h : Bool) : (d.drive h).safety.inForce = d.safety.inForce := by
  cases h <;> simp only [Dev.drive] <;> split <;> rfl

theorem drive_set (d : Dev) (h g : Bool) : ((d.drive h).ch g).set = (d.ch g).set := by
  cases h <;> cases g <;> simp only [Dev.drive] <;> split <;> rfl

theorem drive_other (d : Dev) (h : Bool) : (d.drive h).ch (!h) = d.ch (!h) := by
  cases h <;> simp only [Dev.drive] <;> split <;> rfl

/-- Reading a file from which some addresses are left out. -/
theorem fileGet_filter (g : Nat → Word) (f : List (Nat × Word)) (p : Nat → Bool) (a : Nat) (h : p a = true) :
    fileGet g (f.filter (fun (r : Nat × Word) => p r.1)) a = fileGet g f a := by
  induction f with
  | nil => rfl
  | cons x r ih =>
    obtain ⟨k, v⟩ := x
    by_cases hk : k = a
    · subst hk; simp [List.filter, h, fileGet]
    · cases hp : p k <;> simp [List.filter, hp, fileGet, hk, ih]

theorem fileGet_filter_out (g : Nat → Word) (f : List (Nat × Word)) (p : Nat → Bool) (a : Nat) (h : p a = false) :
    fileGet g (f.filter (fun (r : Nat × Word) => p r.1)) a = g a := by
  induction f with
  | nil => rfl
  | cons x r ih =>
    obtain ⟨k, v⟩ := x
    cases hp : p k
    · simp [List.filter, hp, ih]
    · have hk : ¬ k = a := fun e => by rw [e, h] at hp; cases hp
      simp [List.filter, hp, fileGet, hk, ih]

/-- The retained registers after a reset of the main die (R440). -/
theorem mainReset_kept (d : Dev) (c o : Nat) (h : keptReg o = true) (h1 : o ≠ 8) (h2 : o ≠ 0xB8E0) :
    (d.mainReset c).reg o = d.reg o := by
  have h0 : ¬ (0 = o) := by intro e; subst e; simp [keptReg] at h
  simp only [Dev.mainReset, drive_reg]
  rw [Dev.putB, reg_put_ne _ _ _ _ (by simpa [MNS_HIBWOKE] using h2), Dev.putB, reg_put_ne _ _ _ _ (by simpa [MNS_SEQERR] using h2),
    reg_put_ne _ _ _ _ (by simpa [GLB_RSTCAUSE] using h1)]
  simp only [Dev.reg, fileGet, h0, if_false]
  exact fileGet_filter resetOf d.regs keptReg o h

/-- Every register that is not kept has its reset value after a reset of the main die. -/
theorem mainReset_reg (d : Dev) (c o : Nat) (h : keptReg o = false) (h0 : o ≠ 0) : (d.mainReset c).reg o = resetOf o := by
  have h1 : o ≠ 8 := by intro e; subst e; simp [keptReg] at h
  have h2 : o ≠ 0xB8E0 := by intro e; subst e; simp [keptReg] at h
  simp only [Dev.mainReset, drive_reg]
  rw [Dev.putB, reg_put_ne _ _ _ _ (by simpa [MNS_HIBWOKE] using h2), Dev.putB, reg_put_ne _ _ _ _ (by simpa [MNS_SEQERR] using h2),
    reg_put_ne _ _ _ _ (by simpa [GLB_RSTCAUSE] using h1)]
  simp only [Dev.reg, fileGet]
  rw [if_neg (fun e => h0 (Eq.symm e))]
  exact fileGet_filter_out resetOf d.regs keptReg o h

theorem mainReset_cause (d : Dev) (c : Nat) : (d.mainReset c).get GLB_RSTCAUSE = c % 8 := by
  have e : ∀ d : Dev, (d.drive true).get GLB_RSTCAUSE = d.get GLB_RSTCAUSE := fun d => by simp only [get_eq, drive_reg]
  simp only [Dev.mainReset, e]
  rw [Dev.putB, get_put_off _ _ _ _ (by decide), Dev.putB, get_put_off _ _ _ _ (by decide), get_put_same _ _ _ (by decide)]
  rfl

/-- Registers that leaving reset may change: the axes' blocks and counters, MNS_RAIL and TST_BOOTST. -/
def leaveRegs (o : Nat) : Prop := (0xA800 ≤ o ∧ o ≤ 0xAC0C) ∨ o = 0xB8E0 ∨ o = 0xF800

theorem axPublish_keeps {d0 d : Dev} {P : Part → Prop} {R : Nat → Prop} (a : Nat) (ha : a < 16)
    (hr : ∀ o, 0xA800 ≤ o → o ≤ 0xAC0C → R o) (k : d0.keeps d P R) : d0.keeps (d.axPublish a) P R := by
  have r : ∀ n, n ≤ 0x20 → R (auxReg a n) := fun n hn => hr _ (by simp only [auxReg]; omega) (by simp only [auxReg]; omega)
  unfold Dev.axPublish
  split
  · exact k
  · exact keeps_put (r 0xC (by omega)) (keeps_putB (r 0xC (by omega)) (keeps_put64 (r 0x1C (by omega)) (by simpa [auxReg] using r 0x20 (by omega))
      (keeps_setReg (r 0x18 (by omega)) (keeps_put64 (r 0x10 (by omega)) (by simpa [auxReg] using r 0x14 (by omega)) k))))

theorem leaveReset_keeps {d0 d : Dev} (k : d0.keeps d (fun p => p ∈ [Part.boot, .evReq, .field]) leaveRegs) :
    d0.keeps d.leaveReset (fun p => p ∈ [Part.boot, .evReq, .field]) leaveRegs := by
  unfold Dev.leaveReset
  split
  · exact k
  · refine keeps_foldl _ (· < 16) ?_ _ (fun a h => List.mem_range.1 h) ?_
    · intro x a ha hx
      unfold Dev.restoreAxis
      have r : ∀ n, n ≤ 0x20 → leaveRegs (auxReg a n) := fun n hn => Or.inl ⟨by simp only [auxReg]; omega, by simp only [auxReg]; omega⟩
      split
      · exact axPublish_keeps a ha (fun o h1 h2 => Or.inl ⟨h1, h2⟩) (keeps_putB (r 8 (by omega)) (keeps_putB (r 0xC (by omega))
          (keeps_put (r 0xC (by omega)) (keeps_field (by simp) hx))))
      · exact keeps_raise (by simp) (keeps_bump (Or.inl ⟨by decide, by decide⟩) hx)
    · have base : d0.keeps (((d.put TST_STAGE 1).putB MNS_SEQERR (d.put TST_STAGE 1).boot.seqErr).putB MNS_HIBWOKE
          ((d.put TST_STAGE 1).putB MNS_SEQERR (d.put TST_STAGE 1).boot.seqErr).boot.woke) (fun p => p ∈ [Part.boot, .evReq, .field]) leaveRegs :=
        keeps_putB (Or.inr (Or.inl rfl)) (keeps_putB (Or.inr (Or.inl rfl)) (keeps_put (Or.inr (Or.inr rfl)) k))
      refine keeps_boot (by simp) ?_
      split <;> split <;> first
        | exact base
        | exact keeps_raise (by simp) base
        | exact keeps_raise (by simp) (keeps_raise (by simp) base)

/-- What a reset of the main die leaves (Table — Reset matrix). -/
theorem mainReset_state (d : Dev) (c : Nat) : let m := d.mainReset c
   m.get GLB_RSTCAUSE = c % 8 ∧ m.now = 0 ∧ m.host = HostSt.zero ∧ m.session = 0 ∧ m.planner = PlannerSt.zero ∧
      m.plState = 0 ∧ m.kiln = KilnSt.zero ∧ m.commons = CommonsSt.zero ∧ m.safety.a = Channel.zero ∧ m.safety.inForce = false ∧
      (m.ch true).set = (d.ch true).set ∧ (m.ch true).cmd = 0 ∧ (∀ o, 0xBA00 ≤ o → o < 0xBBE0 → m.reg o = d.reg o) := by
  refine ⟨mainReset_cause d c, rfl, rfl, ?_, rfl, ?_, rfl, rfl, rfl, ?_, ?_, ?_, ?_⟩
  · simp only [Dev.session, get_eq, mainReset_reg d c HQE_STATE.off (by decide) (by decide)]; decide
  · simp only [Dev.plState, get_eq, mainReset_reg d c SLV_PLSTATE.off (by decide) (by decide)]; decide
  · simp only [Dev.mainReset, drive_inForce]; rfl
  · simp only [Dev.mainReset, drive_set]; rfl
  · simp only [Dev.mainReset]; exact drive_noSet _ true rfl
  · intro o h1 h2; exact mainReset_kept d c o (by simp [keptReg]; omega) (by omega) (by omega)

/-- What leaving reset keeps. -/
theorem leaveReset_state (d : Dev) : let m := d.leaveReset
   m.get GLB_RSTCAUSE = d.get GLB_RSTCAUSE ∧ m.time = d.time ∧ m.host = d.host ∧ m.session = d.session ∧ m.planner = d.planner ∧
   m.plState = d.plState ∧ m.kiln = d.kiln ∧ m.commons = d.commons ∧ m.safety = d.safety ∧ (∀ o, 0xBA00 ≤ o → o < 0xBBE0 → m.reg o = d.reg o) := by
  have k := leaveReset_keeps (keeps_refl d _ _)
  refine ⟨keeps_get k (by simp [leaveRegs, GLB_RSTCAUSE]), k.1 .time (by simp), k.1 .host (by simp), keeps_get k ?_, k.1 .planner (by simp), keeps_get k ?_, k.1 .kiln (by simp), k.1 .commons (by simp), k.1 .safety (by simp), ?_⟩
  · simp [leaveRegs, HQE_STATE]
  · simp [leaveRegs, SLV_PLSTATE]
  · intro o h1 h2; apply k.2; simp [leaveRegs]; omega

/-- The stage after leaving reset. -/
theorem leaveReset_stage (d : Dev) (h : d.get TST_STAGE = 0) :
    d.leaveReset.get TST_STAGE = if d.resetHeld then 0 else 1 := by
  unfold Dev.leaveReset
  cases hh : d.resetHeld
  · rw [if_neg (by simp [h])]
    simp only [Bool.false_eq_true, if_false]
    have e : ∀ x y : Dev, x.keeps y (fun _ => True) (fun o => o ≠ 0xF800) → y.get TST_STAGE = x.get TST_STAGE :=
      fun x y k => keeps_get k (by simp [TST_STAGE])
    have e0 : (d.put TST_STAGE 1).get TST_STAGE = 1 := by rw [get_put_same _ _ _ (by decide)]; rfl
    refine (e _ _ (keeps_foldl _ (· < 16) ?_ _ (fun a h => List.mem_range.1 h) ?_)).trans e0
    · intro x a ha hx
      unfold Dev.restoreAxis
      have r : ∀ n, n ≤ 0x20 → auxReg a n ≠ 0xF800 := fun n hn => by simp only [auxReg]; omega
      split
      · exact axPublish_keeps a ha (fun o h1 h2 => by omega) (keeps_putB (r 8 (by omega)) (keeps_putB (r 0xC (by omega))
          (keeps_put (r 0xC (by omega)) (keeps_field trivial hx))))
      · exact keeps_raise trivial (keeps_bump (by decide) hx)
    · have base : (d.put TST_STAGE 1).keeps (((d.put TST_STAGE 1).putB MNS_SEQERR (d.put TST_STAGE 1).boot.seqErr).putB MNS_HIBWOKE
          ((d.put TST_STAGE 1).putB MNS_SEQERR (d.put TST_STAGE 1).boot.seqErr).boot.woke) (fun _ => True) (fun o => o ≠ 0xF800) :=
        keeps_putB (by decide) (keeps_putB (by decide) (keeps_refl _ _ _))
      refine keeps_boot trivial ?_
      split <;> split <;> first
        | exact base
        | exact keeps_raise trivial base
        | exact keeps_raise trivial (keeps_raise trivial base)
  · simp [h]

end Sys2Proof.Machine
end

