-- ==== Sys2Proof/Laws/Commands.lean ====
section
/-! SUPPORT. What the start and the completion of a host command do, said once (R356, R357, R361, R363): statements about a
command's row cite these laws and go on from the state in which the command has started. -/

namespace Sys2Proof.Machine

/-! The journal. -/

theorem find_unique {α : Type} (key : α → Nat) (l : List α) (c : α) (hc : c ∈ l) (hn : (l.map key).Nodup) :
    l.find? (fun x => key x == key c) = some c := by
  induction l with
  | nil => cases hc
  | cons x xs ih =>
    rw [List.map_cons, List.nodup_cons] at hn
    by_cases h : key x = key c
    · rcases List.mem_cons.mp hc with rfl | hm
      · simp
      · exact absurd (h ▸ List.mem_map_of_mem hm) hn.1
    · rcases List.mem_cons.mp hc with rfl | hm
      · exact absurd rfl h
      · rw [List.find?_cons_of_neg (by simpa using h)]; exact ih hm hn.2

/-- A command in a journal that numbers its commands is the one found under its number. -/
theorem cmd_of_mem {d : Dev} {c : Cmd} (h : d.journalOk) (hc : c ∈ d.host.cmds) : d.cmd? c.id = some c :=
  find_unique Cmd.id d.host.cmds c hc h.1

theorem startable_mem {l : List Cmd} {op : Nat} {c : Cmd} (h : startable l op = some c) : c ∈ l := List.mem_of_find?_eq_some h

/-- What is startable has the opcode, has not started and is not complete (R356). -/
theorem startable_is {l : List Cmd} {op : Nat} {c : Cmd} (h : startable l op = some c) :
    c.opcode = op ∧ c.started = false ∧ c.done = none := by
  have := List.find?_some h
  simp only [Bool.and_eq_true, beq_iff_eq, Bool.not_eq_true', Option.isNone_iff_eq_none] at this
  exact ⟨this.1.1.1.1, this.1.1.1.2, this.1.1.2⟩

theorem find_map_same (l : List Cmd) (id : Nat) (f : Cmd → Cmd) (hf : ∀ x, (f x).id = x.id) :
    (l.map (fun c => if c.id = id then f c else c)).find? (fun c => c.id == id) = (l.find? (fun c => c.id == id)).map f := by
  induction l with
  | nil => rfl
  | cons x xs ih =>
    rw [List.map_cons]
    by_cases h : x.id = id
    · rw [List.find?_cons_of_pos (by simp [h, hf]), List.find?_cons_of_pos (by simp [h])]; simp [h]
    · rw [List.find?_cons_of_neg (by simp [h]), List.find?_cons_of_neg (by simp [h])]; exact ih

theorem find_map_ne (l : List Cmd) (id k : Nat) (f : Cmd → Cmd) (hf : ∀ x, (f x).id = x.id) (hk : k ≠ id) :
    (l.map (fun c => if c.id = id then f c else c)).find? (fun c => c.id == k) = l.find? (fun c => c.id == k) := by
  induction l with
  | nil => rfl
  | cons x xs ih =>
    rw [List.map_cons]
    by_cases h : x.id = k
    · have hx : ¬ x.id = id := fun h' => hk (h ▸ h')
      rw [if_neg hx, List.find?_cons_of_pos (by simp [h]), List.find?_cons_of_pos (by simp [h])]
    · have e : (if x.id = id then f x else x).id = x.id := by split <;> simp [hf]
      rw [List.find?_cons_of_neg (p := fun c : Cmd => c.id == k) (by rw [e]; simp [h]), List.find?_cons_of_neg (by simp [h])]
      exact ih

theorem cmd_updCmd_same (d : Dev) (id : Nat) (f : Cmd → Cmd) (hf : ∀ x, (f x).id = x.id) :
    (d.updCmd id f).cmd? id = (d.cmd? id).map f := find_map_same d.host.cmds id f hf

theorem cmd_updCmd_ne (d : Dev) (id k : Nat) (f : Cmd → Cmd) (hf : ∀ x, (f x).id = x.id) (hk : k ≠ id) :
    (d.updCmd id f).cmd? k = d.cmd? k := find_map_ne d.host.cmds id k f hf hk

/-! Frames of the operations on the journal: they touch the host interface alone. -/

variable {d d' : Dev} {P : Part → Prop} {R : Nat → Prop}

theorem keeps_updCmd {id : Nat} {f : Cmd → Cmd} (hp : P .host) (h : d.keeps d' P R) : d.keeps (d'.updCmd id f) P R := keeps_host hp h

theorem keeps_dropCopy {id : Nat} (hp : P .host) (h : d.keeps d' P R) : d.keeps (d'.dropCopy id) P R := keeps_host hp h

theorem keeps_complete {id : Nat} {st : Status} {p q r0 r1 : Nat} (hp : P .host) (h : d.keeps d' P R) :
    d.keeps (d'.complete id st p q r0 r1) P R := by
  unfold Dev.complete
  split
  · exact h
  · split
    · exact h
    · dsimp only
      split <;> split <;> first
        | exact keeps_updCmd hp h
        | exact keeps_dropCopy hp (keeps_updCmd hp h)
        | exact keeps_host hp (keeps_updCmd hp h)
        | exact keeps_dropCopy hp (keeps_host hp (keeps_updCmd hp h))

/-! Start and completion. -/

/-- The device in which a command has just started. -/
def State.started (s : State) (c : Cmd) : Dev := Dev.updCmd { s.dev with out := [] } c.id (fun c => { c with started := true })

/-- A command that may start runs its meaning, from the state in which it has started. -/
theorem start_run {s : State} {op : Nat} {c : Cmd} (h : s.starts op c) (f : Dev → Cmd → Dev) :
    Dev.start { s.dev with out := [] } op f = f (s.started c) c := by
  obtain ⟨hu, -, hs⟩ := h
  have hu' : Dev.up { s.dev with out := [] } = true := hu
  have hs' : startable (Dev.host { s.dev with out := [] }).cmds op = some c := hs
  unfold Dev.start
  rw [if_pos hu', hs']
  rfl

/-- The command that has started is in the journal, with nothing else of it changed. -/
theorem started_cmd {s : State} {op : Nat} {c : Cmd} (h : s.starts op c) :
    (s.started c).cmd? c.id = some { c with started := true } := by
  have hc : Dev.cmd? { s.dev with out := [] } c.id = some c := cmd_of_mem (d := s.dev) h.2.1 (startable_mem h.2.2)
  unfold State.started
  refine (cmd_updCmd_same _ _ _ ?_).trans ?_
  · intro x; rfl
  · rw [hc]; rfl

theorem started_session (s : State) (c : Cmd) : (s.started c).session = s.dev.session := rfl

theorem started_keeps {s : State} {c : Cmd} (hp : P .host) : s.dev.keeps (s.started c) P R :=
  keeps_updCmd hp (keeps_out (keeps_refl s.dev P R))

/-- A command under way ends with what is given, in a device whose session is that of the state before. -/
theorem complete_ends {d : Dev} {c x : Cmd} {st : Status} {p q r0 r1 : Nat} (h : d.cmd? c.id = some x)
    (hx : x = { c with started := x.started, progress := x.progress }) (hd : c.done = none) :
    (d.complete c.id st p q r0 r1).endedAs c st p q r0 r1 := by
  have hxd : x.done = none := by rw [hx]; exact hd
  have hxo : x.opcode = c.opcode := by rw [hx]
  have hxj : x.journalOnly = c.journalOnly := by rw [hx]
  have key : ∀ d2 : Dev, d2.host.cmds = (d.updCmd c.id (fun c => { c with
      started := true, progress := p, done := some ⟨st, p, q, r0, r1⟩ })).host.cmds →
      d2.cmd? c.id = some { c with started := true, progress := p, done := some ⟨st, p, q, r0, r1⟩ } := by
    intro d2 e
    have : d2.cmd? c.id = (d.updCmd c.id (fun c => { c with
      started := true, progress := p, done := some ⟨st, p, q, r0, r1⟩ })).cmd? c.id := by unfold Dev.cmd?; rw [e]
    rw [this]
    refine (cmd_updCmd_same _ _ _ ?_).trans ?_
    · intro x; rfl
    · rw [h, hx]; rfl
  unfold Dev.complete
  rw [h]
  simp only [hxd, Option.isSome_none, Bool.false_eq_true, if_false, hxo, hxj]
  refine ⟨?_, ?_⟩
  · split <;> split <;> exact key _ rfl
  · intro hj hs
    have hs' : d.session ≠ 4 := by
      intro h4; apply hs
      split <;> split <;> exact h4
    have hn : ¬ (c.opcode ≠ 1 ∧ (c.journalOnly = true ∨ (d.updCmd c.id (fun c => { c with
        started := true, progress := p, done := some ⟨st, p, q, r0, r1⟩ })).session = 4)) := by
      rintro ⟨-, h1 | h1⟩
      · rw [hj] at h1; cases h1
      · exact hs' h1
    rw [if_neg hn]
    split
    · exact List.mem_append_right _ (List.mem_singleton.mpr rfl)
    · exact List.mem_append_right _ (List.mem_singleton.mpr rfl)

/-- A row that, started, ends its command with a bare status and does nothing else. -/
theorem endsOnly_of {i : Instr} {s : State} {op : Nat} {c : Cmd} {st : Status} {f : Dev → Cmd → Dev} (h : s.starts op c)
    (hi : exec i s = s.run (fun d => d.start op f)) (hf : f (s.started c) c = (s.started c).finish c.id st) :
    EndsOnly i s c st := by
  refine ⟨_, hi, rfl, ?_⟩
  show (Dev.start { s.dev with out := [] } op f).endedAs c st 0 0 0 0 ∧ s.dev.only (Dev.start { s.dev with out := [] } op f) [.host] []
  rw [start_run h, hf]
  refine ⟨complete_ends (started_cmd h) rfl (startable_is h.2.2).2.2, ?_⟩
  exact keeps_only (keeps_complete (List.mem_singleton.mpr rfl) (started_keeps (List.mem_singleton.mpr rfl)))

/-- A row that, started, ends its command with what is given and does nothing else. -/
theorem ends_of {i : Instr} {s : State} {op : Nat} {c : Cmd} {st : Status} {p q r0 r1 : Nat} {f : Dev → Cmd → Dev} (h : s.starts op c)
    (hi : exec i s = s.run (fun d => d.start op f)) (hf : f (s.started c) c = (s.started c).complete c.id st p q r0 r1) :
    Completes i s (fun d => d.endedAs c st p q r0 r1 ∧ s.dev.only d [.host] []) := by
  refine ⟨_, hi, rfl, ?_⟩
  show (Dev.start { s.dev with out := [] } op f).endedAs c st p q r0 r1 ∧ s.dev.only (Dev.start { s.dev with out := [] } op f) [.host] []
  rw [start_run h, hf]
  refine ⟨complete_ends (started_cmd h) rfl (startable_is h.2.2).2.2, ?_⟩
  exact keeps_only (keeps_complete (List.mem_singleton.mpr rfl) (started_keeps (List.mem_singleton.mpr rfl)))

end Sys2Proof.Machine
end

