-- ==== Sys2Proof/Laws/Engine.lean ====
section
/-! SUPPORT. What one instruction of a servo engine does, said once: an instruction on the bank alone, one that stores a word,
and one that traps. A statement about an instruction cites the law of its shape and computes the bank it leaves. -/

namespace Sys2Proof.Machine

/-! Lists with one element replaced. -/

theorem updAt_same {α : Type} (l : List α) (n : Nat) (f : α → α) : (updAt l n f)[n]? = (l[n]?).map f := by
  induction l generalizing n with
  | nil => rfl
  | cons x xs ih => cases n with
    | zero => rfl
    | succ n => simpa [updAt] using ih n

theorem updAt_ne {α : Type} (l : List α) (n m : Nat) (f : α → α) (h : m ≠ n) : (updAt l n f)[m]? = l[m]? := by
  induction l generalizing n m with
  | nil => rfl
  | cons x xs ih =>
    cases n with
    | zero => cases m with
      | zero => exact absurd rfl h
      | succ m => rfl
    | succ n => cases m with
      | zero => rfl
      | succ m => simpa [updAt] using ih n m (fun e => h (by rw [e]))

theorem engine_updE_same (d : Dev) (e : Nat) (f : Engine → Engine) : (d.updE e f).engine e = (d.engine e).map f :=
  updAt_same d.servo.engines e f

theorem engine_updE_ne (d : Dev) (e k : Nat) (f : Engine → Engine) (h : k ≠ e) : (d.updE e f).engine k = d.engine k :=
  updAt_ne d.servo.engines e k f h

theorem updE_only (d : Dev) (e : Nat) (f : Engine → Engine) : d.only (d.updE e f) [.servo] [] :=
  ⟨fun p n => by cases p <;> first | rfl | exact absurd (by simp) n, fun _ _ => rfl⟩

/-- A command whose meaning runs an operation on the device completes with what the operation leaves. -/
theorem completes_run {i : Instr} {s : State} {f : Dev → Dev} {post : Dev → Prop} (h : exec i s = s.run f)
    (k : post (f { s.dev with out := [] })) : Completes i s post := ⟨_, h, rfl, k⟩

/-- Emptying the interface's output first changes nothing an engine sees. -/
theorem engineFrame_from_out {d d' : Dev} {o : List Output} {e : Nat} {ps : List Part}
    (h : Dev.engineFrame { d with out := o } d' e ps) : d.engineFrame d' e ps :=
  ⟨⟨fun p n => by have := h.1.1 p n; cases p <;> exact this, h.1.2⟩, h.2⟩

theorem ranBank_from_out {d d' : Dev} {o : List Output} {e : Nat} {b : Bank} {ps : List Part}
    (h : Dev.ranBank { d with out := o } d' e b ps) : d.ranBank d' e b ps :=
  ⟨h.1, engineFrame_from_out h.2.1, h.2.2⟩

/-- What an engine that runs an instruction holds. -/
theorem runs_parts {d : Dev} {e op : Nat} {pm : Option PostMod} {b : Bank} (h : d.runs e op pm = true) (hb : d.bank? e = some b) :
    ∃ g, d.engine e = some g ∧ g.banks[g.curBank]? = some b ∧ g.asleep = false ∧ d.up = true ∧ d.is (SRV_FAILED e) = false ∧
      fetchOk (d.regions e b.slot) b.pc = true ∧ g.picks b op pm = true := by
  unfold Dev.runs at h
  unfold Dev.bank? at hb
  cases hg : d.engine e with
  | none => rw [hg] at hb; cases hb
  | some g =>
    rw [hg] at h hb
    replace hb : g.banks[g.curBank]? = some b := hb
    simp only [hb, Bool.and_eq_true, Bool.not_eq_true'] at h
    exact ⟨g, rfl, hb, h.2.1, h.1.1, h.1.2, h.2.2.1, h.2.2.2⟩

/-- A word that spells an instruction of the table has a defined opcode. -/
theorem picks_defined {g : Engine} {b : Bank} {op : Nat} {pm : Option PostMod} (h : g.picks b op pm = true) :
    (g.ramWord b).any (fun w => !opDefined (opcodeOf w)) = false := by
  unfold Engine.picks at h
  cases hw : g.ramWord b with
  | none => rfl
  | some w =>
    rw [hw] at h
    simp only [Option.all_some, spells, Bool.and_eq_true, beq_iff_eq] at h
    simp only [Option.any_some, h.2.1, h.1, Bool.not_true]

/-- The innermost handler runs its first instruction and counts the cycles. -/
def Engine.fetched (g : Engine) (cyc : Nat) : Engine := { g with handlers := ranHandlers g.handlers (g.cycles + cyc) }

theorem curBank_fetched (g : Engine) (n : Nat) : (g.fetched n).curBank = g.curBank := by
  unfold Engine.curBank Engine.fetched ranHandlers
  cases g.handlers <;> rfl

/-- An engine that runs fetches, and goes on with what the instruction makes of the context, or traps. -/
theorem instr_run {d : Dev} {e op : Nat} {pm : Option PostMod} {b : Bank} {g : Engine} (cyc : Bank → Nat) (f : Ctx → Except Nat Ctx)
    (h : d.runs e op pm = true) (hg : d.engine e = some g) (hb : g.banks[g.curBank]? = some b) :
    d.instr e op pm cyc f = (match f ⟨g.fetched (cyc b), b, d.regions e b.slot⟩ with
      | .error c => d.trap e c b.pc
      | .ok c => d.updE e (fun _ => { c.eng with banks := updAt c.eng.banks c.eng.curBank (fun _ => c.bank) })) := by
  have hk : d.bank? e = some b := by unfold Dev.bank?; rw [hg]; exact hb
  obtain ⟨g', hg', _, ha, hu, hf, ho, hp⟩ := runs_parts h hk
  obtain rfl : g = g' := by rw [hg] at hg'; exact Option.some.inj hg'
  unfold Dev.instr
  simp only [hu, hf, hg, ha, hb, ho, hp, picks_defined hp, Bool.not_true, Bool.or_false, Bool.false_eq_true, if_false,
    Engine.fetched] <;> rfl

/-- The instruction leaves a context whose engine differs in its data memories alone. -/
theorem instr_ok {d : Dev} {e op : Nat} {pm : Option PostMod} {b b' : Bank} {g : Engine} {wm em : List (Nat × Word)} (cyc : Bank → Nat)
    (f : Ctx → Except Nat Ctx) (h : d.runs e op pm = true) (hg : d.engine e = some g) (hb : g.banks[g.curBank]? = some b)
    (hf : f ⟨g.fetched (cyc b), b, d.regions e b.slot⟩ =
      .ok ⟨{ g.fetched (cyc b) with wm := wm, em := em }, b', d.regions e b.slot⟩) :
    (d.instr e op pm cyc f).bank? e = some b' ∧ d.engineFrame (d.instr e op pm cyc f) e [] ∧
    (∀ a, (d.instr e op pm cyc f).wmAt e a = fileGet ramDefault wm a) ∧ (∀ a, (d.instr e op pm cyc f).emAt e a = fileGet ramDefault em a) ∧
    (d.instr e op pm cyc f).engine e = some { g.fetched (cyc b) with
      wm := wm, em := em, banks := updAt g.banks g.curBank (fun _ => b') } := by
  have hr : d.instr e op pm cyc f = d.updE e (fun _ =>
      { g.fetched (cyc b) with wm := wm, em := em, banks := updAt g.banks g.curBank (fun _ => b') }) := by
    rw [instr_run cyc f h hg hb, hf]
    exact congrArg (fun n => d.updE e (fun _ =>
      { g.fetched (cyc b) with wm := wm, em := em, banks := updAt g.banks n (fun _ => b') })) (curBank_fetched g (cyc b))
  have he : (d.instr e op pm cyc f).engine e = some { g.fetched (cyc b) with
      wm := wm, em := em, banks := updAt g.banks g.curBank (fun _ => b') } := by
    rw [hr, engine_updE_same, hg]; rfl
  have hc : ({ g.fetched (cyc b) with wm := wm, em := em, banks := updAt g.banks g.curBank (fun _ => b') } : Engine).curBank =
      g.curBank := curBank_fetched g (cyc b)
  refine ⟨?_, ⟨?_, ?_, ?_, ?_⟩, ?_, ?_, he⟩
  · unfold Dev.bank?
    rw [he]
    show (updAt g.banks g.curBank (fun _ => b'))[_]? = some b'
    rw [hc, updAt_same, hb]; rfl
  · rw [hr]; exact updE_only d e _
  · rw [hr]; rfl
  · intro k hk; rw [hr]; exact engine_updE_ne d e k _ hk
  · intro g0 hg0
    obtain rfl : g = g0 := by rw [hg] at hg0; exact Option.some.inj hg0
    refine ⟨_, he, hc, ?_, ⟨_, rfl⟩, rfl⟩
    intro n hn
    exact updAt_ne g.banks g.curBank n _ hn
  · intro a; unfold Dev.wmAt; rw [he]
  · intro a; unfold Dev.emAt; rw [he]

/-- An instruction that leaves the memories alone. -/
theorem instr_ran {d : Dev} {e op : Nat} {pm : Option PostMod} {b b' : Bank} (cyc : Bank → Nat) (f : Ctx → Except Nat Ctx) (h : d.runs e op pm = true)
    (hb : d.bank? e = some b)
    (hf : ∀ g : Engine, d.engine e = some g → f ⟨g.fetched (cyc b), b, d.regions e b.slot⟩ =
      .ok ⟨g.fetched (cyc b), b', d.regions e b.slot⟩) :
    d.ranBank (d.instr e op pm cyc f) e b' [] := by
  obtain ⟨g, hg, hk, -⟩ := runs_parts h hb
  obtain ⟨h1, h2, h3, h4, h5⟩ := instr_ok (wm := g.wm) (em := g.em) cyc f h hg hk (hf g hg)
  refine ⟨h1, h2, fun a => ⟨?_, ?_⟩, ?_⟩
  · rw [h3]; unfold Dev.wmAt; rw [hg]
  · rw [h4]; unfold Dev.emAt; rw [hg]
  · intro g0 g1 e0 e1
    obtain rfl : g = g0 := by rw [hg] at e0; exact Option.some.inj e0
    rw [h5] at e1
    obtain rfl := Option.some.inj e1
    exact ⟨rfl, rfl⟩

/-- An instruction that works on the bank and advances. -/
theorem bankOp_ran {d : Dev} {e op : Nat} {b : Bank} (f : Bank → Bank) (h : d.runs e op none = true) (hb : d.bank? e = some b) :
    d.ranBank (d.bankOp e op f) e (f b).advance [] := instr_ran _ _ h hb (fun _ _ => rfl)

/-- A command of an engine that only works on its bank. -/
theorem completes_bankOp {i : Instr} {s : State} {e op : Nat} {b b' : Bank} (f : Bank → Bank)
    (hi : exec i s = s.run (fun d => d.bankOp e op f)) (h : s.dev.runs e op none = true) (hb : s.dev.bank? e = some b) (hf : f b = b') :
    Completes i s (fun d => s.dev.ranBank d e (Bank.next b') []) :=
  completes_run hi (hf ▸ ranBank_from_out (bankOp_ran f h hb))

/-- An accumulator instruction. -/
theorem completes_accum {i : Instr} {s : State} {e op : Nat} {b : Bank} (a : Nat) (v : Bank → Int)
    (hi : exec i s = s.run (fun d => d.bankOp e op (fun b => b.accum a (v b)))) (h : s.dev.runs e op none = true) (hb : s.dev.bank? e = some b) :
    Completes i s (fun d => ∃ r, r = clampInt (v b) accMin accMax ∧ s.dev.ranBank d e (Bank.next { b with
      a := updAt b.a a (fun _ => r), z := decide (r = 0), n := decide (r < 0),
      av := b.av || decide (v b < accMin ∨ accMax < v b) }) []) :=
  completes_run hi ⟨_, rfl, ranBank_from_out (bankOp_ran (fun b => b.accum a (v b)) h hb)⟩

/-- An ALU instruction. -/
theorem completes_alu {i : Instr} {s : State} {e op : Nat} {b : Bank} (n : Nat) (v : Bank → Int)
    (hi : exec i s = s.run (fun d => d.bankOp e op (fun b => b.alu n (v b)))) (h : s.dev.runs e op none = true) (hb : s.dev.bank? e = some b) :
    Completes i s (fun d => ∃ r, r = clampInt (v b) q23Min q23Max ∧ s.dev.ranBank d e (Bank.next { b with
      d := updAt b.d n (fun _ => BitVec.ofInt 32 r), z := decide (r = 0), n := decide (r < 0),
      sv := b.sv || decide (v b < q23Min ∨ q23Max < v b) }) []) :=
  completes_run hi ⟨_, rfl, ranBank_from_out (bankOp_ran (fun b => b.alu n (v b)) h hb)⟩

/-- A program that runs outside a handler and traps starts again at its entry, with the cause shown and counted (R178). -/
theorem trap_base {d : Dev} {e c pc : Nat} {b : Bank} {g : Engine} (hg : d.engine e = some g) (hh : g.handlers = [])
    (hb : g.banks[g.curBank]? = some b) (hs : b.slot = 7) :
    d.trap e c pc = (((d.setReg 0x6020 (BitVec.ofNat 32 (e + 7 * 16 + c * 256 + pc * 65536))).bump 0x6064).raise (srcNo 5 12) e).updE e
      (fun g => { g with banks := updAt g.banks 0 (fun b => { b with pc := (d.regions e 7).entry }) }) := by
  have hc : g.curBank = 0 := by unfold Engine.curBank; rw [hh]
  have hs' : ((g.banks[0]?).map (fun x : Bank => x.slot)).getD 7 = 7 := by rw [hc] at hb; rw [hb]; exact hs
  unfold Dev.trap
  simp only [hg, hh, hc, hs', List.isEmpty_nil, if_true, if_neg (show ¬ (7 < 5) by decide)]
  rfl

end Sys2Proof.Machine
end

