-- ==== Sys2Proof/Machine/Balls.lean ====
section
/-! DEFINITION. The ball map: what each ball of the 39 × 39 grid carries, by its row index r and column c, both from 1 (R454,
R455). No command reads it; it is here because the rules state it as a function. -/

namespace Sys2Proof.Machine

/-- A supply or ground rail of Table — Supply balls. -/
inductive Rail where
  | vcore | vser | vio18 | vio33 | vaux | vss
  deriving DecidableEq, Repr

/-- A signal of Table — Signal balls; `neg` picks the N line of a pair, `b` channel B of a safety pair, ports are numbered j. -/
inductive Sig where
  | pet (neg : Bool) (k : Nat) | per (neg : Bool) (k : Nat) | refclk (neg : Bool)
  | tx (neg : Bool) (j : Nat) | rx (neg : Bool) (j : Nat) | sdcal | sdcalrtn
  | so (b : Bool) (n : Nat) | sfb (b : Bool) (n : Nat) | si (b : Bool) (n : Nat) | wake
  | fba (n : Nat) | fbb (n : Nat) | fbz (n : Nat) | eea (m : Nat) | eeb (m : Nat)
  | axstep (a : Nat) | axdir (a : Nat) | axen (a : Nat) | hlout (l : Nat)
  | modclk (n : Nat) | moddat (n : Nat) | perst | tref | xin | xout
  | tck | tms | tdi | tdo | trst | testen
  deriving DecidableEq, Repr

/-- The function of a ball. -/
inductive Ball where
  | sig (s : Sig)
  | rail (r : Rail)
  deriving DecidableEq, Repr

/-- Is a column in a run? -/
def runOf (c lo hi : Nat) : Bool := lo ≤ c && c ≤ hi

/-- A SerDes row: the PCI Express lanes from column 3, the SGMII ports from column 18, a pair every three columns. -/
def serdesAt (lane port : Bool → Nat → Sig) (c : Nat) : Option Sig :=
  if runOf c 3 13 && (c - 3) % 3 ≠ 2 then some (lane ((c - 3) % 3 == 1) ((c - 3) / 3))
  else if runOf c 18 34 && (c - 18) % 3 ≠ 2 then some (port ((c - 18) % 3 == 1) ((c - 18) / 3))
  else none

/-- The VIO18 signals of rows AV and AY. -/
def lowVoltAt (r c : Nat) : Option Sig :=
  if r = 36 then
    if runOf c 23 24 then some (.modclk (c - 23)) else if runOf c 25 32 then some (.moddat (c - 25)) else none
  else if r = 38 then
    match c with
    | 23 => some .perst | 24 => some .tref | 26 => some .xin | 27 => some .xout | 29 => some .tck | 30 => some .tms
    | 31 => some .tdi | 32 => some .tdo | 33 => some .trst | 34 => some .testen | _ => none
  else none

/-- The safety bank of columns 1 to 3: channel A in row 7 + 2n, channel B in row 8 + 2n. -/
def safetyAt (r c : Nat) : Option Sig :=
  let b := (r - 7) % 2 == 1
  let n := (r - 7) / 2
  match c with
  | 1 => some (.so b n) | 2 => some (.sfb b n) | 3 => some (.si b n) | _ => none

/-- The feedback channels and emulated encoders of columns 37 to 39. -/
def eastAt (r c : Nat) : Option Sig :=
  if r ≤ 30 then
    match c with
    | 37 => some (.fba (r - 7)) | 38 => some (.fbb (r - 7)) | 39 => some (.fbz (r - 7)) | _ => none
  else
    match c with
    | 37 => some (.eea (r - 31)) | 38 => some (.eeb (r - 31)) | _ => none

/-- The step axes and loop outputs of columns 5 to 20. -/
def southAt (r c : Nat) : Option Sig :=
  match r with
  | 35 => some (.axstep (c - 5)) | 36 => some (.axdir (c - 5)) | 37 => some (.axen (c - 5))
  | 38 => some (.hlout (c - 5)) | 39 => some (.hlout (c + 11)) | _ => none

/-- Table — Signal balls (R454). -/
def signalAt (r c : Nat) : Option Sig :=
  if r = 2 then serdesAt .pet .tx c
  else if r = 4 then
    match c with
    | 15 => some (.refclk false) | 16 => some (.refclk true) | 37 => some .sdcal | 38 => some .sdcalrtn
    | _ => serdesAt .per .rx c
  else if r = 39 && c = 2 then some .wake
  else if runOf r 7 38 && c ≤ 3 then safetyAt r c
  else if runOf r 7 38 && 37 ≤ c then eastAt r c
  else if 35 ≤ r && runOf c 5 20 then southAt r c
  else lowVoltAt r c

/-- Table — Supply balls (R455), for a ball that carries no signal. -/
def railAt (r c : Nat) : Rail :=
  let alt (p : Bool) (x : Rail) : Rail := if p then x else .vss
  if r ≤ 4 then .vss
  else if r ≤ 6 then alt (c % 2 == 0) .vser
  else if r = 39 && c ≤ 4 then alt (c == 3) .vaux
  else if c = 4 then alt (r % 2 == 1) .vaux
  else if c = 36 && r ≤ 38 then alt (r % 2 == 1) .vio33
  else if 36 ≤ c then .vss
  else if r ≤ 32 then alt ((r + c) % 2 == 0) .vcore
  else if r = 33 then .vss
  else if r = 34 then alt (c % 2 == 1) .vio33
  else if c = 21 then alt (r % 2 == 1) .vio33
  else alt (r % 2 == 1 && c % 2 == 0) .vio18

/-- What ball (r, c) carries. -/
def ballAt (r c : Nat) : Ball :=
  match signalAt r c with
  | some s => .sig s
  | none => .rail (railAt r c)

/-- The letters of the rows, A to BA; I, O, Q, R, S, X and Z are not used (Table — Row index). -/
def rowName (r : Nat) : String :=
  let letters := ["A", "B", "C", "D", "E", "F", "G", "H", "J", "K", "L", "M", "N", "P", "T", "U", "V", "W", "Y"]
  if r = 0 ∨ 39 < r then ""
  else if r ≤ 19 then letters.getD (r - 1) ""
  else if r = 39 then "BA"
  else "A" ++ letters.getD (r - 20) ""

/-- The name of a ball: its row, then its column. -/
def ballName (r c : Nat) : String := rowName r ++ toString c

/-- How many balls of the grid meet a test. -/
def countBalls (p : Ball → Bool) : Nat :=
  ((List.range 39).map (fun r => ((List.range 39).filter (fun c => p (ballAt (r + 1) (c + 1)))).length)).sum

end Sys2Proof.Machine
end

