-- ==== Sys2Proof/Tests/Slice0.lean ====
section
/-! SUPPORT. The row's own tests: states, a term that each check of well-formedness refuses, for every statement the states and
operands that meet its hypotheses, and single steps whose results the spec's text gives. -/

open Sys2Proof Sys2Proof.Machine

namespace Sys2Proof.Tests

/-! States the witnesses and the tests stand on. -/

/-- A main die out of reset, linked to its Hedge, with one waiting command. -/
def liveD : Dev :=
  (((((Dev.zero.put TST_STAGE 7).putB CLK_CORELK true).putB CLK_SERVOLK true).putB CLK_SAFALK true).putB CLK_XDIE true).put HQE_STATE 1
def live : State :=
  ⟨[.trefLost], { liveD with boot := { liveD.boot with vaux := true, perst := false, railsOut := false }, evReq := [(9, 9)] }⟩
def m (s : State) (f : Dev → Dev) : State := { s with dev := f s.dev }
def tm (s : State) (f : TimeSt → TimeSt) : State := m s (fun d => { d with time := f d.time })
def bt (s : State) (f : BootSt → BootSt) : State := m s (fun d => { d with boot := f d.boot })
def hs (s : State) (f : HostSt → HostSt) : State := m s (fun d => { d with host := f d.host })
def sf (s : State) (f : SafetySt → SafetySt) : State := m s (fun d => { d with safety := f d.safety })
def fl (s : State) (f : FieldSt → FieldSt) : State := m s (fun d => { d with field := f d.field })

theorem journalOk_of {d : Dev} (h : (d.host.cmds.map Cmd.id).Nodup ∧ ∀ c ∈ d.host.cmds, c.id < d.host.nextId) : d.journalOk := h
theorem starts_of {s : State} {op : Nat} {c : Cmd} (h : s.dev.up = true ∧ ((s.dev.host.cmds.map Cmd.id).Nodup ∧
    ∀ x ∈ s.dev.host.cmds, x.id < s.dev.host.nextId) ∧ startable s.dev.host.cmds op = some c) : s.starts op c := h
def w1 : State := bt live (fun b => { b with hib := 2 })
def w2 : State := bt live (fun b => { b with hib := 3 })
def hold0 : State := bt (m live (fun d => d.put TST_STAGE 0)) (fun b => { b with railsOut := true })
def boot1 : State := m live (fun d => d.put TST_STAGE 1)
def boot2 : State := m live (fun d => d.put TST_STAGE 2)
def boot3 : State := bt (m live (fun d => d.put TST_STAGE 3)) (fun b => { b with laneLeft := 4 })
def arming : State := bt (m live (fun d => d.put HQE_STATE 1)) (fun b => { b with hib := 1 })
def timed : State := m live (fun d => d.putB CLK_TIMELK true)
def heldOver : State := m timed (fun d => d.putB CLK_TIMEHOLD true)
def faulty : State := m live (fun d => d.put (GLB_BLKERR 3) 1)
def armable : State := m live (fun d => d.put SLV_PLSTATE 0)
def serving : State := m live (fun d => d.put HQE_STATE 2)
def dom0 : Domain := { Domain.zero with master := some (0, 70000), last := some (1000000, 1003000, 65536), req := some (9, 2000000) }
def slave : State :=
  tm (m live (fun d => (((d.put (TIM_DOMNO 0) 3).put (TIM_DOMNO 1) 4).put (TIM_DSTATE 0) 3).setReg 0x300C 5))
    (fun t => { t with started := true, now := 2 ^ 40, domains := [dom0, Domain.zero] })
def held : State := tm (m slave (fun d => (d.putB TIM_TCEN true).putB CLK_TIMELK true)) (fun t => { t with holdFrom := some (2 ^ 40) })
def hdr (dm : Nat) : PtpHdr := ⟨dm, 0, 2, 1, 70000, 99, 9, 4096, 0, true, true⟩
def badHdr : PtpHdr := { hdr 3 with version := 1 }
def counted : State := m live (fun d => d.setReg 0x30B0 0x7FFFFFFE)
/-- Engine 1 at an address of its program with a bank in use. -/
def bk : Bank := { Bank.zero 7 with
  d := [0x00400000, 0xFFC00000, 0x007FFFFF, 0xFF800000, 0, 0x12345678, 3, 0xFFFFFFFF], a := [2 ^ 55 - 6, -(2 ^ 54), 2 ^ 40, 12345],
  p := [0x3000, 0x3105, 0x3AFF, 0x2F00, 0x3F00, 0x1000, 0x3A01, 0x2FFF], pd := [0, 0x101, 0, 0, 0, 3, 0x42, 0],
  b := [0x3000, 0x3100, 0, 0, 0, 0, 0x3A00, 0], pc := 0x2005 }
def bkLoop : Bank := { bk with la := true, cv := true, lc := 2, ls := 0x2003, le := 0x2005, stack := [0x2040, 0x2100] }
def bkLast : Bank := { bk with la := true, lc := 1, ls := 0x2001, le := 0x2005, stack := List.replicate 8 0x2222 }
def bkSlot : Bank := { bk with slot := 2, p := [0x3000, 0x3105, 0x3D85, 0x3DA5, 0x3D00, 0x1000, 0x3D00, 0x2FFF] }
def bkCoef : Bank := { bkLoop with p := [0x3000, 0x3105, 0x3AFF, 0x2F00, 0x3F00, 0x1000, 0x3A01, 0x2F00] }
def eng (g : Engine) : State := m live (fun d => { d with servo := { d.servo with engines := updAt d.servo.engines 1 (fun _ => g) } })
def gx (b : Bank) : Engine := { Engine.zero with banks := [b, Bank.zero 7, Bank.zero 7] }
def e1 : State := eng (gx bk)
def e2 : State := eng (gx bkLoop)
def e3 : State := eng (gx bkLast)
def e4 : State := eng { gx bk with handlers := [⟨1, 3, 5, false, 0, []⟩], banks := [bk, bkLoop, bkLast] }
def e5 : State := eng { gx bkSlot with handlers := [⟨1, 2, 5, false, 0, []⟩], banks := [bk, bkSlot, bkLast] }
def e6 : State := eng (gx bkCoef)
def params : ParamSet := ⟨5, 0, 125000, [⟨3, List.replicate 256 1, [], 0⟩, ⟨4, List.replicate 256 1, [], 9⟩], [], [(3, 1, 2), (4, 2, 2)]⟩
def joint3 : JointRt := { JointRt.fresh 3 with hold := some (2 ^ 45), qmeas := 2 ^ 45 - 99999999, vmeas := 555, sent := some (100, 5) }
def e7 : State := m e5 (fun d => { d with servo := { d.servo with params := some params, joints := [joint3] } })
def base0 : Prog := ⟨7, true, 0, 0x1000, 0x100, 0, 0, 0, 0, 0x1010, 0x1020, 0, [], [], []⟩
/-- A BASE program whose next word spells no instruction. -/
def badOp : State := m (eng { gx { bk with pc := 0x1005 } with cm := [(0x1005, 0x3F000000)] })
  (fun d => { d with servo := { d.servo with params := some { params with progs := [base0] } } })
def e9 : State := m e5 (fun d => { d with servo := { d.servo with params := some params, joints := [{ joint3 with delivering := true }] } })
def e4c : State := eng { gx bkLoop with handlers := [⟨1, 3, 5, false, 0, []⟩], banks := [bkLoop, bk, bkLast] }
/-- `n` bytes with little-endian values at offsets: (offset, width, value). -/
def pb (n : Nat) (xs : List (Nat × Nat × Nat)) : List Byte :=
  (List.range n).map (fun i => match xs.find? (fun x => x.1 ≤ i && i < x.1 + x.2.1) with
    | some x => BitVec.ofNat 8 (x.2.2 / 256 ^ (i - x.1)) | none => 0)
def mc (id op addr len : Nat) (ps : List (Nat × Nat × Nat)) : Cmd :=
  { id := id, ring := 1, opcode := op, fence := false, cid := 77, tag := 5, addr := addr, len := len,
    param := pb 40 (ps.map (fun x => (x.1 - 0x18, x.2))), accepted := 100, started := false, progress := 0, reattach := false,
    done := none, posted := none, journalOnly := false }
def wc (s : State) (c : Cmd) : State := hs s (fun h => { h with cmds := h.cmds ++ [c] })
def host : State := tm (hs live (fun h => { h with nextId := 20 })) (fun t => { t with now := 777777, started := true })
def ring (s : State) (r cfg idx : Nat) : State :=
  m s (fun d => ((d.setReg (ringBase r) (BitVec.ofNat 32 (4096 * r))).setReg (ringBase r + 8) (BitVec.ofNat 32 cfg)).setReg
    (ringBase r + 12) (BitVec.ofNat 32 idx))
def rings : State := ring (ring (ring (ring host 1 0x05010104 0x00050003) 33 0x05000104 0x00030007) 64 0x05030104 0x0009000A) 65
  0x05030104 0x00020000
def evE : EvEntry := ⟨9000, 17, 5, 1, 7, 0, 42, 0⟩
def telR : TelRec := ⟨0, 1, 0, 5000, List.replicate 8 1⟩
def fin (i op : Nat) : Cmd := { mc i op 0 0 [] with done := some ⟨.ok, 3, 1, 2, 0⟩ }
def outs : State := hs rings (fun h => { h with cmds := [fin 4 0x30, fin 5 0x30], cplQ := [4, 5], evOut := [evE], telOut := [telR] })
def outsFull : State :=
  m (hs outs (fun h => { h with cmds := [fin 4 0x30], cplQ := [4], evOut := [{ evE with vec := 0xFF }, evE], unsig := List.replicate 41 3 }))
    (fun d => ((d.setReg (ringBase 33 + 12) 0x00080007).put HQE_CTIME 5).setReg (ringBase 65 + 12) 0x00010000)
def beating : State := m (wc rings (mc 7 3 0 0 [])) (fun d => (d.put HQE_STATE 2).put HQE_HBTMO 30)
def resetting : State := m rings (fun d => (d.put HQE_STATE 3).putB HQE_RSTBUSY true)
def atB : Cmd := mc 7 1 0x10000 0x140 [(0x24, 2, 5)]
def atG : Cmd := mc 7 1 0x10000 0x140 [(0x24, 2, 50), (0x26, 1, 1)]
def booting (c : Cmd) : State := m (wc rings c) (fun d => (d.put HQE_STATE 0).put TST_STAGE 5)
def partBad : State := bt (booting atG) (fun b => { b with partFail := true })
def atS : Cmd := { atG with started := true }
def verifying : State := hs (m (booting atG) (fun d => d.put TST_STAGE 6)) (fun h => { h with attaching := some 7, cmds := [atS] })
def dt : Cmd := mc 8 2 0 0 []
def leaving : State := wc (wc rings dt) (mc 9 0x30 0 0 [])
def moving : State := m leaving (fun d => d.put SLV_PLSTATE 2)
def imgB : List Byte := pb 0x140 [(0, 4, 0x46574B44), (4, 2, 0x0101), (6, 2, 0x0100), (8, 4, 0x140), (0x10, 2, 0xFFFF)]
def reattaching : State := hs (wc rings atG) (fun h => { h with digest := imageDigest imgB })
/-! A model of one arm with one joint, a schedule, a servo container and a safety set, as blobs. -/

def armB : List Byte := pb 64 [(1, 1, 1), (0x10, 4, 2 ^ 30), (0x22, 1, 0xFF)]
def jntB : List Byte := pb 128 [(0x10, 4, 2 ^ 30), (0x20, 4, 2 ^ 32 - 2 ^ 24), (0x24, 4, 2 ^ 24), (0x28, 4, 1000), (0x2C, 4, 5000),
  (0x30, 4, 4000), (0x38, 4, 10), (0x3D, 1, 1), (0x68, 4, 1000), (0x70, 4, 10)]
def capB : List Byte := pb 64 [(2, 1, 0), (3, 1, 0xFF), (0x1C, 4, 5)]
def reqB : List Byte := (Model.required { parseModel [] with arms := [parseArm armB], joints := [parseJoint jntB] }).flatMap
  (fun x => pb 8 [(0, 2, x.1 * 4096 + x.2), (6, 1, 2)])
def withCrc (f : List Byte → Nat) (n : Nat) (h : List (Nat × Nat × Nat)) (body : List Byte) : List Byte :=
  pb n (h ++ [(0xC, 4, f ((pb n h ++ body).drop 16))]) ++ body
def blobM : List Byte := withCrc crc32c 0x80
  [(0, 4, 0x444D4243), (4, 2, 0x0102), (6, 2, 0x80), (8, 4, 0x180 + reqB.length), (0x10, 4, 7), (0x14, 4, 3), (0x18, 1, 1), (0x19, 1, 1),
   (0x20, 2, 1), (0x24, 2, reqB.length / 8), (0x30, 4, 0x80), (0x34, 4, 64), (0x38, 4, 0xC0), (0x3C, 4, 128), (0x48, 4, 0x140),
   (0x4C, 4, 32), (0x78, 4, 0x180), (0x7C, 4, reqB.length)] (armB ++ jntB ++ capB ++ reqB)
def secS : List Byte := pb 16 [(0, 1, 1), (1, 1, 1), (3, 1, 1)] ++ pb 16 [(0, 1, 1), (2, 2, 500), (4, 4, 1), (8, 4, 2), (0xC, 2, 10),
  (0xE, 2, 20)] ++ pb 16 [(0, 1, 1)] ++ pb 16 [(0, 1, 0), (1, 1, 1), (2, 1, 1), (8, 4, 1000)]
def blobS : List Byte := withCrc crc32c 64
  [(0, 4, 0x4C544853), (4, 2, 0x104), (6, 2, 0x40), (8, 4, 128), (0x10, 4, 77), (0x14, 1, 1), (0x15, 1, 2), (0x20, 4, 64), (0x24, 4, 64)] secS
def entV : List Byte := pb 256 [(0, 1, 0), (2, 1, 1), (3, 1, 0xFF), (0x10, 4, 0x100000), (0x18, 4, 0x100000), (0x2C, 4, 0x100000),
  (0x90, 4, 5), (0x84, 4, 100), (0x80, 4, 50), (0x88, 1, 2), (0x9C, 1, 8)]
def blobV : List Byte := withCrc crc32c 64
  [(0, 4, 0x53565250), (4, 2, 0x107), (6, 2, 0x40), (8, 4, 640), (0x10, 4, 78), (0x14, 1, 1), (0x18, 4, 64), (0x1C, 4, 320), (0x24, 4, 384)]
  (entV ++ (0 :: List.replicate 63 255) ++ List.replicate 256 0)
def blobF : List Byte := withCrc crc32 64
  [(0, 4, 0x53464553), (4, 2, 0x103), (6, 2, 0x40), (8, 4, 448), (0x10, 4, 79), (0x14, 1, 1), (0x15, 1, 8), (0x16, 1, 1), (0x17, 1, 1),
   (0x30, 1, 1), (0x31, 1, 1)]
  (List.replicate 256 0 ++ pb 64 [(1, 1, 1), (4, 2, 100), (6, 2, 50), (0x14, 4, 2 ^ 30)] ++ pb 64 [(1, 1, 1), (4, 4, 3000), (0x24, 4, 2 ^ 30)])
def model : Model := let x := parseModel blobM
  { x with joints := x.joints.map (fun j => { j with fbsrc := 1, fbaddr := 2 }), commons := [{ (parseCommons []) with cid := 3, armmask := 5 }] }
def kl (s : State) (f : KilnSt → KilnSt) : State := m s (fun d => { d with kiln := f d.kiln })
def ht (s : State) (f : HeathSt → HeathSt) : State := m s (fun d => { d with heath := f d.heath })
def sv (s : State) (f : ServoSt → ServoSt) : State := m s (fun d => { d with servo := f d.servo })
def mb : State :=
  tm (m (kl host (fun k => { k with active := some model })) (fun d => d.put (FIO_STATE 2) 2)) (fun t => { t with layout := ⟨1, 8,
    60000⟩ })

/-! Commands and the states in which they start. -/

def cLoad : Cmd := mc 7 0x10 0x10000 680 []
def cLoadS : Cmd := { cLoad with started := true }
def loading : State := kl (wc mb cLoadS) (fun k => { k with loading := some 7 })
def activating : State := kl (wc mb cLoad) (fun k => { k with activating := some (5, 3) })
def cAct : Cmd := mc 8 0x11 0 0 []
def noStaged : State := wc mb cAct
def staged : State := kl (m noStaged (fun d => (d.put KLN_STGV 1).put SLV_PLSTATE 0)) (fun k => { k with staged := some model })
def running : State := m staged (fun d => d.put SLV_PLSTATE 1)
def dmonBad : State := sf running (fun x => { x with inForce := true, a := { x.a with
  set := some { parseSet blobF with joints := (parseSet blobF).joints.map (fun j => { j with amon := 4001 }) } } })
def cLim (a v acc : Nat) : Cmd := mc 9 0x23 0 0 [(0x18, 1, a), (0x1C, 4, 65536), (0x20, 4, v), (0x24, 4, acc), (0x28, 4, 65536)]
def cSeg (arm n : Nat) : Cmd := mc 7 0x20 0x10000 (n * 128) [(0x18, 1, arm), (0x19, 1, 2)]
def grouped : State := kl mb (fun k => { k with group := [⟨3, false, 0, 0, [(0, [])]⟩] })
def seg (arm q v t : Nat) : List Byte := pb 128 [(0, 1, arm), (8, 8, t), (0x10, 4, q), (0x40, 4, v)]
def segs : List Byte := seg 0 5 6 3000000 ++ seg 0 7 0 3000001
def segsBack : List Byte := seg 0 5 6 3000000 ++ seg 0 7 0 3000000
def cFlush : Cmd := mc 7 0x21 0 0 [(0x18, 1, 3), (0x20, 8, 66)]
def cTgt (n : Nat) : Cmd := mc 7 0x22 0x10000 4 [(0x18, 1, 0), (0x1A, 2, n)]
def cGrp (mode n : Nat) : Cmd := mc 7 0x24 0x10000 (n * 128) [(0x18, 1, 1), (0x19, 1, mode), (0x1A, 1, 2), (0x28, 8, 5000)]
def waiting : State := kl mb (fun k => { k with refs := [⟨0, 0, [0], [0], [⟨0, 0, 2000, [0], [0]⟩]⟩], changes := [.flush 1 100 5] })
def busy (s : State) : State := m s (fun d => d.put SLV_PLSTATE 1)
def hostLost : State := m (wc mb (cSeg 0 2)) (fun d => d.put HQE_STATE 4)
def cSch : Cmd := mc 7 0x13 0x10000 128 []
def cSchS : Cmd := { cSch with started := true }
def schLoading : State := ht (wc mb cSchS) (fun h => { h with loading := some 7 })
def schBusy : State := ht (wc mb cSch) (fun h => { h with loading := some 3 })
def cSrv : Cmd := mc 7 0x50 0x10000 640 []
def cSrvS : Cmd := { cSrv with started := true }
def srvLoading : State := sv (wc mb cSrvS) (fun h => { h with loading := some 7 })
def srvBusy : State := sv (wc mb cSrv) (fun h => { h with loading := some 3 })
def cSaf : Cmd := mc 7 0x12 0x10000 448 []
def cSafS : Cmd := { cSaf with started := true }
def torque : State := sf (wc mb cSaf) (fun h => { h with a := { h.a with cmd := 1 }, b := { h.b with cmd := 1 } })
def unlinked : State := m (wc mb cSaf) (fun d => d.putB CLK_XDIE false)
def safChecking : State := sf (wc mb cSafS) (fun h => { h with load := some (7, blobF) })
def sched : State :=
  ht mb (fun h => { h with sched := some { parseSched blobS with ports := [none, some (parseSection secS), none, none] } })
def schRun : State := m sched (fun d => d.putB (HTL_RUN 1) true)
def cMode (md : Nat) : Cmd := mc 7 0x14 0 0 [(0x18, 1, md)]
def cTime (k tb v : Nat) : Cmd := mc 7 0x60 0 0 [(0x18, 1, k), (0x19, 1, tb), (0x1C, 4, v)]
def locked : State := m (wc mb (cTime 1 8 70000)) (fun d => d.putB CLK_TIMELK true)
def cReq (a c : Nat) : Cmd := mc 7 0x28 0 0 [(0x18, 1, a), (0x19, 1, c), (0x1C, 4, 999)]
def cRel : Cmd := mc 7 0x29 0 0 [(0x18, 1, 0), (0x19, 1, 4)]
def cAxis (a : Nat) : Cmd := mc 7 0x31 0 0 [(0x18, 1, a), (0x20, 8, 2 ^ 64 - 500), (0x28, 4, 700), (0x2C, 4, 9)]
def axis (s : State) (st : Nat) (f : AuxRt → AuxRt) : State :=
  m (fl s (fun x => { x with aux := updAt x.aux 2 f })) (fun d => (d.put (AUX_STATE 2) st).put (AUX_VMAX 2) 50)
def axisMoving : State :=
  axis (wc (wc mb { mc 3 0x31 0 0 [] with started := true }) (cAxis 2)) 1 (fun r => { r with next := some ⟨1, 2, 3, 4, 3⟩ })
def cProf (n : Nat) : Cmd := mc 7 0x30 0x10000 32 [(0x18, 1, 2), (0x1A, 2, n)]
def axisHeld : State := axis (wc mb (cProf 2)) 1 id
def axisFull : State :=
  axis (wc mb (cProf 2)) 1 (fun r => { r with run := some ⟨[], 0, false, 0, 0, 2⟩, wait := some ⟨[], 0, false, 0, 0, 2⟩ })
def tab (t v : Nat) : List Byte := pb 16 [(0, 4, 500), (8, 4, v), (12, 4, t)]
def cHl (n mask : Nat) : Cmd := mc 7 0x38 0x10000 n [(0x18, 4, mask), (0x20, 8, 777)]
def loops : State := m (wc mb (cHl 64 5)) (fun d => (d.putB (HYS_EN 0) true).putB (HYS_EN 2) true)
def cRead (items : Nat) : Cmd := mc 7 0x40 0x10000 0x4000 [(0x18, 2, items)]
def cLog (k : Nat) : Cmd := mc 7 0x41 0x10000 0x100 [(0x18, 1, k), (0x1C, 4, 2), (0x20, 2, 3)]
def cTel (st : Nat) : Cmd := mc 7 0x42 0 0 [(0x18, 1, 0x3), (0x19, 1, st), (0x1A, 1, 1), (0x1C, 2, 9)]
def cDiag (t : Nat) : Cmd := mc 7 0x70 0 0 [(0x18, 2, t), (0x1A, 1, 5)]

/-! Hod, the event controller and the fabric. -/

def tk (id pri : Nat) (st : TaskSt) : Task := ⟨id, pri, 255, st, 500, false, false, id⟩
def hod (s : State) (f : HodSt → HodSt) : State := m s (fun d => { d with hod := f d.hod })
def ms (hs : List (Nat × Nat)) (t : Option Nat) (run fail : Bool) : Mason := ⟨hs, t, false, fail, run, 100, 0, 0⟩
def tasks : List Task := [tk 1 5 (.running 0), tk 2 6 .ready, tk 3 7 .dormant, tk 4 9 (.waiting (.semaphore 5) (some 900)),
  tk 5 8 (.waiting (.semaphore 5) none), tk 6 8 (.delayed 777), tk 7 8 (.delayed 9999), tk 8 5 (.waiting (.source 9) none)]
def masons : List Mason := [ms [] (some 1) true false, ms [(17, 4)] (some 9) true false, ms [(18, 3), (19, 2)] none true false,
  ms [] none true false, ms [] none false false, ms [(1, 2)] (some 2) true true, ms [] none true false, ms [(17, 3)] none true false]
def hodS : State := hod host (fun h => { h with
  tasks := tasks, ready := (List.replicate 32 []).set 6 [2], delays := [(777, 6), (9999, 7)], sems := (List.replicate 64 0).set 3 4,
  posts := [40], masons := masons, tick := 700, winAt := 0 })
def reqs (s : State) : State := m s (fun d => { d with evReq := [(17, 5), (18, 6), (224, 7), (40, 8), (21, 9), (9, 1), (17, 11)] })
def evs : State := reqs (m hodS (fun d => (((((d.setReg (0xC400 + 4 * 17) 0x40000151).setReg (0xC400 + 4 * 18) 0x80000171).setReg
  (0xC400 + 4 * 19) 0x40000261).setReg (0xC400 + 4 * 20) 0x45000271).setReg (0xC400 + 4 * 40) 2).setReg 0xC100 0x000E0000))
def taskEv : State := m evs (fun d => (d.put (EVC_KIND 9) 2).put (EVC_KIND 17) 1)
def prog0 : Prog := ⟨0, false, 0, 0x1000, 0x100, 0, 0, 0, 0, 0x1010, 0, 0, [], [], []⟩
def engEv (g : Engine) : State := m host (fun d => { ((d.put (EVC_ENGPRI 2) 6).put (EVC_ENGPRI 5) 9) with
  servo := { d.servo with params := some { params with progs := [prog0] }, engines := updAt d.servo.engines 1 (fun _ => g) } })
def fab (s : State) (f : FabricSt → FabricSt) : State := m s (fun d => { d with fabric := f d.fabric })
def entering : State := engEv { gx bk with pend := 0x24, asleep := true }
def nesting : State :=
  engEv { gx bkSlot with handlers := [⟨1, 2, 5, false, 0, []⟩, ⟨2, 1, 2, false, 0, []⟩], banks := [bk, bkSlot, bkLast], pend := 0x20 }
/-- Vector 2 is a slot that runs the default chain. -/
def romVec : State := m (engEv { gx bk with pend := 0x24 }) (fun d => { ((d.put (EVC_ENGPRI 2) 9).put (EVC_ENGPRI 5) 6) with
  servo := { d.servo with params := some params, joints := [{ joint3 with delivering := true }] } })
def fa : State := fab (m evs (fun d => d.putB (FAB_CLOSED 9) true)) (fun f => { f with
  paths := [⟨0, some ⟨5, 3, 1, 4⟩, some 5, [⟨6, 0, 2, 4⟩, ⟨7, 2, 3, 4⟩], []⟩,
    ⟨1, some ⟨0, 3, 1, 4⟩, some 5, [⟨7, 0, 2, 4⟩, ⟨8, 2, 3, 4⟩, ⟨7, 9, 3, 4⟩], []⟩, ⟨2, none, some 5, [], []⟩,
    ⟨3, some ⟨6, 3, 1, 4⟩, some 5, [⟨7, 0, 2, 4⟩], [⟨7, 0, 2, 4⟩]⟩],
  order := 12, seqs := [⟨0, 1, [3], none, 2, none⟩, ⟨0, 2, [4], some 3, 3, none⟩, ⟨0, 3, [], some 3, 0, none⟩, ⟨1, 1, [], none, 5, some 40⟩,
    ⟨2, 1, [7, 8], some 2, 9, none⟩], queues := [⟨0, 3, [2, 3]⟩, ⟨2, 2, [1]⟩] })
def ph : State := m (hod mb (fun h => { h with tasks := tasks, ready := (List.replicate 32 []).set 6 [2], masons := masons })) (fun d =>
  { d with fabric := { d.fabric with paths := [⟨0, some ⟨5, 3, 1, 4⟩, some 5, [⟨6, 0, 2, 4⟩, ⟨7, 2, 3, 4⟩], []⟩,
      ⟨1, some ⟨8, 3, 1, 4⟩, some 5, [⟨0, 0, 2, 4⟩, ⟨8, 2, 3, 4⟩, ⟨7, 9, 3, 4⟩], []⟩] }
           kiln := { d.kiln with assembling := true, delivered := true } })
def refetch (cs : List MCopy) : State :=
  m (hs (m ph (fun d => d.put HQE_STATE 2)) (fun h => { h with copies := cs })) (fun d => { d with kiln := { d.kiln with refetch := [1,
    2, 4, 5, 6] } })
def ph2 : State := refetch [⟨2, 0, 0x1000, 680, 1, 2, none, false⟩, ⟨4, 0, 0x1000, 680, 1, 2, none, false⟩]
def ph3 : State := refetch [⟨2, 0, 0x1000, 680, 1, uAt blobM 0xC 4, none, false⟩]
def ph4 : State := refetch [⟨1, 0, 0x1000, 680, 1, uAt blobM 0xC 4, none, false⟩]
def unserved : State := m ph2 (fun d => d.put HQE_STATE 1)
/-! The planner. -/

def walls (s : State) (f : WallSt → WallSt) : State :=
  m s (fun d => { d with planner := { d.planner with walls := d.planner.walls.map f } })
def pl (s : State) (f : PlannerSt → PlannerSt) : State := m s (fun d => { d with planner := f d.planner })
def rol (w r : Nat) (s : State) : State := m s (fun d => d.put (SLV_ROLE w) r)
/-- The planner in a state, wall 0 active with token 3, wall 1 in a role. -/
def planner (st role1 : Nat) : State :=
  rol 1 role1 (walls (m (kl mb (fun k => { k with ctrl := 1 })) (fun d =>
    ((((d.put KLN_ACTV 1).put SLV_PLSTATE st).put (SLV_ROLE 0) 1).put SLV_AUTH 3).setReg 0x5000 1)) (fun x => { x with avail := true, token := 3 }))
def plan0 : Plan :=
  { seq := 5, srcseq := 5, token := 3, wall := 0, kind := 0, shifts := 0, flags := 0, epoch := 1, t0 := 0, tsolved := 0, tstop := 500,
    nfine := 8, dfine := 125, dcoarse := 250, viol := 0, modelid := 7,
    joints := [⟨0, List.replicate 32 ⟨0, 0, 0, 0⟩, List.replicate 16 (0, 0)⟩], ts := 1000000 }
def prob0 : Problem :=
  { epoch := 1, s := 1000000, ts := 1000000, modelid := 7, joints := [0], arms := [0], eX := List.replicate 4 0, eR := List.replicate 4 0,
    eK := List.replicate 8 0, nfine := 8, dfine := 125, dcoarse := 250, weights := [0, 0, 0, 0], refx := List.replicate 128 0,
    bB := List.replicate 4 0, bY := List.replicate 4 0, bLo := List.replicate 128 none, bHi := List.replicate 128 none, rows := [],
    warmX := List.replicate 128 0, warmY := List.replicate 128 0, cold := true, matchPm := 0, tstop := 500, x0 := [(0, 0, 0, 0)], bad := none }
def big : Iterate := ⟨List.replicate 128 (2 ^ 29), List.replicate 128 (2 ^ 29), List.replicate 128 (-(2 ^ 29))⟩
def solving (c : Iterate) : State := walls (planner 1 0) (fun x => { x with problem := some prob0, iterating := true, cur := c })
def built : State := m (kl (planner 1 0) (fun k => { k with prob := some { prob0 with s := mb.dev.s + mb.dev.ts } })) id
def ready (k : Option (Nat × Option Plan)) : State :=
  walls (pl (planner 1 0) (fun p => { p with servo := ⟨some plan0, none, false⟩ })) (fun x => { x with cand := k })
/-- The record of wall 0 on its way to receivers that have a plan. -/
def record (role1 : Nat) (acc : Bool) : State :=
  walls (pl (planner 1 role1) (fun p => { p with servo := ⟨some plan0, none, acc⟩, chanA := ⟨some plan0, none, acc⟩, phase := 2 }))
    (fun x => { x with record := some { plan0 with seq := 6, t0 := 1000000 } })
def ticked (s : State) : State := tm s (fun t => { t with ticked := true })
def unlatched (s : State) : State := sf s (fun x =>
  { x with a := { x.a with arms := x.a.arms.map (fun a => { a with latched := false }) }
           b := { x.b with arms := x.b.arms.map (fun a => { a with latched := false }) } })
def window : State :=
  m (planner 1 0) (fun d => { (d.putB SLV_WINDOW true) with planner := { d.planner with window := some (5000000, some 1) } })
def sepRec (t : Nat) : SepRecord := ⟨t, t + 1000000, 5, 1, 0, []⟩
def sepBuilt (s : State) (t : Nat) (late : Option Nat) : State :=
  m s (fun d => { d with commons := { d.commons with built := some (sepRec t), lateAt := late } })
def standing : State := pl (planner 3 0) (fun p => { p with standBeats := 3 })
def closedPort : State := walls (record 0 false) (fun x => { x with portClosed := true })
/-! Heathline with one node. -/

def sc1 : Sched := parseSched blobS
def heath : State :=
  tm (m (ht mb (fun h => { h with sched := some sc1, nodes := [⟨1, [], 0, true, false, [], none, [⟨0, 5, 6, 7, 8, 9, 10, 0, 0⟩], [], []⟩],
                                  ports := h.ports.map (fun p => { p with link := true }) }))
      (fun d => ((d.putB (HTL_RUN 1) true).put (HTL_NSTATE 1) 6).putB (HTL_JOINEN 1) true)) (fun t => { t with beatAt := 750000 })
def answered : State := ht heath (fun h => { h with nodes := h.nodes.map (fun n => { n with got := [0] }) })
def ended : State := ht heath (fun h => { h with ports := h.ports.map (fun p => { p with endSent := true }) })
def noLink : State := ht heath (fun h => { h with ports := h.ports.map (fun p => { p with link := false }) })
def pen : State := m heath (fun d => d.putB (HTL_PENP 1) true)
def node (n : Nat) (s : State) : State := m s (fun d => d.put (HTL_NSTATE 1) n)
def joining (n : Nat) : State :=
  node n (ht ended (fun h => { h with ports := h.ports.map (fun p => { p with exchange := some 1, exchanged := true }) }))
def slot0 : SlotEnt :=
  ((sc1.ports.getD 1 none).map (fun p => (p.modes.getD 0 []).headD ⟨0, 0, 0, 0, 0, 0, false, 0⟩)).getD ⟨0, 0, 0, 0, 0, 0, false, 0⟩
def addr1 : AddrEnt := ⟨1, 500, 1, 2, 10, 20⟩
def frame (a z : Nat) (bs : List Byte) : HtlFrame := ⟨a, z, 0x88B5, true, bs ++ leBytes 4 (crc32c bs)⟩
def resp (v : Nat) : List Byte :=
  pb 40 [(0, 1, 0x13), (1, 1, heath.dev.get (HTL_MODE 1)), (2, 1, 0), (3, 1, v), (4, 4, heath.dev.get HTL_BEAT), (8, 2, 24)]
def good : HtlFrame := frame (windowOpen slot0 addr1 + 5) (windowOpen slot0 addr1 + 10) (resp 1)
def other : HtlFrame := frame (windowOpen slot0 addr1 + 5) (windowOpen slot0 addr1 + 10) (resp 2)
def joinAt (n : Nat) : Nat := ((joining n).dev.joinWindow 1 ((sc1.ports.getD 1 none).getD ⟨[], [], 0, 0⟩) addr1).1
def answerAs (la n : Nat) (xs : List (Nat × Nat × Nat)) : HtlFrame := frame (joinAt n) (joinAt n + 3)
  (pb 32 ([(0, 1, 0x16), (1, 1, heath.dev.get (HTL_MODE 1)), (2, 1, 0xFF), (3, 1, la), (4, 4, heath.dev.get HTL_BEAT), (8, 2, 16), (0xC, 2, 500)] ++ xs))
def jointTx (n : Nat) : JointRt := { JointRt.fresh n with
  tx := some (5, 6), delivering := true, cmDone := some ⟨List.replicate 256 3, List.replicate 256 4, List.replicate 256 5, 0, 3, 777⟩ }
def servoAt (js : List JointRt) : State := sv mb (fun x => { x with params := some params, joints := js })
def points : State := servoAt [jointTx 3, { jointTx 4 with tx := none }]
def frozen : State := sv points (fun x => { x with frozen := true })
def allDone : State := servoAt [jointTx 3, { jointTx 4 with tx := none, done := true, trapped := 1, trapNow := true }]
def failed2 : State := m points (fun d => d.putB (SRV_FAILED 2) true)
def fcsBad : HtlFrame := { good with fcsOk := false }
def notOurs : HtlFrame := { good with etype := 1 }
def answer : Nat → List (Nat × Nat × Nat) → HtlFrame := answerAs 1
def syncAns : HtlFrame := answer 3 [(0xA, 1, 1)]
def probeAns : HtlFrame := answerAs 0xFE 1 [(16, 4, 1), (20, 4, 2), (28, 1, 1), (29, 1, 255)]
def wrongAns : HtlFrame := answerAs 0xFE 1 [(16, 4, 5), (20, 4, 2)]
def missed : State := servoAt [{ jointTx 4 with missing := true }]
/-! Safety channels. -/

def pairE (ty react : Nat) : SafPair := ⟨ty, react, if ty = 1 then 1 else 0, false, 0, 100, 0, 500, []⟩
def joint0 : SafJoint := ⟨0, 1, 0, false, 3000, 100, 100, 100, 100, [0, 0, 0], [2 ^ 30, 0, 0, 0]⟩
def saf0 (react : Nat) : SafSet :=
  { setid := 79, setcrc := 7, tb := 1, strb := 8, tgmiss := 1, hostack := true, top := 0, seppcrc := 5, utol := 1, hvhb := 0, thr := 0,
    hcoast := 0, hblind := 0, pairs := pairE 1 react :: pairE 2 0 :: pairE 3 0 :: List.replicate 13 (pairE 0 0), arms := [⟨0, 1, 0, 100, 50, [0, 0, 0], [2 ^ 30, 0, 0, 0]⟩],
    joints := [joint0], spheres := [], sensors := [] }
def pair0 : PairRt := ⟨true, 0, false, 0, false, false, false, .off, 0⟩
def pairDisc : PairRt := { pair0 with disc := true, two := .arming 3 }
def axis0 : SafAxis := ⟨0, 10, 0, some 4, true, false, none, 0, false, 9, 0, 0⟩
def chan (react : Nat) : Channel := { Channel.zero with
  set := some (saf0 react), pairs := pair0 :: pairDisc :: List.replicate 14 pair0,
  arms := List.replicate 8 ⟨.run, false, false, 0, 3⟩, axes := [axis0], cmd := 0x0101 }
/-- Both channels with a set in force and arm 0 in RUN. -/
def safe (f : Channel → Channel) : State := sf heath (fun x => { x with a := f (chan 0), b := f (chan 0), inForce := true })
def safeS (f : SafetySt → SafetySt) : State := sf (safe id) f
def noSet : State := sf heath (fun x => { x with a := { Channel.zero with pairs := List.replicate 16 pair0 }, b := Channel.zero })
def stopping : State := safe (fun c => { c with arms := List.replicate 8 ⟨.ss1, true, true, 0, 3⟩ })
def brakeDue : State := safe (fun c => { c with arms := List.replicate 8 ⟨.run, false, false, 0, 2⟩ })
def testing : State := safe (fun c => { c with clearing := 1 })
def changing : State := safe (fun c => { c with next := some (saf0 1) })
def resetDue : State := safeS (fun x =>
  { x with resetArms := 1, a := { x.a with judged := true, pairs := Channel.zero.pairs.map (fun p => { p with level := true }) }
           b := { x.b with judged := true, pairs := Channel.zero.pairs.map (fun p => { p with level := true }) } })
def recordless : State := safeS (fun x => { x with noRec := 2 })
def unlocked : State := safeS (fun x => { x with unlocked := true })
def verdict (b : List Byte) : List Byte := b ++ leBytes 2 (crc16 b)
def vGood : List Byte := verdict (pb 62 [(0, 4, heath.dev.get HTL_BEAT), (4, 4, 7)])
def sub (q : Nat) : List Byte := let b := pb 28 [(0, 2, q), (6, 4, 12)]; b ++ leBytes 4 (crc32 (1 :: b))
def unlinkedX : State := m live (fun d => d.putB CLK_XDIE false)
/-- Sub-telegrams handed over to both channels. -/
def handed (t : List (Nat × Nat × List Byte)) : State := safe (fun c => { c with tel := t })
def telGood : Nat × Nat × List Byte := (1, heath.dev.get HTL_BEAT, sub 5)
def telOld : Nat × Nat × List Byte := (1, heath.dev.get HTL_BEAT, sub 20)
def telSns : Nat × Nat × List Byte := (4, heath.dev.get HTL_BEAT, sub 5)
def sns0 : SafSensor := ⟨1, 4, [0, 0, 0], [2 ^ 30, 0, 0, 0]⟩
def safSns : SafSet := { saf0 0 with sensors := [sns0] }
def sensed : State := safe (fun c => { c with set := some safSns, sensors := [⟨1, some 3, [], 0⟩], tel := [telSns] })
/-! Field, axes, loops and the mains monitor. -/

/-- Channel 2 in a state at levels, with the configuration it started with. -/
def fb (st lvl : Nat) (c : FbCfg) (w : Option Nat) : State :=
  m (fl mb (fun x => { x with fb := updAt x.fb 2 (fun r => { r with cfg := c, x := 77, word := w }) }))
    (fun d => ((d.setReg (fioReg 2 0) 1).put (FIO_STATE 2) st).put (FIO_LEVEL 2) lvl)
def quad : FbCfg := ⟨1 + 32 * 2, 0, 0, 0, 0⟩
def ssi : FbCfg := ⟨3, 24, 5, 0, 0⟩
def loop (g : Dev → Dev) : State := m mb (fun d => g (((d.putB (HYS_EN 5) true).put (HYS_STALE 5) 4)))
def loopStale : State := fl (loop id) (fun x => { x with hys := x.hys.map (fun r => { r with stale := 9 }) })
def loopOwned : State := loop (fun d => d.putB (HYS_OWNED 5) true)
def mon (f : MainsSt → MainsSt) (g : Dev → Dev) : State := m host (fun d => { g (d.put MNS_RTEND 3) with mains := f d.mains })
def dip (calm : Nat) : State := mon (fun x => { x with dip := some ⟨3, 100, 500, 5, calm⟩ }) id
def riding : State := mon (fun x => { x with rt := some 5 }) id
def stuck : State := mon id (fun d => d.putB (MNS_STUCK 3) true)
def supply : State := mon id (fun d => (d.putB MNS_EN true).setReg 0xB850 0x00E64321)
def ampOf (s : State) : Nat → Nat := fun p => if p ∈ s.dev.phases ∧ s.dev.is (MNS_STUCK (s.dev.get (MNS_PH p))) = false
  then [(1000#16).toNat, (2400#16).toNat, (0#16).toNat].getD p 0 else 0
def cTime8 : Cmd := cTime 1 8 70000
def cTime17 : Cmd := cTime 1 17 70000
def limOk : Cmd := cLim 1 60000 65536
def limLow : Cmd := cLim 1 30000 65536
def limBad : Cmd := cLim 1 30000 65537
def segOk : Cmd := cSeg 0 2
def segShort : Cmd := cSeg 0 1
def segFar : Cmd := cSeg 1 2
def tgtOk : Cmd := cTgt 9
def tgtBad : Cmd := cTgt 0
def grpOk : Cmd := cGrp 0 2
def grpBad : Cmd := cGrp 0 1
def axNone : Cmd := cAxis 16
def axTwo : Cmd := cAxis 2
def profOk : Cmd := cProf 2
def profBad : Cmd := cProf 0
def hlOk : Cmd := cHl 64 5
def hlShort : Cmd := cHl 63 5
def hlNone : Cmd := cHl 64 0
def cReqIn : Cmd := cReq 0 3
def cReqOut : Cmd := cReq 1 3
def modeNone : Cmd := cMode 0
def modeOk : Cmd := cMode 2
def cRead3 : Cmd := cRead 3
def cRead1024 : Cmd := cRead 1024
def cLog0 : Cmd := cLog 0
def cLog2 : Cmd := cLog 2
def cTel1 : Cmd := cTel 1
def cTel7 : Cmd := cTel 7
def cDiag8 : Cmd := cDiag 8
def cDiag4 : Cmd := cDiag 4
def time8 : State := wc mb cTime8
def time17 : State := wc mb cTime17
def limOkS : State := wc mb limOk
def limLowS : State := wc mb limLow
def limBadS : State := wc mb limBad
def segOkS : State := wc mb segOk
def segShortS : State := wc mb segShort
def segFarS : State := wc mb segFar
def segGrpS : State := wc grouped segOk
def tgtOkS : State := wc mb tgtOk
def tgtBadS : State := wc mb tgtBad
def tgtGrpS : State := wc grouped tgtOk
def grpOkS : State := busy (wc waiting grpOk)
def grpIdleS : State := wc waiting grpOk
def grpBadS : State := wc waiting grpBad
def flushS : State := wc mb cFlush
def axNoneS : State := wc mb axNone
def axTwoS : State := wc mb axTwo
def profBadS : State := wc mb profBad
def hlOkS : State := wc mb hlOk
def hlShortS : State := wc mb hlShort
def hlNoneS : State := wc mb hlNone
def reqInS : State := wc mb cReqIn
def reqOutS : State := wc mb cReqOut
def relS : State := wc mb cRel
def loadS : State := wc mb cLoad
def schS : State := wc mb cSch
def srvS : State := wc mb cSrv
def safS : State := wc mb cSaf
def modeNoneS : State := wc schRun modeNone
def modeOkS : State := wc schRun modeOk
def cRead3S : State := wc host cRead3
def cRead1024S : State := wc host cRead1024
def cLog0S : State := wc host cLog0
def cLog2S : State := wc host cLog2
def cTel1S : State := wc host cTel1
def cTel7S : State := wc host cTel7
def cDiag8S : State := wc host cDiag8
def cDiag4S : State := wc host cDiag4
def axis0At : State := axis mb 0 id
def axis5At : State := axis mb 5 id
def axis6At : State := axis mb 6 id
def axisSkip : State := m axis6At (fun d => d.putB (AUX_PHSKIP 2) true)
def loopOn : State := loop id
def fb0 : State := fb 0 0 quad none
def fb2 : State := fb 2 0 quad none
def fb3 : State := fb 3 0 quad none
def fbSsi : State := fb 2 1 ssi (some 77)
def fbPlan : State := m fb2 (fun d => d.put SLV_PLSTATE 1)
def sepWaits : State := sepBuilt live 99999999 none
def plans : State := planner 1 0
def leaves : State := unlatched (planner 4 0)
def solveBig : State := solving big
def both : State := safe id
def readyN : State := ready none
def rec0 : State := record 0 false
def rec0A : State := record 0 true
def rec2 : State := record 2 false
def full : Limits := ⟨65536, 65536, 65536, 65536⟩
def sumOf (l : List Nat) : Nat := l.foldl (fun x y => x + y) 0
def layOf (c : Cmd) : Layout := ⟨c.u 0x18 1, c.u 0x19 1, c.u 0x1C 4⟩
def limOf (c : Cmd) : Limits := ⟨c.u 0x1C 4, c.u 0x20 4, c.u 0x24 4, c.u 0x28 4⟩
def farTgt : List Byte := List.replicate 4 127
def kOf (c : Cmd) : Nat → Nat := fun a => c.u (0x1A + a) 1
def qOf (c : Cmd) : Nat → List Seg := fun a =>
  if c.u 25 1 = 1 then (grpOkS.dev.queueAt model a grpOkS.dev.nextCheck).segs.filter (fun x => decide (x.tend ≤ c.u 40 8))
  else (grpOkS.dev.queueAt model a grpOkS.dev.nextCheck).segs
def eOf (c : Cmd) : Nat → List (List Byte) := fun a =>
  segEntries segs (sumOf (((bitsOf (c.u 24 1) 8).filter (fun x => decide (x < a))).map (kOf c))) (kOf c a)
def beatStart : State := ⟨[.trefLost, .clockLoss], Dev.zero⟩
/-- The image of a firmware container with the header of R444 for a length of 320 bytes. -/
theorem full_of (a : Nat) : full = (List.replicate 8 full).getD a full := by
  match a with
  | 0 | 1 | 2 | 3 | 4 | 5 | 6 | 7 | _ + 8 => rfl
def fbHall : State := fb 2 1 ⟨2, 0, 0, 0, 0⟩ none
theorem sat_of {β : Type} {x : Except Halt β} (h : (match x with | .error (.sat a b) => decide (a = 3 ∧ b = 0) | _ => false) = true) :
    x = .error (.sat 3 0) := by
  split at h
  · obtain ⟨rfl, rfl⟩ := of_decide_eq_true h; rfl
  · cases h
/-- The limits of an arm with those that wait. -/
def limNow (s : State) (a : Nat) : Limits :=
  match s.dev.kiln.limitsPend.reverse.find? (fun p => p.2.2.1 == a) with
  | some p => p.2.2.2
  | none => s.dev.kiln.limits.getD a full
theorem ok3_of {β γ δ : Type} {x : Except Halt (β × Except Halt γ)} {f : γ → Except Halt δ}
    (h : (match x with | .ok (_, .ok y) => (match f y with | .ok _ => true | _ => false) | _ => false) = true) :
    ∃ a y z, x = .ok (a, .ok y) ∧ f y = .ok z := by
  split at h
  · rename_i a y
    split at h
    · rename_i z hz; exact ⟨a, y, z, rfl, hz⟩
    · cases h
  · cases h
def itNone : Iterate := ⟨[], [], []⟩
def probNone : Problem :=
  { prob0 with joints := [], refx := [], bLo := [], bHi := [], bB := [], bY := [], eX := [], eR := [], warmX := [], warmY := [] }
def solveNone : State := walls (planner 1 0) (fun x => { x with problem := some probNone, iterating := true, cur := itNone })
/-- An entry that is there and meets a test, found by evaluation. -/
theorem ex1_of {α : Type} {o : Option α} {p : α → Prop} [DecidablePred p] (h : o.any (fun x => decide (p x)) = true) :
    ∃ x, o = some x ∧ p x := by
  cases o with
  | none => cases h
  | some x => exact ⟨x, rfl, of_decide_eq_true h⟩
theorem ex2_of {α β : Type} {o : Option α} {q : α → Option β} {p : α → β → Prop} [∀ x, DecidablePred (p x)]
    (h : o.any (fun x => (q x).any (fun y => decide (p x y))) = true) : ∃ x y, o = some x ∧ q x = some y ∧ p x y := by
  cases o with
  | none => cases h
  | some x =>
    cases hq : q x with
    | none => simp [hq] at h
    | some y => exact ⟨x, y, rfl, hq, by simpa [hq] using h⟩

/-! ## Terms that are ill formed, one for each check -/

theorem test_wf_laneTestDone : (Instr.laneTestDone 0 [(8, 0)] false .failed).wf = false ∧
    (Instr.laneTestDone 0 [(7, 17)] false .failed).wf = false ∧ (Instr.laneTestDone 0 [(7, 16)] false .failed).wf = true := by decide
theorem test_wf_imageVerifyDone : (Instr.imageVerifyDone .failed [⟨256, 0, 0, 0⟩]).wf = false ∧
    (Instr.imageVerifyDone .failed [⟨255, 4, 0, 0⟩]).wf = false ∧ (Instr.imageVerifyDone .failed [⟨255, 3, 16, 0⟩]).wf = false ∧
    (Instr.imageVerifyDone .failed [⟨255, 3, 15, 65536⟩]).wf = false ∧
    (Instr.imageVerifyDone .failed [⟨255, 3, 15, 65535⟩]).wf = true := by decide
theorem test_wf_bar0InvalidAccess : (Instr.bar0InvalidAccess 0 0 true).wf = false := by decide
theorem test_wf_refetchDone : (Instr.refetchDone 3 .failed).wf = false ∧ (Instr.refetchDone 5 .failed).wf = true := by decide
theorem test_wf_outerIteration : (Instr.outerIteration 0 [⟨8, 0, .shl 1 2, 0, true⟩] []).wf = false ∧
    (Instr.outerIteration 0 [⟨7, 17, .shl 1 2, 0, true⟩] []).wf = false ∧ (Instr.outerIteration 0 [⟨7, 16, .shl 1 2, 0, true⟩] []).wf = true := by decide
theorem test_wf_transferRequest :
    (Instr.transferRequest 0 0 65 none).wf = false ∧ (Instr.transferRequest 0 0 0 none).wf = false := by decide
theorem test_wf_lockRequest : (Instr.lockRequest 0 0 272).wf = false ∧ (Instr.lockRequest 1 0 256).wf = false ∧
    (Instr.lockRequest 2 0 256).wf = false ∧ (Instr.lockRequest 2 0 255).wf = true := by decide
theorem test_wf_slots : (Instr.pollSend 0 128).wf = false ∧ (Instr.respWindowClose 0 128).wf = false := by decide
theorem test_wf_frames :
    (Instr.respReceive 0 ⟨5, 4, 0x88B5, true, []⟩).wf = false ∧ (Instr.joinRespReceive 0 ⟨5, 4, 0x88B5, true, []⟩).wf = false := by
  decide
theorem test_wf_engine : (Instr.sha 0 0 64).wf = false ∧ (Instr.sha 0 0 (-64)).wf = false ∧ (Instr.loop 0 0 1).wf = false ∧
    (Instr.loop 0 1 0).wf = false := by decide
theorem test_wf_taskWait :
    (Instr.taskWait 0 (.source 256) none).wf = false ∧ (Instr.taskWait 0 (.semaphore 64) none).wf = false := by decide
theorem test_wf_subtelegram : (Instr.subtelegramReceive false true).wf = false ∧ (Instr.subtelegramReceive true true).wf = true := by decide
theorem test_wf_ptp : (Instr.announceReceive 0 (hdr 256) ⟨[1, 2, 3, 4, 5], 9, 1⟩).wf = false ∧
    (Instr.announceReceive 0 (hdr 255) ⟨[1], 9, 1⟩).wf = false ∧ (Instr.syncReceive 0 false (hdr 256) ⟨0, 0⟩).wf = false ∧
    (Instr.syncReceive 0 false (hdr 255) ⟨0, 1000000000⟩).wf = false ∧ (Instr.delayRespReceive 0 (hdr 255) (2 ^ 80) ⟨0, 0⟩).wf = false ∧
    (Instr.syncReceive 0 false (hdr 255) ⟨0, 999999999⟩).wf = true := by decide
theorem test_wf_tcForward : (Instr.tcForward 0 false (some (2 ^ 63)) 0).wf = false := by decide

/-- No row of the table has bits: no word spells a command, and putting one in front changes nothing. -/
theorem test_decode_none : decodeTableWord 32 0 = none ∧ decodeTableWord 8 255 = none ∧ live.withFetchWord 32 5 = live := by decide

/-! ## The hypotheses of the statements are met. -/

/-- The hypotheses of `Obligations.NoRunStops`, clause by clause. -/
theorem wit_NoRunStops : ∃ cs rest : List Instr, beatStart.pending = cs ++ rest ∧
    cs.length = 2 := ⟨[.trefLost, .clockLoss], [], rfl, rfl⟩

/-- The hypotheses of `Obligations.QueueStaysWellFormed`, clause by clause. -/
theorem wit_QueueStaysWellFormed : (∀ c ∈ live.pending, c.wf = true) ∧ ∃ t, step live = .next t := ⟨by decide, _, rfl⟩

/-- The hypotheses of `Obligations.MainDieResets`, clause by clause. -/
theorem wit_MainDieResets :
    (live.dev.boot.vaux = true ∧ live.dev.boot.hib < 2 ∧ live.dev.boot.railsOut = false) ∧
    (live.dev.resetHeld = false ∧ live.dev.boot.perst = false) ∧
    live.dev.up = true ∧
    (live.dev.linked = true ∧ (0x57520001#32).toNat % 2 = 1 ∧ (0x57520001#32).toNat / 65536 = 22354) ∧
    [0, 3, 4, 5, 6].contains (3#8).toNat = true :=
  ⟨by decide, by decide, by decide, by decide, by decide⟩

/-- The hypotheses of `Obligations.MainDieLeavesReset`, clause by clause. -/
theorem wit_MainDieLeavesReset :
    (hold0.dev.get TST_STAGE = 0 ∧ hold0.dev.boot.vaux = true ∧ hold0.dev.boot.railsOut = true ∧ hold0.dev.boot.hib ≠ 3) ∧
    hold0.dev.get TST_STAGE = 0 ∧
    (hold0.dev.get TST_STAGE = 0 ∧ [0, 3, 4, 5, 6].contains (2#8).toNat = false) :=
  ⟨by decide, by decide, by decide⟩

/-- The hypotheses of `Obligations.BootStages`, clause by clause. -/
theorem wit_BootStages :
    (boot1.dev.get TST_STAGE = 1 ∧ boot1.dev.is CLK_TIMELK = false) ∧
    (boot2.dev.up = true ∧ boot2.dev.get TST_STAGE = 2) ∧
    (boot3.dev.up = true ∧ boot3.dev.get TST_STAGE = 3 ∧ bitOf boot3.dev.boot.laneLeft (0 + 2) = true) :=
  ⟨by decide, by decide, by decide⟩

/-- The hypotheses of `Obligations.ClocksAndLink`, clause by clause. -/
theorem wit_ClocksAndLink :
    (live.dev.get TST_STAGE ≠ 0 ∧ live.dev.is CLK_TIMELK = false) ∧
    live.dev.get TST_STAGE ≠ 0 ∧
    (live.dev.get TST_STAGE ≠ 0 ∧ live.dev.hedgeUp = true) ∧
    (timed.dev.get TST_STAGE ≠ 0 ∧ timed.dev.is CLK_TIMELK = true ∧ timed.dev.is CLK_TIMEHOLD = false) ∧
    (heldOver.dev.get TST_STAGE ≠ 0 ∧ heldOver.dev.is CLK_TIMEHOLD = true) :=
  ⟨by decide, by decide, by decide, by decide, by decide⟩

/-- The hypotheses of `Obligations.HibernatePath`, clause by clause. -/
theorem wit_HibernatePath :
    (armable.dev.linked = true ∧ armable.dev.boot.hib = 0 ∧ armable.dev.hibOk = true) ∧
    5#16 ≠ 18498 ∧
    (serving.dev.linked = true ∧ serving.dev.hibOk = false) ∧
    (arming.dev.up = true ∧ arming.dev.boot.hib = 1 ∧ arming.dev.hibOk = true) ∧
    (w1.dev.boot.vaux = true ∧ w1.dev.boot.hib = 2) ∧
    (w2.dev.boot.vaux = true ∧ w2.dev.boot.hib = 3) :=
  ⟨by decide, by decide, by decide, by decide, by decide, by decide⟩

/-- The hypotheses of `Obligations.TestAccessAndTemperature`, clause by clause. -/
theorem wit_TestAccessAndTemperature :
    live.dev.hedgeUp = true ∧
    live.dev.up = true :=
  ⟨by decide, by decide⟩

/-- The hypotheses of `Obligations.RegisterErrorRaises`, clause by clause. -/
theorem wit_RegisterErrorRaises :
    (3 < 16 ∧ live.dev.get (GLB_BLKERR 3) = 0) ∧
    (3 < 16 ∧ live.dev.get (GLB_BLKERR 3) = 0 ∧ 15 < 16 ∧ 15 ≠ 3) ∧
    (3 < 16 ∧ faulty.dev.get (GLB_BLKERR 3) = 1) :=
  ⟨by decide, by decide, by decide⟩

/-- The hypotheses of `Obligations.CountersStopAndClear`, clause by clause. -/
theorem wit_CountersStopAndClear :
    (∃ x0, findReg 0x30B0 = some x0 ∧ x0.kind = RegKind.counter ∧ BitVec.toNat (live.dev.reg 0x30B0) < 2 ^ 31 - 2) ∧
    (∃ x0, findReg 0x30B0 = some x0 ∧ x0.kind = RegKind.counter ∧ BitVec.toNat (counted.dev.reg 0x30B0) % 2 ^ 31 ≥ 2 ^ 31 - 2) ∧
    (∃ x0, findReg 0x30B0 = some x0 ∧ x0.kind = RegKind.counter ∧ (0#32).toNat % 2 ^ 31 = 0) ∧
    (∃ x0, findReg 0x30B0 = some x0 ∧ x0.kind = RegKind.counter ∧ (0#32).toNat % 2 ^ 31 = 0 ∧ 5#32 ≠ 0) ∧
    (∃ x0, findReg 0x30B0 = some x0 ∧ x0.kind = RegKind.counter ∧ (5#32).toNat % 2 ^ 31 ≠ 0) ∧
    (∃ x0, findReg 0x30B0 = some x0 ∧ x0.kind = RegKind.counter) :=
  ⟨⟨_, rfl, by decide⟩, ⟨_, rfl, by decide⟩, ⟨_, rfl, by decide⟩, ⟨_, rfl, by decide⟩, ⟨_, rfl, by decide⟩, ⟨_, rfl, by decide⟩⟩

/-- The hypotheses of `Obligations.InvalidAccesses`, clause by clause. -/
theorem wit_InvalidAccesses :
    (live.dev.linked = true ∧ (4 ≠ 4 ∨ occupied (0xFFFC#16).toNat = false)) ∧
    (live.dev.linked = true ∧ occupied (0xFFFC#16).toNat = false) :=
  ⟨by decide, by decide⟩

/-- The hypotheses of `Obligations.RegisterWriteByAccessType`, clause by clause. -/
theorem wit_RegisterWriteByAccessType :
    live.dev.linked = true ∧
    (live.dev.linked = true ∧ (0x00000400#32).toNat % 32 = 0 ∧ 4 ≤ (0x00000400#32).toNat / 256 % 256) ∧
    (live.dev.linked = true ∧ (0xA6E4#16).toNat = 42500 + 32 * 7 ∧ (0xA6E8#16).toNat = 42504 + 32 * 7) :=
  ⟨by decide, by decide, by decide⟩

/-- The hypotheses of `Obligations.LatchedReads`, clause by clause. -/
theorem wit_LatchedReads :
    (∃ x0, findReg (0xA604#16).toNat = some x0 ∧ live.dev.linked = true ∧ x0.kind = RegKind.low64 ∧ 0xA604#16 ≠ 12320) ∧
    (∃ x0, findReg (0x3024#16).toNat = some x0 ∧ live.dev.linked = true ∧ x0.kind = RegKind.high64) ∧
    live.dev.linked = true :=
  ⟨⟨_, rfl, by decide⟩, ⟨_, rfl, by decide⟩, by decide⟩

/-- The hypotheses of `Obligations.TimeControlWrites`, clause by clause. -/
theorem wit_TimeControlWrites :
    live.dev.linked = true ∧
    (live.dev.linked = true ∧ (0x00000505#32).toNat % 256 = (0x00000505#32).toNat / 256 % 256) ∧
    (live.dev.linked = true ∧ (0x00007F00#32).toNat % 256 ≠ (0x00007F00#32).toNat / 256 % 256 ∧ (0x00007F00#32).toNat % 256 < 128 ∧
      (0x00007F00#32).toNat / 256 % 256 < 128) :=
  ⟨by decide, by decide, by decide⟩

/-- The hypotheses of `Obligations.PtpSlave`, clause by clause. -/
theorem wit_PtpSlave :
    (∃ x0, slave.dev.time.domains[0]? = some x0 ∧ slave.dev.up = true ∧ slave.dev.time.started = true ∧
      slave.dev.domainsOf (hdr 3) = [0] ∧ PtpHdrOk (hdr 3) = true ∧ (⟨[1, 2, 3, 4, 5], 9, 1⟩ : AnnBody).steps < 255 ∧
      (hdr 3).clockId ≠ slave.dev.clockId) ∧
    (∃ x0, slave.dev.time.domains[0]? = some x0 ∧ slave.dev.up = true ∧ slave.dev.time.started = true ∧
      slave.dev.domainsOf badHdr = [0] ∧ PtpHdrOk badHdr = false) ∧
    (∃ x0, slave.dev.time.domains[0]? = some x0 ∧ x0.master = some (0, (hdr 3).source) ∧ slave.dev.up = true ∧
      slave.dev.time.started = true ∧ slave.dev.domainsOf (hdr 3) = [0] ∧ PtpHdrOk (hdr 3) = true ∧ -7 ≤ (hdr 3).logInt ∧
      (hdr 3).logInt ≤ 1 ∧ (hdr 3).twoStep = true) ∧
    (∃ x0 x1, slave.dev.time.domains[0]? = some x0 ∧ x0.master = some x1 ∧ slave.dev.up = true ∧ slave.dev.time.started = true) ∧
    (∃ x0 x1 x2, slave.dev.time.domains[0]? = some x0 ∧ x0.master = some (0, (hdr 3).source) ∧ x0.req = some ((hdr 3).seq, x1) ∧
      x0.last = some x2 ∧ slave.dev.up = true ∧ slave.dev.time.started = true ∧ slave.dev.domainsOf (hdr 3) = [0] ∧
      PtpHdrOk (hdr 3) = true) :=
  ⟨⟨_, rfl, by decide⟩, ⟨_, rfl, by decide⟩, ⟨_, rfl, rfl, by decide⟩, ⟨_, _, rfl, rfl, by decide⟩, ⟨_, _, _, rfl, rfl, rfl, rfl,
    by decide⟩⟩

/-- The hypotheses of `Obligations.PlantTimeouts`, clause by clause. -/
theorem wit_PlantTimeouts :
    (slave.dev.up = true ∧ (slave.dev.dom 0).master.isSome = true ∧ (slave.dev.get (TIM_DSTATE 0) = 2 ∨
      slave.dev.get (TIM_DSTATE 0) = 3)) ∧
    (slave.dev.up = true ∧ slave.dev.get (TIM_DSTATE 0) = 3) ∧
    (slave.dev.up = true ∧ slave.dev.time.plantUp.getD 0 false ≠ true) ∧
    (∃ x0, held.dev.time.holdFrom = some x0 ∧ held.dev.up = true ∧ held.dev.time.holdLong = false) ∧
    (held.dev.up = true ∧ held.dev.is CLK_TIMELK = true ∧ held.dev.is TIM_TCEN = true) :=
  ⟨by decide, by decide, by decide, ⟨_, rfl, by decide⟩, by decide⟩

/-- The hypotheses of `Obligations.EngineAlu`, clause by clause. -/
theorem wit_EngineAlu :
    (∃ x0, e4.dev.bank? 1 = some x0 ∧ e4.dev.runs 1 29 none = true) ∧
    (∃ x0, e4.dev.bank? 1 = some x0 ∧ e4.dev.runs 1 30 none = true) ∧
    (∃ x0, e4.dev.bank? 1 = some x0 ∧ e4.dev.runs 1 31 none = true) ∧
    (∃ x0, e4.dev.bank? 1 = some x0 ∧ e4.dev.runs 1 32 none = true) ∧
    (∃ x0, e4.dev.bank? 1 = some x0 ∧ e4.dev.runs 1 33 none = true) ∧
    (∃ x0, e4.dev.bank? 1 = some x0 ∧ e4.dev.runs 1 34 none = true) ∧
    (∃ x0, e4.dev.bank? 1 = some x0 ∧ e4.dev.runs 1 35 none = true) ∧
    (∃ x0, e4.dev.bank? 1 = some x0 ∧ e4.dev.runs 1 36 none = true) :=
  ⟨⟨_, rfl, by decide⟩, ⟨_, rfl, by decide⟩, ⟨_, rfl, by decide⟩, ⟨_, rfl, by decide⟩, ⟨_, rfl, by decide⟩, ⟨_, rfl, by decide⟩, ⟨_,
    rfl, by decide⟩, ⟨_, rfl, by decide⟩⟩

/-- The hypotheses of `Obligations.EngineAccumulators`, clause by clause. -/
theorem wit_EngineAccumulators :
    (∃ x0, e2.dev.bank? 1 = some x0 ∧ e2.dev.runs 1 16 none = true) ∧
    (∃ x0, e2.dev.bank? 1 = some x0 ∧ e2.dev.runs 1 17 none = true) ∧
    (∃ x0, e2.dev.bank? 1 = some x0 ∧ e2.dev.runs 1 18 none = true) ∧
    (∃ x0, e2.dev.bank? 1 = some x0 ∧ e2.dev.runs 1 19 none = true) ∧
    (∃ x0, e2.dev.bank? 1 = some x0 ∧ e2.dev.runs 1 21 none = true) ∧
    (∃ x0, e2.dev.bank? 1 = some x0 ∧ e2.dev.runs 1 23 none = true) ∧
    (∃ x0, e2.dev.bank? 1 = some x0 ∧ e2.dev.runs 1 24 none = true) ∧
    (∃ x0, e2.dev.bank? 1 = some x0 ∧ e2.dev.runs 1 25 none = true) ∧
    (∃ x0, e2.dev.bank? 1 = some x0 ∧ e2.dev.runs 1 22 none = true) :=
  ⟨⟨_, rfl, by decide⟩, ⟨_, rfl, by decide⟩, ⟨_, rfl, by decide⟩, ⟨_, rfl, by decide⟩, ⟨_, rfl, by decide⟩, ⟨_, rfl, by decide⟩, ⟨_,
    rfl, by decide⟩, ⟨_, rfl, by decide⟩, ⟨_, rfl, by decide⟩⟩

/-- The hypotheses of `Obligations.EngineRegisters`, clause by clause. -/
theorem wit_EngineRegisters :
    (∃ x0, e1.dev.bank? 1 = some x0 ∧ e1.dev.runs 1 0 none = true) ∧
    (∃ x0, e1.dev.bank? 1 = some x0 ∧ e1.dev.runs 1 6 none = true) ∧
    (∃ x0, e1.dev.bank? 1 = some x0 ∧ e1.dev.runs 1 7 none = true) ∧
    (∃ x0, e1.dev.bank? 1 = some x0 ∧ e1.dev.runs 1 8 none = true) ∧
    (∃ x0, e1.dev.bank? 1 = some x0 ∧ e1.dev.runs 1 9 none = true) ∧
    (∃ x0, e1.dev.bank? 1 = some x0 ∧ e1.dev.runs 1 10 none = true) ∧
    (∃ x0, e1.dev.bank? 1 = some x0 ∧ e1.dev.runs 1 12 none = true) ∧
    (∃ x0, e1.dev.bank? 1 = some x0 ∧ e1.dev.runs 1 13 none = true) ∧
    (∃ x0, e1.dev.bank? 1 = some x0 ∧ e1.dev.runs 1 14 none = true) ∧
    (∃ x0, e1.dev.bank? 1 = some x0 ∧ e1.dev.runs 1 15 none = true) ∧
    (∃ x0, e1.dev.bank? 1 = some x0 ∧ e1.dev.runs 1 38 none = true) ∧
    (∃ x0, e1.dev.bank? 1 = some x0 ∧ e1.dev.runs 1 56 none = true) ∧
    (∃ x0, e1.dev.bank? 1 = some x0 ∧ e1.dev.runs 1 57 none = true) ∧
    (∃ x0, e1.dev.bank? 1 = some x0 ∧ e1.dev.runs 1 26 none = true) ∧
    (∃ x0, e1.dev.bank? 1 = some x0 ∧ e1.dev.runs 1 37 none = true) ∧
    (∃ x0 x1, e1.dev.bank? 1 = some x0 ∧ modPtr (x0.ptr 0) (x0.pd.getD 0 0) (x0.b.getD 0 0) (5#12).toInt = some x1 ∧
      e1.dev.runs 1 11 none = true) :=
  ⟨⟨_, rfl, by decide⟩, ⟨_, rfl, by decide⟩, ⟨_, rfl, by decide⟩, ⟨_, rfl, by decide⟩, ⟨_, rfl, by decide⟩, ⟨_, rfl, by decide⟩, ⟨_,
    rfl, by decide⟩, ⟨_, rfl, by decide⟩, ⟨_, rfl, by decide⟩, ⟨_, rfl, by decide⟩, ⟨_, rfl, by decide⟩, ⟨_, rfl, by decide⟩, ⟨_, rfl,
    by decide⟩, ⟨_, rfl, by decide⟩, ⟨_, rfl, by decide⟩, ⟨_, _, rfl, rfl, by decide⟩⟩

/-- The hypotheses of `Obligations.EngineLoads`, clause by clause. -/
theorem wit_EngineLoads :
    (∃ x0 x1, e1.dev.bank? 1 = some x0 ∧ x0.post 0 PostMod.inc = some x1 ∧ e1.dev.runs 1 1 (some PostMod.inc) = true ∧
      pdMode (x0.pd.getD 0 0) ≠ 3 ∧ okWm (e1.dev.regions 1 x0.slot) (x0.ptr 0) = true) ∧
    (∃ x0 x1, e1.dev.bank? 1 = some x0 ∧ x0.post 0 PostMod.inc = some x1 ∧ e1.dev.runs 1 2 (some PostMod.inc) = true ∧
      pdMode (x0.pd.getD 0 0) ≠ 3 ∧ okEm (e1.dev.regions 1 x0.slot) x0.slot (x0.ptr 0) = true) ∧
    (∃ x0 x1, e1.dev.bank? 1 = some x0 ∧ x0.post 7 PostMod.inc = some x1 ∧ e1.dev.runs 1 5 (some PostMod.inc) = true ∧
      pdMode (x0.pd.getD 7 0) ≠ 3 ∧ okCm (e1.dev.regions 1 x0.slot) (x0.ptr 7) = true) :=
  ⟨⟨_, _, rfl, rfl, by decide⟩, ⟨_, _, rfl, rfl, by decide⟩, ⟨_, _, rfl, rfl, by decide⟩⟩

/-- The hypotheses of `Obligations.EngineStores`, clause by clause. -/
theorem wit_EngineStores :
    (∃ x0 x1, e5.dev.bank? 1 = some x0 ∧ x0.post 0 PostMod.inc = some x1 ∧ pdMode (x0.pd.getD 0 0) ≠ 3 ∧
      okWm (e5.dev.regions 1 x0.slot) (x0.ptr 0) = true ∧ e5.dev.runs 1 3 (some PostMod.inc) = true) ∧
    (∃ x0 x1, e5.dev.bank? 1 = some x0 ∧ x0.post 0 PostMod.inc = some x1 ∧ pdMode (x0.pd.getD 0 0) ≠ 3 ∧
      okWm (e5.dev.regions 1 x0.slot) (x0.ptr 0) = true ∧ e5.dev.runs 1 27 (some PostMod.inc) = true) ∧
    (∃ x0 x1, e5.dev.bank? 1 = some x0 ∧ x0.post 0 PostMod.inc = some x1 ∧ pdMode (x0.pd.getD 0 0) ≠ 3 ∧
      okEm (e5.dev.regions 1 x0.slot) x0.slot (x0.ptr 0) = true ∧ engineWord x0.slot (x0.ptr 0) = false ∧
      e5.dev.runs 1 4 (some PostMod.inc) = true) ∧
    (∃ x0 x1, e5.dev.bank? 1 = some x0 ∧ x0.post 0 PostMod.inc = some x1 ∧ pdMode (x0.pd.getD 0 0) ≠ 3 ∧
      okEm (e5.dev.regions 1 x0.slot) x0.slot (x0.ptr 0) = true ∧ engineWord x0.slot (x0.ptr 0) = false ∧
      e5.dev.runs 1 28 (some PostMod.inc) = true) :=
  ⟨⟨_, _, rfl, rfl, by decide⟩, ⟨_, _, rfl, rfl, by decide⟩, ⟨_, _, rfl, rfl, by decide⟩, ⟨_, _, rfl, rfl, by decide⟩⟩

/-- The hypotheses of `Obligations.EngineMultiplyMemory`, clause by clause. -/
theorem wit_EngineMultiplyMemory :
    (∃ x0 x1 x2 x3, e1.dev.bank? 1 = some x0 ∧ x0.post 0 PostMod.none = some x1 ∧ x1.post 0 PostMod.none = some x2 ∧
      x2.post 7 PostMod.none = some x3 ∧ pdMode (x0.pd.getD 0 0) ≠ 3 ∧ pdMode (x0.pd.getD 0 0) ≠ 3 ∧ pdMode (x0.pd.getD 7 0) ≠ 3 ∧
      okWm (e1.dev.regions 1 x0.slot) (x0.ptr 0) = true ∧ okEm (e1.dev.regions 1 x0.slot) x0.slot (x0.ptr 0) = true ∧
      e1.dev.runs 1 20 none = true) ∧
    (∃ x0 x1 x2 x3, e1.dev.bank? 1 = some x0 ∧ x0.post 0 PostMod.none = some x1 ∧ x1.post 0 PostMod.none = some x2 ∧
      x2.post 7 PostMod.none = some x3 ∧ pdMode (x0.pd.getD 0 0) ≠ 3 ∧ pdMode (x0.pd.getD 0 0) ≠ 3 ∧ pdMode (x0.pd.getD 7 0) ≠ 3 ∧
      okWm (e1.dev.regions 1 x0.slot) (x0.ptr 0) = true ∧ okEm (e1.dev.regions 1 x0.slot) x0.slot (x0.ptr 0) = true ∧
      e1.dev.runs 1 49 none = true ∧ okWm (e1.dev.regions 1 x0.slot) (x0.ptr 0 + 1) = true) ∧
    (∃ x0 x1 x2 x3, e1.dev.bank? 1 = some x0 ∧ x0.post 0 PostMod.none = some x1 ∧ x1.post 0 PostMod.none = some x2 ∧
      x2.post 7 PostMod.none = some x3 ∧ (x0.cv = true → okCm (e1.dev.regions 1 x0.slot) (x0.ptr 7 % 2 ^ 14) = true) ∧
      pdMode (x0.pd.getD 0 0) ≠ 3 ∧ pdMode (x0.pd.getD 0 0) ≠ 3 ∧ pdMode (x0.pd.getD 7 0) ≠ 3 ∧
      okWm (e1.dev.regions 1 x0.slot) (x0.ptr 0) = true ∧ okEm (e1.dev.regions 1 x0.slot) x0.slot (x0.ptr 0) = true ∧
      e1.dev.runs 1 48 none = true) ∧
    (∃ x0 x1 x2 x3, e1.dev.bank? 1 = some x0 ∧ x0.post 0 PostMod.none = some x1 ∧ x1.post 0 PostMod.none = some x2 ∧
      x2.post 7 PostMod.none = some x3 ∧ (x0.cv = true → okCm (e1.dev.regions 1 x0.slot) (x0.ptr 7 % 2 ^ 14) = true) ∧
      pdMode (x0.pd.getD 0 0) ≠ 3 ∧ pdMode (x0.pd.getD 0 0) ≠ 3 ∧ pdMode (x0.pd.getD 7 0) ≠ 3 ∧
      okWm (e1.dev.regions 1 x0.slot) (x0.ptr 0) = true ∧ okEm (e1.dev.regions 1 x0.slot) x0.slot (x0.ptr 0) = true ∧
      e1.dev.runs 1 50 none = true ∧ okWm (e1.dev.regions 1 x0.slot) (x0.ptr 0 + 1) = true ∧
      okEm (e1.dev.regions 1 x0.slot) x0.slot (x0.ptr 0 + 1) = true ∧ engineWord x0.slot (x0.ptr 0 + 1) = false) :=
  ⟨⟨_, _, _, _, rfl, rfl, rfl, rfl, by decide⟩, ⟨_, _, _, _, rfl, rfl, rfl, rfl, by decide⟩, ⟨_, _, _, _, rfl, rfl, rfl, rfl,
    fun _ => rfl, by decide⟩, ⟨_, _, _, _, rfl, rfl, rfl, rfl, fun _ => rfl, by decide⟩⟩

/-- The hypotheses of `Obligations.EngineButterfly`, clause by clause. -/
theorem wit_EngineButterfly :
    ∃ b b1 b2 b3 : Bank, e6.dev.bank? 1 = some b ∧ b.post 0 .inc = some b1 ∧ b1.post 1 .inc = some b2 ∧ b2.post 7 .inc = some b3 ∧
      (∀ n, n = 0 ∨ n = 1 ∨ n = 7 → pdMode (b.pd.getD n 0) ≠ 3) ∧
      (∀ n, n = 0 ∨ n = 1 → okWm (e6.dev.regions 1 b.slot) (b.ptr n) = true ∧
        okEm (e6.dev.regions 1 b.slot) b.slot (b.ptr n) = true ∧ engineWord b.slot (b.ptr n) = false) ∧
      (∀ n, n = 0 ∨ n = 1 → okCm (e6.dev.regions 1 b.slot) ((b.ptr 7 + n) % 2 ^ 14) = true) ∧
      e6.dev.runs 1 51 none = true ∧ b.cv = true ∧ b.ptr 0 ≠ b.ptr 1 :=
  ⟨_, _, _, _, rfl, rfl, rfl, rfl, by rintro n (rfl | rfl | rfl) <;> decide, by rintro n (rfl | rfl) <;> decide,
    by rintro n (rfl | rfl) <;> decide, by decide⟩

/-- The hypotheses of `Obligations.EngineControlFlow`, clause by clause. -/
theorem wit_EngineControlFlow :
    (∃ x0, e1.dev.bank? 1 = some x0 ∧ e1.dev.runs 1 64 none = true) ∧
    (∃ x0, e1.dev.bank? 1 = some x0 ∧ e1.dev.runs 1 65 none = true) ∧
    (∃ x0, e1.dev.bank? 1 = some x0 ∧ e1.dev.runs 1 66 none = true ∧ x0.stack.length < 8) ∧
    (∃ x0, e1.dev.bank? 1 = some x0 ∧ e1.dev.runs 1 71 none = true) ∧
    (∃ x0, e1.dev.bank? 1 = some x0) ∧
    (∃ x0, e1.dev.bank? 1 = some x0 ∧ (x0.la = false ∨ x0.pc ≠ x0.le)) ∧
    (∃ x0 x1, e2.dev.bank? 1 = some x0 ∧ x0.stack = x1 :: x0.stack.tail ∧ e2.dev.runs 1 67 none = true) ∧
    (∃ x0, e2.dev.bank? 1 = some x0 ∧ x0.la = true ∧ ((8198#14).toNat < x0.ls ∨ x0.le < (8198#14).toNat)) ∧
    (∃ x0, e2.dev.bank? 1 = some x0 ∧ x0.la = true ∧ x0.ls ≤ (8196#14).toNat ∧ (8196#14).toNat ≤ x0.le) ∧
    (∃ x0, e2.dev.bank? 1 = some x0 ∧ x0.la = true ∧ x0.pc = x0.le ∧ 1 < x0.lc) ∧
    (∃ x0, e3.dev.bank? 1 = some x0 ∧ x0.la = true ∧ x0.pc = x0.le ∧ x0.lc ≤ 1) :=
  ⟨⟨_, rfl, by decide⟩, ⟨_, rfl, by decide⟩, ⟨_, rfl, by decide⟩, ⟨_, rfl, by decide⟩, ⟨_, rfl⟩, ⟨_, rfl, by decide⟩, ⟨_, _, rfl, rfl,
    by decide⟩, ⟨_, rfl, by decide⟩, ⟨_, rfl, by decide⟩, ⟨_, rfl, by decide⟩, ⟨_, rfl, by decide⟩⟩

/-- The hypotheses of `Obligations.EngineTraps`, clause by clause. -/
theorem wit_EngineTraps :
    (∃ x0 x1, e1.dev.engine 1 = some x0 ∧ e1.dev.bank? 1 = some x1 ∧ x0.handlers = [] ∧ x1.slot = 7 ∧ (pdMode (x1.pd.getD 5 0) = 3 ∨
      okWm (e1.dev.regions 1 7) (x1.ptr 5) = false) ∧ e1.dev.runs 1 1 (some PostMod.none) = true) ∧
    (∃ x0 x1, e1.dev.engine 1 = some x0 ∧ e1.dev.bank? 1 = some x1 ∧ x0.handlers = [] ∧ x1.slot = 7 ∧ (pdMode (x1.pd.getD 5 0) = 3 ∨
      okWm (e1.dev.regions 1 7) (x1.ptr 5) = false) ∧ e1.dev.runs 1 3 (some PostMod.none) = true) ∧
    (∃ x0 x1, e1.dev.engine 1 = some x0 ∧ e1.dev.bank? 1 = some x1 ∧ x0.handlers = [] ∧ x1.slot = 7 ∧ (pdMode (x1.pd.getD 4 0) = 3 ∨
      okEm (e1.dev.regions 1 7) 7 (x1.ptr 4) = false) ∧ e1.dev.runs 1 2 (some PostMod.none) = true) ∧
    (∃ x0 x1, e1.dev.engine 1 = some x0 ∧ e1.dev.bank? 1 = some x1 ∧ x0.handlers = [] ∧ x1.slot = 7 ∧ (pdMode (x1.pd.getD 4 0) = 3 ∨
      okEm (e1.dev.regions 1 7) 7 (x1.ptr 4) = false) ∧ e1.dev.runs 1 4 (some PostMod.none) = true) ∧
    (∃ x0 x1, e1.dev.engine 1 = some x0 ∧ e1.dev.bank? 1 = some x1 ∧ x0.handlers = [] ∧ x1.slot = 7 ∧ e1.dev.runs 1 67 none = true ∧
      x1.stack = []) ∧
    (∃ x0 x1, e3.dev.engine 1 = some x0 ∧ e3.dev.bank? 1 = some x1 ∧ x0.handlers = [] ∧ x1.slot = 7 ∧ e3.dev.runs 1 66 none = true ∧
      8 ≤ x1.stack.length) ∧
    (∃ x0 x1, badOp.dev.engine 1 = some x0 ∧ badOp.dev.bank? 1 = some x1 ∧ x0.handlers = [] ∧ x1.slot = 7 ∧ badOp.dev.up = true ∧
      badOp.dev.is (SRV_FAILED 1) = false ∧ x0.asleep = false ∧ fetchOk (badOp.dev.regions 1 7) x1.pc = true ∧ x1.pc < 8192 ∧
      opDefined (opcodeOf (badOp.dev.cmAt 1 x1.pc)) = false) :=
  ⟨⟨_, _, rfl, rfl, by decide⟩, ⟨_, _, rfl, rfl, by decide⟩, ⟨_, _, rfl, rfl, by decide⟩, ⟨_, _, rfl, rfl, by decide⟩, ⟨_, _, rfl, rfl,
    by decide⟩, ⟨_, _, rfl, rfl, by decide⟩, ⟨_, _, rfl, rfl, by decide⟩⟩

/-- The hypotheses of `Obligations.EngineHandlers`, clause by clause. -/
theorem wit_EngineHandlers :
    (∃ g b, e1.dev.engine 1 = some g ∧ e1.dev.bank? 1 = some b ∧ e1.dev.runs 1 0x44 none = true ∧ e1.dev.runs 1 0x45 none = true ∧
      e1.dev.runs 1 0x46 none = true ∧ g.handlers = []) ∧
    (∃ g b h b0, e4.dev.engine 1 = some g ∧ e4.dev.bank? 1 = some b ∧ g.handlers = h :: g.handlers.tail ∧
      g.banks[Engine.curBank { g with handlers := g.handlers.tail }]? = some b0 ∧ e4.dev.runs 1 0x44 none = true ∧ h.vec ≠ 6 ∧
      Engine.curBank { g with handlers := g.handlers.tail } ≠ g.curBank ∧ b0.cv = false ∧
      e4.dev.nextVector g (Engine.level { g with handlers := g.handlers.tail }) = none) ∧
    (∃ g b h b0, e4c.dev.engine 1 = some g ∧ e4c.dev.bank? 1 = some b ∧ g.handlers = h :: g.handlers.tail ∧
      g.banks[Engine.curBank { g with handlers := g.handlers.tail }]? = some b0 ∧ e4c.dev.runs 1 0x44 none = true ∧ h.vec ≠ 6 ∧
      Engine.curBank { g with handlers := g.handlers.tail } ≠ g.curBank ∧ b0.cv = true ∧
      g.cacheOwner ≠ some (Engine.curBank { g with handlers := g.handlers.tail }) ∧
      e4c.dev.nextVector g (Engine.level { g with handlers := g.handlers.tail }) = none) ∧
    (∃ g b gj v, e7.dev.engine 1 = some g ∧ e7.dev.bank? 1 = some b ∧ e7.dev.slotJoint 1 b.slot = some gj ∧
      e7.dev.planVals gj = some v ∧ e7.dev.runs 1 0x48 none = true ∧ b.slot < 5) ∧
    (∃ g b h, e5.dev.engine 1 = some g ∧ e5.dev.bank? 1 = some b ∧ g.handlers = h :: g.handlers.tail ∧ e5.dev.runs 1 0x49 none = true ∧
      h.vec ≠ 6 ∧ b.slot < 5 ∧ e5.dev.slotJoint 1 b.slot = none ∧
      e5.dev.nextVector g (Engine.level { g with handlers := g.handlers.tail }) = none) ∧
    (∃ g b h gj j v, e9.dev.engine 1 = some g ∧ e9.dev.bank? 1 = some b ∧ g.handlers = h :: g.handlers.tail ∧
      e9.dev.slotJoint 1 b.slot = some gj ∧ e9.dev.jrt gj = some j ∧ e9.dev.entry gj = some v ∧ e9.dev.runs 1 0x49 none = true ∧
      h.vec ≠ 6 ∧ b.slot < 5 ∧ j.delivering = true ∧
      e9.dev.nextVector g (Engine.level { g with handlers := g.handlers.tail }) = none) :=
  ⟨⟨_, _, rfl, rfl, by decide⟩, ⟨_, _, _, _, rfl, rfl, rfl, rfl, by decide⟩, ⟨_, _, _, _, rfl, rfl, rfl, rfl, by decide⟩,
    ⟨_, _, _, _, rfl, rfl, rfl, rfl, by decide⟩, ⟨_, _, _, rfl, rfl, rfl, by decide⟩,
    ⟨_, _, _, _, _, _, rfl, rfl, rfl, rfl, rfl, rfl, by decide⟩⟩

/-- The hypotheses of `Obligations.RingsAndDoorbells`, clause by clause. -/
theorem wit_RingsAndDoorbells :
    (rings.dev.linked = true ∧ rings.dev.is (RING_EN 40) = false ∧ bitOf (0x05000105#32).toNat 8 = true ∧
      4 ≤ (0x05000105#32).toNat % 32 ∧ (0x05000105#32).toNat % 32 ≤ 16) ∧
    (rings.dev.linked = true ∧ (bitOf (0x06000105#32).toNat 8 = true ∧ ¬(4 ≤ (0x06000105#32).toNat % 32 ∧
      (0x06000105#32).toNat % 32 ≤ 16) ∨ rings.dev.is (RING_EN 1) = true ∧
      (0x06000105#32).toNat / 2 ^ 24 ≠ rings.dev.get (RING_GEN 1))) ∧
    rings.dev.linked = true :=
  ⟨by decide, by decide, by decide⟩

/-- The hypotheses of `Obligations.CommandsAccepted`, clause by clause. -/
theorem wit_CommandsAccepted :
    (∃ x0, rings.dev.nextRing = some x0 ∧ rings.dev.linked = true ∧ rings.dev.outstanding < 256) ∧
    (∃ x0, rings.dev.nextRing = some x0 ∧ rings.dev.journalOk ∧ rings.dev.linked = true ∧ rings.dev.outstanding < 256 ∧
      rings.dev.host.cmds.length < 1024) :=
  ⟨⟨_, rfl, by decide⟩, ⟨_, rfl, journalOk_of (by decide), by decide⟩⟩

/-- The hypotheses of `Obligations.EntriesWritten`, clause by clause. -/
theorem wit_EntriesWritten :
    (rings.dev.linked = true ∧ rings.dev.waitingCpls.find? rings.dev.cplWritable = none) ∧
    (∃ c x, outs.dev.waitingCpls.find? outs.dev.cplWritable = some c ∧ c.done = some x ∧ outs.dev.linked = true) ∧
    (∃ e, outs.dev.host.evOut = e :: outs.dev.host.evOut.tail ∧ outs.dev.up = true ∧ outs.dev.linked = true ∧ e.vec ≠ 0xFF ∧
      outs.dev.ringOn 64 = true ∧ outs.dev.hostOpen = true ∧ outs.dev.ringFull 64 = false ∧ outs.dev.host.drops = none) ∧
    (∃ e, outsFull.dev.host.evOut = e :: outsFull.dev.host.evOut.tail ∧ outsFull.dev.up = true ∧ e.vec = 0xFF) ∧
    (∃ t, outs.dev.host.telOut = t :: outs.dev.host.telOut.tail ∧ outs.dev.up = true ∧ outs.dev.linked = true ∧ t.ring < 8 ∧
      outs.dev.ringOn (65 + t.ring) = true ∧ outs.dev.hostOpen = true ∧ outs.dev.ringFull (65 + t.ring) = false ∧
      (33 : Fin 41).val = 33 + t.ring) ∧
    (∃ t, outsFull.dev.host.telOut = t :: outsFull.dev.host.telOut.tail ∧ outsFull.dev.up = true ∧ t.ring < 8 ∧
      outsFull.dev.ringOn (65 + t.ring) = true ∧ outsFull.dev.hostOpen = true ∧ outsFull.dev.ringFull (65 + t.ring) = true) ∧
    (outs.dev.linked = true ∧ outs.dev.ringOn (32 + 1) = true ∧ fin 4 0x30 ∈ outs.dev.waitingCpls ∧
      outs.dev.cplRing (fin 4 0x30) = 32 + 1 ∧ outs.dev.cplWritable (fin 4 0x30) = true) ∧
    (outsFull.dev.linked = true ∧ (0 : Fin 41).val ≠ 32 ∧ outsFull.dev.get HQE_CTIME ≠ 0 ∧ outsFull.dev.host.unsig.getD 0 0 ≠ 0) :=
  ⟨by decide, ⟨_, _, rfl, rfl, by decide⟩, ⟨_, rfl, by decide⟩, ⟨_, rfl, by decide⟩, ⟨_, rfl, by decide⟩, ⟨_, rfl, by decide⟩,
    by decide, by decide⟩

/-- The hypotheses of `Obligations.WatchdogAndEngineReset`, clause by clause. -/
theorem wit_WatchdogAndEngineReset :
    (rings.dev.linked = true ∧ rings.dev.session ≠ 0 ∧ (1#32).toNat % 2 = 1) ∧
    (rings.dev.linked = true ∧ rings.dev.session ≠ 0) ∧
    (beating.dev.linked = true ∧ (beating.dev.session = 2 ∨ beating.dev.session = 3)) ∧
    (beating.starts 3 (mc 7 3 0 0 []) ∧ beating.dev.session = 2) ∧
    (beating.dev.up = true ∧ (beating.dev.session = 2 ∨ beating.dev.session = 3) ∧ beating.dev.get HQE_HBTMO ≠ 0) ∧
    (resetting.dev.up = true ∧ resetting.dev.is HQE_RSTBUSY = true) :=
  ⟨by decide, by decide, by decide, ⟨starts_of (by decide), by decide⟩, by decide, by decide⟩

/-- The hypotheses of `Obligations.SessionsBegin`, clause by clause. -/
theorem wit_SessionsBegin :
    ((booting atB).starts 1 atB ∧ attachOk atB = false) ∧
    ((booting atG).starts 1 atG ∧ attachOk atG = true ∧ (booting atG).dev.host.attaching = none ∧ (booting atG).dev.session = 0 ∧
      ((booting atG).dev.boot.partFail || (booting atG).dev.boot.pllFail) = false) ∧
    (partBad.starts 1 atG ∧ attachOk atG = true ∧ partBad.dev.host.attaching = none ∧ partBad.dev.session = 0 ∧
      (partBad.dev.boot.partFail || partBad.dev.boot.pllFail) = true) ∧
    (verifying.dev.journalOk ∧ verifying.dev.up = true ∧ verifying.dev.get TST_STAGE = 6 ∧ verifying.dev.host.attaching = some atS.id ∧
      verifying.dev.cmd? atS.id = some atS ∧ atS.done = none) ∧
    (verifying.dev.journalOk ∧ verifying.dev.up = true ∧ verifying.dev.get TST_STAGE = 6 ∧ verifying.dev.host.attaching = some atS.id ∧
      verifying.dev.cmd? atS.id = some atS ∧ atS.done = none ∧ imageCheck [] atS.len ≠ 0) ∧
    (leaving.starts 2 dt ∧ leaving.dev.idleOrStopped = true) ∧
    (moving.starts 2 dt ∧ moving.dev.idleOrStopped = false) :=
  ⟨⟨starts_of (by decide), by decide⟩, ⟨starts_of (by decide), by decide⟩, ⟨starts_of (by decide), by decide⟩,
    ⟨journalOk_of (by decide), by decide⟩, ⟨journalOk_of (by decide), by decide⟩, ⟨starts_of (by decide), by decide⟩,
    ⟨starts_of (by decide), by decide⟩⟩

/-- The clause of an ATTACH after the first, with the same image. -/
theorem wit_SessionsBegin_again : reattaching.starts 1 atG ∧ imageDigest imgB = reattaching.dev.host.digest ∧ attachOk atG = true ∧
    reattaching.dev.host.attaching = none ∧ reattaching.dev.session ≠ 0 ∧ atG.u 24 8 = 0 ∧ imgB.length = atG.len :=
  ⟨starts_of (by decide), by simp only [reattaching, hs, m], by decide +kernel⟩

/-- The remaining clause: the image is accepted by a part whose fuses hold the digest of its key, and whose signature check
passes (both are constants without a body, log 12). -/
theorem wit_SessionsBegin_accepted (hk : sha256 (bytesAt imgB 0xC0 64) = Config.keyHash)
    (hv : Config.ecdsaValid (bytesAt imgB 0xC0 64) (bytesAt imgB 0x100 64) (imageDigest imgB) = true)
    (hs : Config.fuseSecVer ≤ uAt imgB 0x10 2) :
    imageCheck imgB atS.len = 0 ∧ verifying.dev.hod.masons.length = 8 ∧ verifying.dev.up = true ∧ verifying.dev.get TST_STAGE = 6 ∧
      verifying.dev.host.attaching = some atS.id ∧ verifying.dev.cmd? atS.id = some atS ∧ atS.done = none := by
  refine ⟨?_, by decide⟩
  unfold imageCheck
  rw [if_neg (by decide +kernel), if_neg (by decide +kernel), if_neg (Classical.not_not.mpr hk), if_neg (by rw [hv]; decide),
    if_neg (by omega)]

/-- The hypotheses of `Obligations.HostReads`, clause by clause. -/
theorem wit_HostReads :
    (cRead3S.starts 64 cRead3 ∧ cRead3.u 24 2 < 1024 ∧ sumOf (List.map itemSize (bitsOf (cRead3.u 24 2) 10)) ≤ cRead3.len) ∧
    (cRead1024S.starts 64 cRead1024 ∧ 1024 ≤ cRead1024.u 24 2) ∧
    (cLog0S.starts 65 cLog0 ∧ cLog0.u 24 1 < 2 ∧ cLog0S.dev.session ≠ 4) ∧
    (cLog2S.starts 65 cLog2 ∧ 2 ≤ cLog2.u 24 1) ∧
    (cTel1S.starts 66 cTel1 ∧ 1 ≤ cTel1.u 25 1 ∧ cTel1.u 25 1 ≤ 6 ∧ cTel1.u 26 1 < 2 ∧ cTel1.u 28 2 ≠ 0) ∧
    (cTel7S.starts 66 cTel7 ∧ (cTel7.u 25 1 = 0 ∨ 6 < cTel7.u 25 1 ∨ cTel7.u 28 2 = 0)) ∧
    (cDiag8S.starts 112 cDiag8 ∧ 8 ≤ cDiag8.u 24 2) ∧
    (cDiag4S.starts 112 cDiag4 ∧ cDiag4.u 24 2 = 4 ∧ cDiag4.u 26 1 < 64) :=
  ⟨⟨starts_of (by decide), by decide⟩, ⟨starts_of (by decide), by decide⟩, ⟨starts_of (by decide), by decide⟩, ⟨starts_of (by decide),
    by decide⟩, ⟨starts_of (by decide), by decide⟩, ⟨starts_of (by decide), by decide⟩, ⟨starts_of (by decide), by decide⟩,
    ⟨starts_of (by decide), by decide⟩⟩

/-- The hypotheses of `Obligations.ModelCommands`, clause by clause. -/
theorem wit_ModelCommands :
    (loadS.starts 16 cLoad ∧ (loadS.dev.is KLN_LOADBUSY || loadS.dev.kiln.activating.isSome) = false) ∧
    (loading.dev.journalOk ∧ loading.dev.up = true ∧ loading.dev.kiln.loading = some cLoadS.id ∧
      loading.dev.cmd? cLoadS.id = some cLoadS ∧ cLoadS.done = none) ∧
    (loading.dev.journalOk ∧ loading.dev.up = true ∧ loading.dev.kiln.loading = some cLoadS.id ∧
      loading.dev.cmd? cLoadS.id = some cLoadS ∧ cLoadS.done = none ∧ loading.dev.session ≠ 4 ∧ loading.dev.chkWorks 8 = true) ∧
    (activating.starts 16 cLoad ∧ (activating.dev.is KLN_LOADBUSY || activating.dev.kiln.activating.isSome) = true) ∧
    (noStaged.starts 17 cAct ∧ noStaged.dev.kiln.staged = none) ∧
    (∃ x0, staged.dev.kiln.staged = some x0 ∧ staged.starts 17 cAct ∧ staged.dev.activateOk x0 = false) ∧
    (∃ x0, running.dev.kiln.staged = some x0 ∧ running.starts 17 cAct ∧ running.dev.activateOk x0 = true ∧
      running.dev.dmonOk x0 = true) ∧
    (∃ x0, dmonBad.dev.kiln.staged = some x0 ∧ dmonBad.starts 17 cAct ∧ dmonBad.dev.activateOk x0 = true ∧
      dmonBad.dev.dmonOk x0 = false) ∧
    (limOkS.starts 35 limOk ∧ (∀ a, full = limNow limOkS a) ∧ (limOf limOk).sv ≤ 65536 ∧ (limOf limOk).sa ≤ 65536 ∧
      (limOf limOk).sj ≤ 65536 ∧ (limOf limOk).st ≤ 65536 ∧
      List.filter (fun a => Option.any (fun m => (m.armJoints a).any fun j => decide (j.amax * (limitsOf full (limOf limOk).sv (limOf
      limOk).sa (limOf limOk).sj (limOf limOk).st).sa < j.dmon * 65536)) limOkS.dev.kiln.active) (bitsOf (limOk.u 24 1) 8) = []) ∧
    (limLowS.starts 35 limLow ∧ (∀ a, full = limNow limLowS a) ∧ (limOf limLow).sv ≤ 65536 ∧ (limOf limLow).sa ≤ 65536 ∧
      (limOf limLow).sj ≤ 65536 ∧ (limOf limLow).st ≤ 65536 ∧
      List.filter (fun a => Option.any (fun m => (m.armJoints a).any fun j => decide (j.amax * (limitsOf full (limOf limLow).sv (limOf
      limLow).sa (limOf limLow).sj (limOf limLow).st).sa < j.dmon * 65536)) limLowS.dev.kiln.active) (bitsOf (limLow.u 24 1) 8) ≠ []) ∧
    (limBadS.starts 35 limBad ∧ (65536 < limBad.u 28 4 ∨ 65536 < limBad.u 32 4 ∨ 65536 < limBad.u 36 4 ∨ 65536 < limBad.u 40 4)) :=
  ⟨⟨starts_of (by decide +kernel), by decide +kernel⟩, ⟨journalOk_of (by decide +kernel), by decide +kernel⟩,
    ⟨journalOk_of (by decide +kernel), by decide +kernel⟩, ⟨starts_of (by decide +kernel), by decide +kernel⟩,
    ⟨starts_of (by decide +kernel), by decide +kernel⟩, ⟨_, rfl, starts_of (by decide +kernel), by decide +kernel⟩, ⟨_, rfl,
    starts_of (by decide +kernel), by decide +kernel⟩, ⟨_, rfl, starts_of (by decide +kernel), by decide +kernel⟩,
    ⟨starts_of (by decide +kernel), fun a => full_of a, by decide +kernel⟩, ⟨starts_of (by decide +kernel), fun a => full_of a,
    by decide +kernel⟩, ⟨starts_of (by decide +kernel), by decide +kernel⟩⟩

set_option maxRecDepth 20000 in
/-- The hypotheses of `Obligations.MotionCommands`, clause by clause. -/
theorem wit_MotionCommands :
    (segOkS.dev.presentModel (segOk.u 24 1) = some model ∧ segOkS.starts 32 segOk ∧ segOk.u 24 1 ≤ 7 ∧ 1 ≤ segOk.u 25 1 ∧
      segOk.u 25 1 ≤ 32 ∧ segOk.len = 128 * segOk.u 25 1 ∧
      (segOkS.dev.queueAt model (segOk.u 24 1) segOkS.dev.nextCheck).segs.length + segOk.u 25 1 ≤ 256 ∧
      segOkS.dev.prepared (segOk.u 24 1) = false ∧ segOkS.dev.session ≠ 4) ∧
    (segOkS.dev.presentModel (segOk.u 24 1) = some model ∧ segOkS.starts 32 segOk ∧ segOk.u 24 1 ≤ 7 ∧ 1 ≤ segOk.u 25 1 ∧
      segOk.u 25 1 ≤ 32 ∧ segOk.len = 128 * segOk.u 25 1 ∧
      (segOkS.dev.queueAt model (segOk.u 24 1) segOkS.dev.nextCheck).segs.length + segOk.u 25 1 ≤ 256 ∧
      segOkS.dev.prepared (segOk.u 24 1) = false ∧ segOkS.dev.session ≠ 4 ∧
      segOkS.dev.segFault model (segOk.u 24 1) segOk.accepted (Option.map Seg.tend (segOkS.dev.queueAt model (segOk.u 24 1)
      segOkS.dev.nextCheck).segs.getLast?) (segEntries segs 0 (segOk.u 25 1)) = none) ∧
    (segShortS.starts 32 segShort ∧ (7 < segShort.u 24 1 ∨ segShort.u 25 1 = 0 ∨ 32 < segShort.u 25 1 ∨
      segShort.len ≠ 128 * segShort.u 25 1)) ∧
    (segFarS.starts 32 segFar ∧ segFar.u 24 1 ≤ 7 ∧ 1 ≤ segFar.u 25 1 ∧ segFar.u 25 1 ≤ 32 ∧ segFar.len = 128 * segFar.u 25 1 ∧
      segFarS.dev.presentModel (segFar.u 24 1) = none) ∧
    (segGrpS.dev.presentModel (segOk.u 24 1) = some model ∧ segGrpS.starts 32 segOk ∧ segOk.u 24 1 ≤ 7 ∧ 1 ≤ segOk.u 25 1 ∧
      segOk.u 25 1 ≤ 32 ∧ segOk.len = 128 * segOk.u 25 1 ∧
      (256 < (segGrpS.dev.queueAt model (segOk.u 24 1) segGrpS.dev.nextCheck).segs.length + segOk.u 25 1 ∨
      segGrpS.dev.prepared (segOk.u 24 1) = true)) ∧
    flushS.starts 33 cFlush ∧
    (tgtOkS.dev.presentModel (tgtOk.u 24 1) = some model ∧ tgtOkS.starts 34 tgtOk ∧ tgtOk.u 24 1 ≤ 7 ∧ tgtOk.u 26 2 ≠ 0 ∧
      tgtOk.len = 4 * (model.armJoints (tgtOk.u 24 1)).length ∧ tgtOkS.dev.prepared (tgtOk.u 24 1) = false ∧ tgtOkS.dev.session ≠ 4 ∧
      (∀ (x : JointEnt × Int), x ∈ (model.armJoints (tgtOk.u 24 1)).zip (vecAt segs 0 (model.armJoints (tgtOk.u 24 1)).length) →
      x.fst.qmin ≤ x.snd ∧ x.snd ≤ x.fst.qmax)) ∧
    (tgtBadS.starts 34 tgtBad ∧ (7 < tgtBad.u 24 1 ∨ tgtBad.u 26 2 = 0)) ∧
    (tgtGrpS.dev.presentModel (tgtOk.u 24 1) = some model ∧ tgtGrpS.starts 34 tgtOk ∧ tgtOk.u 24 1 ≤ 7 ∧ tgtOk.u 26 2 ≠ 0 ∧
      tgtOk.len = 4 * (model.armJoints (tgtOk.u 24 1)).length ∧ tgtGrpS.dev.prepared (tgtOk.u 24 1) = true) :=
  ⟨⟨rfl, starts_of (by decide +kernel), by decide +kernel⟩, ⟨rfl, starts_of (by decide +kernel), by decide +kernel⟩,
    ⟨starts_of (by decide +kernel), by decide +kernel⟩, ⟨starts_of (by decide +kernel), by decide +kernel⟩, ⟨rfl,
    starts_of (by decide +kernel), by decide +kernel⟩, starts_of (by decide +kernel), ⟨rfl, starts_of (by decide +kernel),
    by decide +kernel⟩, ⟨starts_of (by decide +kernel), by decide +kernel⟩, ⟨rfl, starts_of (by decide +kernel), by decide +kernel⟩⟩

/-- The later clauses of `Obligations.MotionCommands`. -/
theorem wit_MotionCommands_later :
    (hostLost.dev.presentModel (segOk.u 24 1) = some model ∧ hostLost.starts 32 segOk ∧ segOk.u 24 1 ≤ 7 ∧ 1 ≤ segOk.u 25 1 ∧
      segOk.u 25 1 ≤ 32 ∧ segOk.len = 128 * segOk.u 25 1 ∧
      (hostLost.dev.queueAt model (segOk.u 24 1) hostLost.dev.nextCheck).segs.length + segOk.u 25 1 ≤ 256 ∧
      hostLost.dev.prepared (segOk.u 24 1) = false ∧ hostLost.dev.session = 4) ∧
    (segOkS.dev.presentModel (segOk.u 24 1) = some model ∧
      (segOkS.dev.segFault model (segOk.u 24 1) segOk.accepted (Option.map Seg.tend (segOkS.dev.queueAt model (segOk.u 24 1)
      segOkS.dev.nextCheck).segs.getLast?) (segEntries segsBack 0 (segOk.u 25 1))).isSome = true ∧ segOkS.starts 32 segOk ∧
      segOk.u 24 1 ≤ 7 ∧ 1 ≤ segOk.u 25 1 ∧ segOk.u 25 1 ≤ 32 ∧ segOk.len = 128 * segOk.u 25 1 ∧
      (segOkS.dev.queueAt model (segOk.u 24 1) segOkS.dev.nextCheck).segs.length + segOk.u 25 1 ≤ 256 ∧
      segOkS.dev.prepared (segOk.u 24 1) = false ∧ segOkS.dev.session ≠ 4) ∧
    (tgtOkS.dev.presentModel (tgtOk.u 24 1) = some model ∧ tgtOkS.starts 34 tgtOk ∧ tgtOk.u 24 1 ≤ 7 ∧ tgtOk.u 26 2 ≠ 0 ∧
      tgtOk.len = 4 * (model.armJoints (tgtOk.u 24 1)).length ∧ tgtOkS.dev.prepared (tgtOk.u 24 1) = false ∧ tgtOkS.dev.session ≠ 4 ∧
      (∃ x, x ∈ (model.armJoints (tgtOk.u 24 1)).zip (vecAt farTgt 0 (model.armJoints (tgtOk.u 24 1)).length) ∧ (x.snd < x.fst.qmin ∨
      x.fst.qmax < x.snd))) ∧
    (grpOkS.dev.kiln.active = some model ∧ grpOkS.starts 36 grpOk ∧ (∀ (a : Nat), kOf grpOk a = grpOk.u (26 + a) 1) ∧
      (∀ (a : Nat), eOf grpOk a = segEntries segs (sumOf (List.map (kOf grpOk) (List.filter (fun x => decide (x < a)) (bitsOf (grpOk.u
      24 1) 8)))) (kOf grpOk a)) ∧
      (∀ (a : Nat), qOf grpOk a = if grpOk.u 25 1 = 1 then List.filter (fun x => decide (x.tend ≤ grpOk.u 40 8)) (grpOkS.dev.queueAt
      model a grpOkS.dev.nextCheck).segs else (grpOkS.dev.queueAt model a grpOkS.dev.nextCheck).segs) ∧ bitsOf (grpOk.u 24 1) 8 ≠ [] ∧
      grpOk.u 25 1 ≤ 1 ∧ sumOf (List.map (kOf grpOk) (bitsOf (grpOk.u 24 1) 8)) ≤ 64 ∧
      grpOk.len = 128 * sumOf (List.map (kOf grpOk) (bitsOf (grpOk.u 24 1) 8)) ∧
      (∀ (a : Nat), a < 8 → ¬a ∈ bitsOf (grpOk.u 24 1) 8 → kOf grpOk a = 0) ∧ grpOkS.dev.planning = true ∧ grpOkS.dev.session ≠ 4 ∧
      (∀ (a : Nat), a ∈ bitsOf (grpOk.u 24 1) 8 → (grpOkS.dev.presentModel a).isSome = true ∧ grpOkS.dev.prepared a = false ∧
      (qOf grpOk a).length + kOf grpOk a ≤ 256 ∧
      (kOf grpOk a ≠ 0 → grpOkS.dev.segFault model a grpOk.accepted (Option.map Seg.tend (qOf grpOk a).getLast?) (eOf grpOk a) = none ∧
      (grpOk.u 25 1 = 1 → grpOk.u 40 8 < uAt ((eOf grpOk a).headD []) 8 8)))) ∧
    (grpIdleS.starts 36 grpOk ∧ (∀ (a : Nat), kOf grpOk a = grpOk.u (26 + a) 1) ∧ bitsOf (grpOk.u 24 1) 8 ≠ [] ∧ grpOk.u 25 1 ≤ 1 ∧
      sumOf (List.map (kOf grpOk) (bitsOf (grpOk.u 24 1) 8)) ≤ 64 ∧
      grpOk.len = 128 * sumOf (List.map (kOf grpOk) (bitsOf (grpOk.u 24 1) 8)) ∧
      (∀ (a : Nat), a < 8 → ¬a ∈ bitsOf (grpOk.u 24 1) 8 → kOf grpOk a = 0) ∧ grpIdleS.dev.planning = false) ∧
    (grpBadS.starts 36 grpBad ∧ (∀ (a : Nat), kOf grpOk a = grpBad.u (26 + a) 1) ∧ (bitsOf (grpBad.u 24 1) 8 = [] ∨ 1 < grpBad.u 25 1 ∨
      64 < sumOf (List.map (kOf grpOk) (bitsOf (grpBad.u 24 1) 8)) ∨
      grpBad.len ≠ 128 * sumOf (List.map (kOf grpOk) (bitsOf (grpBad.u 24 1) 8)) ∨ ∃ a, a < 8 ∧ ¬a ∈ bitsOf (grpBad.u 24 1) 8 ∧
      kOf grpOk a ≠ 0)) :=
  ⟨⟨rfl, starts_of (by decide +kernel), by decide +kernel⟩, ⟨rfl, by decide +kernel, starts_of (by decide +kernel), by decide +kernel⟩,
    ⟨rfl, starts_of (by decide +kernel), by decide +kernel⟩, ⟨rfl, starts_of (by decide +kernel), fun _ => rfl, fun _ => rfl,
    fun _ => rfl, by decide +kernel⟩, ⟨starts_of (by decide +kernel), fun _ => rfl, by decide +kernel⟩, ⟨starts_of (by decide +kernel),
    fun _ => rfl, by decide +kernel⟩⟩

set_option maxRecDepth 20000 in
/-- The hypotheses of `Obligations.LoadsAndSwitches`, clause by clause. -/
theorem wit_LoadsAndSwitches :
    (schS.starts 19 cSch ∧ (!schS.dev.idleOrStopped || schS.dev.heath.switch.isSome || schS.dev.heath.loading.isSome ||
      schS.dev.heath.awaiting.isSome || schS.dev.beatChanging) = false) ∧
    (schLoading.dev.journalOk ∧ schLoading.dev.up = true ∧ schLoading.dev.heath.loading = some cSchS.id ∧
      schLoading.dev.cmd? cSchS.id = some cSchS ∧ cSchS.done = none) ∧
    (schLoading.dev.journalOk ∧ schLoading.dev.up = true ∧ schLoading.dev.heath.loading = some cSchS.id ∧
      schLoading.dev.cmd? cSchS.id = some cSchS ∧ cSchS.done = none ∧ schLoading.dev.session ≠ 4 ∧ schLoading.dev.chkWorks 13 = true) ∧
    (schBusy.starts 19 cSch ∧ (!schBusy.dev.idleOrStopped || schBusy.dev.heath.switch.isSome || schBusy.dev.heath.loading.isSome ||
      schBusy.dev.heath.awaiting.isSome || schBusy.dev.beatChanging) = true) ∧
    (srvS.starts 80 cSrv ∧ (srvS.dev.servo.loading.isSome || srvS.dev.servo.pending.isSome || srvS.dev.beatChanging) = false) ∧
    (srvLoading.dev.journalOk ∧ srvLoading.dev.up = true ∧ srvLoading.dev.servo.loading = some cSrvS.id ∧
      srvLoading.dev.cmd? cSrvS.id = some cSrvS ∧ cSrvS.done = none) ∧
    (srvLoading.dev.journalOk ∧ srvLoading.dev.up = true ∧ srvLoading.dev.servo.loading = some cSrvS.id ∧
      srvLoading.dev.cmd? cSrvS.id = some cSrvS ∧ cSrvS.done = none ∧ srvLoading.dev.session ≠ 4 ∧ srvHeadOk blobS cSrvS.len = false) ∧
    (srvLoading.dev.journalOk ∧ srvLoading.dev.up = true ∧ srvLoading.dev.servo.loading = some cSrvS.id ∧
      srvLoading.dev.cmd? cSrvS.id = some cSrvS ∧ cSrvS.done = none ∧ srvLoading.dev.session ≠ 4 ∧ srvLoading.dev.chkWorks 9 = true ∧
      srvHeadOk blobV cSrvS.len = true ∧ srvLoading.dev.idleOrStopped = true) ∧
    (srvBusy.starts 80 cSrv ∧ (srvBusy.dev.servo.loading.isSome || srvBusy.dev.servo.pending.isSome || srvBusy.dev.beatChanging) =
      true) ∧
    (safS.starts 18 cSaf ∧ (safS.dev.torqueOn || safS.dev.loading || safS.dev.beatChanging) = false ∧ safS.dev.is CLK_XDIE = true ∧
      safS.dev.session ≠ 4) ∧
    (torque.starts 18 cSaf ∧ (torque.dev.torqueOn || torque.dev.loading || torque.dev.beatChanging) = true) ∧
    (unlinked.starts 18 cSaf ∧ (unlinked.dev.torqueOn || unlinked.dev.loading || unlinked.dev.beatChanging) = false ∧
      unlinked.dev.is CLK_XDIE = false) ∧
    (∃ x0, safChecking.dev.safety.load = some (cSafS.id, x0) ∧ safChecking.dev.journalOk ∧ safChecking.dev.cmd? cSafS.id = some cSafS ∧
      cSafS.done = none ∧ safChecking.dev.chUp true = true) ∧
    (modeNoneS.starts 20 modeNone ∧ (modeNone.u 24 1 = 0 ∨ 16 ≤ modeNone.u 24 1)) ∧
    (modeOkS.starts 20 modeOk ∧ 1 ≤ modeOk.u 24 1 ∧ modeOk.u 24 1 < 16 ∧
      (∀ (p : Nat), p ∈ bitsOf (modeOk.u 24 1) 4 → modeOkS.dev.portRuns p = true ∧
      ∀ (x : PortSched), modeOkS.dev.section? p = some x → modeOk.u (25 + p) 1 < x.modes.length) ∧
      (modeOkS.dev.heath.switch.isSome || modeOkS.dev.heath.loading.isSome || modeOkS.dev.heath.awaiting.isSome ||
      modeOkS.dev.beatChanging) = false) ∧
    (time8.starts 96 cTime8 ∧ (layOf cTime8).tb ≤ 2 ∧ 4 ≤ (layOf cTime8).strb ∧ (layOf cTime8).strb ≤ 16 ∧
      (layOf cTime8).bphase < (layOf cTime8).beat ∧ 500000 ≤ (layOf cTime8).stride ∧
      timingWordsOk (BitVec.toNat (time8.dev.reg 0x5400)) (BitVec.toNat (time8.dev.reg 0x5404)) (layOf cTime8).stride = true ∧
      missWithin (time8.dev.get SLV_MSTOP) (BitVec.toNat (time8.dev.reg 0x5010)) = true ∧ (time8.dev.is CLK_TIMELK = false ∨
      time8.dev.time.pending.isSome = true)) ∧
    (time17.starts 96 cTime17 ∧ (2 < (layOf cTime17).tb ∨ (layOf cTime17).strb < 4 ∨ 16 < (layOf cTime17).strb ∨
      (layOf cTime17).beat ≤ (layOf cTime17).bphase ∨ (layOf cTime17).stride < 500000)) ∧
    (locked.starts 96 cTime8 ∧ (layOf cTime8).tb ≤ 2 ∧ 4 ≤ (layOf cTime8).strb ∧ (layOf cTime8).strb ≤ 16 ∧
      (layOf cTime8).bphase < (layOf cTime8).beat ∧ 500000 ≤ (layOf cTime8).stride ∧
      timingWordsOk (BitVec.toNat (locked.dev.reg 0x5400)) (BitVec.toNat (locked.dev.reg 0x5404)) (layOf cTime8).stride = true ∧
      missWithin (locked.dev.get SLV_MSTOP) (BitVec.toNat (locked.dev.reg 0x5010)) = true ∧ locked.dev.is CLK_TIMELK = true ∧
      locked.dev.time.pending = none ∧ locked.dev.plState = 0 ∧ locked.dev.loadsBusy = false ∧ locked.dev.get HTL_PEN = 0) :=
  ⟨⟨starts_of (by decide +kernel), by decide +kernel⟩, ⟨journalOk_of (by decide +kernel), by decide +kernel⟩,
    ⟨journalOk_of (by decide +kernel), by decide +kernel⟩, ⟨starts_of (by decide +kernel), by decide +kernel⟩,
    ⟨starts_of (by decide +kernel), by decide +kernel⟩, ⟨journalOk_of (by decide +kernel), by decide +kernel⟩,
    ⟨journalOk_of (by decide +kernel), by decide +kernel⟩, ⟨journalOk_of (by decide +kernel), by decide +kernel⟩,
    ⟨starts_of (by decide +kernel), by decide +kernel⟩, ⟨starts_of (by decide +kernel), by decide +kernel⟩,
    ⟨starts_of (by decide +kernel), by decide +kernel⟩, ⟨starts_of (by decide +kernel), by decide +kernel⟩, ⟨_, rfl,
    journalOk_of (by decide +kernel), by decide +kernel⟩, ⟨starts_of (by decide +kernel), by decide +kernel⟩,
    ⟨starts_of (by decide +kernel), by decide +kernel⟩, ⟨starts_of (by decide +kernel), by decide +kernel⟩,
    ⟨starts_of (by decide +kernel), by decide +kernel⟩, ⟨starts_of (by decide +kernel), by decide +kernel⟩⟩

/-- The hypotheses of `Obligations.CommonsAndAxisCommands`, clause by clause. -/
theorem wit_CommonsAndAxisCommands :
    (reqInS.starts 40 cReqIn ∧ ∃ m e, reqInS.dev.kiln.active = some m ∧ m.commons.find? (fun e => e.cid == cReqIn.u 0x19 1) = some e ∧
      cReqIn.u 0x18 1 < 8 ∧ bitOf e.armmask (cReqIn.u 0x18 1) = true) ∧
    (reqOutS.starts 40 cReqOut ∧ ∃ m e, reqOutS.dev.kiln.active = some m ∧
      m.commons.find? (fun e => e.cid == cReqOut.u 0x19 1) = some e ∧ bitOf e.armmask (cReqOut.u 0x18 1) = false) ∧
    relS.starts 41 cRel ∧
    (axNoneS.starts 49 axNone ∧ (16 ≤ axNone.u 24 1 ∨ 5000000 * 256 < axNone.u 40 4 ∨ axNone.u 48 4 ≠ 0 ∧
      axNone.u 48 4 < axNoneS.dev.get (AUX_DSTOP (axNone.u 24 1)))) ∧
    (∃ x0, axTwoS.dev.axis (axTwo.u 24 1) = some x0 ∧ axTwoS.starts 49 axTwo ∧ axTwo.u 24 1 < 16 ∧ axTwo.u 40 4 ≤ 5000000 * 256 ∧
      (axTwo.u 48 4 = 0 ∨ axTwoS.dev.get (AUX_DSTOP (axTwo.u 24 1)) ≤ axTwo.u 48 4) ∧
      (¬axTwoS.dev.get (AUX_STATE (axTwo.u 24 1)) ∈ [1, 2, 3])) ∧
    (∃ x0, axisMoving.dev.axis (axTwo.u 24 1) = some x0 ∧ axisMoving.starts 49 axTwo ∧ axTwo.u 24 1 < 16 ∧
      axTwo.u 40 4 ≤ 5000000 * 256 ∧ (axTwo.u 48 4 = 0 ∨ axisMoving.dev.get (AUX_DSTOP (axTwo.u 24 1)) ≤ axTwo.u 48 4)) ∧
    (∃ x0, axisHeld.dev.axis (profOk.u 24 1) = some x0 ∧ axisHeld.starts 48 profOk ∧ profOk.u 24 1 < 16 ∧ 1 ≤ profOk.u 26 2 ∧
      profOk.u 26 2 ≤ 1024 ∧ profOk.len = 16 * profOk.u 26 2 ∧ profOk.u 32 8 = 0 ∧ x0.wait = none ∧ axisHeld.dev.session ≠ 4 ∧
      ((tab 5 10 ++ tab 5 50).length ≠ profOk.len ∨
      auxTableOk (axisHeld.dev.get (AUX_VMAX (profOk.u 24 1))) 0 (auxSegs (tab 5 10 ++ tab 5 50) (profOk.u 26 2)) = false)) ∧
    (∃ x0, axisHeld.dev.axis (profOk.u 24 1) = some x0 ∧ axisHeld.starts 48 profOk ∧ profOk.u 24 1 < 16 ∧ 1 ≤ profOk.u 26 2 ∧
      profOk.u 26 2 ≤ 1024 ∧ profOk.len = 16 * profOk.u 26 2 ∧ profOk.u 32 8 = 0 ∧ x0.wait = none ∧ axisHeld.dev.session ≠ 4 ∧
      (tab 5 10 ++ tab 6 50).length = profOk.len ∧
      auxTableOk (axisHeld.dev.get (AUX_VMAX (profOk.u 24 1))) 0 (auxSegs (tab 5 10 ++ tab 6 50) (profOk.u 26 2)) = true) ∧
    (∃ x0, axisFull.dev.axis (profOk.u 24 1) = some x0 ∧ axisFull.starts 48 profOk ∧ profOk.u 24 1 < 16 ∧ 1 ≤ profOk.u 26 2 ∧
      profOk.u 26 2 ≤ 1024 ∧ profOk.len = 16 * profOk.u 26 2 ∧ profOk.u 32 8 = 0 ∧
      (¬axisFull.dev.get (AUX_STATE (profOk.u 24 1)) ∈ [1, 2, 3] ∨ x0.run.isSome = true ∧ x0.wait.isSome = true)) ∧
    (profBadS.starts 48 profBad ∧ (16 ≤ profBad.u 24 1 ∨ profBad.u 26 2 = 0 ∨ 1024 < profBad.u 26 2 ∨
      profBad.len ≠ 16 * profBad.u 26 2)) ∧
    (loops.starts 56 hlOk ∧ hlOk.len = 64 ∧ (∀ (l : Nat), l ∈ bitsOf (hlOk.u 24 4) 32 → loops.dev.is (HYS_EN l) = true ∧
      loops.dev.is (HYS_OWNED l) = false) ∧ loops.dev.field.hl = none ∧ loops.dev.session ≠ 4 ∧ bitsOf (hlOk.u 24 4) 32 ≠ []) ∧
    (hlOkS.starts 56 hlOk ∧ hlOk.len = 64 ∧ ((∃ l, l ∈ bitsOf (hlOk.u 24 4) 32 ∧ (hlOkS.dev.is (HYS_EN l) = false ∨
      hlOkS.dev.is (HYS_OWNED l) = true)) ∨ hlOkS.dev.field.hl.isSome = true)) ∧
    (hlShortS.starts 56 hlShort ∧ hlShort.len ≠ 64) ∧
    (hlNoneS.starts 56 hlNone ∧ hlNone.len = 64 ∧ (∀ (l : Nat), l ∈ bitsOf (hlNone.u 24 4) 32 → hlNoneS.dev.is (HYS_EN l) = true ∧
      hlNoneS.dev.is (HYS_OWNED l) = false) ∧ hlNoneS.dev.field.hl = none ∧ hlNoneS.dev.session ≠ 4 ∧ bitsOf (hlNone.u 24 4) 32 = []) :=
  ⟨⟨starts_of (by decide), _, _, rfl, rfl, by decide⟩, ⟨starts_of (by decide), _, _, rfl, rfl, by decide⟩, starts_of (by decide),
    ⟨starts_of (by decide), by decide⟩, ⟨_, rfl, starts_of (by decide), by decide⟩, ⟨_, rfl, starts_of (by decide), by decide⟩, ⟨_,
    rfl, starts_of (by decide), by decide⟩, ⟨_, rfl, starts_of (by decide), by decide⟩, ⟨_, rfl, starts_of (by decide), by decide⟩,
    ⟨starts_of (by decide), by decide⟩, ⟨starts_of (by decide), by decide⟩, ⟨starts_of (by decide), by decide⟩, ⟨starts_of (by decide),
    by decide⟩, ⟨starts_of (by decide), by decide⟩⟩

/-- The hypotheses of `Obligations.EventDelivery`, clause by clause. -/
theorem wit_EventDelivery :
    (∃ x0, takeReq (17#8).toNat evs.dev.evReq = some x0 ∧ evs.dev.up = true ∧ 17#8 ≠ 224 ∧ evs.dev.get (EVC_KIND (17#8).toNat) = 1 ∧
      (¬(evs.dev.mason (evs.dev.get (EVC_TIDX (17#8).toNat) % 8)).code ∈ [0, 4])) ∧
    (∃ x0, takeReq (224#8).toNat evs.dev.evReq = some x0 ∧ evs.dev.up = true ∧ (224#8 = 224 ∨
      evs.dev.get (EVC_KIND (224#8).toNat) = 0)) ∧
    (∃ x0, takeReq (40#8).toNat evs.dev.evReq = some x0 ∧ evs.dev.up = true ∧ 40#8 ≠ 224 ∧ evs.dev.get (EVC_KIND (40#8).toNat) = 2 ∧
      evs.dev.waiters (WaitObj.source (40#8).toNat) = []) ∧
    (∃ x0 x1, evs.dev.hod.masons[1]? = some x0 ∧ evs.dev.nextSource 1 x0.level = some x1 ∧ evs.dev.up = true ∧ x0.failed = false ∧
      x0.running = true ∧ (false = false ∨ x0.handlers = [])) ∧
    (∃ x0 x1 x2, evs.dev.hod.masons[1]? = some x0 ∧ evs.dev.nextSource 1 x0.level = some x1 ∧ x0.handlers = x2 :: x0.handlers.tail ∧
      evs.dev.up = true ∧ x0.failed = false ∧ x0.running = true ∧ x2.fst < 256 ∧ x2.fst ≠ x1) ∧
    (∃ x0 x1 x2, evs.dev.hod.masons[1]? = some x0 ∧ x0.handlers = x1 :: x0.handlers.tail ∧
      evs.dev.nextSource 1 (match x0.handlers.tail with | x :: _ => (x.2 : Int) | [] => -1) = some x2 ∧ evs.dev.up = true ∧
      x0.failed = false ∧ x1.fst < 256) ∧
    (∃ x0 x1, evs.dev.hod.masons[7]? = some x0 ∧ x0.handlers = x1 :: x0.handlers.tail ∧ evs.dev.up = true ∧ x0.failed = false ∧
      x1.fst < 256 ∧ evs.dev.nextSource 7 (match x0.handlers.tail with | x :: _ => (x.2 : Int) | [] => -1) = none) ∧
    (∃ x0 x1, entering.dev.engine 1 = some x0 ∧ entering.dev.nextVector x0 x0.level = some x1 ∧ entering.dev.up = true ∧
      entering.dev.is (SRV_FAILED 1) = false ∧ x0.handlers = [] ∧ entering.dev.romSlot 1 x1 = false) ∧
    (∃ x0 x1 x2 x3, nesting.dev.engine 1 = some x0 ∧ nesting.dev.nextVector x0 x0.level = some x1 ∧
      x0.handlers = x2 :: x3 :: x0.handlers.tail.tail ∧ nesting.dev.up = true ∧ nesting.dev.is (SRV_FAILED 1) = false ∧
      x2.entering = false) ∧
    (∃ x0 x1 x2 x3, romVec.dev.engine 1 = some x0 ∧ romVec.dev.nextVector x0 x0.level = some x1 ∧ romVec.dev.slotJoint 1 x1 = some x2 ∧
      romVec.dev.jrt x2 = some x3 ∧ romVec.dev.up = true ∧ romVec.dev.is (SRV_FAILED 1) = false ∧ x0.handlers = [] ∧
      romVec.dev.romSlot 1 x1 = true ∧ x3.delivering = true ∧ (romVec.dev.entry x2).isSome = true ∧
      (romVec.dev.planVals x2).isSome = true) :=
  ⟨⟨_, rfl, by decide +kernel⟩, ⟨_, rfl, by decide +kernel⟩, ⟨_, rfl, by decide +kernel⟩, ⟨_, _, rfl, rfl, by decide +kernel⟩, ⟨_, _,
    _, rfl, rfl, rfl, by decide +kernel⟩, ⟨_, _, _, rfl, rfl, rfl, by decide +kernel⟩, ⟨_, _, rfl, rfl, by decide +kernel⟩, ⟨_, _, rfl,
    rfl, by decide +kernel⟩, ⟨_, _, _, _, rfl, rfl, rfl, by decide +kernel⟩, ⟨_, _, _, _, rfl, rfl, rfl, rfl, by decide +kernel⟩⟩

/-- The hypotheses of `Obligations.TasksScheduled`, clause by clause. -/
theorem wit_TasksScheduled :
    (taskEv.dev.up = true ∧ (∃ x0, taskEv.dev.task? (3#8).toNat = some x0 ∧ x0.st = TaskSt.dormant)) ∧
    (taskEv.dev.up = true ∧ taskEv.dev.time.started = true) ∧
    (∃ x0, taskEv.dev.task? (1#8).toNat = some x0 ∧ taskEv.dev.up = true ∧ x0.st = TaskSt.running 0 ∧ (taskEv.dev.mason 0).code = 2) ∧
    (∃ x0 x1, taskEv.dev.task? (1#8).toNat = some x0 ∧ taskEv.dev.hod.sems[0]? = some x1 ∧ taskEv.dev.up = true ∧
      x0.st = TaskSt.running 0 ∧ (taskEv.dev.mason 0).code = 2 ∧ 0 < 64 ∧ x1 = 0) ∧
    (∃ x0 x1, taskEv.dev.task? (1#8).toNat = some x0 ∧ taskEv.dev.hod.sems[3]? = some x1 ∧ taskEv.dev.up = true ∧
      x0.st = TaskSt.running 0 ∧ (taskEv.dev.mason 0).code = 2 ∧ 3 < 64 ∧ 0 < x1) ∧
    (∃ x0, taskEv.dev.task? (1#8).toNat = some x0 ∧ taskEv.dev.up = true ∧ x0.st = TaskSt.running 0 ∧ (taskEv.dev.mason 0).code = 2 ∧
      taskEv.dev.get (EVC_KIND 9) = 2 ∧ (¬9 ∈ taskEv.dev.hod.posts)) ∧
    (∃ x0, taskEv.dev.task? (1#8).toNat = some x0 ∧ taskEv.dev.up = true ∧ x0.st = TaskSt.running 0 ∧ (taskEv.dev.mason 0).code = 2 ∧
      taskEv.dev.get (EVC_KIND 40) = 2 ∧ 40 ∈ taskEv.dev.hod.posts) ∧
    (∃ x0, taskEv.dev.hod.sems[3]? = some x0 ∧ taskEv.dev.up = true ∧ taskEv.dev.waiters (WaitObj.semaphore 3) = []) ∧
    (∃ x0 x1, taskEv.dev.hod.sems[5]? = some x0 ∧
      taskEv.dev.waiters (WaitObj.semaphore 5) = x1 :: (taskEv.dev.waiters (WaitObj.semaphore 5)).tail ∧ taskEv.dev.up = true) ∧
    (∃ x0, taskEv.dev.task? (4#8).toNat = some x0 ∧ taskEv.dev.up = true ∧ x0.st = TaskSt.waiting (WaitObj.semaphore 5) (some 900)) ∧
    (∃ x0, taskEv.dev.task? (2#8).toNat = some x0 ∧ taskEv.dev.up = true ∧ x0.st = TaskSt.ready ∧ x0.long = false) :=
  ⟨by decide, by decide, ⟨_, rfl, by decide⟩, ⟨_, _, rfl, rfl, by decide⟩, ⟨_, _, rfl, rfl, by decide⟩, ⟨_, rfl, by decide⟩, ⟨_, rfl,
    by decide⟩, ⟨_, rfl, by decide⟩, ⟨_, _, rfl, rfl, by decide⟩, ⟨_, rfl, by decide⟩, ⟨_, rfl, by decide⟩⟩

/-- The hypotheses of `Obligations.MasonsAndLoad`, clause by clause. -/
theorem wit_MasonsAndLoad :
    (∃ x0, evs.dev.hod.masons[0]? = some x0 ∧ evs.dev.up = true ∧ x0.code ≠ 0 ∧ x0.code ≠ 4) ∧
    (evs.dev.up = true ∧ (true && evs.dev.hostServes) = false) ∧
    (evs.dev.up = true ∧ evs.dev.time.started = true) ∧
    ((m evs fun d => d.put HQE_STATE 2).dev.up = true ∧ (m evs fun d => d.put HQE_STATE 2).dev.hostServes = true) :=
  ⟨⟨_, rfl, by decide⟩, by decide, by decide, by decide⟩

/-- The hypotheses of `Obligations.MortarPathsAndLocks`, clause by clause. -/
theorem wit_MortarPathsAndLocks :
    (fa.dev.up = true ∧ fa.dev.is (FAB_CLOSED 9) = true) ∧
    (fa.dev.up = true ∧ fa.dev.is (FAB_CLOSED 0) = false) ∧
    fa.dev.up = true ∧
    (fa.dev.up = true ∧ (fa.dev.seqOf 0 0).backoff = none ∧ (fa.dev.seqOf 0 0).wait = none ∧ (¬0 ∈ (fa.dev.seqOf 0 0).held)) ∧
    (fa.dev.up = true ∧ (fa.dev.seqOf 0 2).wait.isSome = true ∧ (fa.dev.seqOf 0 2).held ≠ []) ∧
    (fa.dev.up = true ∧ (fa.dev.seqOf 1 1).backoff.isSome = true) :=
  ⟨by decide, by decide, by decide, by decide, by decide, by decide⟩

set_option maxRecDepth 20000 in
/-- The hypotheses of `Obligations.PortHangsAndRefetches`, clause by clause. -/
theorem wit_PortHangsAndRefetches :
    (ph.dev.up = true ∧ ph.dev.is (FAB_CLOSED 4) = false ∧ 4 ≤ 4 ∧ 4 ≠ 6 ∧ (∀ (t : Machine.Task), t ∈ ph.dev.hod.tasks → t.pri < 32)) ∧
    (ph2.dev.up = true ∧ ph2.dev.kiln.refetch.contains 1 = true ∧ ph2.dev.hostServes = true) ∧
    (∃ x0, List.find? (fun m => m.kind == 2 && m.cmd.isNone) ph2.dev.host.copies = some x0 ∧ ph2.dev.up = true ∧
      ph2.dev.kiln.refetch.contains 2 = true ∧ ph2.dev.hostServes = true ∧ x0.matches blobM = false) ∧
    (ph2.dev.up = true ∧ ph2.dev.kiln.refetch.contains 4 = true ∧ ph2.dev.hostServes = true ∧ (4 = 4 ∨ 4 = 5)) ∧
    (∃ x0, List.find? (fun m => m.kind == 2 && m.cmd.isNone) ph3.dev.host.copies = some x0 ∧ ph3.dev.up = true ∧
      ph3.dev.kiln.refetch.contains 2 = true ∧ ph3.dev.hostServes = true ∧ x0.matches blobM = true) ∧
    (∃ x0, List.find? (fun m => m.kind == 1 && m.cmd.isNone) ph4.dev.host.copies = some x0 ∧ ph4.dev.up = true ∧
      ph4.dev.kiln.refetch.contains 1 = true ∧ ph4.dev.hostServes = true ∧ x0.matches blobM = true) ∧
    (unserved.dev.up = true ∧ unserved.dev.kiln.refetch.contains 1 = true ∧ unserved.dev.hostServes = false) :=
  ⟨by decide +kernel, by decide +kernel, ⟨_, rfl, by decide +kernel⟩, by decide +kernel, ⟨_, rfl, by decide +kernel⟩, ⟨_, rfl,
    by decide +kernel⟩, by decide +kernel⟩

set_option maxRecDepth 20000 in
/-- The hypotheses of `Obligations.AssemblyAndIterations`, clause by clause. -/
theorem wit_AssemblyAndIterations :
    (∃ x0, plans.dev.kiln.active = some x0 ∧ plans.dev.up = true ∧ plans.dev.plState ≠ 0 ∧ plans.dev.kiln.ctrl % 2 = 1 ∧
      BitVec.toNat (plans.dev.reg 0x5000) % 2 = 1) ∧
    (plans.dev.up = true ∧ plans.dev.modelDue = none) ∧
    (∃ x0 x1, built.dev.kiln.prob = some x0 ∧ built.dev.planner.walls[0]? = some x1 ∧ built.dev.up = true ∧ built.dev.plState ≠ 0 ∧
      built.dev.role 0 ≠ 0 ∧ x0.s = built.dev.s + built.dev.ts ∧ built.dev.planner.phase = 0) ∧
    (∃ x0 x1, built.dev.kiln.prob = some x0 ∧ built.dev.planner.walls[1]? = some x1 ∧ built.dev.up = true ∧ built.dev.plState ≠ 0 ∧
      built.dev.role 1 = 0) :=
  ⟨⟨_, rfl, by decide +kernel⟩, by decide +kernel, ⟨_, _, rfl, rfl, by decide +kernel⟩, ⟨_, _, rfl, rfl, by decide +kernel⟩⟩

/-- The clauses of `Obligations.AssemblyAndIterations` on one outer iteration: a problem without a joint, whose iteration goes
through, and one whose iteration saturates. -/
theorem wit_AssemblyAndIterations_outer :
    (∃ x0 x1, solveNone.dev.planner.walls[0]? = some x0 ∧ x0.problem = some x1 ∧ solveNone.dev.up = true ∧ x0.iterating = true ∧
      x0.refactor = false ∧ (x0.cfg.rhoint = 0 ∨ (x0.iters + 1) % x0.cfg.rhoint ≠ 0)) ∧
    (∃ x2 x3 x4, probNone.outer SolveCfg.zero 0 [] itNone = .ok (x2, .ok x3) ∧ probNone.residuals x3 = .ok x4) ∧
    (∃ x0 x1, solveBig.dev.planner.walls[0]? = some x0 ∧ x0.problem = some x1 ∧ solveBig.dev.up = true ∧ x0.iterating = true ∧
      x0.refactor = false) ∧
    prob0.outer SolveCfg.zero 0 [] big = .error (.sat 3 0) :=
  ⟨⟨_, _, rfl, rfl, by decide +kernel⟩, ok3_of (by decide +kernel), ⟨_, _, rfl, rfl, by decide +kernel⟩, sat_of (by decide +kernel)⟩

set_option maxRecDepth 20000 in
/-- The hypotheses of `Obligations.DeadlineAndCommit`, clause by clause. -/
theorem wit_DeadlineAndCommit :
    (readyN.dev.up = true ∧ readyN.dev.plState ≠ 0) ∧
    (∃ x0 x1, readyN.dev.planner.walls[0]? = some x0 ∧ readyN.dev.planner.servo.inForce = some x1 ∧ readyN.dev.up = true ∧
      readyN.dev.plState ≠ 0 ∧ readyN.dev.active? = some 0 ∧ readyN.dev.role (1 - 0) = 0 ∧ x0.token = readyN.dev.get SLV_AUTH ∧
      readyN.dev.chkWorks 10 = true) ∧
    (∃ x0 x1 x2, rec0.dev.planner.walls[0]? = some x0 ∧ x0.record = some x1 ∧ (rec0.dev.rx true).inForce = some x2 ∧
      rec0.dev.up = true ∧ x0.portClosed = false ∧ x0.held = false ∧ rec0.dev.planning = true ∧ rec0.dev.planner.restart = none ∧
      (rec0.dev.rx true).slot = none ∧ rec0.dev.chkWorks 11 = true ∧ (x1.token = x2.token ∨ newer 16 x1.token x2.token = true) ∧
      rec0.dev.consistent x2 x1 = true) ∧
    (∃ x0 x1, closedPort.dev.planner.walls[0]? = some x0 ∧ x0.record = some x1 ∧ closedPort.dev.up = true ∧ x0.portClosed = true) ∧
    (rec0A.dev.up = true ∧ rec0A.dev.planner.phase = 2 ∧ rec0A.dev.planning = true ∧ rec0A.dev.planner.restart = none ∧
      rec0A.dev.planner.servo.accepted = true ∧ rec0A.dev.planner.chanA.accepted = true) ∧
    (∃ x0 x1, rec2.dev.active? = some x0 ∧ rec2.dev.standby? = some x1 ∧ rec2.dev.up = true ∧ rec2.dev.planner.phase = 2 ∧
      rec2.dev.planning = true ∧ rec2.dev.planner.restart = none ∧
      (rec2.dev.planner.servo.accepted && rec2.dev.planner.chanA.accepted) = false ∧ rec2.dev.planner.recov = none) :=
  ⟨by decide +kernel, ⟨_, _, rfl, rfl, by decide +kernel⟩, ⟨_, _, _, rfl, rfl, rfl, by decide +kernel⟩, ⟨_, _, rfl, rfl,
    by decide +kernel⟩, by decide +kernel, ⟨_, _, rfl, rfl, by decide +kernel⟩⟩

set_option maxRecDepth 20000 in
/-- The hypotheses of `Obligations.BoundaryAndControl`, clause by clause. -/
theorem wit_BoundaryAndControl :
    (plans.dev.up = true ∧ plans.dev.linked = true ∧ plans.dev.plState ≠ 4) ∧
    (∃ x0, plans.dev.planner.walls[0]? = some x0 ∧ plans.dev.up = true ∧ plans.dev.linked = true) ∧
    (∃ x0, plans.dev.planner.walls[0]? = some x0 ∧ plans.dev.up = true ∧ plans.dev.active? = some 0 ∧ plans.dev.plState ≠ 0 ∧
      plans.dev.planner.recov = none ∧ plans.dev.role (1 - 0) < 2) ∧
    (∃ x0, plans.dev.planner.walls[1]? = some x0 ∧ plans.dev.up = true ∧ (plans.dev.role 1 ≠ 0 ∨ x0.avail = true) ∧
      plans.dev.active? ≠ some 1) ∧
    (∃ x0, plans.dev.kiln.active = some x0 ∧ plans.dev.up = true ∧ plans.dev.modelDue = none ∧ plans.dev.plState ≠ 0) ∧
    ((ticked rec0).dev.up = true ∧ (ticked rec0).dev.time.ticked = true) ∧
    (standing.dev.up = true ∧ standing.dev.plState = 3 ∧ 3 ≤ standing.dev.planner.standBeats) ∧
    (∃ x0 x1, leaves.dev.active? = some x0 ∧ leaves.dev.kiln.active = some x1 ∧ leaves.dev.up = true ∧ leaves.dev.linked = true ∧
      leaves.dev.plState = 4 ∧ leaves.dev.noRequest false = true ∧ leaves.dev.noRequest true = true) ∧
    (∃ x0, window.dev.planner.window = some x0 ∧ window.dev.up = true) ∧
    (∃ x0, live.dev.planner.walls[0]? = some x0 ∧ live.dev.up = true ∧ live.dev.role 0 = 0 ∧ x0.avail = false) ∧
    (live.dev.up = true ∧ live.dev.modelDue = none ∧ live.dev.kiln.active = none) ∧
    (∃ x0, sepWaits.dev.commons.built = some x0 ∧ sepWaits.dev.up = true ∧ sepWaits.dev.now < x0.tfrom) ∧
    (sepWaits.dev.up = true ∧ (sepWaits.dev.commons.lateAt = some 99999999 ∨ sepWaits.dev.commons.lateAt = none ∧
      ∃ r, sepWaits.dev.commons.built = some r ∧ r.tfrom = 99999999)) :=
  ⟨by decide +kernel, ⟨_, rfl, by decide +kernel⟩, ⟨_, rfl, by decide +kernel⟩, ⟨_, rfl, by decide +kernel⟩, ⟨_, rfl,
    by decide +kernel⟩, by decide +kernel, by decide +kernel, ⟨_, _, rfl, rfl, by decide +kernel⟩, ⟨_, rfl, by decide +kernel⟩, ⟨_,
    rfl, by decide +kernel⟩, by decide +kernel, ⟨_, rfl, by decide +kernel⟩, by decide +kernel⟩

set_option maxRecDepth 20000 in
/-- The hypotheses of `Obligations.HeathlineBeat`, clause by clause. -/
theorem wit_HeathlineBeat :
    (heath.dev.up = true ∧ heath.dev.time.started = true) ∧
    (heath.dev.portRuns 1 = true ∧ List.find? (fun y => y.slot == slot0.slot) (heath.dev.slots 1) = some slot0) ∧
    (heath.dev.portRuns 1 = true ∧ (∀ (x : SlotEnt), x ∈ heath.dev.slots 1 → x.slot ≠ 5)) ∧
    (heath.dev.portRuns 1 = true ∧ ((heath.dev.port 1).link = false ∨ notOurs.etype ≠ heath.dev.get HTL_ETYPE)) ∧
    (∃ x0 x1 x2, heath.dev.section? 1 = some x0 ∧
      List.find? (fun y => inWindow x0 y good) (List.filter heath.dev.awaits (heath.dev.slots 1)) = some x1 ∧
      heath.dev.node? x1.laddr = some x2 ∧ heath.dev.portRuns 1 = true ∧ (heath.dev.port 1).link = true ∧
      good.etype = heath.dev.get HTL_ETYPE ∧ good.fcsOk = true ∧ 20 ≤ good.bytes.length ∧
      crc32c (List.take (good.bytes.length - 4) good.bytes) = uAt good.bytes (good.bytes.length - 4) 4 ∧ uAt good.bytes 0 1 = 19 ∧
      heath.dev.headAgrees 1 x1 good.bytes = true) ∧
    (∃ x0 x1 x2, heath.dev.section? 1 = some x0 ∧
      List.find? (fun y => inWindow x0 y other) (List.filter heath.dev.awaits (heath.dev.slots 1)) = some x1 ∧
      heath.dev.node? x1.laddr = some x2 ∧ heath.dev.portRuns 1 = true ∧ (heath.dev.port 1).link = true ∧
      other.etype = heath.dev.get HTL_ETYPE ∧ other.fcsOk = true ∧ 20 ≤ other.bytes.length ∧
      crc32c (List.take (other.bytes.length - 4) other.bytes) = uAt other.bytes (other.bytes.length - 4) 4 ∧ uAt other.bytes 0 1 = 19 ∧
      heath.dev.headAgrees 1 x1 other.bytes = false) ∧
    (heath.dev.portRuns 1 = true ∧ (heath.dev.port 1).link = true ∧ fcsBad.etype = heath.dev.get HTL_ETYPE ∧ fcsBad.fcsOk = false) ∧
    (∃ x0 x1, heath.dev.section? 1 = some x0 ∧ heath.dev.node? slot0.laddr = some x1 ∧ heath.dev.portRuns 1 = true ∧
      List.find? (fun y => y.slot == slot0.slot) (heath.dev.slots 1) = some slot0 ∧ x1.got.contains slot0.slot = false ∧
      x1.polled = true ∧ heath.dev.onLine slot0.laddr = true) ∧
    (∃ x0, heath.dev.heath.ports[1]? = some x0 ∧ heath.dev.portRuns 1 = true ∧ x0.endSent = false) ∧
    (∃ x0, answered.dev.section? 1 = some x0 ∧ answered.dev.portRuns 1 = true ∧ (answered.dev.port 1).link = true ∧
      good.etype = answered.dev.get HTL_ETYPE ∧ good.fcsOk = true ∧ 20 ≤ good.bytes.length ∧
      crc32c (List.take (good.bytes.length - 4) good.bytes) = uAt good.bytes (good.bytes.length - 4) 4 ∧ uAt good.bytes 0 1 = 19 ∧
      List.find? (fun y => inWindow x0 y good) (List.filter answered.dev.awaits (answered.dev.slots 1)) = none) ∧
    (∃ x0 x1, answered.dev.section? 1 = some x0 ∧ answered.dev.node? slot0.laddr = some x1 ∧ answered.dev.portRuns 1 = true ∧
      List.find? (fun y => y.slot == slot0.slot) (answered.dev.slots 1) = some slot0 ∧ x1.got.contains slot0.slot = true) ∧
    (∃ x0, ended.dev.heath.ports[1]? = some x0 ∧ ended.dev.portRuns 1 = true ∧ x0.endSent = true) :=
  ⟨by decide +kernel, by decide +kernel, by decide +kernel, by decide +kernel, ⟨_, _, _, rfl, rfl, rfl, by decide +kernel⟩, ⟨_, _, _,
    rfl, rfl, rfl, by decide +kernel⟩, by decide +kernel, ⟨_, _, rfl, rfl, by decide +kernel⟩, ⟨_, rfl, by decide +kernel⟩, ⟨_, rfl,
    by decide +kernel⟩, ⟨_, _, rfl, rfl, by decide +kernel⟩, ⟨_, rfl, by decide +kernel⟩⟩

/-- The hypotheses of `Obligations.HeathlineJoinAndPorts`, clause by clause. -/
theorem wit_HeathlineJoinAndPorts :
    (∃ x0, heath.dev.heath.ports[1]? = some x0 ∧ heath.dev.portRuns 1 = true ∧ (x0.endSent = false ∨ x0.exchanged = true)) ∧
    (∃ x0, heath.dev.heath.ports[1]? = some x0 ∧ heath.dev.portRuns 1 = true ∧ x0.link = true) ∧
    (∃ x0, heath.dev.heath.ports[1]? = some x0 ∧ heath.dev.up = true) ∧
    (∃ x0, heath.dev.heath.ports[1]? = some x0 ∧ heath.dev.linked = true ∧ heath.dev.is (HTL_PENP 1) = false) ∧
    heath.dev.linked = true ∧
    (∃ x0 x1 x2, (node 0 ended).dev.heath.ports[1]? = some x0 ∧ (node 0 ended).dev.section? 1 = some x1 ∧
      (node 0 ended).dev.joinNext 1 = some x2 ∧ (node 0 ended).dev.portRuns 1 = true ∧ x0.endSent = true ∧ x0.exchanged = false) ∧
    (∃ x0 x1, (joining 1).dev.heath.ports[1]? = some x0 ∧ (joining 1).dev.section? 1 = some x1 ∧ x0.exchange = some addr1.laddr ∧
      x1.entry? addr1.laddr = some addr1 ∧ (joining 1).dev.portRuns 1 = true ∧ x0.link = true ∧
      probeAns.etype = (joining 1).dev.get HTL_ETYPE ∧ probeAns.fcsOk = true ∧ probeAns.bytes.length = 36 ∧
      crc32c (List.take 32 probeAns.bytes) = uAt probeAns.bytes 32 4 ∧ uAt probeAns.bytes 0 1 = 22 ∧
      uAt probeAns.bytes 1 1 = (joining 1).dev.get (HTL_MODE 1) ∧ uAt probeAns.bytes 2 1 = 255 ∧
      uAt probeAns.bytes 4 4 = (joining 1).dev.get HTL_BEAT ∧ uAt probeAns.bytes 8 2 = 16 ∧ uAt probeAns.bytes 12 2 = addr1.station ∧
      ((joining 1).dev.joinWindow 1 x1 addr1).fst ≤ probeAns.first ∧ probeAns.last ≤ ((joining 1).dev.joinWindow 1 x1 addr1).snd ∧
      (joining 1).dev.nstate addr1.laddr = 1 ∧ uAt probeAns.bytes 3 1 = 254 ∧ uAt probeAns.bytes 16 4 = addr1.vendor ∧
      uAt probeAns.bytes 20 4 = addr1.product ∧ covers x1 addr1.laddr (uAt probeAns.bytes 28 1) (uAt probeAns.bytes 29 1) = true) ∧
    (∃ x0 x1, (joining 1).dev.heath.ports[1]? = some x0 ∧ (joining 1).dev.section? 1 = some x1 ∧ x0.exchange = some addr1.laddr ∧
      x1.entry? addr1.laddr = some addr1 ∧ (joining 1).dev.portRuns 1 = true ∧ x0.link = true ∧
      wrongAns.etype = (joining 1).dev.get HTL_ETYPE ∧ wrongAns.fcsOk = true ∧ wrongAns.bytes.length = 36 ∧
      crc32c (List.take 32 wrongAns.bytes) = uAt wrongAns.bytes 32 4 ∧ uAt wrongAns.bytes 0 1 = 22 ∧
      uAt wrongAns.bytes 1 1 = (joining 1).dev.get (HTL_MODE 1) ∧ uAt wrongAns.bytes 2 1 = 255 ∧
      uAt wrongAns.bytes 4 4 = (joining 1).dev.get HTL_BEAT ∧ uAt wrongAns.bytes 8 2 = 16 ∧ uAt wrongAns.bytes 12 2 = addr1.station ∧
      ((joining 1).dev.joinWindow 1 x1 addr1).fst ≤ wrongAns.first ∧ wrongAns.last ≤ ((joining 1).dev.joinWindow 1 x1 addr1).snd ∧
      (joining 1).dev.nstate addr1.laddr = 1 ∧ uAt wrongAns.bytes 3 1 = 254 ∧ (uAt wrongAns.bytes 16 4 ≠ addr1.vendor ∨
      uAt wrongAns.bytes 20 4 ≠ addr1.product)) ∧
    (∃ x0 x1, (joining 3).dev.heath.ports[1]? = some x0 ∧ (joining 3).dev.section? 1 = some x1 ∧ x0.exchange = some addr1.laddr ∧
      x1.entry? addr1.laddr = some addr1 ∧ (joining 3).dev.portRuns 1 = true ∧ x0.link = true ∧
      syncAns.etype = (joining 3).dev.get HTL_ETYPE ∧ syncAns.fcsOk = true ∧ syncAns.bytes.length = 36 ∧
      crc32c (List.take 32 syncAns.bytes) = uAt syncAns.bytes 32 4 ∧ uAt syncAns.bytes 0 1 = 22 ∧
      uAt syncAns.bytes 1 1 = (joining 3).dev.get (HTL_MODE 1) ∧ uAt syncAns.bytes 2 1 = 255 ∧
      uAt syncAns.bytes 4 4 = (joining 3).dev.get HTL_BEAT ∧ uAt syncAns.bytes 8 2 = 16 ∧ uAt syncAns.bytes 12 2 = addr1.station ∧
      ((joining 3).dev.joinWindow 1 x1 addr1).fst ≤ syncAns.first ∧ syncAns.last ≤ ((joining 3).dev.joinWindow 1 x1 addr1).snd ∧
      (joining 3).dev.nstate addr1.laddr = 3 ∧ uAt syncAns.bytes 3 1 = addr1.laddr ∧ bitOf (uAt syncAns.bytes 10 1) 0 = true) ∧
    (∃ x0 x1, (joining 4).dev.heath.ports[1]? = some x0 ∧ (joining 4).dev.section? 1 = some x1 ∧ x0.exchange = some addr1.laddr ∧
      x1.entry? addr1.laddr = some addr1 ∧ (joining 4).dev.portRuns 1 = true ∧ x0.link = true ∧
      syncAns.etype = (joining 4).dev.get HTL_ETYPE ∧ syncAns.fcsOk = true ∧ syncAns.bytes.length = 36 ∧
      crc32c (List.take 32 syncAns.bytes) = uAt syncAns.bytes 32 4 ∧ uAt syncAns.bytes 0 1 = 22 ∧
      uAt syncAns.bytes 1 1 = (joining 4).dev.get (HTL_MODE 1) ∧ uAt syncAns.bytes 2 1 = 255 ∧
      uAt syncAns.bytes 4 4 = (joining 4).dev.get HTL_BEAT ∧ uAt syncAns.bytes 8 2 = 16 ∧ uAt syncAns.bytes 12 2 = addr1.station ∧
      ((joining 4).dev.joinWindow 1 x1 addr1).fst ≤ syncAns.first ∧ syncAns.last ≤ ((joining 4).dev.joinWindow 1 x1 addr1).snd ∧
      (joining 4).dev.nstate addr1.laddr = 4 ∧ uAt syncAns.bytes 3 1 = addr1.laddr ∧ bitOf (uAt syncAns.bytes 10 1) 0 = true) ∧
    (∃ x0, noLink.dev.heath.ports[1]? = some x0 ∧ noLink.dev.portRuns 1 = true ∧ x0.link = false) ∧
    (∃ x0, pen.dev.heath.ports[1]? = some x0 ∧ pen.dev.linked = true ∧ pen.dev.is (HTL_PENP 1) = true) :=
  ⟨⟨_, rfl, by decide +kernel⟩, ⟨_, rfl, by decide +kernel⟩, ⟨_, rfl, by decide +kernel⟩, ⟨_, rfl, by decide +kernel⟩,
    by decide +kernel, ⟨_, _, _, rfl, rfl, rfl, by decide +kernel⟩, ⟨_, _, rfl, rfl, rfl, rfl, by decide +kernel⟩, ⟨_, _, rfl, rfl,
    rfl, rfl, by decide +kernel⟩, ⟨_, _, rfl, rfl, rfl, rfl, by decide +kernel⟩, ⟨_, _, rfl, rfl, rfl, rfl, by decide +kernel⟩, ⟨_,
    rfl, by decide +kernel⟩, ⟨_, rfl, by decide +kernel⟩⟩

/-- The hypotheses of `Obligations.EnginePoints`, clause by clause. -/
theorem wit_EnginePoints :
    (points.dev.up = true ∧ points.dev.is CLK_SERVOLK = true ∧ points.dev.servo.frozen = false) ∧
    (points.dev.up = true ∧ points.dev.is (SRV_FAILED 1) = false ∧
      (∀ j ∈ (points.dev.boundJoints 1).filter (fun j => j.delivering && !j.moved), j.tx.isSome = true ∨ j.trapNow = true)) ∧
    (missed.dev.up = true ∧ missed.dev.is (SRV_FAILED 2) = false ∧
      (∃ j ∈ (missed.dev.boundJoints 2).filter (fun j => j.delivering && !j.moved), j.missing = true)) ∧
    (points.dev.up = true ∧ points.dev.is (SRV_FAILED 2) = false ∧
      (∀ j ∈ (points.dev.boundJoints 2).filter (fun j => j.delivering && !j.moved), j.missing = false) ∧
      (∃ j ∈ (points.dev.boundJoints 2).filter (fun j => j.delivering && !j.moved), j.tx = none ∧ j.trapNow = false)) ∧
    (∃ j b ent, points.dev.jrt 3 = some j ∧ j.cmDone = some b ∧ points.dev.entry 3 = some ent ∧ points.dev.up = true) ∧
    (points.dev.linked = true ∧ (∀ e : Fin 16, bitOf (0#16).toNat e = true → points.dev.is (SRV_FAILED e) = true)) ∧
    (points.dev.linked = true ∧ bitOf (4#16).toNat 2 = true ∧ points.dev.is (SRV_FAILED 2) = false) ∧
    (frozen.dev.up = true ∧ frozen.dev.is CLK_SERVOLK = true ∧ frozen.dev.servo.frozen = true) ∧
    (failed2.dev.linked = true ∧ (∀ e : Fin 16, bitOf (4#16).toNat e = true → failed2.dev.is (SRV_FAILED e) = true)) ∧
    (allDone.dev.up = true ∧ ∀ j ∈ (allDone.dev.boundJoints 2).filter (fun j => j.delivering && !j.moved),
      j.tx.isSome = true ∨ j.trapNow = true) :=
  ⟨by decide +kernel, by decide +kernel, by decide +kernel, by decide +kernel, ⟨_, _, _, rfl, rfl, rfl, by decide +kernel⟩,
    by decide +kernel, by decide +kernel, by decide +kernel, by decide +kernel, by decide +kernel⟩

/-- The hypotheses of `Obligations.SafeSides`, clause by clause. -/
theorem wit_SafeSides : ofChannel true (Instr.offPulseEnd true 0) = true ∧ both.dev.chUp true = true := by decide

/-- The hypotheses of `Obligations.UnlockAndClock`, clause by clause. -/
theorem wit_UnlockAndClock :
    (unlinkedX.dev.linked = true ∧ unlinkedX.dev.is CLK_XDIE = false) ∧
    unlinkedX.dev.safety.unlocked = false ∧
    (unlinkedX.dev.linked = true ∧ unlinkedX.dev.safety.unlocked = false) ∧
    unlinkedX.dev.chUp true = true ∧
    (both.dev.linked = true ∧ both.dev.is CLK_XDIE = true ∧ both.dev.hedgeUp = true) ∧
    (unlocked.dev.hedgeUp = true ∧ unlocked.dev.safety.unlocked = true) ∧
    (∃ x0, unlocked.dev.setOf false = some x0 ∧ unlocked.dev.linked = true ∧ unlocked.dev.safety.unlocked = true) :=
  ⟨by decide, by decide, by decide, by decide, by decide, by decide, ⟨_, rfl, by decide⟩⟩

/-- The hypotheses of `Obligations.SafetyBeats`, clause by clause. -/
theorem wit_SafetyBeats :
    both.dev.chUp true = true ∧
    (both.dev.chUp true = true ∧ (∀ (b : List Byte), none = some b → b.length ≠ 64 ∨ crc16 (List.take 62 b) ≠ uAt b 62 2)) ∧
    (both.dev.chUp true = true ∧ vGood.length = 64 ∧ crc16 (List.take 62 vGood) = uAt vGood 62 2) ∧
    (both.dev.chUp false = true ∧ both.dev.safety.noRec < 2) ∧
    both.dev.chUp false = true ∧
    (recordless.dev.chUp false = true ∧ 2 ≤ recordless.dev.safety.noRec) ∧
    (∃ x0 x1, changing.dev.safety.a.next = some x0 ∧ changing.dev.safety.b.next = some x1 ∧ changing.dev.chUp true = true ∧
      (changing.dev.chUp !true) = true ∧ changing.dev.is CLK_XDIE = true) ∧
    (∃ x0, resetDue.dev.setOf false = some x0 ∧ (∀ (g : Bool), (resetDue.dev.ch g).arms.length = 8) ∧ resetDue.dev.chUp true = true ∧
      (resetDue.dev.chUp !true) = true ∧ resetDue.dev.is CLK_XDIE = true ∧ resetDue.dev.safety.a.next = none ∧
      bitOf resetDue.dev.safety.resetArms 0 = true ∧ (∀ (g : Bool), (resetDue.dev.ch g).judged = true ∧ resetDue.dev.calm g = true ∧
      (resetDue.dev.ch g).causesGone x0 0 = true ∧ (resetDue.dev.ch g).fltSides 0 = [])) :=
  ⟨by decide +kernel, by decide +kernel, by decide +kernel, by decide +kernel, by decide +kernel, by decide +kernel, ⟨_, _, rfl, rfl,
    by decide +kernel⟩, ⟨_, rfl, fun g => by cases g <;> rfl, by decide +kernel⟩⟩

/-- The hypotheses of `Obligations.SafetyInputs`, clause by clause. -/
theorem wit_SafetyInputs :
    (both.dev.chUp true = true ∧ both.dev.setOf true = some (saf0 0) ∧ (both.dev.ch true).pairs[0]? = some pair0 ∧
      (saf0 0).pairs[0]? = some (pairE 1 0) ∧ (pairE 1 0).type = 1 ∧ pair0.level = true ∧ pair0.fault = false ∧
      pair0.startTest = false ∧ pair0.disc = false) ∧
    (noSet.dev.chUp false = true ∧ noSet.dev.setOf false = none ∧ (noSet.dev.ch false).pairs[0]? = some pair0) ∧
    ((saf0 0).home 1 = 1 ∧ (both.dev.ch true).pairs[1]? = some pairDisc ∧ (saf0 0).pairs[1]? = some (pairE 2 0) ∧
      (pairE 2 0).type ≠ 0 ∧ pairDisc.disc = true ∧ pairDisc.fault = false) ∧
    (pairDisc.two = .arming 3 ∧ (saf0 0).home 0 = 0 ∧ pair0.two = .off) ∧
    ((both.dev.ch true).tel = [] ∧
      (handed [telGood]).dev.chUp true = true ∧ ((handed [telGood]).dev.ch true).tel = [telGood] ∧
      ((handed [telOld]).dev.ch true).tel = [telOld] ∧ (handed [telGood]).dev.setOf true = some (saf0 0) ∧
      (saf0 0).joints.find? (fun k => k.node == telGood.1 && k.axis == uAt telGood.2.2 2 1) = some joint0 ∧
      (saf0 0).sensors.find? (fun k => k.node == telGood.1) = none ∧
      ((handed [telGood]).dev.ch true).axis joint0.gj = some axis0 ∧ telGood.2.1 = (handed [telGood]).dev.get HTL_BEAT ∧
      axisAccept telGood.1 telGood.2.2 axis0 = true ∧ axisAccept telOld.1 telOld.2.2 axis0 = false) ∧
    ((sensed.dev.ch true).tel = [telSns] ∧ sensed.dev.chUp true = true ∧ sensed.dev.setOf true = some safSns ∧
      safSns.sensors.find? (fun k => k.node == telSns.1) = some sns0 ∧ telSns.2.1 = sensed.dev.get HTL_BEAT) :=
  ⟨by decide +kernel, by decide +kernel, by decide +kernel, by decide +kernel, by decide +kernel, by decide +kernel⟩

/-- The hypotheses of `Obligations.SafetyOutputs`, clause by clause. -/
theorem wit_SafetyOutputs :
    both.dev.chUp true = true ∧
    (both.dev.chUp true = true ∧ bitOf (both.dev.ch true).cmd 0 ≠ false) ∧
    (both.dev.chUp true = true ∧ bitOf (both.dev.ch true).clearing 0 = false) ∧
    (∃ x0, (both.dev.ch true).arms[0]? = some x0 ∧ both.dev.chUp true = true ∧ (x0.phase ≠ 2 ∨ x0.st = FState.sto)) ∧
    (∃ x0, (both.dev.ch true).arms[0]? = some x0 ∧ both.dev.chUp true = true ∧ x0.st ≠ FState.ss1) ∧
    (testing.dev.chUp true = true ∧ bitOf (testing.dev.ch true).clearing 0 = true) ∧
    (∃ x0 x1, (brakeDue.dev.ch true).arms[0]? = some x0 ∧ brakeDue.dev.setOf true = some x1 ∧ brakeDue.dev.chUp true = true ∧
      (brakeDue.dev.ch true).ready x1 0 = true ∧ x0.phase = 2 ∧ x0.st ≠ FState.sto) ∧
    (∃ x0, (stopping.dev.ch true).arms[0]? = some x0 ∧ stopping.dev.chUp true = true ∧ x0.st = FState.ss1) :=
  ⟨by decide, by decide, by decide, ⟨_, rfl, by decide⟩, ⟨_, rfl, by decide⟩, by decide, ⟨_, _, rfl, rfl, by decide⟩, ⟨_, rfl,
    by decide⟩⟩

/-- The hypotheses of `Obligations.FeedbackChannels`, clause by clause. -/
theorem wit_FeedbackChannels :
    (∃ x0, fb3.dev.field.fb[2]? = some x0 ∧ fb3.dev.linked = true ∧ fb3.dev.get (FIO_STATE 2) = 3) ∧
    (∃ x0, fb3.dev.field.fb[2]? = some x0 ∧ fb3.dev.linked = true) ∧
    (∃ x0, fb3.dev.field.fb[2]? = some x0 ∧ fb3.dev.linked = true ∧ fb3.dev.fbLocked 2 = false) ∧
    (∃ x0, fb3.dev.field.fb[2]? = some x0 ∧ fb3.dev.up = true ∧ (fb3.dev.get (FIO_STATE 2) = 0 ∨ fb3.dev.get (FIO_STATE 2) = 3)) ∧
    (∃ x0, fb3.dev.field.fb[2]? = some x0 ∧ fb3.dev.up = true) ∧
    (∃ x0, fb3.dev.field.fb[2]? = some x0 ∧ fb3.dev.up = true ∧ (x0.cfg.mode ≠ 3 ∨ fb3.dev.get (FIO_STATE 2) = 0)) ∧
    (∃ x0, fb3.dev.field.fb[2]? = some x0 ∧ fb3.dev.up = true ∧ fb3.dev.time.started = true) ∧
    (∃ x0, fb2.dev.field.fb[2]? = some x0 ∧ fb2.dev.linked = true ∧ fb2.dev.get (FIO_STATE 2) ≠ 3) ∧
    (∃ x0, fb2.dev.field.fb[2]? = some x0 ∧ fb2.dev.up = true ∧ (fb2.dev.get (FIO_STATE 2) = 1 ∨ fb2.dev.get (FIO_STATE 2) = 2) ∧
      x0.cfg.mode = 1 ∧ (quadPos (1#3).toNat + 4 - quadPos (fb2.dev.get (FIO_LEVEL 2))) % 4 = 1) ∧
    (∃ x0, fb2.dev.field.fb[2]? = some x0 ∧ fb2.dev.up = true ∧ (fb2.dev.get (FIO_STATE 2) = 1 ∨ fb2.dev.get (FIO_STATE 2) = 2) ∧
      x0.cfg.mode = 1 ∧ (quadPos (3#3).toNat + 4 - quadPos (fb2.dev.get (FIO_LEVEL 2))) % 4 = 2) ∧
    (∃ x0, fb2.dev.field.fb[2]? = some x0 ∧ fb2.dev.up = true ∧ (fb2.dev.get (FIO_STATE 2) = 1 ∨ fb2.dev.get (FIO_STATE 2) = 2) ∧
      x0.cfg.mode = 1 ∧ x0.cfg.zmode ≠ 0) ∧
    (∃ x0, fb0.dev.field.fb[2]? = some x0 ∧ fb0.dev.up = true ∧ (fb0.dev.get (FIO_STATE 2) = 0 ∨ x0.cfg.mode ≠ 1 ∨ x0.cfg.zmode = 0)) ∧
    (∃ x0, fbPlan.dev.field.fb[2]? = some x0 ∧ fbPlan.dev.linked = true ∧ fbPlan.dev.fbLocked 2 = true) ∧
    (∃ x0, fbHall.dev.field.fb[2]? = some x0 ∧ fbHall.dev.up = true ∧ fbHall.dev.get (FIO_STATE 2) = 2 ∧ x0.cfg.mode = 2 ∧
      hallPos (fbHall.dev.get (FIO_LEVEL 2)) = some 0 ∧ hallPos (3#3).toNat = some 1 ∧ (3#3).toNat ≠ fbHall.dev.get (FIO_LEVEL 2)) := by
  and_intros <;> exact ex1_of (by decide +kernel)

/-- The clauses on an SSI word. -/
theorem wit_FeedbackChannels_ssi0 :
    (∃ x0, fbSsi.dev.field.fb[2]? = some x0 ∧ fbSsi.dev.up = true ∧ x0.cfg.mode = 3 ∧ fbSsi.dev.get (FIO_STATE 2) ≠ 0 ∧
      ssiFails x0.cfg x0.word false true ((77#40).toNat % 2 ^ x0.cfg.nbits) (if x0.cfg.gray = true then grayDecode x0.cfg.nbits
      ((77#40).toNat % 2 ^ x0.cfg.nbits) else (77#40).toNat % 2 ^ x0.cfg.nbits) = true) := ex1_of (by decide +kernel)
theorem wit_FeedbackChannels_ssi1 :
    (∃ x0, fbSsi.dev.field.fb[2]? = some x0 ∧ fbSsi.dev.up = true ∧ x0.cfg.mode = 3 ∧ fbSsi.dev.get (FIO_STATE 2) ≠ 0 ∧
      ssiFails x0.cfg x0.word true true ((77#40).toNat % 2 ^ x0.cfg.nbits) (if x0.cfg.gray = true then grayDecode x0.cfg.nbits
      ((77#40).toNat % 2 ^ x0.cfg.nbits) else (77#40).toNat % 2 ^ x0.cfg.nbits) = false) := ex1_of (by decide +kernel)

/-- The hypotheses of `Obligations.AxesAndLoops`, clause by clause. -/
theorem wit_AxesAndLoops :
    (∃ x0, axis0At.dev.field.aux[2]? = some x0 ∧ axis0At.dev.linked = true) ∧
    (∃ x0, axis0At.dev.field.aux[2]? = some x0 ∧ axis0At.dev.linked = true ∧ (axis0At.dev.get (AUX_STATE 2) = 0 ∨
      axis0At.dev.get (AUX_STATE 2) = 1)) ∧
    (∃ x0, axis0At.dev.field.aux[2]? = some x0 ∧ axis0At.dev.linked = true ∧ axis0At.dev.get (AUX_STATE 2) ≠ 6) ∧
    (∃ x0, axis0At.dev.field.aux[2]? = some x0 ∧ axis0At.dev.up = true ∧ axis0At.dev.get (AUX_STATE 2) ≠ 5) ∧
    (∃ x0, axis0At.dev.field.aux[2]? = some x0 ∧ axis0At.dev.up = true ∧ axis0At.dev.time.started = true) ∧
    (∃ x0, axis0At.dev.field.hys[5]? = some x0 ∧ axis0At.dev.linked = true ∧ axis0At.dev.is (HYS_OWNED 5) = false) ∧
    (∃ x0, axis0At.dev.field.hys[5]? = some x0 ∧ axis0At.dev.up = true ∧ axis0At.dev.is (HYS_EN 5) = false) ∧
    (∃ x0, axis6At.dev.field.aux[2]? = some x0 ∧ axis6At.dev.linked = true ∧ axis6At.dev.get (AUX_STATE 2) ≠ 0 ∧
      axis6At.dev.get (AUX_STATE 2) ≠ 1) ∧
    (∃ x0, axis6At.dev.field.aux[2]? = some x0 ∧ axis6At.dev.linked = true ∧ axis6At.dev.get (AUX_STATE 2) = 6 ∧
      axis6At.dev.is (AUX_PHSKIP 2) = false) ∧
    (∃ x0, axisSkip.dev.field.aux[2]? = some x0 ∧ axisSkip.dev.linked = true ∧ axisSkip.dev.get (AUX_STATE 2) = 6 ∧
      axisSkip.dev.is (AUX_PHSKIP 2) = true) ∧
    (∃ x0, axis5At.dev.field.aux[2]? = some x0 ∧ axis5At.dev.up = true ∧ axis5At.dev.get (AUX_STATE 2) = 5) ∧
    (∃ x0, loopOn.dev.field.hys[5]? = some x0 ∧ loopOn.dev.up = true ∧ loopOn.dev.is (HYS_EN 5) = true ∧ loopOn.dev.field.hl = none ∧
      (loopOn.dev.get (HYS_STALE 5) = 0 ∨ (if x0.fresh = true then 0 else x0.stale + 1) < loopOn.dev.get (HYS_STALE 5))) ∧
    (∃ x0, loopStale.dev.field.hys[5]? = some x0 ∧ loopStale.dev.up = true ∧ loopStale.dev.is (HYS_EN 5) = true ∧
      loopStale.dev.field.hl = none ∧ loopStale.dev.get (HYS_STALE 5) ≠ 0 ∧
      loopStale.dev.get (HYS_STALE 5) ≤ if x0.fresh = true then 0 else x0.stale + 1) ∧
    (∃ x0, loopOwned.dev.field.hys[5]? = some x0 ∧ loopOwned.dev.linked = true ∧ loopOwned.dev.is (HYS_OWNED 5) = true) :=
  ⟨⟨_, rfl, by decide +kernel⟩, ⟨_, rfl, by decide +kernel⟩, ⟨_, rfl, by decide +kernel⟩, ⟨_, rfl, by decide +kernel⟩, ⟨_, rfl,
    by decide +kernel⟩, ⟨_, rfl, by decide +kernel⟩, ⟨_, rfl, by decide +kernel⟩, ⟨_, rfl, by decide +kernel⟩, ⟨_, rfl,
    by decide +kernel⟩, ⟨_, rfl, by decide +kernel⟩, ⟨_, rfl, by decide +kernel⟩, ⟨_, rfl, by decide +kernel⟩, ⟨_, rfl,
    by decide +kernel⟩, ⟨_, rfl, by decide +kernel⟩⟩

/-- The hypotheses of `Obligations.MainsMonitor`, clause by clause. -/
theorem wit_MainsMonitor :
    (host.dev.up = true ∧ host.dev.is (MNS_STUCK 3) = false) ∧
    host.dev.up = true ∧
    (host.dev.up = true ∧ host.dev.is MNS_EN = false) ∧
    (host.dev.up = true ∧ host.dev.mains.dip = none) ∧
    (host.dev.up = true ∧ host.dev.mains.rt = none) ∧
    (∃ x0, (dip 59).dev.mains.dip = some x0 ∧ (dip 59).dev.up = true ∧ x0.calm < 20 * (dip 59).dev.get MNS_RTEND) ∧
    (∃ x0, (dip 60).dev.mains.dip = some x0 ∧ (dip 60).dev.up = true ∧ 20 * (dip 60).dev.get MNS_RTEND ≤ x0.calm) ∧
    (∃ x0, riding.dev.mains.rt = some x0 ∧ riding.dev.up = true) ∧
    (stuck.dev.up = true ∧ stuck.dev.is (MNS_STUCK 3) = true) ∧
    ((∀ (p : Nat), ampOf supply p = if p ∈ supply.dev.phases ∧
      supply.dev.is (MNS_STUCK (supply.dev.get (MNS_PH p))) = false then [(1000#16).toNat, (2400#16).toNat,
      (0#16).toNat].getD p 0 else 0) ∧ supply.dev.up = true ∧ supply.dev.is MNS_EN = true) :=
  ⟨by decide, by decide, by decide, by decide, by decide, ⟨_, rfl, by decide⟩, ⟨_, rfl, by decide⟩, ⟨_, rfl, by decide⟩, by decide,
    ⟨fun _ => rfl, by decide⟩⟩


/-! ## Single steps. The expected values come from the spec's text, named at each test. -/

/-- The command answers a next state whose device has the property. -/
def after (i : Instr) (s : State) (p : Dev → Bool) : Bool :=
  match exec i s with
  | .next t => p t.dev
  | _ => false
/-- The bank in use of engine 1 after the command. -/
def bankOf (i : Instr) (s : State) (p : Bank → Bool) : Bool := after i s (fun d => (d.bank? 1).any p)
def dr (n : Nat) (w : Word) (b : Bank) : Bool := b.d.getD n 0 == w
def ac (n : Nat) (v : Int) (b : Bank) : Bool := b.a.getD n 0 == v
def eng1 (ds : List Word) : State := eng (gx { Bank.zero 7 with d := ds, pc := 0x2005 })
def eng2 (as : List Int) : State := eng (gx { Bank.zero 7 with a := as, pc := 0x2005 })

/-! Check values of the generators of R218, R264 and the link CRC on the nine digits, and of SHA-256 on "abc" (FIPS 180). -/

def digits : List Byte := [0x31, 0x32, 0x33, 0x34, 0x35, 0x36, 0x37, 0x38, 0x39]
theorem test_crc32c : crc32c digits = 0xE3069283 := by decide +kernel
theorem test_crc32 : crc32 digits = 0xCBF43926 := by decide +kernel
theorem test_crc16 : crc16 digits = 0xD0DB := by decide +kernel

/-! The engine (R165 to R175). -/

/-- R166: 0.75 + 0.5 saturates to 1 − 2^−23 and sets SV; 0.5 + −0.5 is 0 and sets Z. -/
theorem test_add : bankOf (.add 1 2 0 1) (eng1 [0x00600000, 0x00400000, 9]) (fun b => dr 2 0x007FFFFF b && b.sv) = true ∧
    bankOf (.add 1 2 0 1) (eng1 [0x00400000, 0xFFC00000, 9]) (fun b => dr 2 0 b && b.z && !b.n && !b.sv) = true := by decide
/-- SUB of −1 − 2^−23 saturates to −1. -/
theorem test_sub : bankOf (.sub 1 0 0 1) (eng1 [0xFF800000, 1]) (fun b => dr 0 0xFF800000 b && b.sv && b.n) = true := by decide
/-- R166: NEG and ABS of −1 give 1 − 2^−23 and set SV. -/
theorem test_neg_abs : bankOf (.neg 1 1 0) (eng1 [0xFF800000, 0]) (fun b => dr 1 0x007FFFFF b && b.sv) = true ∧
    bankOf (.abs 1 1 0) (eng1 [0xFF800000, 0]) (fun b => dr 1 0x007FFFFF b && b.sv) = true ∧
    bankOf (.abs 1 1 0) (eng1 [0xFFFFFFFB, 0]) (fun b => dr 1 5 b && !b.sv) = true := by decide
theorem test_min_max : bankOf (.min 1 2 0 1) (eng1 [0xFFFFFFFF, 1, 9]) (dr 2 0xFFFFFFFF) = true ∧
    bankOf (.max 1 2 0 1) (eng1 [0xFFFFFFFF, 1, 9]) (dr 2 1) = true := by decide
/-- CLMP clamps to the magnitude of Dt; SGN gives −1, 0 or 1 − 2^−23. -/
theorem test_clmp_sgn : bankOf (.clmp 1 2 0 1) (eng1 [0xFFFFFF00, 0xFFFFFFF0, 9]) (dr 2 0xFFFFFFF0) = true ∧
    bankOf (.clmp 1 2 0 1) (eng1 [0x100, 0xFFFFFFF0, 9]) (dr 2 0x10) = true ∧
    bankOf (.sgn 1 1 0) (eng1 [0xFFFFFFF0, 9]) (dr 1 0xFF800000) = true ∧ bankOf (.sgn 1 1 0) (eng1 [3, 9]) (dr 1 0x007FFFFF) = true ∧
    bankOf (.sgn 1 1 0) (eng1 [0, 9]) (dr 1 0) = true := by decide
/-- R173: 0.25 / 0.5 is 0.5; 0 / 0 is 0; a negative over 0 is −1 with SV. -/
theorem test_div : bankOf (.div 1 2 0 1) (eng1 [0x00200000, 0x00400000, 9]) (dr 2 0x00400000) = true ∧
    bankOf (.div 1 2 0 1) (eng1 [0, 0, 9]) (fun b => dr 2 0 b && !b.sv) = true ∧
    bankOf (.div 1 2 0 1) (eng1 [0xFFFFFFFF, 0, 9]) (fun b => dr 2 0xFF800000 b && b.sv) = true := by decide
theorem test_cmp : bankOf (.cmp 1 0 1) (eng1 [3, 5]) (fun b => b.n && !b.z && dr 0 3 b) = true := by decide
/-- LDI puts its immediate in [23:12] and extends the sign; LDIL replaces [11:0] and LDIG [31:24]. -/
theorem test_ldi : bankOf (.ldi 1 0 0x800) (eng1 [5]) (dr 0 0xFF800000) = true ∧
    bankOf (.ldil 1 0 0xABC) (eng1 [0x12345678]) (dr 0 0x12345ABC) = true ∧
    bankOf (.ldig 1 0 0x9A) (eng1 [0x12345678]) (dr 0 0x9A345678) = true := by decide
theorem test_mov : bankOf (.mov 1 1 0) (eng1 [0x87654321, 0]) (fun b => dr 1 0x87654321 b && b.pc == 0x2006) = true := by decide
/-- A product is exact in units of 2^−46: 0.5 · −0.5 is −2^44. -/
theorem test_mpy : bankOf (.mpy 1 0 0 1) (eng1 [0x00400000, 0xFFC00000]) (fun b => ac 0 (-(2 ^ 44)) b && b.n && !b.z) = true := by decide
theorem test_mac_msu : bankOf (.mac 1 0 0 1) e1 (ac 0 (2 ^ 55 - 6 - 2 ^ 44)) = true ∧
    bankOf (.msu 1 3 0 1) e1 (ac 3 (12345 + 2 ^ 44)) = true := by decide
/-- R166: an accumulator saturates at 2^9 − 2^−46 and sets AV. -/
theorem test_adda : bankOf (.adda 1 0 1) (eng2 [2 ^ 55 - 1, 1]) (fun b => ac 0 (2 ^ 55 - 1) b && b.av) = true ∧
    bankOf (.adda 1 0 1) (eng2 [-(2 ^ 55), -1]) (fun b => ac 0 (-(2 ^ 55)) b && b.av) = true := by decide
/-- SHA rounds to nearest, ties to even. -/
theorem test_sha : bankOf (.sha 1 0 (-1)) (eng2 [3]) (ac 0 2) = true ∧ bankOf (.sha 1 0 (-1)) (eng2 [5]) (ac 0 2) = true ∧
    bankOf (.sha 1 0 3) (eng2 [-5]) (ac 0 (-40)) = true := by decide
/-- RND: 2^22 is half a unit and rounds to the even 0; 3 · 2^22 to 2; 1.0 saturates. -/
theorem test_rnd : bankOf (.rnd 1 0 0) (eng (gx { Bank.zero 7 with d := [7], a := [2 ^ 22] })) (dr 0 0) = true ∧
    bankOf (.rnd 1 0 0) (eng (gx { Bank.zero 7 with d := [7], a := [3 * 2 ^ 22] })) (dr 0 2) = true ∧
    bankOf (.rnd 1 0 0) (eng (gx { Bank.zero 7 with d := [7], a := [2 ^ 46] })) (fun b => dr 0 0x007FFFFF b && b.sv) = true := by decide
theorem test_clr_lda : bankOf (.clr 1 0) e1 (fun b => ac 0 0 b && b.z) = true ∧
    bankOf (.lda 1 1 0) e1 (ac 1 (2 ^ 45)) = true := by decide
/-- R165: MVST copies SLOT 7, BANK 0 and the flags; STST writes Z, N, SV and AV only. -/
theorem test_mvst_stst : bankOf (.mvst 1 0) (eng (gx { Bank.zero 7 with d := [0], z := true, av := true })) (dr 0 0x7009) = true ∧
    bankOf (.stst 1 0) (eng1 [0xFFFFFFF6]) (fun b => !b.z && b.n && b.sv && !b.av && b.slot == 7 && !b.la) = true := by decide
theorem test_loop_brklp :
    bankOf (.loop 1 5 3) e1 (fun b => b.la && b.lc == 5 && b.ls == 0x2006 && b.le == 0x2008 && b.pc == 0x2006) = true ∧
    bankOf (.brklp 1) e2 (fun b => !b.la && !b.cv) = true := by decide
theorem test_call_ret : bankOf (.call 1 0x2100) e1 (fun b => b.pc == 0x2100 && b.stack == [0x2006]) = true ∧
    bankOf (.ret 1) e2 (fun b => b.pc == 0x2040 && b.stack == [0x2100]) = true := by decide
theorem test_br : bankOf (.br 1 .z 0x2000) (eng1 []) (fun b => b.pc == 0x2006) = true := by decide

/-! Registers (R3, R12, R13, R35). -/

theorem test_register_error : after (.bar0InvalidAccess 0xFFFC 4 true) live
    (fun d => d.is (GLB_BLKERR 15) && !d.is (GLB_BLKERR 4) && d.out == [.readData 0] && d.evReq == live.dev.evReq ++ [(16, noDetail)]) = true := by
  decide
/-- R12, R13: a counter stops at all ones with SAT set, and counts no further; a write of 0 clears both, another write is ignored. -/
theorem test_counter : (live.dev.bump 0x30B0).reg 0x30B0 = 1 ∧ (counted.dev.bump 0x30B0).reg 0x30B0 = 0xFFFFFFFF ∧
    ((counted.dev.bump 0x30B0).bump 0x30B0).reg 0x30B0 = 0xFFFFFFFF ∧
    after (.registerWrite 0x30B0 0x80000000 ⟨0, false, 0⟩) counted (fun d => d.reg 0x30B0 == 0) = true ∧
    after (.registerWrite 0x30B0 1 ⟨0, false, 0⟩) counted (fun d => d.reg 0x30B0 == 0x7FFFFFFE) = true := by decide
theorem test_register_write_ro :
    after (.registerWrite 0x0008 0xFFFFFFFF ⟨0, false, 0⟩) live (fun d => d.reg 8 == live.dev.reg 8) = true := by decide

/-! Reset, boot, clocks and power. -/

theorem test_supply_reset : after (.supplyReset 0) live (fun d => d.get GLB_RSTCAUSE == 2 && d.get TST_STAGE == 0) = true := by decide
theorem test_pll_lock :
    after (.pllLock true true true none) boot1 (fun d => d.get TST_STAGE == 2 && d.is CLK_CORELK && !d.is CLK_TREFOK) = true := by decide
theorem test_memory_test : after (.memoryTestDone 0x04 0) boot2 (fun d => d.get TST_CAUSE == 7 && d.get TST_STAGE == 2) = true ∧
    after (.memoryTestDone 0 0) boot2 (fun d => d.get TST_STAGE == 3) = true := by decide
theorem test_tref : after .trefLost timed (fun d => d.is CLK_TIMEHOLD && !d.is CLK_TREFOK) = true ∧
    after .trefBack heldOver (fun d => !d.is CLK_TIMEHOLD && d.is CLK_TREFOK) = true := by decide
set_option maxRecDepth 4000 in
theorem test_warm_reset : after (.warmReset 0x57520001) live (fun d => d.get GLB_RSTCAUSE == 3) = true ∧
    after (.warmReset 0x57530001) live (fun d => d.get GLB_RSTCAUSE == live.dev.get GLB_RSTCAUSE) = true := by decide
theorem test_mains : after (.modulatorStuck 3) host (fun d => d.is (MNS_STUCK 3) && d.reg 0xB914 == 1) = true ∧
    after (.dipEnd) (dip 60) (fun d => d.mains.dip.isNone && d.get MNS_PHASES == 5) = true := by decide

/-! Time: the path delay of R298 from t1 = 1 000 000, t2 = 1 003 000, t3 = 2 000 000 and t4 = 2 005 000 ns with corrections of 1 ns
and 1/16 ns: (3000 − 1 + 5000 − 1/16) / 2 ns, rounded. -/

theorem test_delay_resp : after (.delayRespReceive 0 (hdr 3) (slave.dev.clockId * 65536 + 1) ⟨0, 2005000⟩) slave
    (fun d => (d.dom 0).delays.head? == some 3999) = true := by decide
theorem test_ptp_bad_header : after (.syncReceive 0 false badHdr ⟨0, 0⟩) slave (fun d => d.reg 0x30B0 == 1) = true := by decide

/-! The host interface. -/

theorem test_heartbeat :
    after .heartbeat beating (fun d => (d.cmd? 7).any (fun c => c.done.any (fun x => x.status == .ok)) &&
    d.host.hbAt == 777777) = true := by
  decide
theorem test_event_entry :
    after .eventEntryWrite outs (fun d => d.host.evOut == [] && d.get (RING_DEVIDX 64) == 11 && d.out.length == 2) = true := by
  decide
theorem test_limits_rejected :
    after .limitsSet limBadS (fun d => (d.cmd? 9).any (fun c => c.done.any (fun x => x.status == .rejectedParam))) = true := by
  decide
theorem test_axis_target_rejected :
    after .auxTarget axNoneS (fun d => (d.cmd? 7).any (fun c => c.done.any (fun x => x.status == .rejectedParam))) = true := by
  decide

/-! Events, tasks and the fabric. -/

/-- R392, R395: a post without a waiting task counts; the waiting task of the highest priority gets the semaphore. -/
theorem test_semaphore : after (.semaphorePost 3) taskEv (fun d => d.hod.sems[3]? == some 5) = true ∧
    after (.semaphorePost 5) taskEv (fun d => (d.task? 4).any (fun t => t.resOk) && (d.task? 5).any (fun t => !t.resOk) && d.hod.sems[5]? == some 0) = true := by decide
theorem test_task_wait : after (.taskWait 1 (.semaphore 3) none) taskEv (fun d => d.hod.sems[3]? == some 3) = true := by decide
/-- R403: the sequencer that times out releases its locks and backs off. -/
theorem test_lock_timeout : after (.lockWaitTimeout 0 2) fa
    (fun d => (d.seqOf 0 2).held == [] && (d.seqOf 0 2).k == 4 && (d.seqOf 0 2).backoff == some (8 * 3 * 8)) = true := by decide
theorem test_closed_port : after (.transferRequest 9 0 1 none) fa (fun d => d.reg 0xF04C == 1) = true := by decide

/-! Safety, field and axes. -/

theorem test_discrepancy :
    after (.discrepancyTimeout true 1) both (fun d => ((d.ch true).pairs[1]?).any (fun p => p.fault)) = true := by decide
set_option maxRecDepth 4000 in
theorem test_readback : after (.readbackFault true 0 false) both (fun d => ((d.ch true).arm 0).st == .sto) = true := by decide
theorem test_unlock : after (.hedgeUnlockKey 0x0A5A false) both (fun d => d.safety.keySeen && !d.safety.unlocked) = true := by decide
theorem test_feedback_edge : after (.feedbackEdge 2 1 5) fb2 (fun d => (d.field.fb[2]?).any (fun r => r.x == 78)) = true ∧
    after (.feedbackEdge 2 3 5) fb2 (fun d => (d.field.fb[2]?).any (fun r => r.x == 77)) = true := by decide
theorem test_aux_off : after (.auxDriverOff 2) axis0At (fun d => d.get (AUX_STATE 2) == 6) = true := by decide
theorem test_hys_stale : after (.hysUpdate 5) loopStale (fun d => d.is (HYS_FLT 5)) = true := by decide

/-! Heathline and the planner. -/

theorem test_fcs_bad :
    after (.respReceive 1 fcsBad) heath (fun d => d.reg (HTL_PERR 1 0) == 1 && (d.node? 1).any (fun n => n.got == [])) = true := by decide
theorem test_beat_end_twice : after (.beatEndSend 1) ended (fun d => d.out == []) = true := by decide
theorem test_separation_late : after .recLate sepWaits (fun d => d.evReq.length == sepWaits.dev.evReq.length + 1) = true := by decide

/-! The ball map (the counts are those of Table — Supply balls), geometry and the powered die. -/

theorem test_ball_names : ballName 24 39 = "AE39" ∧ ballAt 24 39 = .sig (.fbz 17) ∧ ballName 26 1 = "AG1" ∧
    ballAt 26 1 = .sig (.so true 9) := by decide
theorem test_ball_counts : countBalls (fun b => decide (b = .rail .vcore)) = 403 := by decide +kernel
/-- R71: parallel axes whose nearest points are not unique take the middle of the overlap. -/
theorem test_closest_parallel : closest ⟨0, 0, 0⟩ ⟨10 * 2 ^ 46, 0, 0⟩ ⟨4 * 2 ^ 46, 5 * 2 ^ 46, 0⟩ ⟨20 * 2 ^ 46, 5 * 2 ^ 46, 0⟩ =
    (⟨7 * 2 ^ 46, 0, 0⟩, ⟨7 * 2 ^ 46, 5 * 2 ^ 46, 0⟩) := by decide +kernel
theorem test_quat_identity : quatRot [2 ^ 30, 0, 0, 0] = Rot.one := by decide +kernel
theorem test_hibernate_arm : after (.hibernateArm 0x4842) armable (fun d => d.boot.hib == 1) = true ∧
    after (.hibernateArm 0x4843) armable (fun d => d.boot.hib == 0) = true := by decide
/-- R178: an opcode the table does not have traps with cause 1. -/
theorem test_undefined_opcode : after (.nop 1) badOp (fun d => d.evReq.length == badOp.dev.evReq.length + 1) = true := by decide
/-- R219, R201: a sub-telegram with a good CRC and the next counter sets position and speed; a stale one does not. -/
theorem test_subtelegram :
    after (.subtelegramReceive true false) (handed [telGood])
      (fun d => ((d.ch true).axis 0).any (fun x => x.pos == 12 && x.seq == some 5)) = true ∧
    after (.subtelegramReceive true false) (handed [telOld])
      (fun d => ((d.ch true).axis 0).any (fun x => x.pos == 10 && x.err)) = true := by decide +kernel

end Sys2Proof.Tests
end

section
/-! PROOFS. Runs of the machine: every command completes and leaves the queue as it was, so a run takes the commands at the front
of the queue one after another (R4, R5, R31); with none waiting, cell time runs (R291). -/

namespace Sys2Proof.Machine

/-! ## One command, one step -/

/-- Every command completes and leaves the queue as it was: each arm of `exec` is `State.run` of an effect on the device. -/
theorem exec_next (c : Instr) (q : List Instr) (v : Dev) : ∃ w, exec c ⟨q, v⟩ = .next ⟨q, w⟩ := by
  cases c <;> exact ⟨_, rfl⟩

theorem step_next (s : State) : ∃ w, step s = .next ⟨s.pending.drop 1, w⟩ := by
  obtain ⟨_ | ⟨c, rest⟩, v⟩ := s
  · exact ⟨_, step_nil v⟩
  · exact exec_next c rest v

/-! ## Runs -/

theorem run_succ {s t : State} (h : step s = .next t) (n : Nat) :
    Sys2Proof.core.run (n + 1) s = Sys2Proof.core.run n t := by
  have h' : Sys2Proof.core.step s = .next t := h
  simp only [Host.Core.run, h']

theorem run_drops_queue (n : Nat) (s : State) : ∃ w, Sys2Proof.core.run n s = .next ⟨s.pending.drop n, w⟩ := by
  induction n generalizing s with
  | zero => exact ⟨s.dev, rfl⟩
  | succ n ih =>
    obtain ⟨w, hw⟩ := step_next s
    obtain ⟨x, hx⟩ := ih ⟨s.pending.drop 1, w⟩
    exact ⟨x, by rw [run_succ hw, hx, List.drop_drop, Nat.add_comm]⟩

/-- `ds` lists the devices that the commands `cs`, at the front of a queue that goes on with `rest`, lead through. -/
def PassesThrough (cs rest : List Instr) (ds : List Dev) : Prop :=
  ∀ k (_ : k < cs.length) c v w, cs[k]? = some c → ds[k]? = some v → ds[k + 1]? = some w →
    exec c ⟨cs.drop (k + 1) ++ rest, v⟩ = .next ⟨cs.drop (k + 1) ++ rest, w⟩

theorem passesThrough_cons {c : Instr} {cs rest : List Instr} {v w : Dev} {ds : List Dev}
    (hc : exec c ⟨cs ++ rest, v⟩ = .next ⟨cs ++ rest, w⟩) (h : PassesThrough cs rest (w :: ds)) :
    PassesThrough (c :: cs) rest (v :: w :: ds) := by
  intro k hk c' v' w' h1 h2 h3
  cases k with
  | zero =>
    obtain rfl : c = c' := by simpa using h1
    obtain rfl : v = v' := by simpa using h2
    obtain rfl : w = w' := by simpa using h3
    exact hc
  | succ k => exact h k (Nat.lt_of_succ_lt_succ hk) c' v' w' h1 h2 h3

/-- A run of as many steps as commands stand before `rest` has the effects of these commands, one after another. -/
theorem run_passesThrough (cs rest : List Instr) (v : Dev) : ∃ w ds,
    Sys2Proof.core.run cs.length (⟨cs ++ rest, v⟩ : State) = .next ⟨rest, w⟩ ∧ ds.length = cs.length ∧
    (v :: ds)[cs.length]? = some w ∧ PassesThrough cs rest (v :: ds) := by
  induction cs generalizing v with
  | nil => exact ⟨v, [], rfl, rfl, rfl, fun k hk => absurd hk (Nat.not_lt_zero k)⟩
  | cons c cs ih =>
    obtain ⟨x, hx⟩ := exec_next c (cs ++ rest) v
    obtain ⟨w, ds, hrun, hlen, hlast, hds⟩ := ih x
    have hstep : step ⟨c :: (cs ++ rest), v⟩ = .next ⟨cs ++ rest, x⟩ := (step_cons c _ v).trans hx
    exact ⟨w, x :: ds, (run_succ hstep _).trans hrun, congrArg (· + 1) hlen, hlast, passesThrough_cons hx hds⟩

/-- Settles O2: a run takes one command per step, and the devices it passes through are those of the commands it took. -/
theorem noRunStops : Obligations.NoRunStops := by
  unfold Obligations.NoRunStops
  intro n s
  obtain ⟨x, hx⟩ := run_drops_queue n s
  refine ⟨_, hx, rfl, ?_⟩
  rintro cs rest hq rfl
  obtain ⟨w, ds, hrun, hlen, hlast, hds⟩ := run_passesThrough cs rest s.dev
  have hs : s = ⟨cs ++ rest, s.dev⟩ := by rw [← hq]
  have hwx : w = x := by
    rw [← hs, hx] at hrun
    injection hrun with h
    exact (congrArg State.dev h).symm
  exact ⟨s.dev :: ds, congrArg (· + 1) hlen, rfl, hwx ▸ hlast, hds⟩

/-- Settles O3: a step leaves the queue less its front command. -/
theorem queueStaysWellFormed : Obligations.QueueStaysWellFormed := by
  unfold Obligations.QueueStaysWellFormed
  refine ⟨fun c hc => absurd hc List.not_mem_nil, rfl, fun s t hs ht => ?_⟩
  obtain ⟨w, hw⟩ := step_next s
  obtain rfl : (⟨s.pending.drop 1, w⟩ : State) = t := by
    rw [hw] at ht
    injection ht
  exact ⟨fun c hc => hs c (List.mem_of_mem_drop hc), rfl⟩

/-! ## A TIME cycle -/

theorem ediv_le_divRne (n : Int) {d : Nat} (hd : d ≠ 0) : n / d ≤ divRne n d := by
  unfold divRne
  rw [if_neg hd]
  dsimp only
  split
  · exact le_rfl
  · split
    · omega
    · split <;> omega

theorem neg_two_pow_le_signed (w v : Nat) (hw : 0 < w) : -(2 ^ (w - 1) : Nat) ≤ signed w v := by
  have h2 : 2 ^ w = 2 * 2 ^ (w - 1) := by rw [← Nat.pow_succ']; congr 1; omega
  unfold signed
  split <;> omega

/-- The rate adjustment is above −1, so that cell time never runs backward (R9, R291). -/
theorem timeCycle_growth_nonneg (d : Dev) :
    0 ≤ ((2 ^ 48 : Nat) : Int) + divRne (d.getS TIM_ADJ * (2 ^ 48 : Nat)) 1000000000 := by
  have hadj : -32768 ≤ d.getS TIM_ADJ := neg_two_pow_le_signed 16 (d.get TIM_ADJ) (by decide)
  have hdiv := ediv_le_divRne (d.getS TIM_ADJ * (2 ^ 48 : Nat)) (d := 1000000000) (by decide)
  norm_num at hdiv ⊢
  omega

theorem timeCycle_stopped {d : Dev} (h : d.time.started = false) : d.timeCycle = d := by
  simp [Dev.timeCycle, h]

theorem timeCycle_time {d : Dev} (h : d.time.started = true) :
    ∃ now frac, d.timeCycle.time = { d.time with now := now, frac := frac } ∧ frac < 2 ^ 48 ∧
      ((now * 2 ^ 48 + frac : Nat) : Int) =
        (d.time.now * 2 ^ 48 + d.time.frac : Nat) + 2 ^ 48 + divRne (d.getS TIM_ADJ * (2 ^ 48 : Nat)) 1000000000 := by
  have hinc := Int.toNat_of_nonneg (timeCycle_growth_nonneg d)
  unfold Dev.timeCycle
  rw [if_pos h]
  refine ⟨_, _, rfl, Nat.mod_lt _ (by decide), ?_⟩
  norm_num at hinc ⊢
  omega

theorem timeCycle_keeps {d0 d : Dev} {P : Part → Prop} {R : Nat → Prop} (hp : P .time) (h : d0.keeps d P R) :
    d0.keeps d.timeCycle P R := by
  unfold Dev.timeCycle
  split
  · exact keeps_time hp h
  · exact h

/-- Settles O1: an empty queue's step is a TIME cycle, whose growth is not cut at 0. -/
theorem stepRunsFrontCommand : Obligations.StepRunsFrontCommand := by
  unfold Obligations.StepRunsFrontCommand
  refine ⟨step_cons, fun v => ⟨_, step_nil v, rfl, ?_, ?_, ?_⟩⟩
  · exact keeps_only (timeCycle_keeps (List.mem_singleton_self _) (keeps_out (keeps_refl v _ _)))
  · intro h
    rw [timeCycle_stopped (d := { v with out := [] }) h]
  · intro h
    exact timeCycle_time (d := { v with out := [] }) h

end Sys2Proof.Machine
end

section
/-! PROOFS. Registers that have a rule of their own beside their fields' access types: counters (R12, R13) and the reads that
latch (R7, R306). -/

namespace Sys2Proof.Machine

variable {d0 d : Dev} {P : Part → Prop} {R : Nat → Prop}

/-! ## Counters -/

theorem writeReg_counter {r : RegDesc} (hr : r.kind = .counter) (d : Dev) (off : Nat) (w keep : Word) :
    d.writeReg r off w keep =
      if w.toNat % 2 ^ 31 = 0 then d.setReg off (if keep = 0 then 0 else BitVec.ofNat 32 1) else d := by
  unfold Dev.writeReg
  rw [hr]

/-- Settles O13, from what an increment and a write do to a counter word. -/
theorem countersStopAndClear : Obligations.CountersStopAndClear := by
  unfold Obligations.CountersStopAndClear
  intro d off r w keep _ hr
  have hwrite := writeReg_counter hr d off w keep
  refine ⟨fun h => ?_, fun h => ?_, fun h hk => ?_, fun h hk => ?_, fun h => ?_, ?_, only_bump d off⟩
  · rw [reg_bump_same, bumpWord_count _ h, BitVec.toNat_ofNat]
    omega
  · rw [reg_bump_same, bumpWord_stuck _ h]
  · rw [hwrite, if_pos h, if_pos hk, reg_setReg_same]
  · rw [hwrite, if_pos h, if_neg hk, reg_setReg_same]
    rfl
  · rw [hwrite, if_neg h]
  · rw [hwrite]
    split
    · exact only_setReg d off _
    · exact keeps_refl d _ _

/-! ## Latched reads -/

theorem keeps_latch {x : List (Nat × Word)} (hp : P .latch) (h : d0.keeps d P R) : d0.keeps { d with latch := x } P R := by
  refine ⟨fun p n => ?_, h.2⟩
  cases p
  case latch => exact absurd hp n
  all_goals exact h.1 _ n

theorem keeps_hold {x : List (Nat × Word)} (hp : P .hold) (h : d0.keeps d P R) : d0.keeps { d with hold := x } P R := by
  refine ⟨fun p n => ?_, h.2⟩
  cases p
  case hold => exact absurd hp n
  all_goals exact h.1 _ n

theorem lowWordRead_low {s : State} {off : BitVec 16} {r : RegDesc} (hl : s.dev.linked = true) (h0 : off ≠ 0x3020)
    (hf : findReg off.toNat = some r) (hr : r.kind = .low64) :
    exec (.lowWordRead off) s = s.run (fun d =>
      { d with latch := fileIns d.latch (off.toNat + 4) (d.reg (off.toNat + 4)) }.send (.readData (d.reg off.toNat))) := by
  have hl' : Dev.linked { s.dev with out := [] } = true := hl
  show execLowWordRead off s = _
  simp only [execLowWordRead, State.run, hl', h0, hf, hr, Bool.not_true, Bool.false_eq_true, if_false, if_true]

theorem lowWordRead_high {s : State} {off : BitVec 16} {r : RegDesc} (hl : s.dev.linked = true) (h0 : off ≠ 0x3020)
    (hf : findReg off.toNat = some r) (hr : r.kind = .high64) :
    exec (.lowWordRead off) s = s.run (fun d =>
      { d with latch := fileDel d.latch off.toNat }.send (.readData (fileGet (fun o => d.reg o) d.latch off.toNat))) := by
  have hl' : Dev.linked { s.dev with out := [] } = true := hl
  have hk : ¬ RegKind.high64 = .low64 := by decide
  show execLowWordRead off s = _
  simp only [execLowWordRead, State.run, hl', h0, hf, hr, hk, Bool.not_true, Bool.false_eq_true, if_false, if_true]

theorem timeReadLatch_run {s : State} (hl : s.dev.linked = true) :
    exec .timeReadLatch s = s.run (fun d => d.latchTime.send (.readData (d.latchTime.reg 0x3020))) := by
  have hl' : Dev.linked { s.dev with out := [] } = true := hl
  show execTimeReadLatch s = _
  simp only [execTimeReadLatch, State.run, hl', if_true]

/-- TIM_NOWL is not the high word of a 64-bit value. -/
theorem ne_nowl_of_high64 {off : BitVec 16} {r : RegDesc} (hf : findReg off.toNat = some r) (hr : r.kind = .high64) :
    off ≠ 0x3020 := by
  rintro rfl
  have h : findReg 0x3020 = some (low64 "TIM_NOWL" 0x3020 4 1 (ro 31 0 0)) := rfl
  obtain rfl : low64 "TIM_NOWL" 0x3020 4 1 (ro 31 0 0) = r := Option.some.inj (h.symm.trans hf)
  cases hr

theorem latchTime_only (d : Dev) : d.only d.latchTime [] [0x3020, 0x3024, 0x3028, 0x302C, 0x3030, 0x3034] := by
  unfold Dev.latchTime
  exact keeps_only (keeps_put (by decide) (keeps_put (by decide) (keeps_put (by decide) (keeps_put (by decide)
    (keeps_put64 (by decide) (by decide) (keeps_refl d _ _))))))

/-- The words below TIM_NOWF are those of cell time. -/
theorem latchTime_reg_now (d : Dev) {o : Nat} (h : o < 0x3028) : d.latchTime.reg o = (d.put64 0x3020 d.now).reg o := by
  unfold Dev.latchTime
  rw [reg_put_ne _ TIM_PLNS _ _ (by simp only [TIM_PLNS]; omega), reg_put_ne _ TIM_PLSECL _ _ (by simp only [TIM_PLSECL]; omega),
    reg_put_ne _ TIM_PLSECH _ _ (by simp only [TIM_PLSECH]; omega), reg_put_ne _ TIM_NOWF _ _ (by simp only [TIM_NOWF]; omega)]

theorem latchTime_now (d : Dev) : d.latchTime.reg 0x3020 = BitVec.ofNat 32 d.now := by
  rw [latchTime_reg_now d (by decide), Dev.put64, reg_setReg_ne _ _ _ _ (by decide), reg_setReg_same]

theorem latchTime_get64_now (d : Dev) : d.latchTime.get64 0x3020 = d.now % 2 ^ 64 := by
  rw [← get64_put64 d 0x3020 d.now, Dev.get64, latchTime_reg_now d (by decide), latchTime_reg_now d (by decide), Dev.get64]

theorem latchTime_frac (d : Dev) : d.latchTime.get TIM_NOWF = d.time.frac / 2 ^ 32 % 2 ^ 16 := by
  unfold Dev.latchTime
  rw [get_put_off _ TIM_PLNS _ _ (by decide), get_put_off _ TIM_PLSECL _ _ (by decide),
    get_put_off _ TIM_PLSECH _ _ (by decide), get_put_same _ _ _ (by decide)]
  rfl

theorem latchTime_plantSecHigh (d : Dev) : d.latchTime.get TIM_PLSECH =
    encSigned 48 (((d.now : Int) + d.epochE) / 1000000000) / 2 ^ 32 % 2 ^ 16 := by
  unfold Dev.latchTime
  rw [get_put_off _ TIM_PLNS _ _ (by decide), get_put_off _ TIM_PLSECL _ _ (by decide), get_put_same _ _ _ (by decide)]
  rfl

theorem latchTime_plantSecLow (d : Dev) : d.latchTime.get TIM_PLSECL =
    encSigned 48 (((d.now : Int) + d.epochE) / 1000000000) % 2 ^ 32 := by
  unfold Dev.latchTime
  rw [get_put_off _ TIM_PLNS _ _ (by decide), get_put_same _ _ _ (by decide)]
  rfl

theorem latchTime_plantNs (d : Dev) : d.latchTime.get TIM_PLNS = (((d.now : Int) + d.epochE) % 1000000000).toNat := by
  unfold Dev.latchTime
  rw [get_put_same _ _ _ (by decide)]
  exact Nat.mod_eq_of_lt (by show _ < 2 ^ 32; omega)

theorem latchTime_out (d : Dev) : d.latchTime.out = d.out := by
  unfold Dev.latchTime
  rw [put_out, put_out, put_out, put_out, put64_out]

@[simp] theorem get64_send (d : Dev) (o : Output) (p : Nat) : (d.send o).get64 p = d.get64 p := rfl

/-- Settles O16: each of the three reads answers from the registers and enters what it latches. -/
theorem latchedReads : Obligations.LatchedReads := by
  unfold Obligations.LatchedReads
  intro s off r hl
  refine ⟨fun hf hr h0 => ⟨_, lowWordRead_low hl h0 hf hr, rfl, ?_⟩,
    fun hf hr => ⟨_, lowWordRead_high hl (ne_nowl_of_high64 hf hr) hf hr, rfl, ?_⟩,
    ⟨_, timeReadLatch_run hl, rfl, ?_⟩⟩
  · exact ⟨rfl, fileGet_fileIns_same _ _ _ _,
      keeps_only (keeps_send (keeps_latch (List.mem_singleton_self _) (keeps_out (keeps_refl _ _ _))))⟩
  · exact ⟨rfl, rfl, keeps_only (keeps_send (keeps_latch (List.mem_singleton_self _) (keeps_out (keeps_refl _ _ _))))⟩
  · refine ⟨?_, ?_, ?_, ?_, ?_, ?_, keeps_only (keeps_send (keeps_from_out (latchTime_only _)))⟩
    · rw [send_out, latchTime_out, latchTime_now]
      rfl
    · rw [get64_send]
      exact latchTime_get64_now _
    · rw [get_send]
      exact latchTime_frac _
    · rw [get_send]
      exact latchTime_plantNs _
    · rw [get_send]
      exact latchTime_plantSecLow _
    · rw [get_send]
      exact latchTime_plantSecHigh _

end Sys2Proof.Machine
end

section
/-! PROOFS. What a write to BAR0 does to each kind of field: RW with its reserved encodings, RO, W1C with the bits the device sets
in the same cycle, and the holding register of a 64-bit value (R4 to R7, R35). -/

namespace Sys2Proof.Machine

variable {d0 d : Dev} {P : Part → Prop} {R : Nat → Prop}

/-! ## One field under a write -/

theorem writeField_rw {keep w old : Word} {f : Field} {b : Bool} (hf : f.access = .rw)
    (h : fieldAdmits f (fieldOf f w) = true) :
    writeField keep w (old, b) f = (insField old f.hi f.lo (fieldOf f w), b) := by
  simp only [writeField, hf, h, if_true]

theorem writeField_reserved {keep w old : Word} {f : Field} {b : Bool} (hf : f.access = .rw)
    (h : fieldAdmits f (fieldOf f w) = false) : writeField keep w (old, b) f = (old, true) := by
  simp only [writeField, hf, h, Bool.false_eq_true, if_false]

theorem writeField_w1c {keep w old : Word} {f : Field} {b : Bool} (hf : f.access = .w1c) :
    writeField keep w (old, b) f =
      (insField old f.hi f.lo (Nat.lor (clearBits (fieldOf f old) (fieldOf f w)) (fieldOf f keep)), b) := by
  simp only [writeField, hf]

theorem writeField_ro (keep w : Word) (acc : Word × Bool) {f : Field} (hf : f.access = .ro) :
    writeField keep w acc f = acc := by
  simp only [writeField, hf]

/-! ## Fields and bits -/

/-- A field of all 32 bits takes the whole word. -/
theorem insField_whole (old w : Word) : insField old 31 0 (w.toNat / 2 ^ 0 % 2 ^ 32) = w := by
  have hw := w.isLt
  have hold := old.isLt
  apply BitVec.eq_of_toNat_eq
  rw [insField_toNat _ _ _ _ (by decide) (by decide)]
  simp only [Nat.reduceAdd, Nat.reduceSub, Nat.reducePow] at *
  omega

/-- What stands above bit 23 is a field of its own. -/
theorem fldOf_top (w : Word) : fldOf w 31 24 = w.toNat / 2 ^ 24 := by
  have hw := w.isLt
  exact Nat.mod_eq_of_lt (by show _ < 2 ^ 8; omega)

theorem fieldOf_testBit (f : Field) (w : Word) (h : f.lo = 0) {b : Nat} (hb : b ≤ f.hi) :
    (fieldOf f w).testBit b = w.toNat.testBit b := by
  have hlt : b < f.hi + 1 := Nat.lt_succ_of_le hb
  rw [fieldOf, h, Nat.pow_zero, Nat.div_one, Nat.sub_zero, Nat.testBit_mod_two_pow, decide_eq_true hlt, Bool.true_and]

theorem insField_testBit (w : Word) {hi : Nat} (v : Nat) (h : hi < 32) {b : Nat} (hb : b ≤ hi) :
    (insField w hi 0 v).toNat.testBit b = v.testBit b := by
  have hlt : b < hi + 1 := Nat.lt_succ_of_le hb
  have hfld := congrArg (fun n => n.testBit b) (fldOf_insField_same w hi 0 v (Nat.zero_le _) h)
  simpa only [fldOf, Nat.pow_zero, Nat.div_one, Nat.sub_zero, Nat.testBit_mod_two_pow, decide_eq_true hlt, Bool.true_and]
    using hfld

theorem clearBits_testBit (v m b : Nat) : (clearBits v m).testBit b = (v.testBit b && !m.testBit b) := by
  show (v ^^^ (v &&& m)).testBit b = _
  rw [Nat.testBit_xor, Nat.testBit_and]
  cases v.testBit b <;> simp

/-! ## One register under a write -/

theorem writeAt_of_find {off : Nat} {r : RegDesc} (h : findReg off = some r) (d : Dev) (w keep : Word) :
    d.writeAt off w keep = d.writeReg r off w keep := by
  simp only [Dev.writeAt, h]

theorem writeReg_plain {r : RegDesc} {d : Dev} {off : Nat} {w keep v : Word} (hr : r.kind = .plain)
    (hv : writeWord r.fields keep (d.reg off) w = (v, false)) : d.writeReg r off w keep = d.setReg off v := by
  simp only [Dev.writeReg, hr, hv, Bool.false_eq_true, if_false]

/-- A reserved encoding in some field sets the block's register-error bit (R5). -/
theorem writeReg_plain_reserved {r : RegDesc} {d : Dev} {off : Nat} {w keep v : Word} (hr : r.kind = .plain)
    (hv : writeWord r.fields keep (d.reg off) w = (v, true)) :
    d.writeReg r off w keep = (d.setReg off v).regErr (off / 4096) := by
  simp only [Dev.writeReg, hr, hv, if_true]

theorem writeReg_low64_rw {r : RegDesc} (hr : r.kind = .low64) (hf : r.fields.any (fun f => f.access == .rw) = true)
    (d : Dev) (off : Nat) (w keep : Word) :
    d.writeReg r off w keep = { d with hold := filePut (fun _ => 0) d.hold off (writeWord r.fields 0 0 w).1 } := by
  simp only [Dev.writeReg, hr, hf, if_true]

theorem writeReg_high64_rw {r : RegDesc} (hr : r.kind = .high64) (hf : r.fields.any (fun f => f.access == .rw) = true)
    (d : Dev) (off : Nat) (w keep : Word) :
    d.writeReg r off w keep = (d.setReg (off - 4) (d.holding (off - 4))).setReg off w := by
  simp only [Dev.writeReg, hr, hf, if_true]

/-- A 4-byte write to a register, where BAR0 acts. -/
theorem registerWrite_completes {s : State} {off : BitVec 16} {w : Word} {e : WriteEnv} {post : Dev → Prop}
    (hl : s.dev.linked = true) (ho : occupied off.toNat = true)
    (h : post (Dev.writeBar0 { s.dev with out := [] } off.toNat w e)) : Completes (.registerWrite off w e) s post := by
  have hl' : Dev.linked { s.dev with out := [] } = true := hl
  refine ⟨⟨s.pending, Dev.writeBar0 { s.dev with out := [] } off.toNat w e⟩, ?_, rfl, h⟩
  show execRegisterWrite off w e s = _
  simp only [execRegisterWrite, State.run, hl', ho, Bool.not_true, Bool.false_eq_true, if_false, if_true]

/-! ## HQE_COAL and HTL_CFG -/

def hqeCoal : RegDesc := reg "HQE_COAL" 0x1010 [rw 7 0 1, rw 23 8 0]
def htlCfg : RegDesc := reg "HTL_CFG" 0x4008 [rwIn 4 0 4 1 31, rwIn 15 8 0x10 4 255]

theorem findReg_hqeCoal : findReg 0x1010 = some hqeCoal := rfl
theorem findReg_htlCfg : findReg 0x4008 = some htlCfg := rfl

theorem writeBar0_hqeCoal (d : Dev) (w : Word) (e : WriteEnv) : d.writeBar0 0x1010 w e =
    d.setReg 0x1010 (insField (insField (d.reg 0x1010) 7 0 (w.toNat / 2 ^ 0 % 2 ^ 8)) 23 8 (w.toNat / 2 ^ 8 % 2 ^ 16)) := by
  show d.writeAt 0x1010 w e.keep = _
  rw [writeAt_of_find findReg_hqeCoal]
  exact writeReg_plain rfl rfl

/-- Both RW fields of HQE_COAL take the written value, and the bits above them stay. -/
theorem writeBar0_hqeCoal_reads (d : Dev) (w : Word) (e : WriteEnv) :
    (d.writeBar0 0x1010 w e).get HQE_CTHR = w.toNat % 256 ∧ (d.writeBar0 0x1010 w e).get HQE_CTIME = w.toNat / 256 % 65536 ∧
    ((d.writeBar0 0x1010 w e).reg 0x1010).toNat / 2 ^ 24 = (d.reg 0x1010).toNat / 2 ^ 24 := by
  rw [writeBar0_hqeCoal, get_eq, get_eq, HQE_CTHR, HQE_CTIME, reg_setReg_same]
  refine ⟨?_, ?_, ?_⟩
  · rw [fldOf_insField_below _ _ _ _ _ _ (by decide) (by decide) (by decide) (by decide),
      fldOf_insField_same _ _ _ _ (by decide) (by decide)]
    omega
  · rw [fldOf_insField_same _ _ _ _ (by decide) (by decide)]
    omega
  · rw [← fldOf_top, ← fldOf_top, fldOf_insField_above _ _ _ _ _ _ (by decide) (by decide) (by decide),
      fldOf_insField_above _ _ _ _ _ _ (by decide) (by decide) (by decide)]

theorem writeBar0_hqeCoal_only (d : Dev) (w : Word) (e : WriteEnv) : d.only (d.writeBar0 0x1010 w e) [] [0x1010] := by
  rw [writeBar0_hqeCoal]
  exact only_setReg d _ _

/-- HTL_CFG with a reserved NODEMISS and a legal JOINGOOD: the write reaches JOINGOOD alone (R5). -/
theorem writeWord_htlCfg_reserved (keep old w : Word) (h1 : w.toNat % 32 = 0) (h2 : 4 ≤ w.toNat / 256 % 256) :
    writeWord htlCfg.fields keep old w = (insField old 15 8 (w.toNat / 256 % 256), true) := by
  have hmiss : fieldAdmits (rwIn 4 0 4 1 31) (fieldOf (rwIn 4 0 4 1 31) w) = false := by
    have hzero : fieldOf (rwIn 4 0 4 1 31) w = 0 := (congrArg (· % 32) (Nat.div_one w.toNat)).trans h1
    rw [hzero]
    rfl
  have hgood : fieldAdmits (rwIn 15 8 0x10 4 255) (fieldOf (rwIn 15 8 0x10 4 255) w) = true := by
    show (decide (4 ≤ w.toNat / 256 % 256) && decide (w.toNat / 256 % 256 ≤ 255)) = true
    simp only [Bool.and_eq_true, decide_eq_true_eq]
    omega
  show writeField keep w (writeField keep w (old, false) (rwIn 4 0 4 1 31)) (rwIn 15 8 0x10 4 255) = _
  rw [writeField_reserved rfl hmiss, writeField_rw rfl hgood]
  rfl

theorem writeBar0_htlCfg_reserved (d : Dev) (w : Word) (e : WriteEnv) (h1 : w.toNat % 32 = 0) (h2 : 4 ≤ w.toNat / 256 % 256) :
    d.writeBar0 0x4008 w e = (d.setReg 0x4008 (insField (d.reg 0x4008) 15 8 (w.toNat / 256 % 256))).regErr 4 := by
  show d.writeAt 0x4008 w e.keep = _
  rw [writeAt_of_find findReg_htlCfg]
  exact writeReg_plain_reserved rfl (writeWord_htlCfg_reserved _ _ w h1 h2)

theorem is_regErr_same (d : Dev) {b : Nat} (hb : b < 16) : (d.regErr b).is (GLB_BLKERR b) = true := by
  rcases regErr_cases d b with ⟨h, e⟩ | ⟨_, e⟩
  · rw [e, h]
  · rw [e, is_raise, is_putB_same _ _ _ ⟨le_rfl, by show b < 32; omega⟩]

theorem get_regErr_off (d : Dev) (b : Nat) {f : Fld} (h : f.off ≠ 0x10) : (d.regErr b).get f = d.get f := by
  rcases regErr_cases d b with ⟨_, e⟩ | ⟨_, e⟩
  · rw [e]
  · rw [e, get_raise, Dev.putB, get_put_off _ _ _ _ h]

theorem writeBar0_htlCfg_reads (d : Dev) (w : Word) (e : WriteEnv) (h1 : w.toNat % 32 = 0) (h2 : 4 ≤ w.toNat / 256 % 256) :
    (d.writeBar0 0x4008 w e).get HTL_NODEMISS = d.get HTL_NODEMISS ∧
    (d.writeBar0 0x4008 w e).get HTL_JOINGOOD = w.toNat / 256 % 256 ∧ (d.writeBar0 0x4008 w e).is (GLB_BLKERR 4) = true := by
  rw [writeBar0_htlCfg_reserved d w e h1 h2, get_regErr_off _ _ (by decide), get_regErr_off _ _ (by decide), get_eq, get_eq,
    get_eq, HTL_NODEMISS, HTL_JOINGOOD, reg_setReg_same]
  refine ⟨?_, ?_, is_regErr_same _ (by decide)⟩
  · exact fldOf_insField_below _ _ _ _ _ _ (by decide) (by decide) (by decide) (by decide)
  · rw [fldOf_insField_same _ _ _ _ (by decide) (by decide)]
    exact Nat.mod_mod _ 256

theorem writeBar0_htlCfg_only (d : Dev) (w : Word) (e : WriteEnv) (h1 : w.toNat % 32 = 0) (h2 : 4 ≤ w.toNat / 256 % 256) :
    d.only (d.writeBar0 0x4008 w e) [.evReq] [0x4008, 0x10] := by
  rw [writeBar0_htlCfg_reserved d w e h1 h2]
  exact keeps_only (keeps_regErr (by decide) (by decide) (keeps_setReg (by decide) (keeps_refl d _ _)))

/-! ## GLB_REGERR -/

theorem bitOf_eq_testBit (v n : Nat) : bitOf v n = v.testBit n := by
  rw [Nat.testBit_eq_decide_div_mod_eq, bitOf]
  rfl

theorem is_blkerr_eq_testBit (d : Dev) (b : Nat) : d.is (GLB_BLKERR b) = (d.reg 0x10).toNat.testBit b := by
  rw [← bitOf_eq_testBit]
  show ((d.reg 0x10).toNat / 2 ^ b % 2 ^ (b - b + 1) == 1) = _
  rw [Nat.sub_self]
  rfl

theorem is_regErr_ne (d : Dev) {b c : Nat} (hb : b < 16) (hc : c < 16) (h : c ≠ b) :
    (d.regErr b).is (GLB_BLKERR c) = d.is (GLB_BLKERR c) := by
  rcases regErr_cases d b with ⟨_, e⟩ | ⟨_, e⟩
  · rw [e]
  · rw [e, is_raise, Dev.putB, is_put_apart _ _ _ _ ⟨le_rfl, by show b < 32; omega⟩ ⟨le_rfl, by show c < 32; omega⟩
      (by simp only [GLB_BLKERR]; omega)]

theorem regErr_evReq (d : Dev) (b : Nat) :
    (d.regErr b).evReq = d.evReq ++ if d.is (GLB_BLKERR b) then [] else [(16, noDetail)] := by
  rcases regErr_cases d b with ⟨h, e⟩ | ⟨h, e⟩
  · rw [e, h, if_pos rfl, List.append_nil]
  · rw [e, h, if_neg Bool.false_ne_true, raise_evReq, putB_evReq]
    rfl

theorem is_foldl_regErr (l : List Nat) (d : Dev) (hl : ∀ b ∈ l, b < 16) {c : Nat} (hc : c < 16) :
    (l.foldl Dev.regErr d).is (GLB_BLKERR c) = (decide (c ∈ l) || d.is (GLB_BLKERR c)) := by
  induction l generalizing d with
  | nil => simp
  | cons b l ih =>
    rw [List.foldl_cons, ih _ (fun x hx => hl x (List.mem_cons_of_mem _ hx))]
    by_cases h : c = b
    · subst h
      simp [is_regErr_same d hc]
    · simp [is_regErr_ne d (hl b List.mem_cons_self) hc h, h]

/-- Each bit that was 0 raises REG_ERROR once. -/
theorem evReq_foldl_regErr (l : List Nat) (d : Dev) (hl : ∀ b ∈ l, b < 16) (hn : l.Nodup) :
    (l.foldl Dev.regErr d).evReq =
      d.evReq ++ List.replicate (l.filter (fun b => !d.is (GLB_BLKERR b))).length (16, noDetail) := by
  induction l generalizing d with
  | nil => simp
  | cons b l ih =>
    obtain ⟨hb, hn⟩ := List.nodup_cons.1 hn
    have hl' : ∀ x ∈ l, x < 16 := fun x hx => hl x (List.mem_cons_of_mem _ hx)
    have hsame : l.filter (fun x => !(d.regErr b).is (GLB_BLKERR x)) = l.filter (fun x => !d.is (GLB_BLKERR x)) :=
      List.filter_congr fun x hx => by
        rw [is_regErr_ne d (hl b List.mem_cons_self) (hl' x hx) (fun e => hb (e ▸ hx))]
    rw [List.foldl_cons, ih _ hl' hn, hsame, regErr_evReq, List.append_assoc, List.filter_cons]
    cases d.is (GLB_BLKERR b) <;> rfl

theorem keeps_foldl_regErr (l : List Nat) (hr : R 0x10) (hp : P .evReq) (h : d0.keeps d P R) :
    d0.keeps (l.foldl Dev.regErr d) P R :=
  keeps_foldl Dev.regErr (fun _ => True) (fun _ _ _ hx => keeps_regErr hr hp hx) l (fun _ _ => trivial) h

def glbRegerr : RegDesc := reg "GLB_REGERR" 0x0010 [w1c 15 0]

theorem findReg_glbRegerr : findReg 0x10 = some glbRegerr := rfl

theorem writeAt_regerr (d : Dev) (w : Word) : d.writeAt 0x10 w 0 = d.setReg 0x10 (insField (d.reg 0x10) 15 0
    (Nat.lor (clearBits (fieldOf (w1c 15 0) (d.reg 0x10)) (fieldOf (w1c 15 0) w)) (fieldOf (w1c 15 0) 0))) := by
  rw [writeAt_of_find findReg_glbRegerr]
  exact writeReg_plain rfl (writeField_w1c (f := w1c 15 0) rfl)

/-- Bits written as 1 are cleared. -/
theorem is_writeAt_regerr (d : Dev) (w : Word) {b : Nat} (hb : b < 16) :
    (d.writeAt 0x10 w 0).is (GLB_BLKERR b) = (d.is (GLB_BLKERR b) && !bitOf w.toNat b) := by
  have hb' : b ≤ 15 := Nat.le_of_lt_succ hb
  have hor : ∀ x y : Nat, (Nat.lor x y).testBit b = (x.testBit b || y.testBit b) := fun x y => Nat.testBit_or x y b
  have hzero : (fieldOf (w1c 15 0) 0).testBit b = false := by
    rw [fieldOf_testBit _ _ rfl hb']
    exact Nat.zero_testBit b
  rw [writeAt_regerr, is_blkerr_eq_testBit, is_blkerr_eq_testBit, reg_setReg_same, insField_testBit _ _ (by decide) hb', hor,
    hzero, clearBits_testBit, fieldOf_testBit _ _ rfl hb', fieldOf_testBit _ _ rfl hb', bitOf_eq_testBit, Bool.or_false]

/-- A bit that the device sets in the same cycle is not among those the write clears (R6). -/
theorem is_writeAt_regerr_unless (d : Dev) (w keep : Word) {b : Nat} (hb : b < 16) :
    (d.writeAt 0x10 (w &&& ~~~keep) 0).is (GLB_BLKERR b) =
      (d.is (GLB_BLKERR b) && !(bitOf w.toNat b && !bitOf keep.toNat b)) := by
  have hb' : b < 32 := by omega
  rw [is_writeAt_regerr d _ hb, bitOf_eq_testBit, bitOf_eq_testBit, bitOf_eq_testBit, BitVec.testBit_toNat,
    BitVec.testBit_toNat, BitVec.testBit_toNat, BitVec.getLsbD_and, BitVec.getLsbD_not, decide_eq_true hb', Bool.true_and]

theorem mem_bitsOf {v n b : Nat} : b ∈ bitsOf v n ↔ b < n ∧ bitOf v b = true := by
  simp [bitsOf]

theorem bitsOf_nodup (v n : Nat) : (bitsOf v n).Nodup := List.nodup_range.filter _

theorem writeBar0_regerr (d : Dev) (w : Word) (e : WriteEnv) :
    d.writeBar0 0x10 w e = (bitsOf e.keep.toNat 16).foldl Dev.regErr (d.writeAt 0x10 (w &&& ~~~e.keep) 0) := rfl

theorem writeBar0_regerr_bit (d : Dev) (w : Word) (e : WriteEnv) {b : Nat} (hb : b < 16) :
    (d.writeBar0 0x10 w e).is (GLB_BLKERR b) =
      (bitOf e.keep.toNat b || (d.is (GLB_BLKERR b) && !bitOf w.toNat b)) := by
  rw [writeBar0_regerr, is_foldl_regErr _ _ (fun x hx => (mem_bitsOf.1 hx).1) hb, is_writeAt_regerr_unless d w e.keep hb]
  have hmem : decide (b ∈ bitsOf e.keep.toNat 16) = bitOf e.keep.toNat b := by simp [mem_bitsOf, hb]
  rw [hmem]
  cases bitOf e.keep.toNat b <;> simp

theorem writeBar0_regerr_evReq (d : Dev) (w : Word) (e : WriteEnv) :
    (d.writeBar0 0x10 w e).evReq = d.evReq ++ List.replicate
      ((List.range 16).filter (fun b => bitOf e.keep.toNat b && !d.is (GLB_BLKERR b))).length (16, noDetail) := by
  have hset : (bitsOf e.keep.toNat 16).filter (fun b => !(d.writeAt 0x10 (w &&& ~~~e.keep) 0).is (GLB_BLKERR b)) =
      (bitsOf e.keep.toNat 16).filter (fun b => !d.is (GLB_BLKERR b)) :=
    List.filter_congr fun b hb => by
      obtain ⟨hlt, hkeep⟩ := mem_bitsOf.1 hb
      rw [is_writeAt_regerr_unless d w e.keep hlt, hkeep]
      simp
  rw [writeBar0_regerr, evReq_foldl_regErr _ _ (fun x hx => (mem_bitsOf.1 hx).1) (bitsOf_nodup _ _), hset,
    writeAt_regerr, setReg_evReq, bitsOf, List.filter_filter]
  simp only [Bool.and_comm]

theorem writeBar0_regerr_only (d : Dev) (w : Word) (e : WriteEnv) : d.only (d.writeBar0 0x10 w e) [.evReq] [0x10] := by
  have hreg : 0x10 ∈ [0x10] := List.mem_singleton_self _
  rw [writeBar0_regerr, writeAt_regerr]
  exact keeps_only (keeps_foldl_regErr _ hreg (List.mem_singleton_self _) (keeps_setReg hreg (keeps_refl d _ _)))

/-! ## Read-only words -/

theorem keeps_setReg_self {o : Nat} (h : d0.keeps d P R) : d0.keeps (d.setReg o (d.reg o)) P R := by
  refine ⟨fun p n => (keeps_setReg (R := fun _ => True) trivial ⟨h.1, fun _ c => absurd trivial c⟩).1 p n, fun p n => ?_⟩
  rw [reg_setReg]
  split
  · next e => exact e ▸ h.2 p n
  · exact h.2 p n

/-- A write to GLB_RSTCAUSE, whose fields are all RO, puts back what it reads. -/
theorem writeBar0_rstcause (d : Dev) (w : Word) (e : WriteEnv) :
    (d.writeBar0 8 w e).reg 8 = d.reg 8 ∧ d.only (d.writeBar0 8 w e) [] [] := by
  have hf : findReg 8 = some (reg "GLB_RSTCAUSE" 0x0008 [ro 2 0 0]) := rfl
  have hput : d.writeBar0 8 w e = d.setReg 8 (d.reg 8) := by
    show d.writeAt 8 w e.keep = _
    rw [writeAt_of_find hf]
    exact writeReg_plain rfl (writeField_ro e.keep w _ (f := ro 2 0 0) rfl)
  rw [hput]
  exact ⟨reg_setReg_same d _ _, keeps_only (keeps_setReg_self (keeps_refl d _ _))⟩

/-! ## FIO_EEKL and FIO_EEKH -/

def fioEekl : RegDesc := low64 "FIO_EEKL" 0xA604 0x20 8 (rw 31 0 0)
def fioEekh : RegDesc := high64 "FIO_EEKH" 0xA608 0x20 8 (rw 31 0 0)

theorem findReg_fioEekl (m : Fin 8) : findReg (0xA604 + 0x20 * m.val) = some fioEekl := by
  fin_cases m <;> rfl

theorem findReg_fioEekh (m : Fin 8) : findReg (0xA608 + 0x20 * m.val) = some fioEekh := by
  fin_cases m <;> rfl

theorem occupied_of_find {off : Nat} {r : RegDesc} (h : findReg off = some r) (h4 : off % 4 = 0) : occupied off = true := by
  simp only [occupied, h, h4, decide_true, Option.isSome_some, Bool.and_self]

/-- The emulation outputs' registers have no rule beyond their access types. -/
theorem writeBar0_emulation {off : Nat} (h1 : 0xA600 ≤ off) (h2 : off < 0xA700) (d : Dev) (w : Word) (e : WriteEnv) :
    d.writeBar0 off w e = d.writeAt off w e.keep := by
  have hblk : off / 4096 = 0xA := by omega
  unfold Dev.writeBar0
  rw [hblk]
  show d.writeFio off w e = _
  unfold Dev.writeFio
  rw [if_neg (by omega), if_neg (by omega), if_neg (by omega)]

theorem writeBar0_fioEekl (m : Fin 8) (d : Dev) (w : Word) (e : WriteEnv) : d.writeBar0 (0xA604 + 0x20 * m.val) w e =
    { d with hold := filePut (fun _ => 0) d.hold (0xA604 + 0x20 * m.val) w } := by
  have hw : (writeWord fioEekl.fields 0 0 w).1 = w := insField_whole 0 w
  rw [writeBar0_emulation (by omega) (by omega), writeAt_of_find (findReg_fioEekl m), writeReg_low64_rw rfl rfl, hw]

theorem writeBar0_fioEekh (m : Fin 8) (d : Dev) (w : Word) (e : WriteEnv) : d.writeBar0 (0xA608 + 0x20 * m.val) w e =
    (d.setReg (0xA604 + 0x20 * m.val) (d.holding (0xA604 + 0x20 * m.val))).setReg (0xA608 + 0x20 * m.val) w := by
  have hlow : 0xA608 + 0x20 * m.val - 4 = 0xA604 + 0x20 * m.val := by omega
  rw [writeBar0_emulation (by omega) (by omega), writeAt_of_find (findReg_fioEekh m), writeReg_high64_rw rfl rfl, hlow]

/-! ## REGISTER_WRITE -/

theorem registerWrite_fioEekl {s : State} (hl : s.dev.linked = true) (w : Word) (e : WriteEnv) (m : Fin 8) {lo : BitVec 16}
    (hlo : lo.toNat = 0xA604 + 0x20 * m.val) :
    Completes (.registerWrite lo w e) s (fun d => d.holding lo.toNat = w ∧ s.dev.only d [.hold] []) := by
  refine registerWrite_completes hl ?_ ?_
  · exact hlo ▸ occupied_of_find (findReg_fioEekl m) (by omega)
  · rw [hlo, writeBar0_fioEekl]
    exact ⟨fileGet_filePut_same _ _ _ _,
      keeps_only (keeps_hold (List.mem_singleton_self _) (keeps_out (keeps_refl _ _ _)))⟩

theorem registerWrite_fioEekh {s : State} (hl : s.dev.linked = true) (w : Word) (e : WriteEnv) (m : Fin 8)
    {lo hi : BitVec 16} (hlo : lo.toNat = 0xA604 + 0x20 * m.val) (hhi : hi.toNat = 0xA608 + 0x20 * m.val) :
    Completes (.registerWrite hi w e) s (fun d =>
      d.reg lo.toNat = s.dev.holding lo.toNat ∧ d.reg hi.toNat = w ∧ s.dev.only d [] [lo.toNat, hi.toNat]) := by
  refine registerWrite_completes hl ?_ ?_
  · exact hhi ▸ occupied_of_find (findReg_fioEekh m) (by omega)
  · rw [hlo, hhi, writeBar0_fioEekh]
    refine ⟨?_, reg_setReg_same _ _ _,
      keeps_only (keeps_setReg (by simp) (keeps_setReg (by simp) (keeps_out (keeps_refl _ _ _))))⟩
    rw [reg_setReg_ne _ _ _ _ (by omega), reg_setReg_same]
    rfl

/-- Settles O15, register by register: what each write leaves in the device, and its frame. -/
theorem registerWriteByAccessType : Obligations.RegisterWriteByAccessType := by
  unfold Obligations.RegisterWriteByAccessType
  intro s w e m hl
  refine ⟨registerWrite_completes hl rfl ?_, fun h1 h2 => registerWrite_completes hl rfl ?_,
    registerWrite_completes hl rfl ?_, registerWrite_completes hl rfl ?_,
    fun lo hi hlo hhi => ⟨registerWrite_fioEekl hl w e m hlo, registerWrite_fioEekh hl w e m hlo hhi⟩⟩
  · obtain ⟨hthr, htime, htop⟩ := writeBar0_hqeCoal_reads { s.dev with out := [] } w e
    exact ⟨hthr, htime, htop, keeps_from_out (writeBar0_hqeCoal_only _ w e)⟩
  · obtain ⟨hmiss, hgood, herr⟩ := writeBar0_htlCfg_reads { s.dev with out := [] } w e h1 h2
    exact ⟨hmiss, hgood, herr, keeps_from_out (writeBar0_htlCfg_only _ w e h1 h2)⟩
  · exact ⟨fun _ hb => writeBar0_regerr_bit _ w e hb, writeBar0_regerr_evReq _ w e,
      keeps_from_out (writeBar0_regerr_only _ w e)⟩
  · obtain ⟨hreg, honly⟩ := writeBar0_rstcause { s.dev with out := [] } w e
    exact ⟨hreg, keeps_from_out honly⟩

end Sys2Proof.Machine
end

section
/-! PROOFS. The register-error bits of GLB_REGERR (R31, R35): what setting one does, and the accesses that set one and do nothing
else. -/

namespace Sys2Proof.Machine

theorem GLB_BLKERR_ok {b : Nat} (hb : b < 16) : (GLB_BLKERR b).ok := ⟨le_rfl, by show b < 32; omega⟩

theorem get_eq_one_of_is {d : Dev} {f : Fld} (h : d.is f = true) : d.get f = 1 := by simpa [is_eq] using h

theorem get_regErr_ne (d : Dev) {b c : Nat} (hb : b < 16) (hc : c < 16) (h : c ≠ b) :
    (d.regErr b).get (GLB_BLKERR c) = d.get (GLB_BLKERR c) := by
  rcases regErr_cases d b with ⟨_, e⟩ | ⟨_, e⟩
  · rw [e]
  · rw [e, get_raise, Dev.putB, get_put_apart _ _ _ _ (GLB_BLKERR_ok hb) (GLB_BLKERR_ok hc) (by simp only [GLB_BLKERR]; omega)]

theorem regErr_only (d : Dev) (b : Nat) : d.only (d.regErr b) [.evReq] [0x10] :=
  keeps_only (keeps_regErr (List.mem_singleton_self _) (List.mem_singleton_self _) (keeps_refl d _ _))

/-- Settles O12, from the two outcomes of `regErr_cases`. -/
theorem registerErrorRaises : Obligations.RegisterErrorRaises := by
  unfold Obligations.RegisterErrorRaises
  intro d b hb
  refine ⟨fun h => ⟨get_eq_one_of_is (is_regErr_same d hb), ?_, regErr_only d b, fun c hc hne => get_regErr_ne d hb hc hne⟩,
    fun h => ?_⟩
  · rw [regErr_evReq, is_eq, h]
    rfl
  · unfold Dev.regErr
    rw [if_pos (by rw [is_eq, h]; rfl)]

/-! ## Accesses that reach no register -/

theorem regErr_out (d : Dev) (b : Nat) : (d.regErr b).out = d.out := by
  rcases regErr_cases d b with ⟨_, e⟩ | ⟨_, e⟩
  · rw [e]
  · rw [e]
    rfl

/-- From a device whose outputs have been cleared: the bit, the outputs, the event and the frame. -/
theorem regErr_effect (d : Dev) {b : Nat} (hb : b < 16) :
    (Dev.regErr { d with out := [] } b).is (GLB_BLKERR b) = true ∧ (Dev.regErr { d with out := [] } b).out = [] ∧
    (Dev.regErr { d with out := [] } b).evReq = d.evReq ++ (if d.is (GLB_BLKERR b) then [] else [(16, noDetail)]) ∧
    d.only (Dev.regErr { d with out := [] } b) [.evReq] [0x10] :=
  ⟨is_regErr_same _ hb, regErr_out _ b, regErr_evReq _ b, keeps_from_out (regErr_only _ b)⟩

theorem completes_of_next {i : Instr} {s : State} {d : Dev} {post : Dev → Prop} (hi : exec i s = .next ⟨s.pending, d⟩)
    (h : post d) : Completes i s post :=
  ⟨_, hi, rfl, h⟩

/-- Settles O14: both commands set the bit of the offset's block, and an access that reads then answers 0. -/
theorem invalidAccesses : Obligations.InvalidAccesses := by
  unfold Obligations.InvalidAccesses
  intro s off size read w e hl
  have hl' : Dev.linked { s.dev with out := [] } = true := hl
  obtain ⟨his, hout, hev, honly⟩ := regErr_effect s.dev (b := off.toNat / 4096) (by omega)
  refine ⟨fun h => ?_, fun h => ?_⟩
  · have hbad : (size == 4 && occupied off.toNat) = false := by
      rcases h with h | h
      · rw [beq_false_of_ne h, Bool.false_and]
      · rw [h, Bool.and_false]
    refine completes_of_next rfl ?_
    simp only [hl', hbad, Bool.not_true, Bool.or_false, Bool.false_eq_true, if_false, Dev.reject]
    cases read with
    | false => exact ⟨his, hout, hev, honly⟩
    | true => exact ⟨his, by rw [if_pos rfl, if_pos rfl, send_out, hout]; rfl, hev, keeps_send honly⟩
  · refine completes_of_next rfl ?_
    simp only [hl', h, Bool.not_true, Bool.false_eq_true, if_false, Dev.reject]
    exact ⟨his, hout, hev, honly⟩

end Sys2Proof.Machine
end

section
/-! PROOFS. Invariants of updates: a property of the device that outlives every update of some parts and of some registers outlives
the operations built of these updates. Frames, requests held high, and single fields of a part are such properties. -/

namespace Sys2Proof.Machine

/-- The field that is the whole word at an offset. -/
def Fld.whole (o : Nat) : Fld := ⟨o, 31, 0⟩

/-- Two fields without a bit in common. -/
@[reducible] def Fld.apart (f g : Fld) : Prop := f.off = g.off → f.ok ∧ (g.hi < f.lo ∨ f.hi < g.lo)

theorem apart_of_off {f g : Fld} (h : f.off ≠ g.off) : f.apart g := fun e => absurd e h

/-- One update of a field in `R` or of a part in `P`. Requests are only added; the freeze of the setpoints, the recovery window, the
dual-act window and the number of the separation record stay. -/
inductive Upd (P : Part → Prop) (R : Fld → Prop) (d : Dev) : Dev → Prop where
  | setReg {o : Nat} (w : Word) : R (.whole o) → Upd P R d (d.setReg o w)
  | put {f : Fld} (v : Nat) : R f → Upd P R d (d.put f v)
  | raise (a b : Nat) : P .evReq → Upd P R d (d.raise a b)
  | send (o : Output) : Upd P R d (d.send o)
  | draw : P .freeCtr → Upd P R d d.draw
  | boot (x : BootSt) : P .boot → Upd P R d { d with boot := x }
  | time (x : TimeSt) : P .time → Upd P R d { d with time := x }
  | host (x : HostSt) : P .host → Upd P R d { d with host := x }
  | hod (x : HodSt) : P .hod → Upd P R d { d with hod := x }
  | engSrcs (x : List EngSrc) : P .engSrcs → Upd P R d { d with engSrcs := x }
  | heath (x : HeathSt) : P .heath → Upd P R d { d with heath := x }
  | kiln (x : KilnSt) : P .kiln → Upd P R d { d with kiln := x }
  | planner (x : PlannerSt) : P .planner → x.recov = d.planner.recov → x.window = d.planner.window → Upd P R d { d with planner := x }
  | servo (x : ServoSt) : P .servo → x.frozen = d.servo.frozen → Upd P R d { d with servo := x }
  | commons (x : CommonsSt) : P .commons → x.rseq = d.commons.rseq → Upd P R d { d with commons := x }
  | safety (x : SafetySt) : P .safety → Upd P R d { d with safety := x }
  | field (x : FieldSt) : P .field → Upd P R d { d with field := x }
  | fbs (x : List JointFb) : P .fbs → Upd P R d { d with fbs := x }
  | ret (x : RetSt) : P .ret → Upd P R d { d with ret := x }
  | fabric (x : FabricSt) : P .fabric → Upd P R d { d with fabric := x }
  | mains (x : MainsSt) : P .mains → Upd P R d { d with mains := x }

/-- `K` outlives every update of the parts in `P` and the fields in `R`. -/
def Stable (K : Dev → Prop) (P : Part → Prop) (R : Fld → Prop) : Prop := ∀ ⦃d d' : Dev⦄, Upd P R d d' → K d → K d'

variable {K L : Dev → Prop} {P Q : Part → Prop} {R T : Fld → Prop} {d d0 : Dev}

/-! ## Properties that outlive updates -/

theorem upd_same {d' : Dev} {p : Part} (hp : ¬ P p) (h : Upd P R d d') : p.same d d' := by
  cases h <;> cases p <;> first | rfl | exact absurd ‹_› hp

theorem upd_reg {d' : Dev} {o : Nat} (ho : ∀ f, R f → f.off ≠ o) (h : Upd P R d d') : d'.reg o = d.reg o := by
  cases h with
  | setReg w hr => exact reg_setReg_ne d _ o w (ho _ hr).symm
  | put v hr => exact reg_put_ne d _ v o (ho _ hr).symm
  | _ => rfl

theorem upd_get {d' : Dev} {g : Fld} (hg : g.ok) (ho : ∀ f, R f → f.apart g) (h : Upd P R d d') : d'.get g = d.get g := by
  cases h with
  | @setReg o w hr =>
    have hne : g.off ≠ o := fun e => by
      obtain ⟨-, h31⟩ := ho _ hr e.symm
      have h1 := hg.1
      have h2 := hg.2
      simp only [Fld.whole] at h31
      omega
    rw [get_eq, get_eq, reg_setReg_ne d _ _ w hne]
  | @put f v hr =>
    by_cases e : f.off = g.off
    · obtain ⟨hf, hb⟩ := ho _ hr e
      exact get_put_apart d f g v hf hg hb
    · exact get_put_off d f g v (Ne.symm e)
  | _ => rfl

theorem upd_mono (hp : ∀ p, P p → Q p) (hr : ∀ o, R o → T o) {d' : Dev} (h : Upd P R d d') : Upd Q T d d' := by
  cases h with
  | setReg w h => exact .setReg w (hr _ h)
  | put v h => exact .put v (hr _ h)
  | _ => constructor <;> first | exact hp _ ‹_› | assumption

theorem Stable.mono (hK : Stable K Q T) (hp : ∀ p, P p → Q p) (hr : ∀ o, R o → T o) : Stable K P R :=
  fun _ _ h => hK (upd_mono hp hr h)

theorem Stable.and (hK : Stable K P R) (hL : Stable L P R) : Stable (fun d => K d ∧ L d) P R :=
  fun _ _ h k => ⟨hK h k.1, hL h k.2⟩

theorem stable_keeps (d0 : Dev) (P : Part → Prop) (O : Nat → Prop) : Stable (d0.keeps · P O) P (fun f => O f.off) :=
  fun _ _ h k => ⟨fun p n => same_trans (k.1 p n) (upd_same n h),
    fun o n => (upd_reg (fun _ hr e => n (Eq.subst (motive := O) e hr)) h).trans (k.2 o n)⟩

theorem stable_get (g : Fld) (v : Nat) (hg : g.ok) (P : Part → Prop) : Stable (fun d => d.get g = v) P (·.apart g) :=
  fun _ _ h k => (upd_get hg (fun _ hr => hr) h).trans k

theorem stable_gets (d0 : Dev) (gs : List Fld) (hg : ∀ g ∈ gs, g.ok) (P : Part → Prop) :
    Stable (fun d => ∀ g ∈ gs, d.get g = d0.get g) P (fun f => ∀ g ∈ gs, f.apart g) :=
  fun _ _ h k g hm => (upd_get (hg g hm) (fun _ hr => hr g hm) h).trans (k g hm)

/-- A request held high stays high. -/
theorem stable_request (x : Nat × Nat) (P : Part → Prop) (R : Fld → Prop) : Stable (fun d => x ∈ d.evReq) P R := by
  intro d d' h k
  cases h with
  | raise a b => exact List.mem_append_left _ k
  | _ => exact k

theorem stable_frozen (b : Bool) (P : Part → Prop) (R : Fld → Prop) : Stable (fun d => d.servo.frozen = b) P R := by
  intro d d' h k
  cases h with
  | servo x _ hx => exact hx.trans k
  | _ => exact k

theorem stable_recov (x : Option (Nat × Nat)) (P : Part → Prop) (R : Fld → Prop) : Stable (fun d => d.planner.recov = x) P R := by
  intro d d' h k
  cases h with
  | planner x _ hx _ => exact hx.trans k
  | _ => exact k

theorem stable_window (x : Option (Nat × Option Nat)) (P : Part → Prop) (R : Fld → Prop) :
    Stable (fun d => d.planner.window = x) P R := by
  intro d d' h k
  cases h with
  | planner x _ _ hx => exact hx.trans k
  | _ => exact k

theorem stable_rseq (n : Nat) (P : Part → Prop) (R : Fld → Prop) : Stable (fun d => d.commons.rseq = n) P R := by
  intro d d' h k
  cases h with
  | commons x _ hx => exact hx.trans k
  | _ => exact k

theorem mem_raise (d : Dev) (a b : Nat) : (a, b) ∈ (d.raise a b).evReq := List.mem_append_right _ (List.mem_singleton_self _)

/-! ## Shared operations -/

section
variable (hK : Stable K P R)
include hK

theorem Stable.put {f : Fld} {v : Nat} (hr : R f) (h : K d) : K (d.put f v) := hK (.put _ hr) h
theorem Stable.putB {f : Fld} {b : Bool} (hr : R f) (h : K d) : K (d.putB f b) := hK (.put _ hr) h
theorem Stable.bump {o : Nat} (hr : R (.whole o)) (h : K d) : K (d.bump o) := hK (.setReg _ hr) h
theorem Stable.raise {a b : Nat} (hp : P .evReq) (h : K d) : K (d.raise a b) := hK (.raise a b hp) h

theorem Stable.put64 {o v : Nat} (hr : R (.whole o)) (hr' : R (.whole (o + 4))) (h : K d) : K (d.put64 o v) :=
  hK (.setReg _ hr') (hK (.setReg _ hr) h)

omit hK in
theorem foldl_invariant {α : Type} {f : Dev → α → Dev} (l : List α) (hf : ∀ d a, a ∈ l → K d → K (f d a)) (h : K d) :
    K (l.foldl f d) := List.foldlRecOn (motive := K) l f h (fun d k a m => hf d a m k)

theorem Stable.updCmd {id : Nat} {f : Cmd → Cmd} (hp : P .host) (h : K d) : K (d.updCmd id f) := hK (.host _ hp) h

theorem Stable.dropCopy {id : Nat} (hp : P .host) (h : K d) : K (d.dropCopy id) := hK (.host _ hp) h

theorem Stable.complete {id : Nat} {st : Status} {p q r0 r1 : Nat} (hp : P .host) (h : K d) :
    K (d.complete id st p q r0 r1) := by
  unfold Dev.complete
  split
  · exact h
  next c _ =>
    split
    · exact h
    · have hu := fun f : Cmd → Cmd => Stable.updCmd hK (id := id) (f := f) hp h
      dsimp only
      split <;> split
      · exact hu _
      · exact hK (.host _ hp) (hu _)
      · exact hK.dropCopy hp (hu _)
      · exact hK.dropCopy hp (hK (.host _ hp) (hu _))

theorem Stable.abortGroups (hp : P .host) (hk : P .kiln) (h : K d) : K d.abortGroups :=
  foldl_invariant _ (fun _ _ _ => hK.complete hp) (hK (.kiln _ hk) h)

theorem Stable.stopRequest (hp : P .host) (hk : P .kiln) (hl : P .planner) (h : K d) : K d.stopRequest :=
  hK.abortGroups hp hk (hK (.planner _ hl rfl rfl) h)

theorem Stable.requestSs1 (hs : P .safety) (h : K d) : K d.requestSs1 := hK (.safety _ hs) h

theorem Stable.updJ {gj : Nat} {f : JointRt → JointRt} (hs : P .servo) (h : K d) : K (d.updJ gj f) := hK (.servo _ hs rfl) h

theorem Stable.updE {e : Nat} {f : Engine → Engine} (hs : P .servo) (h : K d) : K (d.updE e f) := hK (.servo _ hs rfl) h

/-! ## Engines that fail -/

theorem Stable.undeliverable {src : Nat} (hh : P .hod) (hv : P .evReq) (hr : R (EVC_UNDEL src)) (hc : R (.whole 0xCC04)) (h : K d) :
    K (d.undeliverable src) := by
  have hu := fun x => hK (.hod x hh) (hK.bump hc (hK.putB (b := true) hr h))
  unfold Dev.undeliverable
  dsimp only
  split
  · exact hu _
  · exact hK.raise hv (hu _)

theorem Stable.engineOff {e : Nat} (hs : P .servo) (hg : P .engSrcs) (hh : P .hod) (hv : P .evReq)
    (hr : ∀ s, R (EVC_UNDEL s)) (hc : R (.whole 0xCC04)) (h : K d) : K (d.engineOff e) :=
  foldl_invariant _
    (fun _ src _ => hK.undeliverable hh hv (hr src) hc)
    (hK.updE hs (hK (.engSrcs _ hg) h))

theorem Stable.migrate {e gj : Nat} (hs : P .servo) (hv : P .evReq) (hp : P .host) (hk : P .kiln) (hl : P .planner)
    (hf : P .safety) (hc : R (.whole 0x605C)) (hu : R SRV_UNBOUND) (h : K d) : K (d.migrate e gj) := by
  unfold Dev.migrate
  split
  next ps s _ _ =>
    dsimp only
    split
    · exact hK.raise hv (hK.bump hc (hK.updE hs (hK.updJ hs (hK (.servo _ hs rfl) h))))
    · exact hK.requestSs1 hf (hK.stopRequest hp hk hl (hK.raise hv (hK.putB hu (hK (.servo _ hs rfl) h))))
  · exact h

theorem Stable.publishAlloc (hr : ∀ j, R (SRV_BIND j)) (h : K d) : K d.publishAlloc := by
  refine foldl_invariant _ (fun d j _ k => ?_) h
  split
  · exact hK.put (hr j) k
  · exact hK.put (hr j) k

end

end Sys2Proof.Machine
end

section
/-! PROOFS. The servo wall's points of a beat (R28, R145, R152, R155, R157 to R160): the freeze of the setpoints, the deadline of an
engine, the record of a block, and the rejoin of engines. -/

namespace Sys2Proof.Machine

variable {K : Dev → Prop} {P : Part → Prop} {R : Nat → Prop} {F : Fld → Prop} {d d0 : Dev}

/-! ## Commands that act under a condition, at an instant -/

theorem completes_unless {i : Instr} {s : State} {c : Bool} {a b : Dev} {post : Dev → Prop}
    (hi : exec i s = .next ⟨s.pending, if c then a else b⟩) (hc : c = false) (h : post b) : Completes i s post :=
  ⟨_, hi, rfl, by subst hc; exact h⟩

theorem completes_when {i : Instr} {s : State} {c : Bool} {a b : Dev} {post : Dev → Prop}
    (hi : exec i s = .next ⟨s.pending, if c then a else b⟩) (hc : c = true) (h : post a) : Completes i s post :=
  ⟨_, hi, rfl, by subst hc; exact h⟩

theorem reach_eq (d : Dev) (t : Nat) : ∃ x, d.reach t = { d with time := x } ∧ x = { d.time with now := max d.now t, frac := x.frac } := by
  unfold Dev.reach
  split
  next h => exact ⟨d.time, rfl, by rw [show max d.now t = d.time.now from Nat.max_eq_left h]⟩
  next h => exact ⟨_, rfl, by rw [show max d.now t = t from Nat.max_eq_right (Nat.le_of_not_le h)]⟩

/-- Let cell time reach the instant `k` ns before the end of the beat, where there are beats. -/
def Dev.beforeBeatEnd (d : Dev) (k : Nat) : Dev :=
  if d.time.started then d.reach (d.time.beatAt + d.time.layout.beat - k) else d

theorem beforeBeatEnd_eq (d : Dev) (k : Nat) : ∃ x, d.beforeBeatEnd k = { d with time := x } ∧
    x.now = if d.time.started then max d.now (d.time.beatAt + d.time.layout.beat - k) else d.now := by
  unfold Dev.beforeBeatEnd
  split
  · obtain ⟨x, hx, hnow⟩ := reach_eq d (d.time.beatAt + d.time.layout.beat - k)
    exact ⟨x, hx, congrArg TimeSt.now hnow⟩
  · exact ⟨d.time, rfl, rfl⟩

/-! ## SETPOINT_FREEZE (R28) -/

/-- Joints that should have a new setpoint and have none. -/
def Dev.lateJoints (d : Dev) : List Nat :=
  (d.servo.joints.filter (fun j => (j.delivering || d.servo.unbound.contains j.gj) && j.tx.isNone)).map JointRt.gj

/-- Late setpoints are counted and raised in order. -/
def Dev.countLate (d : Dev) (late : List Nat) : Dev := late.foldl (fun d gj => (d.bump 0x6040).raise (srcNo 5 0) gj) d

/-- The buffers are frozen: what stands in them is sent, and a joint without a new setpoint is stale. -/
def JointRt.freeze (j : JointRt) : JointRt :=
  match j.tx with
  | some v => { j with sent := some v, stale := false, tx := none }
  | none => { j with stale := true }

def Dev.freeze (d : Dev) : Dev :=
  { d with servo := { d.servo with frozen := true, joints := d.servo.joints.map JointRt.freeze } }

theorem countLate_evReq (d : Dev) (late : List Nat) : (d.countLate late).evReq = d.evReq ++ late.map (fun gj => (80, gj)) := by
  induction late generalizing d with
  | nil => exact (List.append_nil _).symm
  | cons gj late ih => exact (ih _).trans (by rw [raise_evReq, List.append_assoc]; rfl)

theorem countLate_reg (d : Dev) (late : List Nat) :
    (d.countLate late).reg 0x6040 = late.foldl (fun r _ => bumpWord r) (d.reg 0x6040) := by
  induction late generalizing d with
  | nil => rfl
  | cons gj late ih => exact (ih _).trans (congrArg (late.foldl fun r _ => bumpWord r) (reg_bump_same d 0x6040))

theorem countLate_keeps (late : List Nat) (hv : P .evReq) (hr : R 0x6040) (h : d0.keeps d P R) : d0.keeps (d.countLate late) P R :=
  foldl_invariant (K := (d0.keeps · P R)) late (fun _ _ _ k => keeps_raise hv (keeps_bump hr k)) h

theorem setpointFreeze_frozen {s : State} (h : s.dev.servo.frozen = true) :
    Completes .setpointFreeze s (fun d => s.dev.only d [] []) :=
  completes_when (c := !s.dev.up || !s.dev.is CLK_SERVOLK || s.dev.servo.frozen) (a := { s.dev with out := [] }) rfl
    (by rw [h, Bool.or_true]) (keeps_out (keeps_refl _ _ _))

theorem setpointFreeze_open {s : State} (hu : s.dev.up = true) (hc : s.dev.is CLK_SERVOLK = true) (hf : s.dev.servo.frozen = false)
    {x : TimeSt} (hx : Dev.beforeBeatEnd { s.dev with out := [] } 8000 = { s.dev with out := [], time := x }) {post : Dev → Prop}
    (h : post (Dev.freeze (Dev.countLate { s.dev with out := [], time := x } s.dev.lateJoints))) : Completes .setpointFreeze s post := by
  refine completes_unless (c := !s.dev.up || !s.dev.is CLK_SERVOLK || s.dev.servo.frozen)
    (b := (Dev.beforeBeatEnd { s.dev with out := [] } 8000 |>.countLate
      (Dev.beforeBeatEnd { s.dev with out := [] } 8000).lateJoints).freeze) rfl (by rw [hu, hc, hf]; rfl) ?_
  rw [hx]
  exact h

theorem freeze_countLate_servo (d : Dev) (late : List Nat) :
    (d.countLate late).freeze.servo = { d.servo with frozen := true, joints := d.servo.joints.map JointRt.freeze } := by
  have hs : (d.countLate late).servo = d.servo :=
    (countLate_keeps (P := (· ∈ [Part.evReq])) (R := (· ∈ [0x6040])) late (by decide) (by decide) (keeps_refl d _ _)).1 .servo (by decide)
  unfold Dev.freeze
  rw [hs]

theorem freeze_countLate_keeps (late : List Nat) (hs : P .servo) (hv : P .evReq) (hr : R 0x6040) (h : d0.keeps d P R) :
    d0.keeps (d.countLate late).freeze P R := keeps_servo hs (countLate_keeps late hv hr h)

/-! ## ENGINE_DEADLINE_CHECK (R155) -/

/-- The engine is marked failed, its setpoints withdrawn, before what runs there is moved. -/
def Dev.engineFailed (d : Dev) (e : Nat) (js : List Nat) : Dev :=
  (((js.foldl (fun (d : Dev) gj => d.updJ gj (fun j => { j with tx := none })) d).putB (SRV_FAILED e) true).bump 0x6058).raise
    (srcNo 5 7) e

theorem engineFail_eq (d : Dev) (e : Nat) (h : d.is (SRV_FAILED e) = false) : ∃ js : List Nat,
    d.engineFail e = (js.foldl (fun (d : Dev) gj => d.migrate e gj) ((d.engineFailed e js).engineOff e)).publishAlloc :=
  ⟨(List.range 5).filterMap (d.slotJoint e), if_neg (by rw [h]; decide)⟩

/-- What follows the mark of the failed engine: cell time, SRV_FAIL and its count stay. -/
theorem Stable.afterFailure (hK : Stable K (· ≠ .time) (fun f => f.off ≠ 0x6008 ∧ f.off ≠ 0x6058)) (e : Nat) (js : List Nat)
    (h : K d) : K (js.foldl (fun (d : Dev) gj => d.migrate e gj) (d.engineOff e)).publishAlloc := by
  refine hK.publishAlloc (fun j => ?_) (foldl_invariant js (fun _ _ _ => ?_) (hK.engineOff ?_ ?_ ?_ ?_ (fun s => ?_) ?_ h))
  · simp only [SRV_BIND]; omega
  · exact hK.migrate (by decide) (by decide) (by decide) (by decide) (by decide) (by decide) (by decide) (by decide)
  case refine_7 => simp only [EVC_UNDEL]; omega
  all_goals decide

theorem withdraw_keeps (d : Dev) (js : List Nat) :
    d.keeps (js.foldl (fun (d : Dev) gj => d.updJ gj (fun j => { j with tx := none })) d) (· ∈ [Part.servo]) (· ∈ []) :=
  foldl_invariant (K := (d.keeps · _ _)) js (fun _ _ _ k => keeps_servo (by decide) k) (keeps_refl d _ _)

theorem SRV_FAILED_ok (e : Fin 16) : (SRV_FAILED e).ok := ⟨le_rfl, by show e.val < 32; omega⟩

theorem engineFailed_effect (d : Dev) (e : Fin 16) (js : List Nat) :
    (d.engineFailed e js).is (SRV_FAILED e) = true ∧
    (∀ k : Fin 16, k ≠ e → (d.engineFailed e js).is (SRV_FAILED k) = d.is (SRV_FAILED k)) ∧
    (d.engineFailed e js).reg 0x6058 = bumpWord (d.reg 0x6058) ∧ (d.engineFailed e js).time = d.time := by
  have hk := withdraw_keeps d js
  unfold Dev.engineFailed
  set m := js.foldl (fun (d : Dev) gj => d.updJ gj (fun j => { j with tx := none })) d
  have hoff : ∀ k, (((m.putB (SRV_FAILED e) true).bump 0x6058).raise (srcNo 5 7) e).is (SRV_FAILED k) =
      (m.putB (SRV_FAILED e) true).is (SRV_FAILED k) := fun k => by
    rw [is_raise, is_eq, is_eq, get_eq, get_eq, reg_bump_ne _ _ _ (by show 0x6008 ≠ 0x6058; decide)]
  refine ⟨?_, fun k hne => ?_, ?_, hk.1 .time (by decide)⟩
  · rw [hoff, is_putB_same _ _ _ (SRV_FAILED_ok e)]
  · have hne' : k.val ≠ e.val := fun h => hne (Fin.ext h)
    rw [hoff, Dev.putB, is_put_apart _ _ _ _ (SRV_FAILED_ok e) (SRV_FAILED_ok k) (by simp only [SRV_FAILED]; omega)]
    exact keeps_is hk (by simp)
  · rw [reg_raise, reg_bump_same, Dev.putB, reg_put_ne _ _ _ _ (by show 0x6058 ≠ 0x6008; decide), hk.2 0x6058 (by simp)]

theorem engineFail_effect (d : Dev) (e : Fin 16) (h : d.is (SRV_FAILED e) = false) :
    (d.engineFail e).is (SRV_FAILED e) = true ∧
    (∀ k : Fin 16, k ≠ e → (d.engineFail e).is (SRV_FAILED k) = d.is (SRV_FAILED k)) ∧
    (d.engineFail e).time = d.time ∧ (87, e.val) ∈ (d.engineFail e).evReq ∧
    (d.engineFail e).reg 0x6058 = bumpWord (d.reg 0x6058) := by
  obtain ⟨js, he⟩ := engineFail_eq d e h
  obtain ⟨hfail, hother, hcount, htime⟩ := engineFailed_effect d e js
  have hkeep : (d.engineFailed e js).keeps (d.engineFail e) (· ≠ .time) (fun o => o ≠ 0x6008 ∧ o ≠ 0x6058) :=
    he ▸ (stable_keeps _ _ (fun o => o ≠ 0x6008 ∧ o ≠ 0x6058)).afterFailure e js (keeps_refl _ _ _)
  have hmem : (87, e.val) ∈ (d.engineFail e).evReq :=
    he ▸ (stable_request (87, e.val) _ _).afterFailure e js (mem_raise _ _ _)
  have his : ∀ k, (d.engineFail e).is (SRV_FAILED k) = (d.engineFailed e js).is (SRV_FAILED k) := fun k =>
    keeps_is hkeep (by simp [SRV_FAILED])
  exact ⟨(his _).trans hfail, fun k hne => (his _).trans (hother k hne), (hkeep.1 .time (by simp)).trans htime, hmem,
    (hkeep.2 0x6058 (by simp)).trans hcount⟩

/-- Joints whose output an engine owes in this beat. -/
def Dev.owedJoints (d : Dev) (e : Nat) : List JointRt := (d.boundJoints e).filter (fun j => j.delivering && !j.moved)

def Dev.deadlineCheck (d : Dev) (e : Nat) : Dev :=
  if (d.owedJoints e).any (·.missing) then d
  else if (d.owedJoints e).any (fun j => j.tx.isNone && !j.trapNow) then d.engineFail e
  else d

theorem engineDeadlineCheck_at {s : State} {e : Fin 16} (hu : s.dev.up = true) (hf : s.dev.is (SRV_FAILED e) = false)
    {post : Dev → Prop} (h : ∀ x : TimeSt, (x.now = if s.dev.time.started then
        max s.dev.now (s.dev.time.beatAt + s.dev.time.layout.beat - 12000) else s.dev.now) →
      post (Dev.deadlineCheck { s.dev with out := [], time := x } e)) : Completes (.engineDeadlineCheck e) s post := by
  obtain ⟨x, hx, hnow⟩ := beforeBeatEnd_eq { s.dev with out := [] } 12000
  refine completes_unless (c := !s.dev.up || s.dev.is (SRV_FAILED e))
    (b := (Dev.beforeBeatEnd { s.dev with out := [] } 12000).deadlineCheck e) rfl (by rw [hu, hf]; rfl) ?_
  rw [hx]
  exact h x hnow

theorem deadlineCheck_met {d : Dev} {e : Nat} (h : (∃ j ∈ d.owedJoints e, j.missing = true) ∨
    (∀ j ∈ d.owedJoints e, j.tx.isSome = true ∨ j.trapNow = true)) : d.deadlineCheck e = d := by
  unfold Dev.deadlineCheck
  split
  · rfl
  next hm =>
    refine if_neg fun hl => ?_
    obtain ⟨j, hj, hlate⟩ := List.any_eq_true.1 hl
    rcases h with ⟨i, hi, hmiss⟩ | hall
    · exact hm (List.any_eq_true.2 ⟨i, hi, hmiss⟩)
    · rcases hall j hj with ht | ht <;> simp_all

theorem deadlineCheck_missed {d : Dev} {e : Nat} (hm : ∀ j ∈ d.owedJoints e, j.missing = false) {j : JointRt}
    (hj : j ∈ d.owedJoints e) (htx : j.tx = none) (htr : j.trapNow = false) : d.deadlineCheck e = d.engineFail e := by
  unfold Dev.deadlineCheck
  rw [if_neg (by simpa using hm), if_pos (List.any_eq_true.2 ⟨j, hj, by rw [htx, htr]; rfl⟩)]

/-! ## ENGINE_REJOIN (R157) -/

/-- The engines of a list start their lane test. -/
def Dev.testEngines (d : Dev) (due : List Nat) : Dev :=
  due.foldl (fun (d : Dev) e => d.updE e (fun g => { g with testing := true })) d

theorem testEngines_keeps (due : List Nat) (hs : P .servo) (h : d0.keeps d P R) : d0.keeps (d.testEngines due) P R :=
  foldl_invariant (K := (d0.keeps · P R)) due (fun _ _ _ k => keeps_servo hs k) h

theorem testEngines_is (d : Dev) (due : List Nat) (f : Fld) : (d.testEngines due).is f = d.is f :=
  keeps_is (testEngines_keeps (P := fun _ => True) (R := fun _ => False) due trivial (keeps_refl d _ _)) id

theorem testEngines_engine (d : Dev) (due : List Nat) (e : Nat) :
    (d.testEngines due).engine e = (d.engine e).map (fun g => if e ∈ due then { g with testing := true } else g) := by
  induction due generalizing d with
  | nil => simp [Dev.testEngines]
  | cons a due ih =>
    refine (ih _).trans ?_
    by_cases h : e = a
    · subst h
      rw [engine_updE_same, Option.map_map]
      congr 1
      funext g
      by_cases hm : e ∈ due <;> simp [hm]
    · rw [engine_updE_ne _ _ _ _ h]
      simp [h]

/-- The engines that a mask names and that have failed. -/
def Dev.rejoining (d : Dev) (mask : Nat) : List Nat := (List.range 16).filter (fun e => bitOf mask e && d.is (SRV_FAILED e))

/-- The mask names an engine that has not failed. -/
def Dev.rejoinsWorking (d : Dev) (mask : Nat) : Bool := (List.range 16).any (fun e => bitOf mask e && !d.is (SRV_FAILED e))

theorem rejoinsWorking_eq_false {mask : Nat} (h : ∀ e : Fin 16, bitOf mask e = true → d.is (SRV_FAILED e) = true) :
    d.rejoinsWorking mask = false := by
  refine List.any_eq_false.2 fun e he hw => ?_
  obtain ⟨hbit, hworks⟩ : bitOf mask e = true ∧ d.is (SRV_FAILED e) = false := by simpa using hw
  rw [h ⟨e, List.mem_range.1 he⟩ hbit] at hworks
  exact Bool.noConfusion hworks

theorem mem_rejoining {mask e : Nat} : e ∈ d.rejoining mask ↔ e < 16 ∧ bitOf mask e = true ∧ d.is (SRV_FAILED e) = true := by
  simp [Dev.rejoining]

theorem is_SRV_FAILED_regErr (d : Dev) (b e : Nat) : (d.regErr b).is (SRV_FAILED e) = d.is (SRV_FAILED e) := by
  rw [is_eq, is_eq, get_regErr_off d b (show (SRV_FAILED e).off ≠ 0x10 from by show 0x6008 ≠ 0x10; decide)]

theorem engineRejoin_eq (d : Dev) (mask : Nat) : d.engineRejoin mask =
    (if d.rejoinsWorking mask then d.regErr 6 else d).testEngines (d.rejoining mask) := by
  have hr : ∀ b : Bool, (if b then d.regErr 6 else d).rejoining mask = d.rejoining mask := fun b => by
    cases b
    · rfl
    · simp only [if_true, Dev.rejoining, is_SRV_FAILED_regErr]
  exact congrArg ((if d.rejoinsWorking mask then d.regErr 6 else d).testEngines ·) (hr _)

theorem engineRejoin_run {s : State} (hl : s.dev.linked = true) {mask : BitVec 16} {post : Dev → Prop}
    (h : post ((if s.dev.rejoinsWorking mask.toNat then Dev.regErr { s.dev with out := [] } 6 else { s.dev with out := [] }).testEngines
      (s.dev.rejoining mask.toNat))) : Completes (.engineRejoin mask) s post := by
  refine completes_when (c := s.dev.linked) (a := Dev.engineRejoin { s.dev with out := [] } mask.toNat) rfl hl ?_
  rw [engineRejoin_eq]
  exact h

theorem engine_regErr (d : Dev) (b e : Nat) : (d.regErr b).engine e = d.engine e := by
  rcases regErr_cases d b with ⟨_, h⟩ | ⟨_, h⟩
  · rw [h]
  · rw [h]
    rfl

/-! ## CM_BLOCK_READY (R158 to R160) -/

theorem length_leBytes (n v : Nat) : (leBytes n v).length = n := by
  induction n generalizing v with
  | zero => rfl
  | succ n ih => simp [leBytes, ih]

theorem jrt_updJ_same (d : Dev) (gj : Nat) (f : JointRt → JointRt) (hf : ∀ j, (f j).gj = j.gj) :
    (d.updJ gj f).jrt gj = (d.jrt gj).map f := by
  have hkey : ∀ j : JointRt, (if j.gj = gj then f j else j).gj = j.gj := fun j => by split <;> simp [hf]
  show (d.servo.joints.map _).find? _ = _
  rw [List.find?_map, show ((fun j : JointRt => j.gj == gj) ∘ fun j => if j.gj = gj then f j else j) = fun j => j.gj == gj from
    funext fun j => by rw [Function.comp, hkey]]
  cases h : d.servo.joints.find? (fun j => j.gj == gj) with
  | none => simp [Dev.jrt, h]
  | some j =>
    have hj : j.gj = gj := by simpa using List.find?_some h
    simp [Dev.jrt, h, hj]

/-- A ring that takes a record of a stream gets each part of the set offered (R369). -/
theorem mem_offer {stream time : Nat} {parts : List (Nat × List Byte)} {t : TelCfg} (ht : t ∈ d.host.telCfg) (hs : t.stream = stream)
    (hd : t.decim ≤ t.skipped + 1) {p : Nat × List Byte} (hp : p ∈ parts) :
    ⟨t.ring, stream, p.1, time, p.2⟩ ∈ (d.offer stream time parts).host.telOut :=
  List.mem_append_right _ (List.mem_flatMap.2 ⟨t, List.mem_filter.2 ⟨ht, by simp [hs, hd]⟩, List.mem_map.2 ⟨p, hp, rfl⟩⟩)

theorem offer_host {stream time : Nat} {parts : List (Nat × List Byte)} {x : HostSt} (h : d.host = x) :
    (d.offer stream time parts).host = { x with telOut := (d.offer stream time parts).host.telOut,
                                                telCfg := (d.offer stream time parts).host.telCfg } := by
  subst h
  rfl

theorem Stable.offer (hK : Stable K P F) {stream time : Nat} {parts : List (Nat × List Byte)} (hh : P .host) (h : K d) :
    K (d.offer stream time parts) := hK (.host _ hh) h

/-- The block of a joint is taken, and its record counted where it is invalid, raised and offered. -/
def Dev.blockTaken (d : Dev) (gj : Nat) (invalid : Bool) : Dev :=
  if invalid then (d.updJ gj (fun j => { j with cmDone := none })).bump 0x6060 else d.updJ gj (fun j => { j with cmDone := none })

theorem blockTaken_evReq (d : Dev) (gj : Nat) (invalid : Bool) : (d.blockTaken gj invalid).evReq = d.evReq := by
  unfold Dev.blockTaken
  split <;> rfl

theorem blockTaken_host (d : Dev) (gj : Nat) (invalid : Bool) : (d.blockTaken gj invalid).host = d.host := by
  unfold Dev.blockTaken
  split <;> rfl

theorem blockTaken_jrt (d : Dev) (gj : Nat) (invalid : Bool) {j : JointRt} (h : d.jrt gj = some j) :
    (d.blockTaken gj invalid).jrt gj = some { j with cmDone := none } := by
  have hj : (d.updJ gj (fun j => { j with cmDone := none })).jrt gj = some { j with cmDone := none } := by
    rw [jrt_updJ_same d gj (fun j => { j with cmDone := none }) (fun _ => rfl), h]
    rfl
  unfold Dev.blockTaken
  split
  · exact hj
  · exact hj

theorem blockTaken_keeps (gj : Nat) (invalid : Bool) (hs : P .servo) (hr : R 0x6060) (h : d0.keeps d P R) :
    d0.keeps (d.blockTaken gj invalid) P R := by
  unfold Dev.blockTaken
  split
  · exact keeps_bump hr (keeps_servo hs h)
  · exact keeps_servo hs h

theorem cmBlockReady_run {s : State} {gj : Fin 60} {j : JointRt} {b : CmBlock} {ent : ServoEnt} (hu : s.dev.up = true)
    (hj : s.dev.jrt gj = some j) (hb : j.cmDone = some b) (he : s.dev.entry gj = some ent) :
    ∃ (invalid : Bool) (record : List Byte), record.length = 128 ∧ exec (.cmBlockReady gj) s = .next ⟨s.pending,
      ((Dev.blockTaken { s.dev with out := [] } gj invalid).raise (srcNo 5 10) gj).offer 2 b.tend [(gj.val, record)]⟩ := by
  have hblock : (Dev.jrt { s.dev with out := [] } gj).bind (fun j => j.cmDone) = some b := by
    rw [show Dev.jrt { s.dev with out := [] } gj = some j from hj]
    exact hb
  have hent : Dev.entry { s.dev with out := [] } gj = some ent := he
  have hup : Dev.up { s.dev with out := [] } = true := hu
  show ∃ invalid record, _ ∧ execCmBlockReady gj s = _
  unfold execCmBlockReady State.run
  simp only [hblock, hent, hup, Bool.not_true, Bool.false_eq_true, if_false]
  refine ⟨_, _, ?_, rfl⟩
  simp [length_leBytes, List.length_flatMap]

theorem cmBlockReady_effect {s : State} {gj : Fin 60} {j : JointRt} {b : CmBlock} {ent : ServoEnt} (hu : s.dev.up = true)
    (hj : s.dev.jrt gj = some j) (hb : j.cmDone = some b) (he : s.dev.entry gj = some ent) :
    Completes (.cmBlockReady gj) s (fun d =>
      d.jrt gj = some { j with cmDone := none } ∧ d.evReq = s.dev.evReq ++ [(90, gj.val)] ∧
      d.host = { s.dev.host with telOut := d.host.telOut, telCfg := d.host.telCfg } ∧
      (∀ t ∈ s.dev.host.telCfg, t.stream = 2 → t.decim ≤ t.skipped + 1 → ∃ r ∈ d.host.telOut,
        r.ring = t.ring ∧ r.stream = 2 ∧ r.sub = gj.val ∧ r.time = b.tend ∧ r.payload.length = 128) ∧
      s.dev.only d [.servo, .evReq, .host] [0x6060]) := by
  obtain ⟨invalid, record, hlen, hrun⟩ := cmBlockReady_run hu hj hb he
  refine completes_of_next hrun ?_
  have hhost := blockTaken_host { s.dev with out := [] } gj invalid
  have hev := blockTaken_evReq { s.dev with out := [] } gj invalid
  refine ⟨blockTaken_jrt _ _ _ hj, congrArg (· ++ [(90, gj.val)]) hev, ?_, fun t ht hs hd => ?_, keeps_from_out (o := []) ?_⟩
  · exact offer_host (d := Dev.raise _ _ _) hhost
  · exact ⟨_, mem_offer (hhost ▸ ht) hs hd (List.mem_singleton_self _), rfl, rfl, rfl, rfl, hlen⟩
  · exact keeps_only (keeps_host (by decide) (keeps_raise (by decide)
      (blockTaken_keeps gj invalid (by decide) (by decide) (keeps_refl _ _ _))))

/-- Settles O50, point by point. -/
theorem enginePoints : Obligations.EnginePoints := by
  unfold Obligations.EnginePoints
  intro s
  refine ⟨fun hu hc => ⟨setpointFreeze_frozen, ?_⟩, ?_, fun gj j b ent => cmBlockReady_effect, fun mask hl => ⟨?_, ?_, ?_⟩⟩
  · rintro hf late rfl
    obtain ⟨x, hx, hnow⟩ := beforeBeatEnd_eq { s.dev with out := [] } 8000
    have hservo := freeze_countLate_servo { s.dev with out := [], time := x } s.dev.lateJoints
    have htime := (freeze_countLate_keeps (d := { s.dev with out := [], time := x }) (P := (· ∈ [Part.servo, .evReq])) (R := (· ∈ [0x6040]))
      s.dev.lateJoints (by decide) (by decide) (by decide) (keeps_refl _ _ _)).1 .time (by decide)
    refine setpointFreeze_open hu hc hf hx ⟨hservo.trans (by rw [hservo]), by rw [hservo]; rfl, countLate_evReq _ _,
      countLate_reg _ _, (congrArg TimeSt.now htime).trans hnow, ?_⟩
    exact keeps_only (freeze_countLate_keeps _ (by decide) (by decide) (by decide)
      (keeps_time (by decide) (keeps_out (keeps_refl _ _ _))))
  · rintro e hu hf js t rfl rfl
    refine ⟨fun h => engineDeadlineCheck_at hu hf fun x hx => ?_, fun hm j hj htx htr => engineDeadlineCheck_at hu hf fun x hx => ?_⟩
    · rw [deadlineCheck_met (d := { s.dev with out := [], time := x }) h]
      exact ⟨hx, keeps_only (keeps_time (by decide) (keeps_out (keeps_refl _ _ _)))⟩
    · rw [deadlineCheck_missed (d := { s.dev with out := [], time := x }) hm hj htx htr]
      obtain ⟨hfail, hother, htime, hmem, hcount⟩ := engineFail_effect { s.dev with out := [], time := x } e hf
      exact ⟨hfail, hother, (congrArg TimeSt.now htime).trans hx, hmem, hcount⟩
  · intro hall
    have hw : s.dev.rejoinsWorking mask.toNat = false := rejoinsWorking_eq_false hall
    refine engineRejoin_run hl ?_
    rw [hw]
    exact keeps_only (testEngines_keeps _ (by decide) (keeps_out (keeps_refl _ _ _)))
  · intro e he hf
    have hw : s.dev.rejoinsWorking mask.toNat = true := List.any_eq_true.2 ⟨e, List.mem_range.2 e.isLt, by rw [he, hf]; rfl⟩
    refine engineRejoin_run hl ?_
    rw [hw]
    refine ⟨?_, keeps_only (testEngines_keeps _ (by decide) (keeps_regErr (by decide) (by decide) (keeps_out (keeps_refl _ _ _))))⟩
    rw [testEngines_is]
    exact is_regErr_same _ (by decide)
  · refine engineRejoin_run hl fun e g hg => ?_
    have hg' : (if s.dev.rejoinsWorking mask.toNat then Dev.regErr { s.dev with out := [] } 6 else { s.dev with out := [] }).engine e =
        some g := by
      split
      · exact (engine_regErr _ _ _).trans hg
      · exact hg
    rw [testEngines_engine, hg']
    simp only [mem_rejoining, Option.map_some]

end Sys2Proof.Machine
end

section
/-! PROOFS. The walls and the planner: what starting a problem, leaving a role, accounting a commit and claiming the authority change
(R94, R112, R118, R121 to R125, R133, R134). -/

namespace Sys2Proof.Machine

variable {K : Dev → Prop} {P : Part → Prop} {R : Fld → Prop} {d d0 : Dev} {w : Nat}

/-! ## Walls -/

theorem wall_eq {x : WallSt} (h : d.planner.walls[w]? = some x) : d.wall w = x := by
  simp [Dev.wall, List.getD, h]

theorem walls_updW_same (d : Dev) (w : Nat) (f : WallSt → WallSt) :
    (d.updW w f).planner.walls[w]? = (d.planner.walls[w]?).map f := updAt_same _ _ _

theorem updW_planner {f : WallSt → WallSt} {q : PlannerSt} (h : d.planner = q) :
    (d.updW w f).planner = { q with walls := updAt q.walls w f } := by
  subst h
  rfl

theorem reg_updW (d : Dev) (w : Nat) (f : WallSt → WallSt) (o : Nat) : (d.updW w f).reg o = d.reg o := rfl

theorem Stable.updW (hK : Stable K P R) {f : WallSt → WallSt} (hp : P .planner) (h : K d) : K (d.updW w f) :=
  hK (.planner _ hp rfl rfl) h

theorem Stable.raiseW (hK : Stable K P R) {n : Nat} (hv : P .evReq) (h : K d) : K (d.raiseW w n) := hK.raise hv h

theorem Stable.bumpN (hK : Stable K P R) {o : Nat} (hr : R (.whole o)) (n : Nat) (h : K d) : K (d.bumpN o n) := by
  induction n generalizing d with
  | zero => exact h
  | succ n ih => exact ih (hK.bump hr h)

/-- The fields that a wall at work on a problem writes. -/
inductive WorkFld (w : Nat) : Fld → Prop where
  | phase : WorkFld w (SLV_PHASE w)
  | epoch : WorkFld w (SLV_WEPOCH w)
  | count {k : Nat} : k ≤ 8 → WorkFld w (.whole (wallCtr w k))

section
variable (hK : Stable K P R) (hW : ∀ d f, K d → K (d.updW w f)) (hv : P .evReq) (hr : ∀ f, WorkFld w f → R f)
include hK hW hv hr

theorem Stable.abandon {c : Nat} (h : K d) : K (d.abandon w c) :=
  hK.raiseW hv (hK.bump (hr _ (.count (by decide))) (hK.put (hr _ .phase) (hW _ _ h)))

theorem Stable.wallSat {b : Nat × Nat} (h : K d) : K (d.wallSat w b) :=
  hK.abandon hW hv hr (hK.raiseW hv (hK.bump (hr _ (.count (by decide))) (hW _ _ h)))

theorem Stable.takeFactor {f : Except Halt (List PcBlock × Nat × Nat)} (h : K d) : K (d.takeFactor w f) := by
  unfold Dev.takeFactor
  split
  · exact hK.wallSat hW hv hr h
  · exact h
  · exact foldl_invariant _ (fun _ _ _ k => hK.raiseW hv k)
      (hK.bumpN (hr _ (.count (by decide))) _ (hK.bumpN (hr _ (.count (by decide))) _ (hW _ _ h)))

theorem Stable.refactorNow (h : K d) : K (d.refactorNow w) := by
  unfold Dev.refactorNow
  dsimp only
  split
  · exact h
  · exact hK.takeFactor hW hv hr h

theorem Stable.startProblem {p : Problem} {a b : Bool} (h : K d) : K (d.startProblem w p a b) := by
  have h1 := fun f => hK.put (v := p.epoch) (hr _ .epoch) (hK.put (v := 2) (hr _ .phase) (hW _ f h))
  unfold Dev.startProblem
  dsimp only
  split
  · exact hK.wallSat hW hv hr (h1 _)
  · split
    · exact hK.wallSat hW hv hr (h1 _)
    · exact h1 _
    · exact hK.refactorNow hW hv hr (hW _ _ (h1 _))

end

/-! ## Roles -/

theorem Stable.errRec (hK : Stable K P R) {l c p a i ad de : Nat} (hv : P .evReq) (hr : ∀ o, 0xF018 ≤ o → R (.whole o)) (h : K d) :
    K (d.errRec l c p a i ad de) := by
  have hb : ∀ n k : Nat, R (.whole (0xF400 + 32 * n + k)) := fun n k => hr _ (by omega)
  unfold Dev.errRec
  exact hK.raise hv (hK (.setReg _ (hr _ le_rfl)) (hK (.setReg _ (hb _ _)) (hK (.setReg _ (hb _ _)) (hK (.setReg _ (hb _ _))
    (hK (.setReg _ (hb _ _)) (hK (.setReg _ (hb _ _)) (hK (.setReg _ (hb _ _)) (hK.put64 (hb _ 0) (hb _ _) h))))))))

/-- The fields in which a wall's role shows. -/
inductive RoleFld (w : Nat) : Fld → Prop where
  | role : RoleFld w (SLV_ROLE w)
  | phase : RoleFld w (SLV_PHASE w)
  | nosb : RoleFld w SLV_NOSB

theorem Stable.leaveRole (hK : Stable K P R) {own : Bool} (hW : ∀ d f, K d → K (d.updW w f)) (hv : P .evReq)
    (hr : ∀ f, RoleFld w f → R f) (he : own = true → ∀ o, 0xF018 ≤ o → R (.whole o)) (h : K d) : K (d.leaveRole w own) := by
  have h1 := fun f => hW _ f (hK.put (v := 0) (hr _ .phase) (hK.put (v := 0) (hr _ .role) h))
  unfold Dev.leaveRole
  refine hK.putB (hr _ .nosb) (hK.raiseW hv ?_)
  split
  next ho => exact hK.errRec hv (he ho) (h1 _)
  next => exact h1 _

theorem Stable.superseded (hK : Stable K P R) (hW : ∀ d f, K d → K (d.updW w f)) (hv : P .evReq)
    (hr : ∀ f, RoleFld w f → R f) (h : K d) : K (d.superseded w) := by
  unfold Dev.superseded
  split
  · exact hK.leaveRole hW hv hr (fun e => Bool.noConfusion e) h
  · exact h

/-! ## Commits -/

/-- The fields that accounting a commit writes. -/
inductive AccountFld : Fld → Prop where
  | misses : AccountFld (.whole 0x5430)
  | run : AccountFld SLV_MISSC
  | state : AccountFld SLV_PLSTATE
  | best : AccountFld (.whole 0x5434)

section
variable (hK : Stable K P R) (hp : P .planner) (hv : P .evReq) (hr : ∀ f, AccountFld f → R f)
include hK hp hv hr

theorem Stable.miss (h : K d) : K d.miss.1 := by
  have h1 := fun n => hK (.planner { Dev.planner ((d.bump 0x5430).put SLV_MISSC n) with exitRun := 0 } hp rfl rfl)
    (hK.put (v := n) (hr _ .run) (hK.bump (hr _ .misses) h))
  unfold Dev.miss
  dsimp only
  split
  · exact hK.raiseW hv (hK.put (hr _ .state) (h1 _))
  · exact h1 _

theorem Stable.noMiss (h : K d) : K d.noMiss := by
  have h1 := hK.put (v := 0) (hr _ .run) h
  unfold Dev.noMiss
  dsimp only
  split
  · split
    · exact hK.raiseW hv (hK.put (hr _ .state) (hK (.planner _ hp rfl rfl) h1))
    · exact hK (.planner _ hp rfl rfl) h1
  · exact h1

theorem Stable.strideMiss (h : K d) : K d.strideMiss.1 := by
  unfold Dev.strideMiss
  split
  · exact h
  · exact hK (.planner _ hp rfl rfl) (hK.miss hp hv hr h)

theorem Stable.strideGood (h : K d) : K d.strideGood := by
  unfold Dev.strideGood
  split
  · exact hK.put (hr _ .run) h
  · exact hK (.planner _ hp rfl rfl) (hK.noMiss hp hv hr h)

end

/-- A stride of a commit counts as a miss or as a good one; the answer says whether MISSC stands at STOP. -/
def Dev.strideCounted (d : Dev) (p : Plan) : Dev × Bool :=
  if p.kind = 2 then d.strideMiss else ((if p.kind = 1 then d.bump 0x5434 else d).strideGood, false)

def Dev.lastCommit (d : Dev) (p : Plan) : Dev := { d with planner := { d.planner with lastSeq := p.seq, lastToken := p.token } }

/-- The solution behind a solved plan is kept for later warm starts. -/
def Dev.keepSolution (d : Dev) (w : Nat) (p : Plan) : Dev :=
  match p.kind, (d.wall w).sol with
  | 2, _ => d
  | _, some s => { d with kiln := { d.kiln with sols := ({ s with seq := p.seq } :: d.kiln.sols).take 4 } }
  | _, none => d

/-- The record asks for the stop branch (STOPCMD), and the safety channels for SS1 the first time. -/
def Dev.stopCommit (d : Dev) (w : Nat) (p : Plan) (again : Bool) : Dev :=
  if again then d.updW w (fun x => { x with record := some { p with flags := p.flags + 2 } })
  else ((d.updW w (fun x => { x with record := some { p with flags := p.flags + 2 } })).raiseW w 15).requestSs1

/-- A record whose token is the authority's is accounted. -/
def Dev.accountRecord (d : Dev) (w : Nat) (p : Plan) : Dev :=
  let r := d.strideCounted p
  let m := (r.1.lastCommit p).keepSolution w p
  if r.2 then m.stopCommit w p (d.planner.counted == some true) else m

theorem account_unheld (h : (d.wall w).held = false) : d.account w = d := by
  unfold Dev.account
  split
  · rfl
  · rw [h]
    rfl

theorem account_held {p : Plan} (hp : (d.wall w).record = some p) (hh : (d.wall w).held = true) :
    d.account w = if p.token ≠ d.get SLV_AUTH then d.updW w (fun x => { x with held := false })
      else (d.updW w (fun x => { x with held := false })).accountRecord w p := by
  unfold Dev.account
  rw [hp]
  dsimp only
  rw [hh]
  rfl

section
variable (hK : Stable K P R) (hp : P .planner) (hv : P .evReq) (hk : P .kiln) (hs : P .safety) (hr : ∀ f, AccountFld f → R f)
include hK hp hv hr

theorem Stable.strideCounted {p : Plan} (h : K d) : K (d.strideCounted p).1 := by
  unfold Dev.strideCounted
  split
  · exact hK.strideMiss hp hv hr h
  · refine hK.strideGood hp hv hr ?_
    split
    · exact hK.bump (hr _ .best) h
    · exact h

omit hp hv hr in
include hk in
theorem Stable.keepSolution {p : Plan} (h : K d) : K (d.keepSolution w p) := by
  unfold Dev.keepSolution
  split
  · exact h
  · exact hK (.kiln _ hk) h
  · exact h

omit hr in
include hs in
theorem Stable.stopCommit {p : Plan} {b : Bool} (h : K d) : K (d.stopCommit w p b) := by
  unfold Dev.stopCommit
  split
  · exact hK.updW hp h
  · exact hK.requestSs1 hs (hK.raiseW hv (hK.updW hp h))

include hk hs

theorem Stable.accountRecord {p : Plan} (h : K d) : K (d.accountRecord w p) := by
  have h1 : K (((d.strideCounted p).1.lastCommit p).keepSolution w p) :=
    hK.keepSolution hk (hK (.planner _ hp rfl rfl) (hK.strideCounted hp hv hr h))
  unfold Dev.accountRecord
  dsimp only
  split
  · exact hK.stopCommit hp hv hs h1
  · exact h1

theorem Stable.account (h : K d) : K (d.account w) := by
  cases hh : (d.wall w).held with
  | false => rwa [account_unheld hh]
  | true =>
    cases hrec : (d.wall w).record with
    | none =>
      unfold Dev.account
      rwa [hrec]
    | some p =>
      rw [account_held hrec hh]
      split
      · exact hK.updW hp h
      · exact hK.accountRecord hp hv hk hs hr (hK.updW hp h)

omit hv hk hs hr in
theorem Stable.prepare (h : K d) : K (d.prepare w) := by
  unfold Dev.prepare
  split
  · exact h
  · exact hK.updW hp h

theorem Stable.commitBy (h : K d) : K (d.commitBy w) := hK.account hp hv hk hs hr (hK.prepare hp h)

end

/-! ## Authority -/

/-- The fields that a claim writes. -/
inductive ClaimFld (w : Nat) : Fld → Prop where
  | auth : ClaimFld w SLV_AUTH
  | role : ClaimFld w (SLV_ROLE w)
  | active : ClaimFld w SLV_ACTWALL
  | nosb : ClaimFld w SLV_NOSB
  | claims : ClaimFld w (.whole 0x5438)
  | window : ClaimFld w SLV_WINDOW
  | recov : ClaimFld w SLV_RECOV

/-- The standby has claimed, and the recovery window and the dual-act window are open. -/
def Dev.claimed (d : Dev) (w : Nat) (former : Option Nat) : Dev :=
  Dev.putB { ((d.claimToken w).bump 0x5438).openWindow former with
    planner := { (((d.claimToken w).bump 0x5438).openWindow former).planner with recov := some (w, 0) } } SLV_RECOV true

/-- What follows the three fields that name the new active wall. -/
def Dev.claimShown (d : Dev) (w t : Nat) (former : Option Nat) : Dev :=
  let m := (((d.updW w (fun x => { x with token := t, portClosed := false })).raiseW w 13).showNosb.bump 0x5438).openWindow former
  Dev.putB { m with planner := { m.planner with recov := some (w, 0) } } SLV_RECOV true

theorem claimed_eq (d : Dev) (w : Nat) (former : Option Nat) : d.claimed w former =
    (((d.put SLV_AUTH ((d.get SLV_AUTH + 1) % 65536)).put (SLV_ROLE w) 1).put SLV_ACTWALL w).claimShown w
      ((d.get SLV_AUTH + 1) % 65536) former := rfl

theorem Stable.claimShown (hK : Stable K P R) {t : Nat} {former : Option Nat} (hpl : ∀ d x, K d → K { d with planner := x })
    (hv : P .evReq) (hn : R SLV_NOSB) (hc : R (.whole 0x5438)) (hw : R SLV_WINDOW) (hr : R SLV_RECOV) (h : K d) :
    K (d.claimShown w t former) :=
  hK.putB hr (hpl _ _ (hK.putB hw (hpl _ _ (hK.bump hc (hK.putB hn (hK.raiseW hv (hpl _ _ h)))))))

theorem claimShown_planner (d : Dev) (w t : Nat) (former : Option Nat) :
    (d.claimShown w t former).planner.recov = some (w, 0) ∧ (d.claimShown w t former).planner.window = some (d.now, former) := by
  unfold Dev.claimShown Dev.openWindow Dev.showNosb
  simp only [putB_planner, Dev.now, bump_time, putB_time]
  exact ⟨trivial, rfl⟩

/-- What names the new active wall once it has claimed. -/
def takeoverFields (w : Nat) : List Fld := [SLV_ROLE w, SLV_ACTWALL, SLV_AUTH, SLV_WINDOW, SLV_RECOV]

/-- A warm standby that has claimed begins the problem of the stride that starts at `s`, once it has its blocks. -/
def Dev.beginClaimed (d : Dev) (w s : Nat) (warm : Bool) : Dev :=
  if !warm || (d.wall w).ran then d
  else match (d.wall w).problem with
    | some p => if p.s == s then d.startProblem w p true (decide (s = d.s) && decide (d.s + 70000 ≤ d.now)) else d
    | none => d.updW w (fun x => { x with claimed := true })

theorem takeOver_cases (d : Dev) (w : Nat) (former : Option Nat) : ∃ s warm,
    d.takeOver w former = (d.claimed w former).beginClaimed w s warm ∨
    d.takeOver w former = ((d.claimed w former).commitBy w).beginClaimed w s warm := by
  have h : d.takeOver w former =
      (if (d.claimed w former).planner.phase = 0 then (d.claimed w former).beginClaimed w (d.claimed w former).s (d.role w == 3)
       else if (d.claimed w former).planner.phase = 2 ∧
           !((d.claimed w former).planner.servo.accepted && (d.claimed w former).planner.chanA.accepted) then
         ((d.claimed w former).commitBy w).beginClaimed w ((d.claimed w former).s + (d.claimed w former).ts) (d.role w == 3)
       else (d.claimed w former).beginClaimed w ((d.claimed w former).s + (d.claimed w former).ts) (d.role w == 3)) := rfl
  rw [h]
  split
  · exact ⟨_, _, .inl rfl⟩
  · split
    · exact ⟨_, _, .inr rfl⟩
    · exact ⟨_, _, .inl rfl⟩

theorem Stable.beginClaimed (hK : Stable K P R) {s : Nat} {warm : Bool} (hp : P .planner) (hv : P .evReq)
    (hr : ∀ f, WorkFld w f → R f) (h : K d) : K (d.beginClaimed w s warm) := by
  unfold Dev.beginClaimed
  split
  · exact h
  · split
    · split
      · exact hK.startProblem (fun _ _ => hK.updW hp) hv hr h
      · exact h
    · exact hK.updW hp h

/-- What a claim leaves stays so until the new active wall has taken over. -/
theorem Stable.takeOver (hK : Stable K P R) {former : Option Nat} (hp : P .planner) (hv : P .evReq) (hk : P .kiln) (hs : P .safety)
    (ha : ∀ f, AccountFld f → R f) (hr : ∀ f, WorkFld w f → R f) (h : K (d.claimed w former)) : K (d.takeOver w former) := by
  obtain ⟨s, warm, e | e⟩ := takeOver_cases d w former
  · rw [e]
    exact hK.beginClaimed hp hv hr h
  · rw [e]
    exact hK.beginClaimed hp hv hr (hK.commitBy hp hv hk hs ha h)

/-! ## The count of misses (R118) -/

theorem missc_put (d : Dev) {n : Nat} (h : n ≤ 255) : (d.put SLV_MISSC n).get SLV_MISSC = n := by
  rw [get_put_same _ _ _ ⟨by decide, by decide⟩]
  exact Nat.mod_eq_of_lt (Nat.lt_succ_of_le h)

theorem missc_put_state (d : Dev) (n : Nat) : (d.put SLV_PLSTATE n).get SLV_MISSC = d.get SLV_MISSC :=
  get_put_apart _ _ _ _ ⟨by decide, by decide⟩ ⟨by decide, by decide⟩ (Or.inr (by decide))

theorem miss_missc (d : Dev) : d.miss.1.get SLV_MISSC = min 255 (d.get SLV_MISSC + 1) := by
  have h := missc_put (d.bump 0x5430) (Nat.min_le_left 255 (d.get SLV_MISSC + 1))
  unfold Dev.miss
  dsimp only
  split
  · exact (missc_put_state _ 2).trans h
  · exact h

theorem noMiss_missc (d : Dev) : d.noMiss.get SLV_MISSC = 0 := by
  have h := missc_put d (Nat.zero_le 255)
  unfold Dev.noMiss
  dsimp only
  split
  · split
    · exact (missc_put_state _ 1).trans h
    · exact h
  · exact h

theorem strideMiss_missc (h : d.planner.counted ≠ some true) : d.strideMiss.1.get SLV_MISSC = min 255 (d.get SLV_MISSC + 1) := by
  unfold Dev.strideMiss
  rw [if_neg h]
  exact miss_missc d

theorem strideGood_missc (d : Dev) : d.strideGood.get SLV_MISSC = 0 := by
  unfold Dev.strideGood
  split
  · exact missc_put d (Nat.zero_le 255)
  · exact noMiss_missc d

theorem strideCounted_missc (d : Dev) (p : Plan) :
    (p.kind = 2 → d.planner.counted ≠ some true → (d.strideCounted p).1.get SLV_MISSC = min 255 (d.get SLV_MISSC + 1)) ∧
    (p.kind ≠ 2 → (d.strideCounted p).1.get SLV_MISSC = 0) := by
  unfold Dev.strideCounted
  refine ⟨fun hk hc => ?_, fun hk => ?_⟩
  · rw [if_pos hk]
    exact strideMiss_missc hc
  · rw [if_neg hk]
    exact strideGood_missc _

/-! ## What accounting leaves of the planner -/

/-- The planner of `d'` differs from that of `d` in the run of strides and the count of the stride alone. -/
def Dev.countsOnly (d d' : Dev) : Prop := ∃ e c, d'.planner = { d.planner with exitRun := e, counted := c }

theorem miss_countsOnly (d : Dev) : d.countsOnly d.miss.1 := by
  unfold Dev.miss
  dsimp only
  split
  · exact ⟨0, d.planner.counted, rfl⟩
  · exact ⟨0, d.planner.counted, rfl⟩

theorem noMiss_countsOnly (d : Dev) : d.countsOnly d.noMiss := by
  unfold Dev.noMiss
  dsimp only
  split
  · split
    · exact ⟨0, d.planner.counted, rfl⟩
    · exact ⟨_, d.planner.counted, rfl⟩
  · exact ⟨d.planner.exitRun, d.planner.counted, rfl⟩

theorem strideMiss_countsOnly (d : Dev) : d.countsOnly d.strideMiss.1 := by
  unfold Dev.strideMiss
  split
  · exact ⟨d.planner.exitRun, d.planner.counted, rfl⟩
  · obtain ⟨e, c, h⟩ := miss_countsOnly d
    exact ⟨e, some true, by dsimp only; rw [h]⟩

theorem strideGood_countsOnly (d : Dev) : d.countsOnly d.strideGood := by
  unfold Dev.strideGood
  split
  · exact ⟨d.planner.exitRun, d.planner.counted, rfl⟩
  · obtain ⟨e, c, h⟩ := noMiss_countsOnly d
    exact ⟨e, some false, by dsimp only; rw [h]⟩

theorem strideCounted_countsOnly (d : Dev) (p : Plan) : d.countsOnly (d.strideCounted p).1 := by
  unfold Dev.strideCounted
  split
  · exact strideMiss_countsOnly d
  · dsimp only
    split
    · exact strideGood_countsOnly (d.bump 0x5434)
    · exact strideGood_countsOnly d

theorem keepSolution_planner (d : Dev) (w : Nat) (p : Plan) : (d.keepSolution w p).planner = d.planner := by
  unfold Dev.keepSolution
  split <;> rfl

theorem keepSolution_reg (d : Dev) (w : Nat) (p : Plan) (o : Nat) : (d.keepSolution w p).reg o = d.reg o := by
  unfold Dev.keepSolution
  split <;> rfl

/-- A wall holds a record of a commit. -/
def WallSt.committed (x : WallSt) (seq token wall : Nat) : Prop :=
  ∃ r, x.record = some r ∧ r.seq = seq ∧ r.token = token ∧ r.wall = wall

theorem accountRecord_effect {p : Plan} {x : WallSt} (hx : d.planner.walls[w]? = some x) (hrec : x.record = some p)
    (hh : x.held = false) :
    (∃ x', (d.accountRecord w p).planner.walls[w]? = some x' ∧ x'.committed p.seq p.token p.wall ∧ x'.held = false) ∧
    (∃ ws e c, (d.accountRecord w p).planner =
      { d.planner with walls := ws, exitRun := e, counted := c, lastSeq := p.seq, lastToken := p.token }) ∧
    (d.accountRecord w p).get SLV_MISSC = (d.strideCounted p).1.get SLV_MISSC := by
  obtain ⟨e, c, hpl⟩ := strideCounted_countsOnly d p
  set m := ((d.strideCounted p).1.lastCommit p).keepSolution w p with hm
  have hmp : m.planner = { d.planner with exitRun := e, counted := c, lastSeq := p.seq, lastToken := p.token } := by
    rw [hm, keepSolution_planner, Dev.lastCommit, hpl]
  have hsp : ∀ f, (m.updW w f).planner = { d.planner with
      walls := updAt d.planner.walls w f, exitRun := e, counted := c, lastSeq := p.seq, lastToken := p.token } :=
    fun _ => updW_planner hmp
  have hmx : m.planner.walls[w]? = some x := by rw [hmp]; exact hx
  have hmc : m.get SLV_MISSC = (d.strideCounted p).1.get SLV_MISSC := by
    rw [get_eq, hm, keepSolution_reg]
    rfl
  have hstop := walls_updW_same m w (fun x => { x with record := some { p with flags := p.flags + 2 } })
  rw [hmx] at hstop
  unfold Dev.accountRecord
  dsimp only
  rw [← hm]
  split
  · unfold Dev.stopCommit
    split
    · exact ⟨⟨_, hstop, ⟨_, rfl, rfl, rfl, rfl⟩, hh⟩, ⟨_, e, c, hsp _⟩, hmc⟩
    · exact ⟨⟨_, hstop, ⟨_, rfl, rfl, rfl, rfl⟩, hh⟩, ⟨_, e, c, hsp _⟩, hmc⟩
  · exact ⟨⟨x, hmx, ⟨p, hrec, rfl, rfl, rfl⟩, hh⟩, ⟨_, e, c, hmp⟩, hmc⟩

end Sys2Proof.Machine
end

section
/-! PROOFS. The deadline, the commit point, the hand-over of a record and the commit watch (R24, R113 to R118, R123 to R127, R134,
R136, R137). -/

namespace Sys2Proof.Machine

variable {K : Dev → Prop} {P : Part → Prop} {R : Fld → Prop} {d d0 : Dev} {w : Nat}

/-- The device as a command finds it, with nothing put on the interfaces yet. -/
def State.begun (s : State) : Dev := { s.dev with out := [] }

def Dev.atTime (d : Dev) (x : TimeSt) : Dev := { d with time := x }

theorem reach_at (d : Dev) (t : Nat) : ∃ x, d.reach t = d.atTime x ∧ x = { d.time with now := max d.now t, frac := x.frac } := reach_eq d t

/-! ## SOLVE_DEADLINE -/

/-- What leaves cell time alone, whatever else it changes. -/
def Dev.sameTime (d d' : Dev) : Prop := d.keeps d' (· ≠ .time) (fun _ => True)

theorem stable_sameTime (d0 : Dev) : Stable d0.sameTime (· ≠ .time) (fun _ => True) := stable_keeps d0 _ _

theorem planStop_sameTime (h : d0.sameTime d) : d0.sameTime d.planStop :=
  have hK := stable_sameTime d0
  hK.raiseW (by decide) (hK.requestSs1 (by decide) (hK.stopRequest (by decide) (by decide) (by decide) h))

theorem claimed_sameTime {former : Option Nat} (h : d0.sameTime d) : d0.sameTime (d.claimed w former) := by
  have hK := stable_sameTime d0
  have hclaim : d0.sameTime (d.claimToken w) :=
    hK.putB trivial (hK.raiseW (by decide) (hK.updW (by decide) (hK.put trivial (hK.put trivial (hK.put trivial h)))))
  exact hK.putB trivial (keeps_planner (by decide) (hK.putB trivial (keeps_planner (by decide) (hK.bump trivial hclaim))))

theorem takeOver_sameTime {former : Option Nat} (h : d0.sameTime d) : d0.sameTime (d.takeOver w former) :=
  (stable_sameTime d0).takeOver (by decide) (by decide) (by decide) (by decide) (fun _ _ => trivial) (fun _ _ => trivial)
    (claimed_sameTime h)

theorem giveUp_sameTime (h : d0.sameTime d) : d0.sameTime (d.giveUp w) := by
  have hK := stable_sameTime d0
  have hleave : d0.sameTime (d.leaveRole w true) :=
    hK.leaveRole (fun _ _ => hK.updW (by decide)) (by decide) (fun _ _ => trivial) (fun _ _ _ => trivial) h
  unfold Dev.giveUp
  split
  · exact h
  · dsimp only
    split
    · exact hleave
    · split
      · exact planStop_sameTime hleave
      · split
        · exact takeOver_sameTime hleave
        · exact planStop_sameTime hleave

theorem deadlineOf_sameTime (h : d0.sameTime d) : d0.sameTime (d.deadlineOf w) := by
  have hK := stable_sameTime d0
  unfold Dev.deadlineOf
  split
  · exact h
  · dsimp only
    split
    · exact hK.updW (by decide) h
    · split
      · exact giveUp_sameTime (hK.updW (by decide) h)
      · exact hK.updW (by decide) h

/-- The walls have ended the stride's solving: the phase is that after the deadline, the Kiln's last problem is taken, and cell time
stands at `x`. -/
def Dev.solvingEnded (x : TimeSt) (d : Dev) : Prop := d.planner.phase = 1 ∧ d.kiln.last = none ∧ d.time = x

theorem stable_solvingEnded (x : TimeSt) :
    Stable (Dev.solvingEnded x) (fun p => p ≠ .time ∧ p ≠ .planner ∧ p ≠ .kiln) (fun _ => True) := by
  intro d d' h ⟨hphase, hlast, htime⟩
  have hpl : d'.planner = d.planner := upd_same (p := .planner) (by simp) h
  have hkn : d'.kiln = d.kiln := upd_same (p := .kiln) (by simp) h
  have htm : d'.time = d.time := upd_same (p := .time) (by simp) h
  exact ⟨by rw [hpl, hphase], by rw [hkn, hlast], htm.trans htime⟩

theorem mapNext_solvingEnded {x : TimeSt} (h : d.solvingEnded x) : d.mapNext.solvingEnded x := by
  have hmap : ∀ m, (d.mapWarm m).solvingEnded x := fun m => by
    unfold Dev.mapWarm
    split
    · exact h
    · dsimp only
      split
      · exact h
      · exact h
  unfold Dev.mapNext
  split
  · split
    · exact h
    · exact foldl_invariant (K := Dev.solvingEnded x) _ (fun _ _ _ k => k) (hmap _)
  · exact h

theorem nextProblem_solvingEnded {x : TimeSt} (h : d.solvingEnded x) : (d.nextProblem w).solvingEnded x := by
  unfold Dev.nextProblem
  split
  · exact h
  · dsimp only
    split
    · exact h
    · split
      · exact (stable_solvingEnded x).startProblem (fun _ _ k => k) (by decide) (fun _ _ => trivial) h
      · exact h

/-- The deadlines of both walls, after an incomplete rebuild is reported. -/
def Dev.deadlines (d : Dev) : Dev :=
  let fin := d.finalProblem
  let m := if !fin.2.1 && fin.2.2 then (d.putB (KLN_TRUNC 4) true).raise (srcNo 2 5) noDetail else d
  [0, 1].foldl (fun (d : Dev) w => d.deadlineOf w) m

/-- After the deadlines the Kiln and the walls go on to the next stride's problem. -/
def Dev.endSolving (d : Dev) : Dev :=
  [0, 1].foldl (fun (d : Dev) w => d.nextProblem w)
    (Dev.mapNext { d with planner := { d.planner with phase := 1 }, kiln := { d.kiln with last := none } })

theorem deadlines_sameTime (h : d0.sameTime d) : d0.sameTime d.deadlines := by
  have hK := stable_sameTime d0
  refine foldl_invariant _ (fun _ _ _ => deadlineOf_sameTime) ?_
  split
  · exact hK.raise (by decide) (hK.putB trivial h)
  · exact h

theorem endSolving_solvingEnded (d : Dev) : d.endSolving.solvingEnded d.time :=
  foldl_invariant _ (fun _ _ _ => nextProblem_solvingEnded) (mapNext_solvingEnded ⟨rfl, rfl, rfl⟩)

theorem solveDeadline_effect {s : State} (hu : s.dev.up = true) (hp : s.dev.plState ≠ 0) : Completes .solveDeadline s (fun d =>
    d.planner.phase = 1 ∧ d.kiln.last = none ∧ d.now = max s.dev.now (s.dev.s + s.dev.ts - s.dev.leadD)) := by
  obtain ⟨x, hx, hnow⟩ := reach_at s.begun (s.dev.s + s.dev.ts - s.dev.leadD)
  refine completes_unless (c := !s.dev.up || s.dev.plState == 0)
    (b := (Dev.deadlines (s.begun.reach (s.dev.s + s.dev.ts - s.dev.leadD))).endSolving) rfl
    (by rw [hu, beq_false_of_ne hp]; rfl) ?_
  rw [hx]
  obtain ⟨hphase, hlast, htime⟩ := endSolving_solvingEnded (s.begun.atTime x).deadlines
  have hkept := (deadlines_sameTime (keeps_refl (s.begun.atTime x) _ _)).1 .time (by simp)
  exact ⟨hphase, hlast, (congrArg TimeSt.now (htime.trans hkept)).trans (congrArg TimeSt.now hnow)⟩

/-! ## COMMIT_POINT -/

/-- The solve records are out: the walls hold none that the device before did not hold, and nothing of their roles has changed. -/
structure Dev.RecordsOut (d e : Dev) : Prop where
  kept : d.keeps e (· ∈ [.planner, .evReq, .host]) (· ∈ [0x5300, 0x5380])
  roles : ∀ v, e.get (SLV_ROLE v) = d.get (SLV_ROLE v)
  walls : ∃ ws : List WallSt, e.planner = { d.planner with walls := ws } ∧
    ∀ (w : Nat) (x : WallSt), d.planner.walls[w]? = some x → ∃ b, ws[w]? = some { x with solveRec := b }

theorem recordsOut_refl (d : Dev) : d.RecordsOut d :=
  ⟨keeps_refl d _ _, fun _ => rfl, _, rfl, fun _ x h => ⟨x.solveRec, h⟩⟩

theorem SLV_LASTOUT_apart_role (v w : Nat) : (SLV_LASTOUT w).apart (SLV_ROLE v) :=
  fun _ => ⟨⟨by show 8 ≤ 10; decide, by show 10 < 32; decide⟩, Or.inl (by show 1 < 8; decide)⟩

theorem SLV_ROLE_ok (w : Nat) : (SLV_ROLE w).ok := ⟨by show 0 ≤ 1; decide, by show 1 < 32; decide⟩

theorem recordsOut_write {e : Dev} (h : d.RecordsOut e) {w : Nat} (hw : w < 2) (v n : Nat) :
    d.RecordsOut (((e.put (SLV_LASTOUT w) v).raiseW w n).updW w (fun x => { x with solveRec := none })) := by
  have hoff : (SLV_LASTOUT w).off ∈ [0x5300, 0x5380] := by
    simp only [SLV_LASTOUT, List.mem_cons, List.not_mem_nil]
    omega
  obtain ⟨ws, hpl, hws⟩ := h.walls
  refine ⟨keeps_planner (by decide) (keeps_raise (by decide) (keeps_put hoff h.kept)), fun u => ?_,
    updAt ws w (fun x => { x with solveRec := none }), updW_planner (d := (e.put (SLV_LASTOUT w) v).raiseW w n) hpl, fun u x hx => ?_⟩
  · have hK := stable_get (SLV_ROLE u) (d.get (SLV_ROLE u)) (SLV_ROLE_ok u) (fun _ => True)
    exact hK.updW trivial (hK.raiseW trivial (hK.put (SLV_LASTOUT_apart_role u w) (h.roles u)))
  · obtain ⟨b, hb⟩ := hws u x hx
    by_cases huw : u = w
    · subst huw
      exact ⟨none, by rw [updAt_same, hb]; rfl⟩
    · exact ⟨b, by rw [updAt_ne _ _ _ _ huw, hb]⟩

theorem recordsOut_offer {e : Dev} (h : d.RecordsOut e) (n t : Nat) (parts : List (Nat × List Byte)) : d.RecordsOut (e.offer n t parts) :=
  ⟨keeps_host (by decide) h.kept, h.roles, h.walls⟩

theorem writeSolveRecords_out (d : Dev) : d.RecordsOut d.writeSolveRecords := by
  unfold Dev.writeSolveRecords
  have hfold := foldl_invariant (K := d.RecordsOut) (f := fun (d : Dev) (r : Nat × List Byte) =>
      ((d.put (SLV_LASTOUT r.1) (uAt r.2 0x0B 1)).raiseW r.1 0).updW r.1 (fun x => { x with solveRec := none }))
    ([0, 1].filterMap (fun w => ((d.wall w).solveRec).map (fun b => (w, b)))) (fun e r hr k => by
      obtain ⟨w, hw, hwr⟩ := List.mem_filterMap.1 hr
      obtain ⟨b, -, rfl⟩ := Option.map_eq_some_iff.1 hwr
      exact recordsOut_write k (by simp at hw; omega) _ _) (recordsOut_refl d)
  dsimp only
  split
  · exact hfold
  · exact recordsOut_offer hfold _ _ _

/-- The receivers have accepted nothing of the commit that begins, and the solve records are out. -/
def Dev.openCommit (d : Dev) : Dev :=
  Dev.writeSolveRecords { d with planner := { d.planner with
    servo := { d.planner.servo with accepted := false }, chanA := { d.planner.chanA with accepted := false } } }

theorem openCommit_effect (d : Dev) :
    d.keeps d.openCommit (· ∈ [.planner, .evReq, .host]) (· ∈ [0x5300, 0x5380]) ∧
    (∀ v, d.openCommit.get (SLV_ROLE v) = d.get (SLV_ROLE v)) ∧
    ∃ ws : List WallSt, d.openCommit.planner = { d.planner with
        servo := { d.planner.servo with accepted := false }, chanA := { d.planner.chanA with accepted := false }, walls := ws } ∧
      ∀ (w : Nat) (x : WallSt), d.planner.walls[w]? = some x → ∃ b, ws[w]? = some { x with solveRec := b } := by
  obtain ⟨hkept, hroles, hwalls⟩ := writeSolveRecords_out { d with planner := { d.planner with
    servo := { d.planner.servo with accepted := false }, chanA := { d.planner.chanA with accepted := false } } }
  refine ⟨⟨fun p hp => same_trans ?_ (hkept.1 p hp), hkept.2⟩, hroles, hwalls⟩
  exact (keeps_planner (P := (· ∈ [.planner, .evReq, .host])) (by decide) (keeps_refl d _ (fun _ => False))).1 p hp

theorem active_congr {d e : Dev} (ha : e.get SLV_ACTWALL = d.get SLV_ACTWALL) (hr : ∀ v, e.role v = d.role v) : e.active? = d.active? := by
  unfold Dev.active?
  rw [ha]
  dsimp only
  rw [hr]

/-- The commit-point checks of the walls, and the commit of the active wall. -/
def Dev.commitWalls (d : Dev) (badA badB silent : Bool) : Dev :=
  let a := d.active?
  let bad := fun (w : Nat) => if w = 0 then badA else badB
  let others := [0, 1].filter (fun w => a != some w)
  let d := others.foldl (fun (d : Dev) w => d.commitChecks w (bad w)) d
  let d : Dev := { d with planner := { d.planner with phase := 2 } }
  match a with
  | none => d
  | some w =>
    let d := d.commitChecks w (bad w)
    if d.active? != some w then d
    else if silent then d.prepare w
    else d.commitBy w

theorem commitChecks_none {b : Bool} (h : d.role w = 0) : d.commitChecks w b = d := if_pos h

theorem commitChecks_healthy (hr : d.role w = 1) (ht : (d.wall w).token = d.get SLV_AUTH) (hc : d.chkWorks 10 = true) :
    d.commitChecks w false = d := by
  unfold Dev.commitChecks
  rw [hr, ht, hc]
  simp

theorem active_role (h : d.active? = some w) : d.get SLV_ACTWALL = w ∧ d.role w = 1 := by
  unfold Dev.active? at h
  dsimp only at h
  split at h
  next hr => exact ⟨Option.some.inj h, Option.some.inj h ▸ hr⟩
  next => cases h

theorem other_walls (w : Fin 2) : [0, 1].filter (fun v => some w.val != some v) = [1 - w.val] := by
  fin_cases w <;> rfl

theorem commitWalls_healthy {w : Fin 2} {silent : Bool} (ha : d.active? = some w.val) (h0 : d.role (1 - w) = 0)
    (ht : (d.wall w).token = d.get SLV_AUTH) (hc : d.chkWorks 10 = true) : d.commitWalls false false silent =
      if silent then Dev.prepare { d with planner := { d.planner with phase := 2 } } w
      else Dev.commitBy { d with planner := { d.planner with phase := 2 } } w := by
  have hok : Dev.commitChecks { d with planner := { d.planner with phase := 2 } } w false = { d with planner := { d.planner with phase := 2 } } :=
    commitChecks_healthy (active_role ha).2 ht hc
  have ha' : Dev.active? { d with planner := { d.planner with phase := 2 } } = some w.val := ha
  unfold Dev.commitWalls
  simp only [ha, other_walls, List.foldl_cons, List.foldl_nil, ite_self, commitChecks_none h0, hok, ha', bne_self_eq_false,
    Bool.false_eq_true, if_false]

theorem prepare_eq {inf : Plan} (h : d.planner.servo.inForce = some inf) : d.prepare w = d.updW w (fun x =>
    { x with record := some (d.makeRecord w inf), held := true, rejCounted := false, staleCounted := false }) := by
  unfold Dev.prepare
  rw [h]

theorem makeRecord_kind_shifted {inf : Plan} (h : (d.wall w).cand = none) : (d.makeRecord w inf).kind = 2 := by
  unfold Dev.makeRecord
  rw [h]
  rfl

theorem makeRecord_kind_solved {inf p : Plan} {k : Nat} (h : (d.wall w).cand = some (k, some p)) :
    (d.makeRecord w inf).kind = p.kind := by
  unfold Dev.makeRecord
  rw [h]

/-- The commit of a wall whose token is the authority's (R118, R124): its record stands, and the stride is counted by the record's kind. -/
theorem commitBy_effect {x : WallSt} {inf : Plan} (hx : d.planner.walls[w]? = some x) (hi : d.planner.servo.inForce = some inf)
    (ht : x.token = d.get SLV_AUTH) :
    (∃ x', (d.commitBy w).planner.walls[w]? = some x' ∧ x'.committed d.nextSeq x.token w ∧ x'.held = false) ∧
    (∃ ws e c t, (d.commitBy w).planner =
      { d.planner with walls := ws, exitRun := e, counted := c, lastSeq := d.nextSeq, lastToken := t }) ∧
    ((d.makeRecord w inf).kind = 2 → d.planner.counted ≠ some true →
      (d.commitBy w).get SLV_MISSC = min 255 (d.get SLV_MISSC + 1)) ∧
    ((d.makeRecord w inf).kind ≠ 2 → (d.commitBy w).get SLV_MISSC = 0) := by
  have hwall := wall_eq hx
  have htok : (d.makeRecord w inf).token = x.token := congrArg WallSt.token hwall
  have hrec := walls_updW_same d w (fun x =>
    { x with record := some (d.makeRecord w inf), held := true, rejCounted := false, staleCounted := false })
  rw [hx] at hrec
  have hfree := walls_updW_same (d.prepare w) w (fun x => { x with held := false })
  rw [prepare_eq hi, hrec] at hfree
  have hcommit : d.commitBy w = ((d.prepare w).updW w (fun x => { x with held := false })).accountRecord w (d.makeRecord w inf) := by
    rw [Dev.commitBy, prepare_eq hi, account_held (p := d.makeRecord w inf)]
    · exact if_neg (not_not.2 (htok.trans ht))
    · rw [wall_eq hrec]
    · rw [wall_eq hrec]
  rw [prepare_eq hi] at hcommit
  obtain ⟨⟨x', hx', hcom, hheld⟩, ⟨ws, e, c, hpl⟩, hmissc⟩ := accountRecord_effect hfree rfl rfl
  obtain ⟨hmiss, hgood⟩ := strideCounted_missc (((d.updW w (fun x =>
    { x with record := some (d.makeRecord w inf), held := true, rejCounted := false, staleCounted := false })).updW w
      (fun x => { x with held := false }))) (d.makeRecord w inf)
  rw [hcommit]
  rw [htok] at hcom
  exact ⟨⟨x', hx', hcom, hheld⟩, ⟨ws, e, c, _, hpl⟩, fun hk hc => hmissc.trans (hmiss hk hc), fun hk => hmissc.trans (hgood hk)⟩

theorem commitPoint_effect {s : State} {w : Fin 2} {x : WallSt} {inf : Plan} {silent : Bool} (hu : s.dev.up = true) (hp : s.dev.plState ≠ 0)
    (hx : s.dev.planner.walls[w.val]? = some x) (ha : s.dev.active? = some w.val) (h0 : s.dev.role (1 - w.val) = 0)
    (ht : x.token = s.dev.get SLV_AUTH) (hc : s.dev.chkWorks 10 = true) (hi : s.dev.planner.servo.inForce = some inf) :
    Completes (.commitPoint false false silent) s (fun d =>
      d.planner.phase = 2 ∧ d.planner.servo.accepted = false ∧ d.planner.chanA.accepted = false ∧
      d.now = max s.dev.now (s.dev.s + s.dev.ts - s.dev.leadC) ∧
      (∃ x' r, d.planner.walls[w.val]? = some x' ∧ x'.record = some r ∧ x'.held = silent ∧
        r.seq = (s.dev.planner.lastSeq + 1) % 2 ^ 32 ∧ r.token = x.token ∧ r.wall = w.val) ∧
      d.planner.lastSeq = (if silent then s.dev.planner.lastSeq else (s.dev.planner.lastSeq + 1) % 2 ^ 32) ∧
      (silent = false → x.cand = none → s.dev.planner.counted ≠ some true → d.get SLV_MISSC = min 255 (s.dev.get SLV_MISSC + 1)) ∧
      (silent = false → ∀ k p, x.cand = some (k, some p) → p.kind ≠ 2 → d.get SLV_MISSC = 0)) := by
  obtain ⟨t, hreach, hnow⟩ := reach_at s.begun (s.dev.s + s.dev.ts - s.dev.leadC)
  refine completes_unless (c := !s.dev.up || s.dev.plState == 0)
    (b := (Dev.openCommit (s.begun.reach (s.dev.s + s.dev.ts - s.dev.leadC))).commitWalls false false silent) rfl
    (by rw [hu, beq_false_of_ne hp]; rfl) ?_
  rw [hreach]
  obtain ⟨hkept, hroles, ws, hpl, hws⟩ := openCommit_effect (s.begun.atTime t)
  set e := (s.begun.atTime t).openCommit
  obtain ⟨b, hb⟩ := hws w x hx
  have hget : ∀ f : Fld, f.off ∉ [0x5300, 0x5380] → e.get f = s.dev.get f := fun f hf => by
    have h := keeps_get hkept hf
    exact h
  have hactive : e.active? = some w.val := (active_congr (hget _ (by decide)) hroles).trans ha
  have hxe : e.planner.walls[w.val]? = some { x with solveRec := b } := by rw [hpl]; exact hb
  have hte : x.token = e.get SLV_AUTH := ht.trans (hget _ (by decide)).symm
  have hce : e.chkWorks 10 = true := by
    have h := keeps_is (f := CHK_FAILC 10) hkept (by decide)
    exact (congrArg (!·) h).trans hc
  have hie : e.planner.servo.inForce = some inf := by rw [hpl]; exact hi
  have hle : e.nextSeq = (s.dev.planner.lastSeq + 1) % 2 ^ 32 := by rw [Dev.nextSeq, hpl]; rfl
  have hnow' : e.now = max s.dev.now (s.dev.s + s.dev.ts - s.dev.leadC) :=
    (congrArg TimeSt.now (hkept.1 .time (by decide))).trans (congrArg TimeSt.now hnow)
  rw [commitWalls_healthy hactive ((hroles _).trans h0) (by rw [wall_eq hxe]; exact hte) hce]
  set m : Dev := { e with planner := { e.planner with phase := 2 } }
  have hxm : m.planner.walls[w.val]? = some { x with solveRec := b } := hxe
  have him : m.planner.servo.inForce = some inf := hie
  have hmiss : m.get SLV_MISSC = s.dev.get SLV_MISSC := hget _ (by decide)
  have htokm : (m.wall w).token = x.token := by rw [wall_eq hxm]
  have hservo : e.planner.servo.accepted = false := by rw [hpl]
  have hchanA : e.planner.chanA.accepted = false := by rw [hpl]
  cases silent with
  | true =>
    have hrec := walls_updW_same m w (fun x =>
      { x with record := some (m.makeRecord w inf), held := true, rejCounted := false, staleCounted := false })
    rw [if_pos rfl, prepare_eq him]
    rw [hxm] at hrec
    refine ⟨rfl, hservo, hchanA, hnow', ⟨_, _, hrec, rfl, rfl, hle, htokm, rfl⟩, ?_,
      fun h => Bool.noConfusion h, fun h => Bool.noConfusion h⟩
    show e.planner.lastSeq = s.dev.planner.lastSeq
    rw [hpl]
    rfl
  | false =>
    obtain ⟨⟨x', hx', ⟨r, hr, hseq, htok, hwall⟩, hheld⟩, ⟨ws', c, n, k, hpl'⟩, hshift, hgood⟩ := commitBy_effect hxm him hte
    have htime := (stable_sameTime m).commitBy (w := w) (by decide) (by decide) (by decide) (by decide) (fun _ _ => trivial) (keeps_refl m _ _)
    rw [if_neg Bool.false_ne_true]
    refine ⟨by rw [hpl'], by rw [hpl']; exact hservo, by rw [hpl']; exact hchanA,
      (congrArg TimeSt.now (htime.1 .time (by simp))).trans hnow', ⟨x', r, hx', hr, hheld, hseq.trans hle, htok, hwall⟩,
      by rw [hpl']; exact hle, fun _ hcand hcount => ?_, fun _ k p hcand hkind => ?_⟩
    · rw [hshift (makeRecord_kind_shifted (by rw [wall_eq hxm]; exact hcand)) (by show e.planner.counted ≠ _; rw [hpl]; exact hcount),
        hmiss]
    · exact hgood (by rw [makeRecord_kind_solved (by rw [wall_eq hxm]; exact hcand)]; exact hkind)

/-! ## COMMIT_RECORD_RECEIVE -/


theorem leaveRole_planner (d : Dev) (w : Nat) (own : Bool) : (d.leaveRole w own).planner = { d.planner with
    walls := updAt d.planner.walls w (fun x => { x.drop with avail := false, record := if own then none else x.record }) } := by
  cases own <;> rfl

/-- A wall whose token is superseded loses its role, but not the record it has made. -/
theorem superseded_planner (d : Dev) (w : Nat) : ∃ ws : List WallSt, (d.superseded w).planner = { d.planner with walls := ws } ∧
    ∀ x : WallSt, d.planner.walls[w]? = some x → ∃ x' : WallSt, ws[w]? = some x' ∧ x'.record = x.record := by
  unfold Dev.superseded
  split
  · exact ⟨_, leaveRole_planner d w false, fun x hx => ⟨_, (updAt_same _ _ _).trans (congrArg _ hx), rfl⟩⟩
  · exact ⟨_, rfl, fun x hx => ⟨x, hx, rfl⟩⟩

theorem superseded_reg {w : Fin 2} {o : Nat} (h : o ∉ [0x5300, 0x5380, 0x5414]) (d : Dev) : (d.superseded w).reg o = d.reg o := by
  have hK := stable_keeps d (fun _ => True) (· ≠ o)
  have hoff : ∀ f, RoleFld w f → f.off ≠ o := fun f hf => by
    simp only [List.mem_cons, List.not_mem_nil] at h
    cases hf <;> simp only [SLV_ROLE, SLV_PHASE, SLV_NOSB] <;> omega
  exact (hK.superseded (fun _ _ => hK.updW trivial) trivial hoff (keeps_refl d _ _)).2 o (by simp)

theorem commitRecordReceive_closed {s : State} {chanA intact : Bool} {w : Fin 2} {x : WallSt} {p : Plan} (hu : s.dev.up = true)
    (hx : s.dev.planner.walls[w.val]? = some x) (hp : x.record = some p) (hc : x.portClosed = true) :
    exec (.commitRecordReceive chanA w intact) s = .next ⟨s.pending,
      ((s.begun.bumpN 0x543C ((p.bytes.length + 4095) / 4096)).updW w (fun x => { x with record := none })).superseded w⟩ := by
  have hw : Dev.wall { s.dev with out := [] } w = x := wall_eq hx
  have hu' : Dev.up { s.dev with out := [] } = true := hu
  show execCommitRecordReceive chanA w intact s = _
  unfold execCommitRecordReceive State.run
  simp only [hw, hp, hu', hc, Bool.not_true, Bool.false_eq_true, if_false, if_true]
  rfl

theorem bumpN_parts (d : Dev) (o n : Nat) : d.keeps (d.bumpN o n) (fun _ => False) (· = o) :=
  (stable_keeps d (fun _ => False) (· = o)).bumpN rfl n (keeps_refl d _ _)

theorem rx_congr {d e : Dev} (hs : e.planner.servo = d.planner.servo) (ha : e.planner.chanA = d.planner.chanA) (h : Bool) :
    e.rx h = d.rx h := by
  unfold Dev.rx
  rw [hs, ha]

theorem recordDiscarded {s : State} {chanA intact : Bool} {w : Fin 2} {x : WallSt} {p : Plan} (hu : s.dev.up = true)
    (hx : s.dev.planner.walls[w.val]? = some x) (hp : x.record = some p) (hc : x.portClosed = true) :
    Completes (.commitRecordReceive chanA w intact) s (fun d =>
      (∃ x', d.planner.walls[w.val]? = some x' ∧ x'.record = none) ∧ (∀ h, (d.rx h) = s.dev.rx h) ∧
      (p.bytes.length ≤ 4096 → p.bytes ≠ [] → d.reg 0x543C = bumpWord (s.dev.reg 0x543C))) := by
  refine completes_of_next (commitRecordReceive_closed hu hx hp hc) ?_
  have hn := bumpN_parts s.begun 0x543C ((p.bytes.length + 4095) / 4096)
  generalize hdef : s.begun.bumpN 0x543C ((p.bytes.length + 4095) / 4096) = n at hn ⊢
  have hnp : n.planner = s.dev.planner := hn.1 .planner id
  have hrec := walls_updW_same n w (fun x => { x with record := none })
  rw [hnp, hx] at hrec
  obtain ⟨ws, hpl, hws⟩ := superseded_planner (n.updW w (fun x => { x with record := none })) w
  obtain ⟨x', hx', hnone⟩ := hws _ hrec
  refine ⟨⟨x', by rw [hpl]; exact hx', hnone⟩, fun h => rx_congr ?_ ?_ h, fun hlen hne => ?_⟩
  · rw [hpl, updW_planner hnp]
  · rw [hpl, updW_planner hnp]
  · have hpos := List.length_pos_iff.2 hne
    rw [superseded_reg (by decide), reg_updW, ← hdef, show (p.bytes.length + 4095) / 4096 = 1 by omega, Dev.bumpN, Dev.bumpN,
      reg_bump_same]
    rfl

/-- The slot of a receiver takes a record, which the servo wall shows. -/
def Dev.takeRecord (d : Dev) (chanA : Bool) (p : Plan) : Dev :=
  let m := d.updRx chanA (fun r => { r with slot := some p, accepted := r.accepted || p.token == d.get SLV_AUTH })
  if chanA then m else m.showCommit p

theorem receiveRecord_takes {chanA : Bool} {w : Nat} {p inf : Plan} (hi : (d.rx chanA).inForce = some inf) (hs : (d.rx chanA).slot = none)
    (hc : d.chkWorks 11 = true) (ht : p.token = inf.token ∨ newer 16 p.token inf.token = true) (hcon : d.consistent inf p = true) :
    d.receiveRecord chanA w p true = d.takeRecord chanA p := by
  have hstale : (decide (p.token ≠ inf.token) && !newer 16 p.token inf.token) = false := by
    rcases ht with h | h
    · rw [h]
      simp
    · rw [h]
      simp
  unfold Dev.receiveRecord
  simp only [hi, hs, hc, hcon, hstale, Bool.not_true, Bool.or_false, Bool.false_eq_true, if_false]
  rfl

theorem offer_planner (d : Dev) (n t : Nat) (parts : List (Nat × List Byte)) : (d.offer n t parts).planner = d.planner := rfl

theorem offer_reg (d : Dev) (n t : Nat) (parts : List (Nat × List Byte)) (o : Nat) : (d.offer n t parts).reg o = d.reg o := rfl

theorem showCommit_planner (d : Dev) (p : Plan) : (d.showCommit p).planner = d.planner := by
  rw [Dev.showCommit, offer_planner, setReg_planner, put_planner]

theorem showCommit_seq (d : Dev) (p : Plan) : (d.showCommit p).get SLV_CMTSEQ = p.seq % 2 ^ 32 := by
  rw [Dev.showCommit, get_eq, offer_reg, reg_setReg_ne _ _ _ _ (by decide), ← get_eq, get_put_same _ _ _ (by decide)]
  rfl

theorem updRx_rx (d : Dev) (chanA : Bool) (f : Receiver → Receiver) :
    (d.updRx chanA f).rx chanA = f (d.rx chanA) ∧ (d.updRx chanA f).rx (!chanA) = d.rx (!chanA) := by
  cases chanA <;> exact ⟨rfl, rfl⟩

theorem takeRecord_planner (d : Dev) (chanA : Bool) (p : Plan) : (d.takeRecord chanA p).planner =
    (d.updRx chanA (fun r => { r with slot := some p, accepted := r.accepted || p.token == d.get SLV_AUTH })).planner := by
  unfold Dev.takeRecord
  cases chanA with
  | false => exact showCommit_planner _ p
  | true => rfl

theorem takeRecord_rx (d : Dev) (chanA : Bool) (p : Plan) :
    (d.takeRecord chanA p).rx chanA = { d.rx chanA with
      slot := some p, accepted := (d.rx chanA).accepted || p.token == d.get SLV_AUTH } ∧
    (d.takeRecord chanA p).rx (!chanA) = d.rx (!chanA) := by
  have hrx := rx_congr (congrArg PlannerSt.servo (takeRecord_planner d chanA p)) (congrArg PlannerSt.chanA (takeRecord_planner d chanA p))
  obtain ⟨hsame, hother⟩ := updRx_rx d chanA (fun r => { r with slot := some p, accepted := r.accepted || p.token == d.get SLV_AUTH })
  exact ⟨(hrx _).trans hsame, (hrx _).trans hother⟩

theorem commitRecordReceive_open {s : State} {chanA : Bool} {w : Fin 2} {x : WallSt} {p inf : Plan} (hu : s.dev.up = true)
    (hx : s.dev.planner.walls[w.val]? = some x) (hp : x.record = some p) (hc : x.portClosed = false) (hh : x.held = false)
    (hpl : s.dev.planning = true) (hr : s.dev.planner.restart = none) (hi : (s.dev.rx chanA).inForce = some inf)
    (hs : (s.dev.rx chanA).slot = none) (hchk : s.dev.chkWorks 11 = true)
    (ht : p.token = inf.token ∨ newer 16 p.token inf.token = true) (hcon : s.dev.consistent inf p = true) :
    exec (.commitRecordReceive chanA w true) s = .next ⟨s.pending, (s.begun.takeRecord chanA p).superseded w⟩ := by
  have hw : Dev.wall { s.dev with out := [] } w = x := wall_eq hx
  have hu' : Dev.up { s.dev with out := [] } = true := hu
  have hpl' : Dev.planning { s.dev with out := [] } = true := hpl
  have hacc : Dev.account { s.dev with out := [] } w = { s.dev with out := [] } := account_unheld (by rw [hw]; exact hh)
  have htake : Dev.receiveRecord { s.dev with out := [] } chanA w p true = Dev.takeRecord { s.dev with out := [] } chanA p :=
    receiveRecord_takes hi hs hchk ht hcon
  show execCommitRecordReceive chanA w true s = _
  unfold execCommitRecordReceive State.run
  simp only [hw, hp, hu', hc, hacc, hpl', hr, htake, Bool.not_true, Bool.false_eq_true, if_false, if_true, Option.isNone_none,
    Bool.and_self, Option.getD_some]
  rfl

theorem recordTaken {s : State} {chanA : Bool} {w : Fin 2} {x : WallSt} {p inf : Plan} (hu : s.dev.up = true)
    (hx : s.dev.planner.walls[w.val]? = some x) (hp : x.record = some p) (hc : x.portClosed = false) (hh : x.held = false)
    (hpl : s.dev.planning = true) (hr : s.dev.planner.restart = none) (hi : (s.dev.rx chanA).inForce = some inf)
    (hs : (s.dev.rx chanA).slot = none) (hchk : s.dev.chkWorks 11 = true)
    (ht : p.token = inf.token ∨ newer 16 p.token inf.token = true) (hcon : s.dev.consistent inf p = true) :
    Completes (.commitRecordReceive chanA w true) s (fun d =>
      d.rx chanA = { s.dev.rx chanA with
                       slot := some p, accepted := (s.dev.rx chanA).accepted || p.token == s.dev.get SLV_AUTH } ∧
      d.rx (!chanA) = s.dev.rx (!chanA) ∧
      (chanA = false → d.get SLV_CMTSEQ = p.seq % 2 ^ 32)) := by
  refine completes_of_next (commitRecordReceive_open hu hx hp hc hh hpl hr hi hs hchk ht hcon) ?_
  obtain ⟨ws, hwalls, -⟩ := superseded_planner (s.begun.takeRecord chanA p) w
  obtain ⟨hsame, hother⟩ := takeRecord_rx s.begun chanA p
  have hrx : ∀ h, ((s.begun.takeRecord chanA p).superseded w).rx h = (s.begun.takeRecord chanA p).rx h :=
    rx_congr (by rw [hwalls]) (by rw [hwalls])
  refine ⟨(hrx _).trans hsame, (hrx _).trans hother, ?_⟩
  rintro rfl
  rw [get_eq, superseded_reg (by decide), ← get_eq]
  exact showCommit_seq _ p

/-! ## COMMIT_WATCH_EXPIRY -/

theorem get_withPlanner (d : Dev) (x : PlannerSt) (f : Fld) : Dev.get { d with planner := x } f = d.get f := rfl

theorem claimShown_windows (d : Dev) (w t : Nat) (former : Option Nat) :
    (d.claimShown w t former).get SLV_WINDOW = 1 ∧ (d.claimShown w t former).get SLV_RECOV = 1 := by
  constructor
  · rw [Dev.claimShown, Dev.putB, get_put_apart _ _ _ _ (by decide) (by decide) (by decide), get_withPlanner, Dev.openWindow, Dev.putB,
      get_put_same _ _ _ (by decide)]
    rfl
  · rw [Dev.claimShown, Dev.putB, get_put_same _ _ _ (by decide)]
    rfl

theorem claimed_fields {w : Nat} (hw : w < 2) (d : Dev) (former : Option Nat) :
    (d.claimed w former).role w = 1 ∧ (d.claimed w former).get SLV_ACTWALL = w ∧
    (d.claimed w former).get SLV_AUTH = (d.get SLV_AUTH + 1) % 65536 ∧
    (d.claimed w former).get SLV_WINDOW = 1 ∧ (d.claimed w former).get SLV_RECOV = 1 := by
  have hstay : ∀ (g : Fld) (v : Nat) (m : Dev) (t : Nat), g.ok → SLV_NOSB.apart g → (Fld.whole 0x5438).apart g → SLV_WINDOW.apart g →
      SLV_RECOV.apart g → m.get g = v → (m.claimShown w t former).get g = v := fun g v m t hg hn hc hwin hrec =>
    (stable_get g v hg (fun _ => True)).claimShown (fun _ _ h => h) trivial hn hc hwin hrec
  have hrole : ∀ o, 0x5400 ≤ o → o ≠ (SLV_ROLE w).off := fun o ho => by show o ≠ 0x5300 + 0x80 * w; omega
  have happ : ∀ f : Fld, 0x5400 ≤ f.off → f.apart (SLV_ROLE w) := fun f hf => apart_of_off (hrole f.off hf)
  rw [claimed_eq]
  refine ⟨?_, ?_, ?_, claimShown_windows _ _ _ _⟩
  · refine hstay (SLV_ROLE w) 1 _ _ (SLV_ROLE_ok w) (happ _ (by decide)) (happ _ (by decide)) (happ _ (by decide)) (happ _ (by decide)) ?_
    rw [get_put_off _ _ _ _ (hrole SLV_ACTWALL.off (by decide)).symm, get_put_same _ _ _ (SLV_ROLE_ok w)]
    rfl
  · refine hstay SLV_ACTWALL w _ _ (by decide) (by decide) (by decide) (by decide) (by decide) ?_
    rw [get_put_same _ _ _ (by decide)]
    exact Nat.mod_eq_of_lt hw
  · refine hstay SLV_AUTH _ _ _ (by decide) (by decide) (by decide) (by decide) (by decide) ?_
    rw [get_put_off _ _ _ _ (by decide), get_put_off _ _ _ _ (hrole SLV_AUTH.off (by decide)), get_put_same _ _ _ (by decide)]
    exact Nat.mod_mod _ _

theorem claimed_windows (d : Dev) (w : Nat) (former : Option Nat) :
    (d.claimed w former).planner.recov = some (w, 0) ∧ (d.claimed w former).planner.window = some (d.now, former) ∧
    (d.claimed w former).time = d.time := by
  obtain ⟨hrecov, hwindow⟩ := claimShown_planner (((d.put SLV_AUTH ((d.get SLV_AUTH + 1) % 65536)).put (SLV_ROLE w) 1).put SLV_ACTWALL w) w
    ((d.get SLV_AUTH + 1) % 65536) former
  rw [Dev.now, put_time, put_time, put_time] at hwindow
  exact ⟨hrecov, hwindow, (claimed_sameTime (keeps_refl d _ _)).1 .time (by simp)⟩

theorem takeoverFields_ok (w : Nat) : ∀ g ∈ takeoverFields w, g.ok := by
  simp only [takeoverFields, List.forall_mem_cons]
  exact ⟨SLV_ROLE_ok w, by decide⟩

theorem apart_takeoverFields {w : Nat} {f : Fld} (h0 : f.off ≠ 0x5300 + 0x80 * w) (h1 : f.off ≠ 0x5414) (h2 : f.off ≠ 0x5418) :
    ∀ g ∈ takeoverFields w, f.apart g := by
  simp only [takeoverFields, List.forall_mem_cons]
  exact ⟨apart_of_off h0, apart_of_off h1, apart_of_off h2, apart_of_off h1, apart_of_off h1, fun _ h => absurd h List.not_mem_nil⟩

theorem account_apart_takeover {w : Nat} (hw : w < 2) {f : Fld} (hf : AccountFld f) : ∀ g ∈ takeoverFields w, f.apart g := by
  interval_cases w <;> cases hf <;> decide

theorem work_apart_takeover {w : Nat} (hw : w < 2) {f : Fld} (hf : WorkFld w f) : ∀ g ∈ takeoverFields w, f.apart g := by
  cases hf with
  | phase => interval_cases w <;> decide
  | epoch => interval_cases w <;> decide
  | @count k hk =>
    have hoff : ∀ o, o = 0x5300 + 0x80 * w ∨ 0x5400 ≤ o → (Fld.whole (wallCtr w k)).off ≠ o := fun o ho => by
      show 0x5310 + 0x80 * w + 4 * k ≠ o
      omega
    exact apart_takeoverFields (hoff _ (.inl rfl)) (hoff _ (.inr (by decide))) (hoff _ (.inr (by decide)))

/-- The role that the former active wall loses is none of the new one's. -/
theorem role_apart_takeover {w a : Nat} (hw : w < 2) (ha : a < 2) (hne : a ≠ w) {f : Fld} (hf : RoleFld a f) :
    ∀ g ∈ takeoverFields w, f.apart g := by
  obtain ⟨rfl, rfl⟩ | ⟨rfl, rfl⟩ : w = 0 ∧ a = 1 ∨ w = 1 ∧ a = 0 := by omega
  · cases hf <;> decide
  · cases hf <;> decide

/-- What the device `c` shows of a claim stands in `d`, with the windows open and cell time where it was. -/
def Dev.claimStands (w : Nat) (c d : Dev) : Prop :=
  (∀ g ∈ takeoverFields w, d.get g = c.get g) ∧ d.planner.recov = c.planner.recov ∧ d.planner.window = c.planner.window ∧ d.time = c.time

theorem stable_claimStands (w : Nat) (c : Dev) :
    Stable (Dev.claimStands w c) (· ≠ .time) (fun f => ∀ g ∈ takeoverFields w, f.apart g) :=
  (stable_gets c _ (takeoverFields_ok w) _).and ((stable_recov _ _ _).and ((stable_window _ _ _).and
    (fun _ _ h k => (upd_same (p := .time) (by simp) h).trans k)))

theorem missedCommit_claimStands {x a : Nat} {obs : Bool} (hx : d.standby? = some x) (hxw : x < 2) (ha : a < 2) (hne : a ≠ x) :
    Dev.claimStands x (d.claimed x (some a)) (d.missedCommit a obs) := by
  have hK := stable_claimStands x (d.claimed x (some a))
  have htake : Dev.claimStands x (d.claimed x (some a)) (d.takeOver x (some a)) :=
    hK.takeOver (by decide) (by decide) (by decide) (by decide) (fun _ => account_apart_takeover hxw)
      (fun _ => work_apart_takeover hxw) ⟨fun _ _ => rfl, rfl, rfl, rfl⟩
  unfold Dev.missedCommit
  rw [hx]
  dsimp only
  split
  · exact hK.superseded (fun _ _ => hK.updW (by decide)) (by decide) (fun _ => role_apart_takeover hxw ha hne) htake
  · exact htake

/-- The watch has expired: a commit begun is rejected, and the standby claims unless both receivers have accepted. -/
def Dev.watchExpired (d : Dev) (begun observes : Bool) : Dev :=
  if d.planner.servo.accepted && d.planner.chanA.accepted then d
  else
    match d.active? with
    | none => d
    | some a =>
      let d := if begun then (d.countReject a).updW a (fun x => { x with record := none, held := false }) else d
      if d.planner.recov.isSome then (if begun && !d.planner.stopReq then d.planStop else d)
      else d.missedCommit a observes

/-- A commit whose transfers have begun and not ended is counted as rejected, and its record is gone. -/
def Dev.dropBegun (d : Dev) (a : Nat) (begun : Bool) : Dev :=
  if begun then (d.countReject a).updW a (fun x => { x with record := none, held := false }) else d

theorem countReject_eq (d : Dev) (a : Nat) : d.countReject a = d ∨
    d.countReject a = (d.updW a (fun x => { x with rejCounted := true })).bump 0x5440 := by
  unfold Dev.countReject
  split
  · exact .inl rfl
  · exact .inr rfl

theorem dropBegun_keeps (d : Dev) (a : Nat) (begun : Bool) : d.keeps (d.dropBegun a begun) (· = .planner) (· = 0x5440) := by
  have hcount : d.keeps (d.countReject a) (· = .planner) (· = 0x5440) := by
    rcases countReject_eq d a with h | h
    · rw [h]
      exact keeps_refl _ _ _
    · rw [h]
      exact keeps_bump rfl (keeps_planner rfl (keeps_refl _ _ _))
  unfold Dev.dropBegun
  split
  · exact keeps_planner rfl hcount
  · exact keeps_refl _ _ _

theorem dropBegun_recov (d : Dev) (a : Nat) (begun : Bool) : (d.dropBegun a begun).planner.recov = d.planner.recov := by
  have hK := stable_recov d.planner.recov (fun _ => True) (fun _ => True)
  have hcount : (d.countReject a).planner.recov = d.planner.recov := by
    rcases countReject_eq d a with h | h
    · rw [h]
    · rw [h]
      exact hK.bump trivial (hK.updW trivial rfl)
  unfold Dev.dropBegun
  split
  · exact hK.updW trivial hcount
  · rfl

theorem standby_congr {d e : Dev} (h : ∀ v, e.role v = d.role v) : e.standby? = d.standby? := by
  unfold Dev.standby? Dev.standsBy
  rw [h, h]

theorem standby_lt {x : Nat} (h : d.standby? = some x) : x < 2 ∧ 2 ≤ d.role x := by
  unfold Dev.standby? Dev.standsBy at h
  split at h
  next h0 => obtain rfl := Option.some.inj h; exact ⟨by decide, of_decide_eq_true h0⟩
  next =>
    split at h
    next h1 => obtain rfl := Option.some.inj h; exact ⟨by decide, of_decide_eq_true h1⟩
    next => cases h

theorem watchExpired_misses {a : Nat} {begun obs : Bool} (hacc : (d.planner.servo.accepted && d.planner.chanA.accepted) = false)
    (ha : d.active? = some a) (hr : d.planner.recov = none) :
    d.watchExpired begun obs = (d.dropBegun a begun).missedCommit a obs := by
  have hr' : (d.dropBegun a begun).planner.recov = none := (dropBegun_recov d a begun).trans hr
  unfold Dev.watchExpired
  rw [hacc, if_neg Bool.false_ne_true, ha]
  exact if_neg (by rw [← Dev.dropBegun, hr']; decide)

theorem commitWatchExpiry_run {s : State} {begun obs : Bool} (hu : s.dev.up = true) (h2 : s.dev.planner.phase = 2)
    (hpl : s.dev.planning = true) (hr : s.dev.planner.restart = none) {post : Dev → Prop}
    (h : ∀ x : TimeSt, x.now = max s.dev.now (s.dev.s + s.dev.ts - s.dev.leadC + s.dev.watch) →
      post ((s.begun.atTime x).watchExpired begun obs)) :
    Completes (.commitWatchExpiry begun obs) s post := by
  obtain ⟨x, hx, hnow⟩ := reach_at s.begun (s.dev.s + s.dev.ts - s.dev.leadC + s.dev.watch)
  refine completes_unless (c := !s.dev.up || s.dev.planner.phase != 2 || !s.dev.planning || s.dev.planner.restart.isSome)
    (b := (s.begun.reach (s.dev.s + s.dev.ts - s.dev.leadC + s.dev.watch)).watchExpired begun obs) rfl
    (by rw [hu, h2, hpl, hr]; rfl) ?_
  rw [hx]
  exact h x (congrArg TimeSt.now hnow)

theorem watch_accepted {s : State} {begun obs : Bool} (hu : s.dev.up = true) (h2 : s.dev.planner.phase = 2)
    (hpl : s.dev.planning = true) (hr : s.dev.planner.restart = none) (hs : s.dev.planner.servo.accepted = true)
    (ha : s.dev.planner.chanA.accepted = true) : Completes (.commitWatchExpiry begun obs) s (fun d =>
      d.now = max s.dev.now (s.dev.s + s.dev.ts - s.dev.leadC + s.dev.watch) ∧ s.dev.only d [.time] []) := by
  refine commitWatchExpiry_run hu h2 hpl hr fun x hx => ?_
  have hd : (s.begun.atTime x).watchExpired begun obs = s.begun.atTime x :=
    if_pos (show (s.dev.planner.servo.accepted && s.dev.planner.chanA.accepted) = true by rw [hs, ha]; rfl)
  rw [hd]
  exact ⟨hx, keeps_only (keeps_time (by decide) (keeps_out (keeps_refl _ _ _)))⟩

theorem watch_missed {s : State} {begun obs : Bool} {a x : Nat} (hu : s.dev.up = true) (h2 : s.dev.planner.phase = 2)
    (hpl : s.dev.planning = true) (hr : s.dev.planner.restart = none)
    (hacc : (s.dev.planner.servo.accepted && s.dev.planner.chanA.accepted) = false) (ha : s.dev.active? = some a)
    (hx : s.dev.standby? = some x) (hrec : s.dev.planner.recov = none) : Completes (.commitWatchExpiry begun obs) s (fun d =>
      d.get SLV_ACTWALL = x ∧ d.role x = 1 ∧ d.get SLV_AUTH = (s.dev.get SLV_AUTH + 1) % 65536 ∧
      d.is SLV_WINDOW = true ∧ d.is SLV_RECOV = true ∧ d.planner.recov = some (x, 0) ∧
      d.planner.window = some (d.now, some a)) := by
  refine commitWatchExpiry_run hu h2 hpl hr fun y _ => ?_
  rw [watchExpired_misses (d := s.begun.atTime y) hacc ha hrec]
  have hkept := dropBegun_keeps (s.begun.atTime y) a begun
  generalize (s.begun.atTime y).dropBegun a begun = m at hkept ⊢
  have hrole : ∀ v, m.role v = s.dev.role v := fun v => by
    have h := keeps_get (f := SLV_ROLE v) hkept (by show 0x5300 + 0x80 * v ≠ 0x5440; omega)
    exact h
  have hauth : m.get SLV_AUTH = s.dev.get SLV_AUTH := by
    have h := keeps_get (f := SLV_AUTH) hkept (by decide)
    exact h
  obtain ⟨hact, hra⟩ := active_role ha
  obtain ⟨hx2, hrx⟩ := standby_lt hx
  have ha2 : a < 2 := hact ▸ Nat.mod_lt _ (by decide)
  have hne : a ≠ x := by
    rintro rfl
    omega
  obtain ⟨hfields, hrecov, hwin, htime⟩ := missedCommit_claimStands (obs := obs) ((standby_congr hrole).trans hx) hx2 ha2 hne
  obtain ⟨hrole1, hactw1, hauth1, hwin1, hrec1⟩ := claimed_fields hx2 m (some a)
  obtain ⟨hrecov1, hwindow1, htime1⟩ := claimed_windows m x (some a)
  generalize m.missedCommit a obs = e at hfields hrecov hwin htime ⊢
  have hget : ∀ g ∈ takeoverFields x, e.get g = (m.claimed x (some a)).get g := hfields
  simp only [takeoverFields, List.forall_mem_cons] at hget
  obtain ⟨hrole2, hactw2, hauth2, hwin2, hrec2, -⟩ := hget
  have hnow : e.now = m.now := congrArg TimeSt.now (htime.trans htime1)
  refine ⟨hactw2.trans hactw1, hrole2.trans hrole1, (hauth2.trans hauth1).trans (by rw [hauth]), ?_, ?_, hrecov.trans hrecov1, ?_⟩
  · rw [is_eq, hwin2, hwin1]
    rfl
  · rw [is_eq, hrec2, hrec1]
    rfl
  · rw [hwin, hwindow1, hnow]

/-- Settles O46, command by command. -/
theorem deadlineAndCommit : Obligations.DeadlineAndCommit := by
  unfold Obligations.DeadlineAndCommit
  intro s hu
  refine ⟨solveDeadline_effect hu, fun w x inf silent hp hx ha h0 ht hc hi => commitPoint_effect hu hp hx ha h0 ht hc hi,
    fun chanA w x p inf hx hp => ⟨fun hc intact => recordDiscarded hu hx hp hc,
      fun hc hh hpl hr hi hs hchk ht hcon => recordTaken hu hx hp hc hh hpl hr hi hs hchk ht hcon⟩,
    fun h2 hpl hr begun obs => ⟨watch_accepted hu h2 hpl hr, fun a x hacc ha hx hrec => watch_missed hu h2 hpl hr hacc ha hx hrec⟩⟩

end Sys2Proof.Machine
end

section
/-! PROOFS. The planner's controls and the walls' losses of control (R117, R118, R125, R130, R131, R133, R135, R137), and the delivery
of the separation record (R211). -/

namespace Sys2Proof.Machine

variable {K : Dev → Prop} {P : Part → Prop} {R : Fld → Prop} {O : Nat → Prop} {d d0 : Dev} {w : Nat}

/-! ## PLANNER_STOPPED and PLANNER_RESTART -/

theorem plannerStopped_effect {s : State} (hu : s.dev.up = true) (h3 : s.dev.plState = 3) (hs : 3 ≤ s.dev.planner.standBeats) :
    Completes .plannerStopped s (fun d => d.plState = 4 ∧ s.dev.only d [] [SLV_PLSTATE.off]) := by
  refine completes_when (c := s.dev.up && s.dev.plState == 3 && decide (3 ≤ s.dev.planner.standBeats))
    (a := s.begun.put SLV_PLSTATE 4) rfl (by rw [hu, h3, decide_eq_true hs]; rfl) ⟨?_, ?_⟩
  · rw [Dev.plState, get_put_same _ _ _ (by decide)]
    rfl
  · exact keeps_only (keeps_put (by decide) (keeps_out (keeps_refl _ _ _)))

theorem plannerRestart_refused (h : d.plState ≠ 4) : d.plannerRestart = d.regErr 5 := by
  unfold Dev.plannerRestart
  split
  · exact if_pos (.inl h)
  · rfl

/-- A planner that restarts: RUNNING, no misses, and the standstill plan waiting for the boundary. -/
def Dev.restarted (d : Dev) (m : Model) : Dev :=
  { (d.put SLV_PLSTATE 1).put SLV_MISSC 0 with planner := { d.planner with
    exitRun := 0, restart := some (d.standstill d.planner.lastSeq d.planner.lastToken (d.s + d.ts) m) } }

theorem plannerRestart_takes {a : Nat} {m : Model} (ha : d.active? = some a) (hm : d.kiln.active = some m) (h4 : d.plState = 4)
    (h0 : d.noRequest false = true) (h1 : d.noRequest true = true) : d.plannerRestart = (d.restarted m).hibCheck := by
  unfold Dev.plannerRestart
  rw [ha, hm]
  exact if_neg (by simp [h4, h0, h1])

theorem Stable.hibCheck (hK : Stable K P R) (hb : P .boot) (hr : R MNS_HIBRDY) (h : K d) : K d.hibCheck := by
  unfold Dev.hibCheck
  split
  · exact hK.putB hr (hK (.boot _ hb) h)
  · exact h

theorem plannerRestart_effect {s : State} {a : Nat} {m : Model} (hl : s.dev.linked = true) (ha : s.dev.active? = some a)
    (hm : s.dev.kiln.active = some m) (h4 : s.dev.plState = 4) (h0 : s.dev.noRequest false = true) (h1 : s.dev.noRequest true = true) :
    Completes .plannerRestart s (fun d =>
      d.plState = 1 ∧ d.get SLV_MISSC = 0 ∧ (∃ p, d.planner.restart = some p ∧ p.kind = 3 ∧ p.t0 = s.dev.s + s.dev.ts ∧
        p.token = s.dev.planner.lastToken ∧ p.seq = s.dev.planner.lastSeq) ∧ s.dev.onlyParts d [.planner, .boot]) := by
  refine completes_when (c := s.dev.linked) (a := s.begun.plannerRestart) rfl hl ?_
  rw [plannerRestart_takes (d := s.begun) ha hm h4 h0 h1]
  have hK := stable_keeps (s.begun.restarted m) (· = .boot) (· = MNS_HIBRDY.off)
  have hkept := hK.hibCheck rfl rfl (keeps_refl (s.begun.restarted m) _ _)
  have hparts : s.dev.keeps (s.begun.restarted m) (· ∈ [.planner, .boot]) (fun _ => True) :=
    keeps_planner (by decide) (keeps_put trivial (keeps_put trivial (keeps_out (keeps_refl _ _ _))))
  refine ⟨?_, ?_, ⟨_, congrArg PlannerSt.restart (hkept.1 .planner (by decide)), rfl, rfl, rfl, rfl⟩, ?_⟩
  · rw [Dev.plState, keeps_get hkept (by decide), Dev.restarted, get_withPlanner,
      get_put_apart _ _ _ _ (by decide) (by decide) (by decide), get_put_same _ _ _ (by decide)]
    rfl
  · rw [keeps_get hkept (by decide), Dev.restarted, get_withPlanner, get_put_same _ _ _ (by decide)]
    rfl
  · exact fun p hp => same_trans (hparts.1 p hp) (hkept.1 p (fun e => hp (by simp [e])))

/-! ## WALL_REJOIN, WALL_GIVE_UP and DUAL_ACT_WINDOW_CLOSE -/

theorem wallRejoin_effect {s : State} {w : Fin 2} {x : WallSt} (hl : s.dev.linked = true) (hx : s.dev.planner.walls[w.val]? = some x) :
    Completes (.wallRejoin w) s (fun d =>
      if s.dev.role w = 0 then d.planner.walls[w.val]? = some { x with testing := true } ∧ s.dev.only d [.planner] []
      else d.is (GLB_BLKERR 5) = true ∧ s.dev.only d [.evReq] [0x10]) := by
  refine completes_when (c := s.dev.linked) (a := s.begun.wallRejoin w) rfl hl ?_
  unfold Dev.wallRejoin
  by_cases h0 : s.dev.role w = 0
  · have h0' : ¬ s.begun.role w ≠ 0 := not_not.2 h0
    rw [if_neg h0', if_pos h0]
    exact ⟨(walls_updW_same s.begun w _).trans (congrArg _ hx), keeps_only (keeps_planner (by decide) (keeps_out (keeps_refl _ _ _)))⟩
  · have h0' : s.begun.role w ≠ 0 := h0
    rw [if_pos h0', if_neg h0]
    exact ⟨is_regErr_same _ (by decide), keeps_only (keeps_regErr (by decide) (by decide) (keeps_out (keeps_refl _ _ _)))⟩

theorem leaveRole_keeps (d : Dev) (w : Nat) (own : Bool) :
    d.keeps (d.leaveRole w own) (· ∈ [.planner, .evReq]) (fun _ => True) :=
  have hK := stable_keeps d (· ∈ [.planner, .evReq]) (fun _ => True)
  hK.leaveRole (fun _ _ => hK.updW (by decide)) (by decide) (fun _ _ => trivial) (fun _ _ _ => trivial) (keeps_refl _ _ _)

theorem leaveRole_role (d : Dev) {w : Nat} (hw : w < 2) (own : Bool) : (d.leaveRole w own).role w = 0 := by
  have hK := stable_get (SLV_ROLE w) 0 (SLV_ROLE_ok w) (fun _ => True)
  have hrole : ∀ f, ((((d.put (SLV_ROLE w) 0).put (SLV_PHASE w) 0).updW w f)).get (SLV_ROLE w) = 0 := fun f =>
    hK.updW trivial (hK.put (fun _ => ⟨⟨by show 2 ≤ 4; decide, by show 4 < 32; decide⟩, .inl (by show 1 < 2; decide)⟩)
      (get_put_same _ (SLV_ROLE w) 0 (SLV_ROLE_ok w)))
  have hfar : ∀ o, 0x5400 ≤ o → (Fld.whole o).apart (SLV_ROLE w) := fun o ho => apart_of_off (by
    show o ≠ 0x5300 + 0x80 * w
    omega)
  have hnosb : SLV_NOSB.apart (SLV_ROLE w) := apart_of_off (by show 0x5414 ≠ 0x5300 + 0x80 * w; omega)
  unfold Dev.leaveRole
  refine hK.putB hnosb (hK.raiseW trivial ?_)
  split
  · exact hK.errRec trivial (fun o ho => hfar o (by omega)) (hrole _)
  · exact hrole _

theorem leaveRole_requests (d : Dev) (w : Nat) (own : Bool) : (16 * (3 + w) + 12, noDetail) ∈ (d.leaveRole w own).evReq := by
  unfold Dev.leaveRole
  exact mem_raise _ _ _

theorem leaveRole_wallAvail (d : Dev) (w : Nat) (own : Bool) : (d.leaveRole w own).wallAvail w = false := by
  unfold Dev.wallAvail
  rw [leaveRole_planner, List.getD_eq_getElem?_getD]
  dsimp only
  rw [updAt_same]
  cases d.planner.walls[w]? <;> rfl

theorem giveUp_idle (h0 : d.role w = 0) (ha : (d.wall w).avail = false) : d.giveUp w = d := by
  unfold Dev.giveUp
  rw [h0, ha]
  rfl

theorem giveUp_leaves (h : d.role w ≠ 0 ∨ (d.wall w).avail = true) (ha : d.active? ≠ some w) : d.giveUp w = d.leaveRole w true := by
  have hgo : (decide (d.role w = 0) && !(d.wall w).avail) = false := by
    rcases h with h | h
    · rw [decide_eq_false h]
      rfl
    · rw [h, Bool.not_true, Bool.and_false]
  unfold Dev.giveUp
  rw [hgo, if_neg Bool.false_ne_true, beq_false_of_ne ha]
  rfl

/-- A field that shows nothing of a wall's role stays when the wall leaves it. -/
theorem leaveRole_get (d : Dev) (w : Nat) (own : Bool) {g : Fld} (hg : g.ok) (hr : ∀ f, RoleFld w f → f.apart g) (ho : g.off < 0xF018) :
    (d.leaveRole w own).get g = d.get g :=
  have hK := stable_get g (d.get g) hg (fun _ => True)
  hK.leaveRole (fun _ _ => hK.updW trivial) trivial hr
    (fun _ o h => apart_of_off (by show o ≠ g.off; omega)) rfl

/-- The active wall gives up with no standby to take over: the planner stops (R137). -/
theorem giveUp_stops {w : Fin 2} (ha : d.active? = some w.val) (hp : d.plState ≠ 0) (hr : d.planner.recov = none)
    (hs : d.role (1 - w.val) < 2) : d.giveUp w = (d.leaveRole w true).planStop := by
  obtain ⟨-, hrole⟩ := active_role ha
  have hw2 := w.isLt
  have hpl : (d.leaveRole w true).plState = d.plState := leaveRole_get d w true (by decide) (fun f hf => by
    cases hf with
    | nosb => decide
    | role => exact apart_of_off (by show 0x5300 + 0x80 * w.val ≠ 0x5414; omega)
    | phase => exact apart_of_off (by show 0x5300 + 0x80 * w.val ≠ 0x5414; omega)) (by decide)
  have hother : (d.leaveRole w true).role (1 - w.val) = d.role (1 - w.val) := by
    refine leaveRole_get d w true (SLV_ROLE_ok _) (fun f hf => apart_of_off ?_) (by show 0x5300 + 0x80 * _ < 0xF018; omega)
    show f.off ≠ 0x5300 + 0x80 * (1 - w.val)
    cases hf with
    | nosb => show 0x5414 ≠ _; omega
    | role => show 0x5300 + 0x80 * w.val ≠ _; omega
    | phase => show 0x5300 + 0x80 * w.val ≠ _; omega
  have hrec : (d.leaveRole w true).planner.recov = none := by
    rw [leaveRole_planner]
    exact hr
  have hsb : (d.leaveRole w true).standby? = none := by
    cases hx : (d.leaveRole w true).standby? with
    | none => rfl
    | some x =>
      obtain ⟨hx2, hrx⟩ := standby_lt hx
      have hgone := leaveRole_role d w.isLt true
      rcases (show x = w.val ∨ x = 1 - w.val by omega) with rfl | rfl <;> omega
  unfold Dev.giveUp
  rw [hrole, ha]
  dsimp only
  rw [if_neg (by simp), if_neg (by simp [hpl, hp]), hrec, hsb]
  rfl

theorem wallGiveUp_run {s : State} {w : Fin 2} {post : Dev → Prop} (hu : s.dev.up = true) (h : post (s.begun.giveUp w)) :
    Completes (.wallGiveUp w) s post := completes_when (c := s.dev.up) rfl hu h

theorem planStop_planner (d : Dev) : d.planStop.planner = { d.planner with stopReq := true } :=
  ((stable_keeps { d with planner := { d.planner with stopReq := true } } (fun p => p = .host ∨ p = .kiln) (fun _ => False)).abortGroups
    (.inl rfl) (.inr rfl) (keeps_refl _ _ _)).1 .planner (by simp)

theorem planStop_ss1 (d : Dev) : d.planStop.safety.ss1A = true ∧ d.planStop.safety.ss1B = true := ⟨rfl, rfl⟩

theorem planStop_keeps (d : Dev) : d.keeps d.planStop (· ∈ [.planner, .host, .kiln, .safety, .evReq]) (fun _ => False) :=
  have hK := stable_keeps d (· ∈ [Part.planner, .host, .kiln, .safety, .evReq]) (fun _ => False)
  hK.raiseW (w := d.get SLV_ACTWALL) (n := 15) (by decide) (hK.requestSs1 (by decide)
    (hK.stopRequest (by decide) (by decide) (by decide) (keeps_refl _ _ _)))

theorem planStop_get (d : Dev) (f : Fld) : d.planStop.get f = d.get f := keeps_get (planStop_keeps d) id

theorem wallGiveUp_effect {s : State} {w : Fin 2} {x : WallSt} (hu : s.dev.up = true) (hx : s.dev.planner.walls[w.val]? = some x) :
    (s.dev.role w = 0 → x.avail = false → Completes (.wallGiveUp w) s (fun d => s.dev.only d [] [])) ∧
    (s.dev.role w ≠ 0 ∨ x.avail = true → s.dev.active? ≠ some w.val → Completes (.wallGiveUp w) s (fun d =>
      d.role w = 0 ∧ d.wallAvail w = false ∧ (16 * (3 + w.val) + 12, noDetail) ∈ d.evReq ∧
      s.dev.onlyParts d [.planner, .evReq])) ∧
    (s.dev.active? = some w.val → s.dev.plState ≠ 0 → s.dev.planner.recov = none → s.dev.role (1 - w.val) < 2 →
      Completes (.wallGiveUp w) s (fun d => d.role w = 0 ∧ d.wallAvail w = false ∧ d.planner.stopReq = true ∧
        d.safety.ss1A = true ∧ d.safety.ss1B = true)) := by
  have hwall : s.begun.wall w = x := wall_eq hx
  refine ⟨fun h0 ha => wallGiveUp_run hu ?_, fun h ha => wallGiveUp_run hu ?_, fun ha hp hr hs => wallGiveUp_run hu ?_⟩
  · rw [giveUp_idle (d := s.begun) h0 (by rw [hwall]; exact ha)]
    exact keeps_only (keeps_out (keeps_refl _ _ _))
  · rw [giveUp_leaves (d := s.begun) (by rw [hwall]; exact h) ha]
    exact ⟨leaveRole_role _ w.isLt _, leaveRole_wallAvail _ _ _, leaveRole_requests _ _ _,
      keeps_parts (keeps_from_out (leaveRole_keeps s.begun w true))⟩
  · rw [giveUp_stops (d := s.begun) ha hp hr hs]
    refine ⟨(planStop_get _ _).trans (leaveRole_role _ w.isLt _), ?_, by rw [planStop_planner], planStop_ss1 _⟩
    rw [Dev.wallAvail, planStop_planner]
    exact leaveRole_wallAvail s.begun w true

/-- The port of a former active wall closes, unless that wall is the active one again. -/
def Dev.closePort (d : Dev) (former : Option Nat) : Dev :=
  match former with
  | some f => if d.active? = some f then d else d.updW f (fun x => { x with portClosed := true })
  | none => d

/-- The dual-act window closes at `t`. -/
def Dev.closeWindow (d : Dev) (t : Nat) (former : Option Nat) : Dev :=
  ((Dev.reach { d with planner := { d.planner with window := none } } t).putB SLV_WINDOW false).closePort former

theorem dualActWindowClose_run {s : State} {t : Nat} {f : Option Nat} (hu : s.dev.up = true) (hw : s.dev.planner.window = some (t, f)) :
    exec .dualActWindowClose s = .next ⟨s.pending, s.begun.closeWindow (t + 250000) f⟩ := by
  have hu' : Dev.up { s.dev with out := [] } = true := hu
  show execDualActWindowClose s = _
  unfold execDualActWindowClose State.run
  simp only [hw, hu', Bool.not_true, Bool.false_eq_true, if_false]
  cases f <;> rfl

theorem closePort_planner (d : Dev) (former : Option Nat) : ∃ ws : List WallSt,
    d.closePort former = { d with planner := { d.planner with walls := ws } } ∧
    ∀ (w : Nat) (x : WallSt), former = some w → d.active? ≠ some w → d.planner.walls[w]? = some x →
      ws[w]? = some { x with portClosed := true } := by
  unfold Dev.closePort
  split
  next f =>
    split
    next ha => exact ⟨d.planner.walls, rfl, fun w x h hne => absurd (Option.some.inj h ▸ ha) hne⟩
    next =>
      refine ⟨_, rfl, fun w x h _ hx => ?_⟩
      obtain rfl := Option.some.inj h
      exact (updAt_same _ _ _).trans (congrArg _ hx)
  next => exact ⟨d.planner.walls, rfl, fun _ _ h => by cases h⟩

theorem dualActWindowClose_effect {s : State} {t : Nat} {f : Option Nat} (hu : s.dev.up = true) (hw : s.dev.planner.window = some (t, f)) :
    Completes .dualActWindowClose s (fun d =>
      d.planner.window = none ∧ d.is SLV_WINDOW = false ∧ d.now = max s.dev.now (t + 250000) ∧
      (∀ w x, f = some w → s.dev.active? ≠ some w → s.dev.planner.walls[w]? = some x →
        d.planner.walls[w]? = some { x with portClosed := true }) ∧ s.dev.only d [.planner, .time] [SLV_WINDOW.off]) := by
  refine completes_of_next (dualActWindowClose_run hu hw) ?_
  obtain ⟨y, hy, hnow⟩ := reach_at { s.begun with planner := { s.begun.planner with window := none } } (t + 250000)
  rw [Dev.closeWindow, hy]
  generalize hn : Dev.atTime { s.begun with planner := { s.begun.planner with window := none } } y = n
  have hnk : s.dev.keeps n (· ∈ [Part.planner, .time]) (· ∈ [SLV_WINDOW.off]) :=
    hn ▸ keeps_time (by decide) (keeps_planner (by decide) (keeps_out (keeps_refl _ _ _)))
  have hnp : n.planner = { s.dev.planner with window := none } := hn ▸ rfl
  have hnt : n.time = y := hn ▸ rfl
  have hng : ∀ g, n.get g = s.dev.get g := hn ▸ fun _ => rfl
  obtain ⟨ws, hclose, hws⟩ := closePort_planner (n.putB SLV_WINDOW false) f
  rw [hclose]
  refine ⟨?_, ?_, ?_, fun w x h hne hx => hws w x h ?_ ?_, keeps_only (keeps_planner (by decide) (keeps_putB (by decide) hnk))⟩
  · dsimp only
    rw [putB_planner, hnp]
  · rw [is_eq, get_withPlanner, ← is_eq, is_putB_same _ _ _ (by decide)]
  · dsimp only [Dev.now]
    rw [putB_time, hnt, hnow]
    rfl
  · rw [active_congr (d := s.dev)]
    · exact hne
    · rw [Dev.putB, get_put_apart _ _ _ _ (by decide) (by decide) (by decide)]
      exact hng _
    · intro v
      rw [Dev.role, Dev.putB, get_put_off _ _ _ _ (by show 0x5300 + 0x80 * v ≠ 0x5414; omega)]
      exact hng _
  · rw [putB_planner, hnp]
    exact hx

/-! ## The separation record (R211) -/

/-- The separation record is transferred in pieces. -/
def Dev.deliverRecord (d : Dev) (r : SepRecord) : Dev :=
  { d with commons := { d.commons with built := none, sent := pieces 4096 r.bytes } }

theorem sepRecordDeliver_run {s : State} {r : SepRecord} (hu : s.dev.up = true) (hb : s.dev.commons.built = some r)
    (ht : s.dev.now < r.tfrom) : exec .sepRecordDeliver s = .next ⟨s.pending, s.begun.deliverRecord r⟩ := by
  have hgo : (Dev.up { s.dev with out := [] } && decide (Dev.now { s.dev with out := [] } < r.tfrom)) = true := by
    rw [show Dev.up { s.dev with out := [] } = true from hu]
    exact decide_eq_true ht
  show execSepRecordDeliver s = _
  unfold execSepRecordDeliver State.run
  simp only [hb, hgo, if_true]
  rfl

theorem sepRecordDeliver_effect {s : State} {r : SepRecord} (hu : s.dev.up = true) (hb : s.dev.commons.built = some r)
    (ht : s.dev.now < r.tfrom) : Completes .sepRecordDeliver s (fun d =>
      d.commons = { s.dev.commons with built := none, sent := pieces 4096 r.bytes } ∧ s.dev.only d [.commons] []) :=
  completes_of_next (sepRecordDeliver_run hu hb ht) ⟨rfl, keeps_only (keeps_commons (by decide) (keeps_out (keeps_refl _ _ _)))⟩

/-- The record of TFROM `t` is late: it is gone, counted and raised. -/
def Dev.lateRecord (d : Dev) (t : Nat) : Dev :=
  (Dev.bump { d.reach t with commons := { (d.reach t).commons with lateAt := none, built := none } } 0x711C).raise (srcNo 6 12) noDetail

theorem recLate_run {s : State} {t : Nat} (hu : s.dev.up = true) (ht : s.dev.commons.lateAt = some t ∨
    (s.dev.commons.lateAt = none ∧ ∃ r, s.dev.commons.built = some r ∧ r.tfrom = t)) :
    exec .recLate s = .next ⟨s.pending, s.begun.lateRecord t⟩ := by
  have hu' : Dev.up { s.dev with out := [] } = true := hu
  show execRecLate s = _
  unfold execRecLate State.run
  rcases ht with hl | ⟨hl, r, hb, rfl⟩
  · simp only [hl, hu', if_true]
    rfl
  · simp only [hl, hb, hu', if_true]
    rfl

theorem recLate_effect {s : State} {t : Nat} (hu : s.dev.up = true) (ht : s.dev.commons.lateAt = some t ∨
    (s.dev.commons.lateAt = none ∧ ∃ r, s.dev.commons.built = some r ∧ r.tfrom = t)) :
    Completes .recLate s (fun d => d.now = max s.dev.now t ∧ d.commons = { s.dev.commons with lateAt := none, built := none } ∧
      d.reg 0x711C = bumpWord (s.dev.reg 0x711C) ∧ d.evReq = s.dev.evReq ++ [(108, noDetail)] ∧
      s.dev.only d [.time, .commons, .evReq] [0x711C]) := by
  refine completes_of_next (recLate_run hu ht) ?_
  obtain ⟨x, hx, hnow⟩ := reach_at s.begun t
  rw [Dev.lateRecord, hx]
  refine ⟨congrArg TimeSt.now hnow, rfl, ?_, rfl, ?_⟩
  · rw [reg_raise, reg_bump_same]
    rfl
  · exact keeps_only (keeps_raise (by decide) (keeps_bump (by decide) (keeps_commons (by decide) (keeps_time (by decide)
      (keeps_out (keeps_refl _ _ _))))))

end Sys2Proof.Machine
end

section
/-! PROOFS. The stride boundary (R24, R117, R118, R123, R127, R128, R131): the boundary's own steps settle the plans in force, and
what follows them in the same command leaves these alone. -/

namespace Sys2Proof.Machine

variable {K : Dev → Prop} {P : Part → Prop} {R : Fld → Prop} {d d' m e : Dev} {w : Nat}

/-! ## The side of the plans -/

/-- The plans, and the set-up of the stride, as the planner holds them. -/
def PlannerSt.plans (x : PlannerSt) : Receiver × Receiver × Option Nat × Option Plan × Nat × Nat × Nat :=
  (x.servo, x.chanA, x.te, x.restart, x.phase, x.timing, x.redun)

/-- The fields in which the planner's state, its misses and the stop branch show. -/
def planFields : List Fld := [SLV_MISSC, SLV_PLSTATE, SRV_STOPBR]

/-- Two devices agree on the plans, and on the registers that show what the planner makes of them. -/
def Dev.samePlans (d e : Dev) : Prop :=
  e.planner.plans = d.planner.plans ∧ (∀ g ∈ planFields, e.get g = d.get g) ∧ e.reg 0x5448 = d.reg 0x5448

/-- A field that shows nothing of the plans. -/
@[reducible] def Fld.offPlans (f : Fld) : Prop := f.off ≠ 0x5448 ∧ ∀ g ∈ planFields, f.apart g

theorem planFields_ok : ∀ g ∈ planFields, g.ok := by decide

theorem stable_samePlans (m : Dev) : Stable m.samePlans (· ≠ .planner) Fld.offPlans := by
  intro d d' h k
  obtain ⟨hp, hg, hc⟩ := k
  have hpl : d'.planner = d.planner := upd_same (p := .planner) (fun n => n rfl) h
  exact ⟨(congrArg PlannerSt.plans hpl).trans hp, (stable_gets m planFields planFields_ok _).mono (fun _ => id) (fun _ h => h.2) h hg,
    (upd_reg (fun _ h => h.1) h).trans hc⟩

theorem Dev.samePlans.refl (d : Dev) : d.samePlans d := ⟨rfl, fun _ _ => rfl, rfl⟩

theorem Dev.samePlans.trans (h : d.samePlans m) (h' : m.samePlans e) : d.samePlans e :=
  ⟨h'.1.trans h.1, fun g hg => (h'.2.1 g hg).trans (h.2.1 g hg), h'.2.2.trans h.2.2⟩

theorem Dev.samePlans.planner (h : m.samePlans d) {x : PlannerSt} (hx : x.plans = d.planner.plans) :
    m.samePlans { d with planner := x } := ⟨hx.trans h.1, h.2.1, h.2.2⟩

theorem Dev.samePlans.updW (h : m.samePlans d) (w : Nat) (f : WallSt → WallSt) : m.samePlans (d.updW w f) := h.planner rfl

theorem offPlans_of_off {f : Fld} (h : f.off ≠ 0x5448 ∧ f.off ≠ 0x5414 ∧ f.off ≠ 0x6000) : f.offPlans := by
  obtain ⟨h1, h2, h3⟩ := h
  refine ⟨h1, fun g hg => apart_of_off ?_⟩
  simp only [planFields, List.mem_cons, List.not_mem_nil, or_false] at hg
  rcases hg with rfl | rfl | rfl
  · exact h2
  · exact h2
  · exact h3

theorem offPlans_errors : ∀ o, 0xF018 ≤ o → (Fld.whole o).offPlans := fun o h => offPlans_of_off (by
  show o ≠ 0x5448 ∧ o ≠ 0x5414 ∧ o ≠ 0x6000
  omega)

theorem offPlans_wall {f : Fld} (hf : f.off = 0x5300 + 0x80 * w) (hw : w < 2) : f.offPlans := offPlans_of_off (by omega)

theorem offPlans_course (w c : Nat) : (SLV_CSTATE w c).offPlans := offPlans_of_off (by
  show 0x5308 + 0x80 * w ≠ 0x5448 ∧ 0x5308 + 0x80 * w ≠ 0x5414 ∧ 0x5308 + 0x80 * w ≠ 0x6000
  omega)

theorem offPlans_bind (j : Nat) : (SRV_BIND j).offPlans := offPlans_of_off (by
  show 0x6100 + 4 * (j / 4) ≠ 0x5448 ∧ 0x6100 + 4 * (j / 4) ≠ 0x5414 ∧ 0x6100 + 4 * (j / 4) ≠ 0x6000
  omega)

/-! ## What precedes and what follows the plans' own steps -/

theorem mem_walls {w : Nat} (h : w ∈ [0, 1]) : w < 2 := by
  simp only [List.mem_cons, List.not_mem_nil, or_false] at h
  omega

theorem boundaryCourses_samePlans (d : Dev) : d.samePlans d.boundaryCourses := by
  refine foldl_invariant _ (fun e w _ h => ?_) (.refl d)
  refine foldl_invariant (K := d.samePlans) _ (fun e c _ h => ?_) (h.updW w _)
  split
  · exact (stable_samePlans d).put (offPlans_course w c) h
  · exact h

theorem boundaryRoles_samePlans (d : Dev) : d.samePlans d.boundaryRoles := by
  have hK := stable_samePlans d
  unfold Dev.boundaryRoles
  split
  · exact .refl d
  · refine hK.putB (by decide) (foldl_invariant (K := d.samePlans) _ (fun e w hw h => ?_) (.refl d))
    have h1 := hK.put (v := sbRole d.sbmode) (offPlans_wall rfl (mem_walls hw) : (SLV_ROLE w).offPlans) h
    split
    · exact h
    · dsimp only
      split
      · exact hK.put (offPlans_wall rfl (mem_walls hw)) (h1.updW w _)
      · exact h1

theorem activateParams_samePlans (h : m.samePlans d) : m.samePlans d.activateParams := by
  have hK := stable_samePlans m
  unfold Dev.activateParams
  split
  · exact h
  next ps cmd acc _ =>
    split
    · exact h
    · split
      · exact hK.complete (by decide) (hK.putB (by decide) (hK (.servo _ (by decide) rfl) h))
      · dsimp only
        refine hK.raise (by decide) (hK.complete (by decide) (hK (.host _ (by decide)) (hK (.host _ (by decide)) (hK.put (by decide)
          (hK.putB (by decide) (hK.putB (by decide) (hK.putB (by decide) (hK.publishAlloc offPlans_bind
            (foldl_invariant _ (fun e x _ k => hK.updE (by decide) k) (hK (.servo _ (by decide) rfl) h))))))))))

theorem dropOld_samePlans (h : m.samePlans d) : m.samePlans d.dropOld := by
  refine foldl_invariant _ (fun e w hw h => ?_) h
  dsimp only
  split
  · exact h.updW w _
  · exact (stable_samePlans m).put (offPlans_wall rfl (mem_walls hw)) (h.updW w _)

theorem loseProblem_samePlans (h : m.samePlans d) : m.samePlans d.loseProblem := by
  have h1 := foldl_invariant (K := m.samePlans) (f := fun (d : Dev) w => d.updW w (fun x => { x with next := none })) [0, 1]
    (fun e w _ h => h.updW w _) (stable_samePlans m (.kiln { d.kiln with
      prob := none, used := none, delivered := false, assembling := d.kiln.assembling || d.kiln.delivered } (by decide)) h)
  unfold Dev.loseProblem
  dsimp only
  split
  · exact dropOld_samePlans h1
  · exact h1

theorem refetchFail_samePlans (kind : Nat) (h : m.samePlans d) : m.samePlans (d.refetchFail kind) := by
  have hK := stable_samePlans m
  have h1 := fun x => hK (.host x (by decide)) (hK.errRec (l := 3) (c := 8) (p := 31) (a := 7) (i := 0) (ad := 0) (de := kind) (by decide)
    offPlans_errors (hK.raise (a := srcNo 1 3) (b := noDetail) (by decide) (hK.bump (o := 0xF054) (by decide) h)))
  unfold Dev.refetchFail Dev.copyFailed
  dsimp only
  split
  · exact loseProblem_samePlans (hK.raise (by decide) (hK.put (by decide) (h1 _)))
  · split
    · exact hK.raise (by decide) (hK.put (by decide) (h1 _))
    · exact h1 _

theorem refetch_samePlans (kind : Nat) (h : m.samePlans d) : m.samePlans (d.refetch kind) := by
  have hK := stable_samePlans m
  have h1 := hK (.kiln { d.kiln with refetch := d.kiln.refetch.filter (· != kind) ++ [kind] } (by decide)) h
  unfold Dev.refetch
  dsimp only
  split
  · exact hK.raise (by decide) h1
  · split
    · exact refetchFail_samePlans kind h1
    · exact refetchFail_samePlans kind h

theorem repeatRefetch_samePlans (h : m.samePlans d) : m.samePlans d.repeatRefetch := by
  refine foldl_invariant _ (fun e x hx h => ?_) h
  have ho : x.2.offPlans := by
    simp only [List.mem_cons, List.not_mem_nil, or_false] at hx
    rcases hx with rfl | rfl <;> decide
  split
  · exact refetch_samePlans _ ((stable_samePlans m).put ho h)
  · exact h

/-- What a stride boundary does once the plans are in force. -/
def Dev.afterPlans (d : Dev) : Dev :=
  (Dev.latchBeat (Dev.boundaryRoles { d with planner := { d.planner with counted := none } })).activateParams.repeatRefetch.hibCheck

theorem afterPlans_samePlans (d : Dev) : d.samePlans d.afterPlans :=
  have h : d.samePlans { d with planner := { d.planner with counted := none } } := (Dev.samePlans.refl d).planner rfl
  (stable_samePlans d).hibCheck (by decide) (by decide)
    (repeatRefetch_samePlans (activateParams_samePlans ((h.trans (boundaryRoles_samePlans _)).planner rfl)))

end Sys2Proof.Machine
end

section
/-! PROOFS. STRIDE_BOUNDARY itself: a plan comes into force, or the plan in force is shifted, or the restart plan is taken. -/

namespace Sys2Proof.Machine

variable {K : Dev → Prop} {P : Part → Prop} {R : Fld → Prop} {d d' m e : Dev} {w : Nat}

/-! ## A stride starts -/

/-- The device as the boundary finds it: the courses renewed and the set-up of the stride latched. -/
def Dev.atBoundary (d : Dev) : Dev :=
  { d.boundaryCourses with
    planner := { d.boundaryCourses.planner with
      phase := 0, timing := (d.boundaryCourses.reg 0x5400).toNat, redun := (d.boundaryCourses.reg 0x5404).toNat },
    kiln := { d.boundaryCourses.kiln with truncSeen := false } }

/-- A boundary's own step of the plans. -/
def Dev.boundaryPlans (d : Dev) : Dev :=
  match d.planner.restart with
  | some p => if d.plState = 1 then d.boundaryRestart p else d
  | none => if d.planning then d.boundaryRun else d

theorem strideBoundary_run {s : State} {post : Dev → Prop} (hu : s.dev.up = true) (ht : s.dev.time.ticked = true)
    (h : post s.begun.atBoundary.boundaryPlans.afterPlans) : Completes .strideBoundary s post :=
  completes_when (c := s.dev.up && s.dev.time.ticked) (a := s.begun.atBoundary.boundaryPlans.afterPlans) rfl
    (by rw [hu, ht]; rfl) h

theorem boundaryCourses_keeps (d : Dev) : d.keeps d.boundaryCourses (· = .planner) (fun o => ∃ w, o = 0x5308 + 0x80 * w) := by
  have hK := stable_keeps d (· = .planner) (fun o => ∃ w, o = 0x5308 + 0x80 * w)
  refine foldl_invariant (K := fun e => d.keeps e _ _) _ (fun e w _ h => ?_) (keeps_refl _ _ _)
  refine foldl_invariant (K := fun e => d.keeps e _ _) _ (fun e c _ h => ?_) (hK.updW rfl h)
  split
  · exact hK.put ⟨w, rfl⟩ h
  · exact h

/-- The planner of `e` differs from that of `d` in its walls alone. -/
def Dev.wallsOnly (d e : Dev) : Prop := ∃ ws, e.planner = { d.planner with walls := ws }

theorem boundaryCourses_wallsOnly (d : Dev) : d.wallsOnly d.boundaryCourses := by
  refine foldl_invariant (K := d.wallsOnly) _ (fun e w _ h => ?_) ⟨d.planner.walls, rfl⟩
  have h1 : d.wallsOnly (e.updW w (fun x => { x with mismatches := [] })) := by
    obtain ⟨ws, h⟩ := h
    exact ⟨updAt ws w _, by rw [updW_planner h]⟩
  refine foldl_invariant (K := d.wallsOnly) _ (fun e c _ h => ?_) h1
  split
  · rwa [Dev.wallsOnly, put_planner]
  · exact h

theorem atBoundary_planner (d : Dev) : ∃ ws, d.atBoundary.planner =
    { d.planner with walls := ws, phase := 0, timing := (d.reg 0x5400).toNat, redun := (d.reg 0x5404).toNat } := by
  obtain ⟨ws, h⟩ := boundaryCourses_wallsOnly d
  have hreg : ∀ o, o = 0x5400 ∨ o = 0x5404 → d.boundaryCourses.reg o = d.reg o :=
    fun o ho => (boundaryCourses_keeps d).2 o (by rintro ⟨w, rfl⟩; omega)
  refine ⟨ws, ?_⟩
  unfold Dev.atBoundary
  dsimp only
  rw [h, hreg _ (.inl rfl), hreg _ (.inr rfl)]

theorem atBoundary_get (d : Dev) {g : Fld} (hg : g ∈ planFields) : d.atBoundary.get g = d.get g :=
  (boundaryCourses_samePlans d).2.1 g hg

theorem atBoundary_misses (d : Dev) : d.atBoundary.reg 0x5448 = d.reg 0x5448 := (boundaryCourses_samePlans d).2.2

theorem atBoundary_ts (d : Dev) : d.atBoundary.ts = d.ts :=
  congrArg (fun x : TimeSt => x.layout.stride) ((boundaryCourses_keeps d).1 .time (by decide))

/-! ## The plan of the record comes into force (R123, R127, R128) -/

theorem stopAxes_planner (d : Dev) (src : Nat) : (d.stopAxes src).planner = d.planner := by
  refine foldl_invariant (K := fun e => e.planner = d.planner) _ (fun e a _ h => ?_) rfl
  split
  · exact h
  · exact h

theorem stopAxes_get (d : Dev) (src : Nat) (f : Fld) : (d.stopAxes src).get f = d.get f := by
  refine foldl_invariant (K := fun e => e.get f = d.get f) _ (fun e a _ h => ?_) rfl
  split
  · exact h
  · exact h

/-- The planner on its stop branch. -/
def PlannerSt.stopped (x : PlannerSt) (te standBeats : Nat) : PlannerSt :=
  { x with te := some te, stopReq := false, exitRun := 0, restart := none, standBeats := standBeats,
           servo := { x.servo with slot := none }, chanA := { x.chanA with slot := none } }

/-- A planner that is neither idle nor stopped shows STOPPING. -/
def Dev.showStopping (d : Dev) : Dev := if d.plState = 0 ∨ d.plState = 4 then d else d.put SLV_PLSTATE 3

theorem enterStop_eq (d : Dev) (t : Nat) : d.enterStop t =
    (Dev.putB { d with planner := d.planner.stopped (d.planner.te.getD t) (if d.plState = 3 then d.planner.standBeats else 0) }
      SRV_STOPBR true).showStopping.stopAxes 0 := rfl

theorem showStopping_planner (d : Dev) : d.showStopping.planner = d.planner := by
  unfold Dev.showStopping
  split
  · rfl
  · rw [put_planner]

theorem enterStop_planner (d : Dev) (t : Nat) : ∃ te n, (d.enterStop t).planner = d.planner.stopped te n := by
  refine ⟨d.planner.te.getD t, if d.plState = 3 then d.planner.standBeats else 0, ?_⟩
  rw [enterStop_eq, stopAxes_planner, showStopping_planner, putB_planner]

theorem enterStop_shows (d : Dev) (t : Nat) (h0 : d.plState ≠ 0) (h4 : d.plState ≠ 4) :
    (d.enterStop t).is SRV_STOPBR = true ∧ (d.enterStop t).plState = 3 := by
  rw [enterStop_eq]
  generalize hm : ({ d with planner := d.planner.stopped _ _ } : Dev) = m
  have hst : (m.putB SRV_STOPBR true).plState = d.plState := by
    rw [Dev.plState, Dev.putB, get_put_off _ _ _ _ (by decide), ← hm]
    rfl
  rw [Dev.showStopping, if_neg (by rw [hst]; exact not_or.2 ⟨h0, h4⟩)]
  constructor
  · rw [is_eq, stopAxes_get, get_put_off _ _ _ _ (by decide), ← is_eq, is_putB_same _ _ _ (by decide)]
  · rw [Dev.plState, stopAxes_get, get_put_same _ _ _ (by decide)]
    rfl

theorem countRecov_planner (d : Dev) (p : Plan) : ∃ r, (d.countRecov p).planner = { d.planner with recov := r } := by
  unfold Dev.countRecov
  split
  · split
    · exact ⟨d.planner.recov, rfl⟩
    · split
      · exact ⟨_, rfl⟩
      · exact ⟨none, by rw [putB_planner]⟩
  · exact ⟨d.planner.recov, rfl⟩

theorem countRecov_plState (d : Dev) (p : Plan) : (d.countRecov p).plState = d.plState := by
  unfold Dev.countRecov
  split
  · split
    · rfl
    · split
      · rfl
      · rw [Dev.plState, Dev.putB, get_put_apart _ _ _ _ (by decide) (by decide) (by decide)]
        rfl
  · rfl

theorem boundary_slot {r : Receiver} {ts : Nat} {p : Plan} (h : r.slot = some p) :
    r.boundary ts = { r with inForce := some p, slot := none } := by
  unfold Receiver.boundary
  rw [h]

/-- The planner once the boundary has put both receivers on their plans. -/
def PlannerSt.takes (x : PlannerSt) (p : Plan) (ts : Nat) : PlannerSt :=
  { x with servo := { x.servo with inForce := some p, slot := none }, chanA := x.chanA.boundary ts }

/-- The record's plan has come into force, and channel A has followed on its own copy. -/
def Dev.tookPlan (d : Dev) (p : Plan) : Dev := ((d.updRx true (fun r => r.boundary d.ts)).takePlan p).countRecov p

theorem tookPlan_planner (d : Dev) (p : Plan) : ∃ r, (d.tookPlan p).planner = { d.planner.takes p d.ts with recov := r } :=
  countRecov_planner _ p

theorem boundaryRun_slot {p : Plan} (h : d.planner.servo.slot = some p) :
    d.boundaryRun = if bitOf p.flags 1 then (d.tookPlan p).enterStop p.t0 else d.tookPlan p := by
  unfold Dev.boundaryRun
  rw [h]
  rfl

/-! ## A miss, and the restart plan (R24, R117, R118, R131) -/

/-- The planner that misses a record: both receivers go on with their plans shifted. -/
def PlannerSt.shifts (x : PlannerSt) (ts : Nat) : PlannerSt :=
  { x with servo := { x.servo with inForce := x.servo.inForce.map (fun p => p.shifted ts) }, chanA := x.chanA.boundary ts }

/-- The plan in force is shifted and the miss counted. -/
def Dev.missedRecord (d : Dev) : Dev × Bool := (Dev.bump { d with planner := d.planner.shifts d.ts } 0x5448).strideMiss

theorem boundaryRun_empty (h : d.planner.servo.slot = none) :
    d.boundaryRun = if d.missedRecord.1.planner.recov.isSome then d.missedRecord.1.planStop
      else if d.missedRecord.2 then d.missedRecord.1.planStop else d.missedRecord.1 := by
  unfold Dev.boundaryRun
  rw [h]
  rfl

theorem planStop_samePlans (d : Dev) : d.samePlans d.planStop :=
  ⟨by rw [planStop_planner]; rfl, fun g _ => planStop_get d g, (planStop_keeps d).2 _ id⟩

theorem boundaryRun_missed (h : d.planner.servo.slot = none) : d.missedRecord.1.samePlans d.boundaryRun := by
  rw [boundaryRun_empty h]
  split
  · exact planStop_samePlans _
  · split
    · exact planStop_samePlans _
    · exact .refl _

theorem missedRecord_plans (d : Dev) : d.missedRecord.1.planner.plans = (d.planner.shifts d.ts).plans := by
  obtain ⟨e, c, h⟩ := strideMiss_countsOnly (Dev.bump { d with planner := d.planner.shifts d.ts } 0x5448)
  unfold Dev.missedRecord
  rw [h]
  rfl

theorem missedRecord_missc (d : Dev) :
    (d.planner.counted ≠ some true → d.missedRecord.1.get SLV_MISSC = min 255 (d.get SLV_MISSC + 1)) ∧
    (d.planner.counted = some true → d.missedRecord.1.get SLV_MISSC = d.get SLV_MISSC) := by
  have hm : (Dev.bump { d with planner := d.planner.shifts d.ts } 0x5448).get SLV_MISSC = d.get SLV_MISSC := by
    rw [get_eq, reg_bump_ne _ _ _ (by decide)]
    rfl
  have hc : (Dev.bump { d with planner := d.planner.shifts d.ts } 0x5448).planner.counted = d.planner.counted := by
    rw [bump_planner]
    rfl
  unfold Dev.missedRecord
  refine ⟨fun h => ?_, fun h => ?_⟩
  · rw [strideMiss_missc (by rwa [hc]), hm]
  · unfold Dev.strideMiss
    rw [if_pos (by rwa [hc])]
    exact hm

theorem strideMiss_reg (d : Dev) : d.strideMiss.1.reg 0x5448 = d.reg 0x5448 :=
  have hK := stable_keeps d (fun _ => True) (· ≠ 0x5448)
  (hK.strideMiss trivial trivial (fun f hf => by cases hf <;> decide) (keeps_refl _ _ _)).2 _ (fun h => h rfl)

theorem missedRecord_reg (d : Dev) : d.missedRecord.1.reg 0x5448 = bumpWord (d.reg 0x5448) := by
  unfold Dev.missedRecord
  rw [strideMiss_reg, reg_bump_same]
  rfl

/-- The planner with the restart plan in force. -/
def PlannerSt.restarted (x : PlannerSt) (p : Plan) : PlannerSt :=
  { x with servo := { x.servo with inForce := some p, slot := none }, chanA := { x.chanA with inForce := some p, slot := none },
           restart := none, te := none }

theorem boundaryRestart_planner (d : Dev) (p : Plan) : (d.boundaryRestart p).planner = d.planner.restarted p := by
  unfold Dev.boundaryRestart
  dsimp only
  rw [putB_planner]
  rfl

theorem boundaryRestart_branch (d : Dev) (p : Plan) : (d.boundaryRestart p).is SRV_STOPBR = false :=
  is_putB_same _ _ _ (by decide)

/-! ## The boundary as a whole -/

def PlannerSt.setUp (x : PlannerSt) : Nat × Nat × Nat := (x.phase, x.timing, x.redun)

theorem tookPlan_plState (d : Dev) (p : Plan) : (d.tookPlan p).plState = d.plState := countRecov_plState _ p

theorem boundaryRun_setUp (d : Dev) : d.boundaryRun.planner.setUp = d.planner.setUp := by
  cases h : d.planner.servo.slot with
  | none =>
    have hp := (boundaryRun_missed h).1.trans (missedRecord_plans d)
    exact congrArg (fun x => x.2.2.2.2) hp
  | some p =>
    obtain ⟨r, htook⟩ := tookPlan_planner d p
    rw [boundaryRun_slot h]
    split
    · obtain ⟨te, n, hstop⟩ := enterStop_planner (d.tookPlan p) p.t0
      rw [hstop, htook]
      rfl
    · rw [htook]
      rfl

theorem boundaryPlans_setUp (d : Dev) : d.boundaryPlans.planner.setUp = d.planner.setUp := by
  unfold Dev.boundaryPlans
  split
  · split
    · rw [boundaryRestart_planner]
      rfl
    · rfl
  · split
    · exact boundaryRun_setUp d
    · rfl

theorem boundaryRun_servo {p : Plan} (h : d.planner.servo.slot = some p) :
    d.boundaryRun.planner.servo.inForce = some p ∧ d.boundaryRun.planner.servo.slot = none := by
  obtain ⟨r, htook⟩ := tookPlan_planner d p
  rw [boundaryRun_slot h]
  split
  · obtain ⟨te, n, hstop⟩ := enterStop_planner (d.tookPlan p) p.t0
    rw [hstop, htook]
    exact ⟨rfl, rfl⟩
  · rw [htook]
    exact ⟨rfl, rfl⟩

theorem planning_iff : d.planning = true ↔ d.plState = 1 ∨ d.plState = 2 := by
  rw [Dev.planning, Bool.or_eq_true, beq_iff_eq, beq_iff_eq]

theorem boundaryRun_stops {p : Plan} (h : d.planner.servo.slot = some p) (hp : d.planning = true) (hb : bitOf p.flags 1 = true) :
    d.boundaryRun.is SRV_STOPBR = true ∧ d.boundaryRun.plState = 3 ∧ d.boundaryRun.planner.te.isSome = true := by
  have hst := planning_iff.1 hp
  obtain ⟨te, n, hstop⟩ := enterStop_planner (d.tookPlan p) p.t0
  obtain ⟨hbr, hpl⟩ := enterStop_shows (d.tookPlan p) p.t0 (by rw [tookPlan_plState]; omega) (by rw [tookPlan_plState]; omega)
  rw [boundaryRun_slot h, hb, if_pos rfl, hstop]
  exact ⟨hbr, hpl, rfl⟩

theorem boundaryRun_chanA {p : Plan} (h : d.planner.chanA.slot = some p) :
    d.boundaryRun.planner.chanA.inForce = some p ∧ d.boundaryRun.planner.chanA.slot = none := by
  have hnext : d.planner.chanA.boundary d.ts = { d.planner.chanA with inForce := some p, slot := none } := boundary_slot h
  cases hs : d.planner.servo.slot with
  | none =>
    have hp := (boundaryRun_missed hs).1.trans (missedRecord_plans d)
    rw [show d.boundaryRun.planner.chanA = d.planner.chanA.boundary d.ts from congrArg (fun x => x.2.1) hp, hnext]
    exact ⟨rfl, rfl⟩
  | some q =>
    obtain ⟨r, htook⟩ := tookPlan_planner d q
    rw [boundaryRun_slot hs]
    split
    · obtain ⟨te, n, hstop⟩ := enterStop_planner (d.tookPlan q) q.t0
      rw [hstop, htook]
      exact ⟨congrArg Receiver.inForce hnext, rfl⟩
    · rw [htook]
      exact ⟨congrArg Receiver.inForce hnext, congrArg Receiver.slot hnext⟩

/-- A boundary at which no record waits counts a miss and shifts the plan in force. -/
theorem boundaryRun_shifts (h : d.planner.servo.slot = none) :
    (d.planner.counted ≠ some true → d.boundaryRun.get SLV_MISSC = min 255 (d.get SLV_MISSC + 1)) ∧
    (d.planner.counted = some true → d.boundaryRun.get SLV_MISSC = d.get SLV_MISSC) ∧
    d.boundaryRun.reg 0x5448 = bumpWord (d.reg 0x5448) ∧
    d.boundaryRun.planner.servo.inForce = d.planner.servo.inForce.map (fun p => p.shifted d.ts) := by
  obtain ⟨hplans, hget, hreg⟩ := boundaryRun_missed h
  have hmiss := hget SLV_MISSC (by decide)
  obtain ⟨hcount, hstay⟩ := missedRecord_missc d
  refine ⟨fun hc => hmiss.trans (hcount hc), fun hc => hmiss.trans (hstay hc), hreg.trans (missedRecord_reg d), ?_⟩
  exact congrArg (fun x => x.1.inForce) (hplans.trans (missedRecord_plans d))

theorem boundaryPlans_runs (h : d.planner.restart = none) (hp : d.planning = true) : d.boundaryPlans = d.boundaryRun := by
  unfold Dev.boundaryPlans
  rw [h]
  exact if_pos hp

theorem boundaryPlans_restarts {p : Plan} (h : d.planner.restart = some p) (h1 : d.plState = 1) :
    d.boundaryPlans = d.boundaryRestart p := by
  unfold Dev.boundaryPlans
  rw [h]
  exact if_pos h1

theorem strideBoundary_effect {s : State} (hu : s.dev.up = true) (ht : s.dev.time.ticked = true) :
    Completes .strideBoundary s (fun d =>
      d.planner.phase = 0 ∧ d.planner.timing = (s.dev.reg 0x5400).toNat ∧ d.planner.redun = (s.dev.reg 0x5404).toNat ∧
      (s.dev.planner.restart = none → s.dev.planning = true →
        (∀ p, s.dev.planner.servo.slot = some p → d.planner.servo.inForce = some p ∧ d.planner.servo.slot = none ∧
          (bitOf p.flags 1 = true → d.is SRV_STOPBR = true ∧ d.plState = 3 ∧ d.planner.te.isSome = true)) ∧
        (∀ p, s.dev.planner.chanA.slot = some p → d.planner.chanA.inForce = some p ∧ d.planner.chanA.slot = none) ∧
        (s.dev.planner.servo.slot = none → (s.dev.planner.counted ≠ some true → d.get SLV_MISSC = min 255 (s.dev.get SLV_MISSC + 1)) ∧
          (s.dev.planner.counted = some true → d.get SLV_MISSC = s.dev.get SLV_MISSC) ∧
          d.reg 0x5448 = bumpWord (s.dev.reg 0x5448) ∧
          d.planner.servo.inForce = s.dev.planner.servo.inForce.map (fun p =>
            { p with t0 := p.t0 + s.dev.ts, shifts := min 255 (p.shifts + 1) }))) ∧
      (∀ p, s.dev.planner.restart = some p → s.dev.plState = 1 → d.planner.servo.inForce = some p ∧
        d.planner.chanA.inForce = some p ∧ d.planner.te = none ∧ d.planner.restart = none ∧ d.is SRV_STOPBR = false)) := by
  refine strideBoundary_run hu ht ?_
  obtain ⟨ws, hb⟩ := atBoundary_planner s.begun
  have hts : s.begun.atBoundary.ts = s.dev.ts := atBoundary_ts _
  have hget : ∀ g ∈ planFields, s.begun.atBoundary.get g = s.dev.get g := fun g hg => atBoundary_get _ hg
  have hcnt : s.begun.atBoundary.reg 0x5448 = s.dev.reg 0x5448 := atBoundary_misses _
  generalize s.begun.atBoundary = b at *
  have hset := boundaryPlans_setUp b
  have hpl : b.plState = s.dev.plState := hget SLV_PLSTATE (by decide)
  have hbp : b.planner.servo = s.dev.planner.servo ∧ b.planner.chanA = s.dev.planner.chanA ∧
      b.planner.restart = s.dev.planner.restart ∧ b.planner.counted = s.dev.planner.counted := by
    rw [hb]
    exact ⟨rfl, rfl, rfl, rfl⟩
  obtain ⟨hservo, hchanA, hrestart, hcounted⟩ := hbp
  rw [hb] at hset
  obtain ⟨hplans, hshow, hmisses⟩ := afterPlans_samePlans b.boundaryPlans
  generalize b.boundaryPlans.afterPlans = e at *
  have hes : e.planner.servo = b.boundaryPlans.planner.servo := congrArg (fun x => x.1) hplans
  have hea : e.planner.chanA = b.boundaryPlans.planner.chanA := congrArg (fun x => x.2.1) hplans
  have het : e.planner.te = b.boundaryPlans.planner.te := congrArg (fun x => x.2.2.1) hplans
  have heset : e.planner.setUp = b.boundaryPlans.planner.setUp := congrArg (fun x => x.2.2.2.2) hplans
  have hebr : e.is SRV_STOPBR = b.boundaryPlans.is SRV_STOPBR := by
    rw [is_eq, is_eq, hshow SRV_STOPBR (by decide)]
  have hepl : e.plState = b.boundaryPlans.plState := hshow SLV_PLSTATE (by decide)
  have hstart := heset.trans hset
  refine ⟨congrArg (fun x => x.1) hstart, congrArg (fun x => x.2.1) hstart, congrArg (fun x => x.2.2) hstart, fun hr hp => ?_,
    fun p hr h1 => ?_⟩
  · have hbplan : b.planning = true := planning_iff.2 (hpl ▸ planning_iff.1 hp)
    rw [boundaryPlans_runs (hrestart.trans hr) hbplan] at hes hea het hebr hepl hshow hmisses
    rw [hes, hea, het, hebr, hepl, hmisses, hshow _ (by decide)]
    refine ⟨fun p hslot => ?_, fun p hslot => boundaryRun_chanA (hchanA ▸ hslot), fun hslot => ?_⟩
    · have hslot' : b.planner.servo.slot = some p := hservo ▸ hslot
      obtain ⟨hin, hempty⟩ := boundaryRun_servo hslot'
      exact ⟨hin, hempty, fun hbit => boundaryRun_stops hslot' hbplan hbit⟩
    · have hshift := boundaryRun_shifts (d := b) (hservo ▸ hslot)
      rw [hcounted, hget _ (by decide), hcnt, hservo, hts] at hshift
      exact hshift
  · have hq := boundaryPlans_restarts (hrestart.trans hr) (hpl.trans h1)
    have her : e.planner.restart = b.boundaryPlans.planner.restart := congrArg (fun x => x.2.2.2.1) hplans
    rw [hes, hea, het, hebr, her, hq, boundaryRestart_planner]
    exact ⟨rfl, rfl, rfl, rfl, boundaryRestart_branch b p⟩

end Sys2Proof.Machine
end

section
/-! PROOFS. The latch of the commons and separation unit (R185 to R212): what outlives its steps, and the record they build. -/

namespace Sys2Proof.Machine

variable {K : Dev → Prop} {P : Part → Prop} {R : Fld → Prop} {d d' m e : Dev} {w : Nat} {l : Latch}

/-! ## The latch's steps change no time -/

/-- `K` outlives every update that leaves cell time alone. -/
def Timeless (K : Dev → Prop) : Prop := Stable K (· ≠ .time) (fun _ => True)

theorem foldl_latch {α : Type} {f : Latch → α → Latch} (xs : List α) (hf : ∀ l a, K l.d → K (f l a).d) (h : K l.d) :
    K (xs.foldl f l).d := List.foldlRecOn (motive := fun l => K l.d) xs f h (fun l k a _ => hf l a k)

/-- The release that waited for a commons ends with a status. -/
def Dev.endRelease (d : Dev) (r : Option Nat) (st : Status) : Dev :=
  match r with
  | some c => d.finish c st
  | none => d

section
variable (hK : Timeless K)
include hK

theorem Timeless.commons {x : CommonsSt} (hx : x.rseq = d.commons.rseq) (h : K d) : K { d with commons := x } := hK (.commons _ (by decide) hx) h

theorem Timeless.finish {id : Nat} {st : Status} (h : K d) : K (d.finish id st) := Stable.complete hK (by decide) h

theorem Timeless.complete {id : Nat} {st : Status} {a b r q : Nat} (h : K d) : K (d.complete id st a b r q) :=
  Stable.complete hK (by decide) h

theorem Timeless.bump {o : Nat} (h : K d) : K (d.bump o) := Stable.bump hK trivial h

theorem Timeless.activation (h : K l.d) : K l.activation.d := by
  refine hK.commons (by exact rfl) (hK.commons (by exact rfl) (hK.commons (by exact rfl) (foldl_invariant _ (fun d x _ k => ?_)
    (foldl_invariant _ (fun d x _ k => hK.complete k) h))))
  split
  · exact hK.finish k
  · exact k

/-! Tracks. -/

theorem Timeless.setTracks {ts : List Track} (h : K l.d) : K (setTracks l ts).d := hK.commons rfl h

omit hK in
theorem coast_d (t : Track) (n : Nat) : (l.coast t n).1.d = l.d := by
  unfold Latch.coast
  dsimp only
  split <;> rfl

theorem Timeless.refresh {s : SensorEnt} {reps : List TrackRep} (h : K l.d) : K (l.refresh s reps).d :=
  hK.setTracks (l := { l with d := _ }) (Stable.bumpN hK trivial _ h)

theorem Timeless.unreported {s : SensorEnt} {reps : List TrackRep} (ts : List Track) (h : K l.d) : K (l.unreported s reps ts).d := by
  induction ts generalizing l with
  | nil => exact h
  | cons t rest ih =>
    have h1 : K (l.coast t 1).1.d := by rwa [coast_d]
    unfold Latch.unreported
    split
    · dsimp only
      split
      · exact ih (hK.bump (hK.setTracks h1))
      · exact ih (hK.setTracks h1)
    · exact ih h

theorem Timeless.newTids {s : SensorEnt} (reps : List TrackRep) (h : K l.d) : K (l.newTids s reps).d := by
  induction reps generalizing l with
  | nil => exact h
  | cons r rest ih =>
    have henter : ∀ (l : Latch) (ts : List Track) (i : Nat), K l.d →
        K (Latch.mark { Sys2Proof.Machine.setTracks l ts with d := (Sys2Proof.Machine.setTracks l ts).d.bump 0x7110 } 5 i).d :=
      fun l ts i k => hK.bump (hK.setTracks k)
    unfold Latch.newTids
    split
    · exact ih h
    · dsimp only
      split
      · exact ih (henter _ _ _ h)
      · split
        · exact ih h
        · exact ih (henter _ _ _ (hK.bump (hK.setTracks h)))

theorem Timeless.noteSensor {xs : List SensorRt} (h : K l.d) : K { l.d with commons := { l.d.commons with sensors := xs } } :=
  hK.commons rfl h

theorem Timeless.sensor {s : SensorEnt} (h : K l.d) : K (l.sensor s).d := by
  have hmark : ∀ (b : Bool) (l : Latch) (n k : Nat), K l.d → K (if b then l.mark n k else l).d := by
    intro b l n k h
    split <;> exact h
  unfold Latch.sensor
  dsimp only
  split
  · exact hK.newTids _ (hK.unreported _ (hK.refresh (hK.noteSensor (hmark _ _ _ _ (hmark _ _ _ _ h)))))
  · refine foldl_latch _ (fun l t k => ?_) (hK.noteSensor (l := if _ then _ else _) ?_)
    · split
      · refine hK.setTracks ?_
        rwa [coast_d]
      · exact k
    · split
      · exact hmark _ _ _ _ h
      · exact hK.bump (hmark _ _ _ _ h)

theorem Timeless.takeTracks (h : K l.d) : K l.takeTracks.d := by
  unfold Latch.takeTracks Latch.grow
  exact hK.setTracks (foldl_latch _ (fun l s k => hK.sensor k) (hK.commons (by exact rfl) (hK.setTracks h)))

/-! Commons. -/

theorem Timeless.updateCfp (h : K l.d) : K l.updateCfp.d := hK.commons (by exact rfl) h

theorem Timeless.setHolds {xs : List Hold} (h : K d) : K (d.setHolds xs) := hK.commons rfl h
theorem Timeless.setReqs {xs : List CReq} (h : K d) : K (d.setReqs xs) := hK.commons rfl h

theorem Timeless.endRelease {r : Option Nat} {st : Status} (h : K d) : K (d.endRelease r st) := by
  unfold Dev.endRelease
  split
  · exact hK.finish h
  · exact h

theorem Timeless.free {x : Hold} (h : K l.d) : K (l.free x).d := by
  unfold Latch.free
  exact hK.endRelease (hK.setHolds h)

theorem Timeless.clearYields (h : K l.d) : K l.clearYields.d := by
  unfold Latch.clearYields
  refine hK.commons (by exact rfl) (foldl_latch _ (fun l x k => ?_) h)
  split
  · exact hK.free k
  · exact k

theorem Timeless.request {r : HostReq} (h : K l.d) : K (l.request r).d := by
  unfold Latch.request
  dsimp only
  split
  · exact hK.finish h
  · split
    · exact hK.finish h
    · split
      · exact hK.finish h
      · split
        · split
          · exact hK.finish h
          · exact hK.finish (hK.setHolds (hK.endRelease h))
          · exact hK.finish h
        · split
          · exact hK.setReqs (hK.complete h)
          · exact hK.setReqs h

theorem Timeless.release {r : HostReq} (h : K l.d) : K (l.release r).d := by
  unfold Latch.release
  dsimp only
  split
  · split
    · split
      · exact hK.finish (hK.free h)
      · exact hK.setHolds h
    · exact hK.finish h
  · split
    · exact hK.finish (hK.setReqs (hK.complete h))
    · exact hK.finish h

theorem Timeless.hostCommands (h : K l.d) : K l.hostCommands.d := by
  unfold Latch.hostCommands
  refine foldl_latch _ (fun l r k => ?_) (hK.commons (by exact rfl) h)
  split
  · exact hK.request k
  · exact hK.release k

theorem Timeless.grantOne {cid : Nat} (h : K l.d) : K (l.grantOne cid).d := by
  unfold Latch.grantOne
  split
  · exact h
  · split
    · exact h
    · exact hK.bump (hK.complete (hK.setReqs (hK.setHolds h)))

theorem Timeless.grant (h : K l.d) : K l.grant.d := foldl_latch _ (fun _ _ k => hK.grantOne k) h

theorem Timeless.ageAll (h : K l.d) : K l.ageAll.d := hK.setReqs h

theorem Timeless.timeouts (h : K l.d) : K l.timeouts.d := by
  unfold Latch.timeouts
  exact hK.setReqs (foldl_latch _ (fun _ _ k => hK.bump (hK.complete k)) h)

theorem Timeless.buildWfg (h : K l.d) : K l.buildWfg.d := Stable.put64 hK trivial trivial h

theorem Timeless.retreat {arm cid cyc : Nat} {b : Bool} (h : K l.d) : K (l.retreat arm cid cyc b).d :=
  hK (.setReg _ trivial) (hK.commons (by exact rfl) h)

theorem Timeless.yieldOne {cyc : List Nat} (h : K l.d) : K (l.yieldOne cyc).d := by
  unfold Latch.yieldOne
  dsimp only
  split
  · exact h
  · split
    · exact h
    · exact hK.retreat (hK.bump (hK.setHolds h))

theorem Timeless.breakCycles (n : Nat) (h : K l.d) : K (l.breakCycles n).d := by
  induction n generalizing l with
  | zero => exact h
  | succ n ih =>
    unfold Latch.breakCycles
    split
    · exact h
    · exact ih (hK.yieldOne h)

theorem Timeless.intruders (h : K l.d) : K l.intruders.d := by
  unfold Latch.intruders
  refine foldl_latch _ (fun l x k => ?_) h
  dsimp only
  split
  · exact hK.retreat (hK.bump k)
  · exact k

/-- The latch up to the separation record. -/
def Latch.steps (l : Latch) : Latch :=
  ((l.takeTracks.updateCfp.clearYields.hostCommands.grant.ageAll.timeouts.buildWfg).breakCycles 64).intruders

theorem Timeless.steps (h : K l.d) : K l.steps.d :=
  hK.intruders (hK.breakCycles _ (hK.buildWfg (hK.timeouts (hK.ageAll (hK.grant (hK.hostCommands (hK.clearYields (hK.updateCfp
    (hK.takeTracks h)))))))))

end

/-! ## The record that the latch builds (R210, R211) -/

/-- The lowest limit among each arm's entries is shown. -/
def Dev.showEntries (d : Dev) (ents : List SepEntry) : Dev :=
  (List.range 8).foldl (fun (d : Dev) a =>
    d.setReg (0x70E0 + 4 * a) (BitVec.ofNat 32 (((ents.filter (fun e => e.arm == a)).map (·.vlim)).foldl min 0xFFFFFFFF))) d

theorem stable_commons (x : CommonsSt) : Stable (fun d => d.commons = x) (· ≠ .commons) (fun _ => True) :=
  fun _ _ h k => (upd_same (p := .commons) (fun n => n rfl) h).trans k

theorem showEntries_commons (d : Dev) (ents : List SepEntry) : (d.showEntries ents).commons = d.commons :=
  foldl_invariant (K := fun e => e.commons = d.commons) _ (fun _ _ _ h => stable_commons _ (.setReg _ trivial) h) rfl

/-- The entries of the record: every present arm against every track. -/
def Latch.sepEntries (l : Latch) : List SepEntry :=
  (l.m.arms.filter (fun a => l.d.armPresent l.m a.armid)).flatMap (fun a => l.d.commons.tracks.filterMap (fun t => l.sepEntry a t))

/-- The record that the latch makes. -/
def Latch.record (l : Latch) : SepRecord :=
  ⟨l.d.s + l.d.sepTd, l.d.s + l.d.sepTd + l.d.ts, (l.d.commons.rseq + 1) % 2 ^ 32,
    (if l.d.commons.sensors.any (·.lost) then 1 else 0) + (if l.d.commons.tracks.any (fun t => !t.live) then 2 else 0),
    l.d.seppcrc (some l.m), l.sepEntries⟩

/-- The device that holds the record made at the latch. -/
def Latch.recorded (l : Latch) : Dev :=
  { l.d.setReg 0x7020 (BitVec.ofNat 32 (l.d.seppcrc (some l.m))) with
    commons := { l.d.commons with rseq := l.record.rseq, built := some l.record, lateAt := none } }

theorem buildRecord_d (l : Latch) : (l.buildRecord false).d = l.recorded.showEntries l.sepEntries ∨
    (l.buildRecord false).d = (l.recorded.showEntries l.sepEntries).bump 0x7120 := by
  unfold Latch.buildRecord
  dsimp only
  rw [if_neg Bool.false_ne_true]
  split
  · exact .inr rfl
  · exact .inl rfl

theorem buildRecord_commons (l : Latch) : (l.buildRecord false).d.commons =
    { l.d.commons with rseq := l.record.rseq, built := some l.record, lateAt := none } := by
  have h := showEntries_commons l.recorded l.sepEntries
  rcases buildRecord_d l with e | e
  · rw [e, h]
    rfl
  · rw [e, bump_commons, h]
    rfl

/-- Publication writes registers alone. -/
theorem publish_commons (l : Latch) (before : List Track) : (l.publish before).d.commons = l.d.commons := by
  have hK := stable_commons l.d.commons
  have hset : ∀ (d : Dev) (o : Nat) (w : Word), d.commons = l.d.commons → (d.setReg o w).commons = l.d.commons :=
    fun d o w h => hK (.setReg _ trivial) h
  have h64 : ∀ (d : Dev) (o v : Nat), d.commons = l.d.commons → (d.put64 o v).commons = l.d.commons :=
    fun d o v h => hK.put64 trivial trivial h
  unfold Latch.publish
  dsimp only
  refine foldl_invariant (K := fun d => d.commons = l.d.commons) _ (fun d i _ h => ?_) (hset _ _ _ (h64 _ _ _ (h64 _ _ _
    (foldl_invariant (K := fun d => d.commons = l.d.commons) _ (fun d a _ h => h64 _ _ _ h)
      (foldl_invariant (K := fun d => d.commons = l.d.commons) _ (fun d k _ h => hset _ _ _ h) rfl)))))
  unfold Dev.publishTrack
  dsimp only
  split
  · exact hset _ _ _ (hset _ _ _ (hset _ _ _ (hset _ _ _ h)))
  · exact hset _ _ _ (hset _ _ _ (hset _ _ _ (hset _ _ _ h)))

/-! ## The unit's latch -/

theorem stable_clock (x : TimeSt) (n : Nat) : Timeless (fun d => d.time = x ∧ d.commons.rseq = n) :=
  Stable.and (fun _ _ h k => (upd_same (p := .time) (fun n => n rfl) h).trans k) (stable_rseq n _ _)

/-- The Kiln's models of `e` are those of `d`. -/
def Dev.sameModels (d e : Dev) : Prop :=
  e.kiln.active = d.kiln.active ∧ e.kiln.activating = d.kiln.activating ∧ e.kiln.staged = d.kiln.staged

theorem sameModels_of_kiln (h : e.kiln = d.kiln) : d.sameModels e := by
  rw [Dev.sameModels, h]
  exact ⟨rfl, rfl, rfl⟩

theorem modelDue_congr (h : d.sameModels e) (hs : e.s = d.s) : e.modelDue = d.modelDue := by
  obtain ⟨-, hact, hst⟩ := h
  unfold Dev.modelDue
  rw [hact, hst, hs]

theorem retainJoints_keeps (d : Dev) : d.keeps d.retainJoints (fun _ => False) (0xBA00 ≤ ·) := by
  have hK := stable_keeps d (fun _ => False) (0xBA00 ≤ ·)
  unfold Dev.retainJoints
  split
  · exact keeps_refl _ _ _
  · exact foldl_invariant (K := fun e => d.keeps e _ _) _ (fun e j _ h => hK (.setReg _ (by show 0xBA00 ≤ 0xBA04 + 8 * _; omega))
      (hK (.setReg _ (by show 0xBA00 ≤ 0xBA00 + 8 * _; omega)) h)) (keeps_refl _ _ _)

/-- The latch that opens on the model in force, the settings for separation taken. -/
def Latch.opened (d : Dev) (m : Model) (t : Nat) : Latch :=
  let l := Latch.open_ d.takeSepCfg m t
  { l with d := { l.d with kiln := { l.d.kiln with latchSat := d.sceneSat m l.scene } } }

/-- The latch closes: what sensors delivered is used up, and its events are raised. -/
def Latch.close (l : Latch) : Dev :=
  l.ev.foldl (fun (d : Dev) (e : Nat × Nat) => d.raise (srcNo 6 e.1) e.2)
    { l.d with heath := { l.d.heath with nodes := l.d.heath.nodes.map (fun n => { n with tracks := [] }) } }

theorem close_commons (l : Latch) : l.close.commons = l.d.commons :=
  foldl_invariant (K := fun d => d.commons = l.d.commons) _ (fun _ _ _ h => h) rfl

/-- The device as the latch finds it. -/
def Dev.latched (d : Dev) : Dev := (d.reach (d.s + 60000)).retainJoints

theorem latched_keeps (d : Dev) : d.keeps d.latched (· = .time) (0xBA00 ≤ ·) := by
  obtain ⟨x, hx, -⟩ := reach_at d (d.s + 60000)
  unfold Dev.latched
  rw [hx]
  have h := retainJoints_keeps (d.atTime x)
  exact ⟨fun p hp => same_trans
    ((keeps_time (P := (· = Part.time)) (R := (0xBA00 ≤ ·)) (x := x) rfl (keeps_refl d _ _)).1 p hp) (h.1 p id), h.2⟩

theorem latched_time (d : Dev) : ∃ x, d.latched.time = x ∧ x = { d.time with now := max d.now (d.s + 60000), frac := x.frac } := by
  obtain ⟨x, hx, hnow⟩ := reach_at d (d.s + 60000)
  refine ⟨x, ?_, hnow⟩
  unfold Dev.latched
  rw [hx]
  exact (retainJoints_keeps (d.atTime x)).1 .time id

theorem csuLatch_model {d : Dev} {m : Model} (hu : d.up = true) (hm : d.latched.modelDue = none) (ha : d.latched.kiln.active = some m)
    (hp : d.latched.plState ≠ 0) : d.csuLatch false =
      (((Latch.opened d.latched m (d.s + 60000)).steps.buildRecord false).publish d.latched.commons.tracks).close := by
  unfold Dev.csuLatch
  rw [hu]
  unfold Dev.latched at *
  dsimp only
  rw [hm, ha]
  dsimp only
  rw [if_neg (by simp), if_neg hp]
  generalize Dev.retainJoints _ = n
  simp only [Option.isSome_none, Bool.false_eq_true, if_false]
  unfold Latch.steps Latch.close Latch.opened
  dsimp only

end Sys2Proof.Machine
end

section
/-! PROOFS. CSU_LATCH (R185, R189, R210): without a model in force the queued commands are answered; with one the record is built. -/

namespace Sys2Proof.Machine

variable {K : Dev → Prop} {P : Part → Prop} {R : Fld → Prop} {O : Nat → Prop} {d d' e n : Dev} {m : Model}

/-! ## The record of a planner that runs -/

theorem csuLatch_built (hu : d.up = true) (hm : d.latched.modelDue = none) (ha : d.latched.kiln.active = some m)
    (hp : d.latched.plState ≠ 0) : ∃ r, (d.csuLatch false).commons.built = some r ∧ (d.csuLatch false).commons.lateAt = none ∧
      r.tfrom = d.s + d.sepTd ∧ r.tto = r.tfrom + d.ts ∧ r.rseq = (d.commons.rseq + 1) % 2 ^ 32 ∧
      (d.csuLatch false).commons.rseq = r.rseq := by
  obtain ⟨x, hx, hnow⟩ := latched_time d
  have hcom : d.latched.commons = d.commons := (latched_keeps d).1 .commons (by decide)
  have hopen : (Latch.opened d.latched m (d.s + 60000)).d.time = x ∧
      (Latch.opened d.latched m (d.s + 60000)).d.commons.rseq = d.commons.rseq :=
    ⟨hx, show d.latched.commons.rseq = d.commons.rseq by rw [hcom]⟩
  obtain ⟨ht, hseq⟩ := (stable_clock x d.commons.rseq).steps hopen
  rw [csuLatch_model hu hm ha hp, close_commons, publish_commons, buildRecord_commons]
  generalize (Latch.opened d.latched m (d.s + 60000)).steps = l at *
  have hs : l.d.s = d.s := by rw [Dev.s, ht, hnow]; rfl
  have hlay : l.d.time.layout = d.time.layout := by rw [ht, hnow]
  have htd : l.d.sepTd = d.sepTd := by rw [Dev.sepTd, hlay]; rfl
  have hts : l.d.ts = d.ts := by rw [Dev.ts, hlay]; rfl
  refine ⟨l.record, rfl, rfl, ?_, ?_, ?_, rfl⟩
  · show l.d.s + l.d.sepTd = _
    rw [hs, htd]
  · show l.d.s + l.d.sepTd + l.d.ts = l.d.s + l.d.sepTd + _
    rw [hts]
  · show (l.d.commons.rseq + 1) % 2 ^ 32 = _
    rw [hseq]

/-! ## The queued commands without a model -/

/-- Every command that waits for the latch is answered as of no model in force. -/
def Dev.answerQueue (d : Dev) : Dev :=
  d.commons.queue.foldl (fun (d : Dev) (r : HostReq) => d.finish r.cmd (if r.request then .rejectedParam else .rejectedState)) d

theorem csuLatch_noModel {parity : Bool} (hu : d.up = true) (hm : d.latched.modelDue = none) (ha : d.latched.kiln.active = none) :
    d.csuLatch parity = { d.latched.answerQueue with commons := { d.latched.answerQueue.commons with queue := [] } } := by
  unfold Dev.csuLatch
  rw [hu]
  unfold Dev.latched at *
  dsimp only
  rw [hm, ha]
  rfl

/-- A command that has ended. -/
def Cmd.ended (c : Cmd) (st : Status) (p q r0 r1 : Nat) : Cmd :=
  { c with started := true, progress := p, done := some ⟨st, p, q, r0, r1⟩ }

/-- The journal holds command `id`, and if `b` is set it has ended. -/
def Dev.holdsCmd (d : Dev) (id : Nat) (b : Bool) : Prop := ∃ y, d.cmd? id = some y ∧ (b = true → y.done.isSome = true)

theorem cmd_of_cmds {d e : Dev} (h : e.host.cmds = d.host.cmds) (id : Nat) : e.cmd? id = d.cmd? id := by
  unfold Dev.cmd?
  rw [h]

/-- Ending a command changes the journal only where the command has not ended yet. -/
theorem complete_cmds (d : Dev) (id : Nat) (st : Status) (p q r0 r1 : Nat) :
    ((d.complete id st p q r0 r1).host.cmds = d.host.cmds ∧ ∀ c, d.cmd? id = some c → c.done.isSome = true) ∨
    (d.complete id st p q r0 r1).host.cmds = (d.updCmd id (·.ended st p q r0 r1)).host.cmds := by
  unfold Dev.complete
  split
  next h => exact .inl ⟨rfl, fun c hc => by rw [h] at hc; cases hc⟩
  next c h =>
    split
    next hd => exact .inl ⟨rfl, fun x hx => by rw [h] at hx; exact Option.some.inj hx ▸ hd⟩
    next =>
      refine .inr ?_
      dsimp only
      split <;> split <;> rfl

theorem complete_holds {id k : Nat} {st : Status} {p q r0 r1 : Nat} {b : Bool} (h : d.holdsCmd k b) :
    (d.complete id st p q r0 r1).holdsCmd k (b || id == k) := by
  obtain ⟨y, hy, hd⟩ := h
  rcases complete_cmds d id st p q r0 r1 with ⟨e, hdone⟩ | e
  · refine ⟨y, (cmd_of_cmds e k).trans hy, fun hb => ?_⟩
    rcases Bool.or_eq_true _ _ ▸ hb with hb | hb
    · exact hd hb
    · exact hdone y ((beq_iff_eq.1 hb).symm ▸ hy)
  · by_cases hk : k = id
    · subst hk
      refine ⟨_, (cmd_of_cmds e k).trans ((cmd_updCmd_same d k (·.ended st p q r0 r1) (fun _ => rfl)).trans (congrArg _ hy)), fun _ => rfl⟩
    · refine ⟨y, (cmd_of_cmds e k).trans ((cmd_updCmd_ne d id k (·.ended st p q r0 r1) (fun _ => rfl) hk).trans hy), fun hb => hd ?_⟩
      rwa [beq_false_of_ne (Ne.symm hk), Bool.or_false] at hb

theorem finishAll_holds (q : List HostReq) {st : HostReq → Status} {k : Nat} {b : Bool} (h : d.holdsCmd k b) :
    (q.foldl (fun (d : Dev) r => d.finish r.cmd (st r)) d).holdsCmd k (b || q.any (fun r => r.cmd == k)) := by
  induction q generalizing d b with
  | nil => rwa [List.any_nil, Bool.or_false]
  | cons r q ih =>
    rw [List.any_cons, ← Bool.or_assoc]
    exact ih (complete_holds h)

theorem answerQueue_ends {r : HostReq} {x : Cmd} (hr : r ∈ d.commons.queue) (hx : d.cmd? r.cmd = some x) :
    ∃ y, d.answerQueue.cmd? r.cmd = some y ∧ y.done.isSome = true := by
  obtain ⟨y, hy, hd⟩ := finishAll_holds d.commons.queue (st := fun r => if r.request then .rejectedParam else .rejectedState)
    (d := d) (k := r.cmd) (b := false) ⟨x, hx, fun h => Bool.noConfusion h⟩
  exact ⟨y, hy, hd (List.any_eq_true.2 ⟨r, hr, beq_self_eq_true _⟩)⟩

theorem answerQueue_keeps (d : Dev) : d.keeps d.answerQueue (· = .host) (fun _ => False) :=
  foldl_invariant (K := fun e => d.keeps e _ _) _ (fun _ _ _ h => (stable_keeps d (· = .host) (fun _ => False)).complete rfl h)
    (keeps_refl _ _ _)

/-! ## What the command does around the unit's latch -/

/-- Ports 5 and 38 are open again, and the conveyor frames have moved. -/
def Dev.latchFrames (d : Dev) : Dev :=
  let d := ((d.reach (d.s + 60000)).reopen 5).reopen 38
  { d with kiln := { d.kiln with convs := d.kiln.convs.map d.convLatch } }

/-- The tools are latched for the model that this stride's check point has active. -/
def Dev.latchToolsDue (d : Dev) : Dev :=
  match d.modelDue.orElse (fun _ => d.kiln.active) with
  | some m => d.latchTools m
  | none => d

theorem csuLatch_run {s : State} {parity : Bool} {post : Dev → Prop} (hu : s.dev.up = true)
    (h : post (s.begun.latchFrames.latchToolsDue.csuLatch parity).mainsLatch.jointSample) : Completes (.csuLatch parity) s post :=
  completes_unless (c := !s.dev.up) (b := (s.begun.latchFrames.latchToolsDue.csuLatch parity).mainsLatch.jointSample) rfl
    (by rw [hu]; rfl) h

/-- What latching budgets, power and joints changes. -/
inductive SampleFld : Fld → Prop where
  | budget (g : Nat) : SampleFld (MNS_EG g)

theorem Stable.mainsLatch (hK : Stable K P R) (hh : P .host) (hm : P .mains) (hr : ∀ f, SampleFld f → R f) (h : K d) :
    K d.mainsLatch := by
  unfold Dev.mainsLatch
  split
  · exact hK (.mains _ hm) (hK.offer hh (foldl_invariant _ (fun _ b _ h => hK.put (hr _ (.budget b.gid)) h) h))
  · exact h

theorem Stable.jointSample (hK : Stable K P R) (hh : P .host) (h : K d) : K d.jointSample := hK.offer hh h

theorem powerRecord_cmds (d : Dev) : d.powerRecord.host.cmds = d.host.cmds := by
  unfold Dev.powerRecord
  dsimp only
  rw [offer_host rfl]

theorem mainsLatch_cmds (d : Dev) : d.mainsLatch.host.cmds = d.host.cmds := by
  have hb : ∀ bs, (d.latchBudgets bs).host.cmds = d.host.cmds := fun bs =>
    foldl_invariant (K := fun e => e.host.cmds = d.host.cmds) _ (fun _ _ _ h => by rw [put_host]; exact h) rfl
  unfold Dev.mainsLatch
  split
  · rw [powerRecord_cmds, hb]
  · rfl

theorem jointSample_cmds (d : Dev) : d.jointSample.host.cmds = d.host.cmds := rfl

theorem reopen_kiln (d : Dev) (p : Nat) : (d.reopen p).kiln = d.kiln := by
  unfold Dev.reopen
  split <;> rfl

theorem reopen_keeps {P : Part → Prop} {R : Nat → Prop} {p : Nat} (hv : P .evReq) (hr : R (FAB_CLOSED p).off) (h : d.keeps d' P R) :
    d.keeps (d'.reopen p) P R := by
  unfold Dev.reopen
  split
  · exact keeps_raise hv (keeps_putB hr h)
  · exact h

/-- What the frames of a latch change. -/
theorem latchFrames_keeps (d : Dev) : d.keeps d.latchFrames (· ∈ [Part.time, .evReq, .kiln]) (· ∈ [0xF010, 0xF014]) := by
  obtain ⟨x, hx, -⟩ := reach_at d (d.s + 60000)
  unfold Dev.latchFrames
  rw [hx]
  exact keeps_kiln (by decide) (reopen_keeps (by decide) (by decide) (reopen_keeps (by decide) (by decide)
    (keeps_time (by decide) (keeps_refl d _ _))))

theorem latchFrames_time (d : Dev) : ∃ x, d.latchFrames.time = x ∧
    x = { d.time with now := max d.now (d.s + 60000), frac := x.frac } := by
  obtain ⟨x, hx, hnow⟩ := reach_at d (d.s + 60000)
  refine ⟨x, ?_, hnow⟩
  have h := (reopen_keeps (p := 38) (P := (· = .evReq)) (R := fun _ => True) rfl trivial
    (reopen_keeps (p := 5) rfl trivial (keeps_refl (d.atTime x) _ _))).1 .time (by decide)
  unfold Dev.latchFrames
  rw [hx]
  exact h

theorem convLatch_congr (hf : e.field = d.field) (hk : e.kiln = d.kiln) : e.convLatch = d.convLatch := by
  funext c
  unfold Dev.convLatch Dev.fbRt
  rw [hf, hk]

theorem latchFrames_kiln (d : Dev) : d.latchFrames.kiln = { d.kiln with convs := d.kiln.convs.map d.convLatch } := by
  obtain ⟨x, hx, -⟩ := reach_at d (d.s + 60000)
  have hk : (((d.atTime x).reopen 5).reopen 38).kiln = d.kiln := by rw [reopen_kiln, reopen_kiln]; rfl
  have hf : (((d.atTime x).reopen 5).reopen 38).field = d.field :=
    (reopen_keeps (P := (· = .evReq)) (R := fun _ => True) rfl trivial
      (reopen_keeps rfl trivial (keeps_refl (d.atTime x) _ _))).1 .field (by decide)
  unfold Dev.latchFrames
  rw [hx]
  dsimp only
  rw [convLatch_congr hf hk, hk]

theorem up_congr (h : d.keeps e P O) (hs : ¬ O TST_STAGE.off) (hc : ¬ O CLK_CORELK.off) : e.up = d.up := by
  unfold Dev.up
  rw [keeps_get h hs, keeps_is h hc]

theorem latchTools_models (d : Dev) (m : Model) :
    d.sameModels (d.latchTools m) ∧ d.keeps (d.latchTools m) (· ∈ [Part.kiln, .evReq]) (· ∈ [0x5118]) := by
  have hset : ∀ (e : Dev) (x : List (Option Nat)), d.sameModels e ∧ d.keeps e (· ∈ [Part.kiln, .evReq]) (· ∈ [0x5118]) →
      d.sameModels { e with kiln := { e.kiln with tools := x } } ∧
        d.keeps { e with kiln := { e.kiln with tools := x } } (· ∈ [Part.kiln, .evReq]) (· ∈ [0x5118]) :=
    fun e x h => ⟨h.1, keeps_kiln (by decide) h.2⟩
  refine foldl_invariant (K := fun e => d.sameModels e ∧ d.keeps e (· ∈ [Part.kiln, .evReq]) (· ∈ [0x5118])) _
    (fun e a _ h => ?_) ⟨sameModels_of_kiln rfl, keeps_refl _ _ _⟩
  dsimp only
  split
  · exact hset _ _ h
  · split
    · exact h
    · split
      · exact h
      · split
        · exact hset _ _ h
        · split
          · exact hset _ _ h
          · exact ⟨h.1, keeps_raise (by decide) (keeps_putB (by decide) h.2)⟩

/-- What a latch leaves of the device as its unit finds it: the clock runs to S + 60 µs. -/
theorem latched_now {x : TimeSt} (ht : n.time = x) (hx : x = { d.time with now := max d.now (d.s + 60000), frac := x.frac }) :
    n.latched.now = max d.now (d.s + 60000) ∧ n.s = d.s ∧ n.time.layout = d.time.layout := by
  obtain ⟨y, hy, hy'⟩ := latched_time n
  have hs : n.s = d.s := by rw [Dev.s, ht, hx]; rfl
  refine ⟨?_, hs, by rw [ht, hx]⟩
  rw [Dev.now, hy, hy', hs, Dev.now, ht, hx]
  exact max_eq_left (le_max_right _ _)

theorem latched_models (hs : n.latched.s = n.s) : n.latched.modelDue = n.modelDue :=
  modelDue_congr (sameModels_of_kiln ((latched_keeps n).1 .kiln (by decide))) hs

theorem latched_s (d : Dev) : d.latched.s = d.s := by
  obtain ⟨y, hy, hy'⟩ := latched_time d
  rw [Dev.s, hy, hy']
  rfl

theorem csuLatch_noModel_effect {s : State} {parity : Bool} (hu : s.dev.up = true) (hdue : s.dev.modelDue = none)
    (ha : s.dev.kiln.active = none) : Completes (.csuLatch parity) s (fun d =>
      d.now = max s.dev.now (s.dev.s + 60000) ∧ d.commons = { s.dev.commons with queue := [] } ∧
      d.kiln = { s.dev.kiln with convs := s.dev.kiln.convs.map s.dev.convLatch } ∧
      (∀ r ∈ s.dev.commons.queue, ∀ x, s.dev.cmd? r.cmd = some x → ∃ y, d.cmd? r.cmd = some y ∧ y.done.isSome = true)) := by
  refine csuLatch_run hu ?_
  have hkept := latchFrames_keeps s.begun
  have hkiln := latchFrames_kiln s.begun
  obtain ⟨x, hx, hx'⟩ := latchFrames_time s.begun
  generalize s.begun.latchFrames = n at *
  obtain ⟨hnow, hs, -⟩ := latched_now hx hx'
  have hmodels : s.begun.sameModels n := by rw [Dev.sameModels, hkiln]; exact ⟨rfl, rfl, rfl⟩
  have hndue : n.modelDue = none := (modelDue_congr hmodels hs).trans hdue
  have hnact : n.kiln.active = none := hmodels.1.trans ha
  have hncom : n.commons = s.dev.commons := hkept.1 .commons (by decide)
  have hnhost : n.host = s.dev.host := hkept.1 .host (by decide)
  have hnup : n.up = true := (up_congr hkept (by decide) (by decide)).trans hu
  have hlk : n.latched.kiln = n.kiln := (latched_keeps n).1 .kiln (by decide)
  have hlc : n.latched.commons = n.commons := (latched_keeps n).1 .commons (by decide)
  have hlh : n.latched.host = n.host := (latched_keeps n).1 .host (by decide)
  have htools : n.latchToolsDue = n := by
    unfold Dev.latchToolsDue
    rw [hndue, hnact]
    rfl
  rw [htools, csuLatch_noModel hnup ((latched_models (latched_s n)).trans hndue) (by rw [hlk]; exact hnact)]
  have hans := answerQueue_keeps n.latched
  have hend : ∀ r ∈ s.dev.commons.queue, ∀ x, s.dev.cmd? r.cmd = some x →
      ∃ y, n.latched.answerQueue.cmd? r.cmd = some y ∧ y.done.isSome = true := fun r hr x hx =>
    answerQueue_ends (by rw [hlc, hncom]; exact hr) ((cmd_of_cmds (by rw [hlh, hnhost]) _).trans hx)
  generalize hq : n.latched.answerQueue = q at *
  generalize hmid : ({ q with commons := { q.commons with queue := [] } } : Dev) = mid
  have hmt : mid.time = n.latched.time := hmid ▸ hans.1 .time (by decide)
  have hqc : q.commons = n.latched.commons := hans.1 .commons (by decide)
  have hmc : mid.commons = { s.dev.commons with queue := [] } := by
    rw [← hmid, hqc, hlc, hncom]
  have hmk : mid.kiln = n.latched.kiln := hmid ▸ hans.1 .kiln (by decide)
  have hmh : mid.host.cmds = q.host.cmds := hmid ▸ rfl
  have hK := stable_keeps mid (fun p => p = .host ∨ p = .mains) (fun _ => True)
  have hfin := hK.jointSample (.inl rfl) (hK.mainsLatch (.inl rfl) (.inr rfl) (fun _ _ => trivial) (keeps_refl _ _ _))
  have hft : mid.mainsLatch.jointSample.time = mid.time := hfin.1 .time (by decide)
  have hfc : mid.mainsLatch.jointSample.commons = mid.commons := hfin.1 .commons (by decide)
  have hfk : mid.mainsLatch.jointSample.kiln = mid.kiln := hfin.1 .kiln (by decide)
  have hfh : mid.mainsLatch.jointSample.host.cmds = q.host.cmds := by rw [jointSample_cmds, mainsLatch_cmds, hmh]
  refine ⟨?_, hfc.trans hmc, ?_, fun r hr x hx => ?_⟩
  · rw [Dev.now, hft, hmt]
    exact hnow
  · rw [hfk, hmk, hlk]
    exact hkiln
  · obtain ⟨y, hy, hd⟩ := hend r hr x hx
    exact ⟨y, (cmd_of_cmds hfh _).trans hy, hd⟩

theorem csuLatch_model_effect {s : State} {m : Model} (hu : s.dev.up = true) (hdue : s.dev.modelDue = none)
    (ha : s.dev.kiln.active = some m) (hp : s.dev.plState ≠ 0) : Completes (.csuLatch false) s (fun d =>
      ∃ r, d.commons.built = some r ∧ d.commons.lateAt = none ∧ r.tfrom = s.dev.s + s.dev.sepTd ∧
        r.tto = r.tfrom + s.dev.ts ∧ r.rseq = (s.dev.commons.rseq + 1) % 2 ^ 32 ∧ d.commons.rseq = r.rseq) := by
  refine csuLatch_run hu ?_
  have hkept := latchFrames_keeps s.begun
  have hkiln := latchFrames_kiln s.begun
  obtain ⟨x, hx, hx'⟩ := latchFrames_time s.begun
  generalize s.begun.latchFrames = n at *
  obtain ⟨-, hs, hlay⟩ := latched_now hx hx'
  have hmodels : s.begun.sameModels n := by rw [Dev.sameModels, hkiln]; exact ⟨rfl, rfl, rfl⟩
  have hndue : n.modelDue = none := (modelDue_congr hmodels hs).trans hdue
  have htools : n.latchToolsDue = n.latchTools m := by
    unfold Dev.latchToolsDue
    rw [hndue, hmodels.1.trans ha]
    rfl
  rw [htools]
  obtain ⟨hqm, hq⟩ := latchTools_models n m
  generalize n.latchTools m = q at *
  have hqt : q.time = n.time := hq.1 .time (by decide)
  have hqs : q.s = s.dev.s := (congrArg TimeSt.strideAt hqt).trans hs
  have hqc : q.commons = s.dev.commons := (hq.1 .commons (by decide)).trans (hkept.1 .commons (by decide))
  have hqu : q.up = true := (up_congr hq (by decide) (by decide)).trans ((up_congr hkept (by decide) (by decide)).trans hu)
  have hlk : q.latched.kiln = q.kiln := (latched_keeps q).1 .kiln (by decide)
  have hqdue : q.latched.modelDue = none :=
    (latched_models (latched_s q)).trans ((modelDue_congr hqm (congrArg TimeSt.strideAt hqt)).trans hndue)
  have hqa : q.latched.kiln.active = some m := (congrArg KilnSt.active hlk).trans (hqm.1.trans (hmodels.1.trans ha))
  have hqp : q.latched.plState ≠ 0 := by
    have h : q.latched.plState = s.dev.plState := (keeps_get (latched_keeps q) (by decide)).trans
      ((keeps_get hq (by decide)).trans (keeps_get hkept (by decide)))
    rwa [h]
  obtain ⟨r, hb, hl, hfrom, hto, hseq, hlast⟩ := csuLatch_built hqu hqdue hqa hqp
  have hqlay : q.time.layout = s.dev.time.layout := (congrArg TimeSt.layout hqt).trans hlay
  have hfin : (q.csuLatch false).mainsLatch.jointSample.commons = (q.csuLatch false).commons :=
    have hK := stable_commons (q.csuLatch false).commons
    hK.jointSample (by decide) (hK.mainsLatch (by decide) (by decide) (fun _ _ => trivial) rfl)
  rw [hfin]
  refine ⟨r, hb, hl, ?_, ?_, ?_, hlast⟩
  · rw [hfrom, hqs, Dev.sepTd, hqlay]
    rfl
  · rw [hto, Dev.ts, hqlay]
    rfl
  · rw [hseq, hqc]

theorem plannerRestart_error {s : State} (hl : s.dev.linked = true) (h : s.dev.plState ≠ 4) :
    Completes .plannerRestart s (fun d => d.is (GLB_BLKERR 5) = true ∧ s.dev.only d [.evReq] [0x10]) := by
  refine completes_when (c := s.dev.linked) (a := s.begun.plannerRestart) rfl hl ?_
  rw [plannerRestart_refused (d := s.begun) h]
  exact ⟨is_regErr_same _ (by decide), keeps_only (keeps_regErr (by decide) (by decide) (keeps_out (keeps_refl _ _ _)))⟩

/-- Settles O47, by the effect of each command. -/
theorem boundaryAndControl : Obligations.BoundaryAndControl := by
  unfold Obligations.BoundaryAndControl
  intro s hu
  refine ⟨strideBoundary_effect hu, plannerStopped_effect hu, fun hl => ⟨plannerRestart_error hl, ?_, ?_⟩, fun w x => wallGiveUp_effect hu,
    fun t f => dualActWindowClose_effect hu, fun parity hdue => ⟨csuLatch_noModel_effect hu hdue, ?_⟩,
    fun r => sepRecordDeliver_effect hu, fun t => recLate_effect hu⟩
  · exact fun a m ha hm h4 => plannerRestart_effect hl ha hm h4
  · exact fun w x => wallRejoin_effect hl
  · rintro m ha hp rfl
    exact csuLatch_model_effect hu hdue ha hp

end Sys2Proof.Machine
end

section
/-! PROOFS. What the operations of a beat change: no model of the Kiln, no commons and no time of their own, and of the registers
below the Heathline's none but the heartbeat's age and TIM_RUNNING (R265, R271, R275, R277, R281). -/

namespace Sys2Proof.Machine

variable {K : Dev → Prop} {P : Part → Prop} {R : Fld → Prop} {O : Nat → Prop} {d d' e n : Dev} {p a gj : Nat}

/-- The parts that the operations of a beat change. -/
@[reducible] def BeatPart (p : Part) : Prop :=
  p ∈ [Part.evReq, .freeCtr, .boot, .host, .engSrcs, .heath, .planner, .servo, .safety, .field, .fbs, .ret, .fabric, .mains]

/-- The offsets that they write: the Heathline's and those above it but HTL_BEAT, the heartbeat's age and TIM_RUNNING. -/
@[reducible] def BeatOff (o : Nat) : Prop := 0x4000 ≤ o ∧ o ≠ 0x4010 ∨ o = 0x100C ∨ o = 0x3040

/-- `K` outlives every update that the operations of a beat make. -/
def Beating (K : Dev → Prop) : Prop := Stable K BeatPart (fun f => BeatOff f.off)

theorem node_off (a : Nat) : BeatOff (0x4400 + 8 * (a - 1)) := .inl (by omega)
theorem station_off (a : Nat) : BeatOff (HTL_NSTATION a).off := .inl (by show _ ≤ 0x4404 + _ ∧ 0x4404 + _ ≠ _; omega)
theorem switchMiss_off (i : Nat) : BeatOff (HTL_MSWMISS i).off := .inl (by show _ ≤ 0x4034 + _ ∧ 0x4034 + _ ≠ _; omega)
theorem fio_off (n k : Nat) : BeatOff (fioReg n k) := .inl (by unfold fioReg; omega)
theorem bind_off (j : Nat) : BeatOff (SRV_BIND j).off := .inl (by show _ ≤ 0x6100 + _ ∧ 0x6100 + _ ≠ _; omega)
theorem port_off (p : Nat) : BeatOff (0x4020 + 4 * p) := .inl (by omega)
theorem error_off (p k : Nat) : BeatOff (HTL_PERR p k) := .inl (by unfold HTL_PERR; omega)

/-! ## Joints -/

section
variable (hK : Stable K P R) (hs : P .servo)
include hK hs

theorem Stable.putSlot {ws : List (Nat × Word)} (h : K d) : K (d.putSlot gj ws) := by
  unfold Dev.putSlot
  split
  · exact hK.updE hs h
  · exact h

theorem Stable.clearChain (h : K d) : K (d.clearChain gj) := hK.putSlot hs (hK.updJ hs h)

theorem Stable.stopDelivering (h : K d) : K (d.stopDelivering gj) := hK.updJ hs (hK.clearChain hs h)

theorem Stable.slotReady (h : K d) : K (d.slotReady gj) := by
  unfold Dev.slotReady
  split
  · split
    · exact h
    · exact hK.updE hs h
  · exact h

theorem Stable.markMissing (hf : P .fbs) (hv : P .evReq) (hc : R (.whole 0x604C)) (h : K d) : K (d.markMissing gj) := by
  have h1 := fun x => hK (.fbs x hf) h
  unfold Dev.markMissing
  dsimp only
  split
  · exact h1 _
  · exact hK.raise hv (hK.bump hc (hK.updJ hs (h1 _)))

theorem Stable.feed {f : JointFb} (hf : P .fbs) (h : K d) : K (d.feed f) := hK.putSlot hs (hK.updJ hs (hK (.fbs _ hf) h))

theorem Stable.deliver {f : JointFb} (hf : P .fbs) (h : K d) : K (d.deliver f) := hK.slotReady hs (hK.updJ hs (hK.feed hs hf h))

end

/-! ## Updates of a beat -/

section
variable (hK : Beating K)
include hK

theorem Beating.heath {x : HeathSt} (h : K d) : K { d with heath := x } := hK (.heath _ (by decide)) h
theorem Beating.updN {f : NodeRt → NodeRt} (h : K d) : K (d.updN a f) := hK.heath h
theorem Beating.updP {f : PortRt → PortRt} (h : K d) : K (d.updP p f) := hK.heath h
theorem Beating.raise {s n : Nat} (h : K d) : K (d.raise s n) := Stable.raise hK (by decide) h
theorem Beating.put {f : Fld} {v : Nat} (hf : BeatOff f.off) (h : K d) : K (d.put f v) := Stable.put hK hf h
theorem Beating.putB {f : Fld} {b : Bool} (hf : BeatOff f.off) (h : K d) : K (d.putB f b) := Stable.putB hK hf h
theorem Beating.bump {o : Nat} (ho : BeatOff o) (h : K d) : K (d.bump o) := Stable.bump hK ho h
theorem Beating.putNode {v : Nat} {hi lo : Nat} (h : K d) : K (d.put ⟨0x4400 + 8 * (a - 1), hi, lo⟩ v) := hK.put (node_off a) h
theorem Beating.putPort {v : Nat} {hi lo : Nat} (h : K d) : K (d.put ⟨0x4020 + 4 * p, hi, lo⟩ v) := hK.put (port_off p) h
theorem Beating.complete {id : Nat} {st : Status} {x q r0 r1 : Nat} (h : K d) : K (d.complete id st x q r0 r1) :=
  Stable.complete hK (by decide) h

theorem Beating.stopDelivering (h : K d) : K (d.stopDelivering gj) := Stable.stopDelivering hK (by decide) h

/-! ## Nodes -/

theorem Beating.countJoined (h : K d) : K (d.countJoined p) := hK.putPort h

theorem Beating.toAbsent (h : K d) : K (d.toAbsent a) := by
  unfold Dev.toAbsent
  exact hK.countJoined (foldl_invariant _ (fun _ _ _ k => hK.stopDelivering k) (hK.heath (hK.updN (hK.putNode h))))

theorem Beating.refuse {c : Nat} (h : K d) : K (d.refuse p a c) := hK.raise (hK.putNode (hK.bump (error_off p 6) h))

theorem Beating.joinUnanswered (h : K d) : K (d.joinUnanswered p) := by
  have h1 := fun f => hK.updP (p := p) (f := f) h
  unfold Dev.joinUnanswered
  split
  · exact h
  · dsimp only
    split
    · exact hK.putNode (h1 _)
    · exact hK.toAbsent (hK.refuse (h1 _))
    · exact hK.toAbsent (hK.refuse (h1 _))
    · exact hK.toAbsent (hK.refuse (h1 _))
    · exact h1 _

theorem Beating.nodeEnd (h : K d) : K (d.nodeEnd p a) := by
  unfold Dev.nodeEnd
  split
  · exact h
  · dsimp only
    split
    · exact h
    · split
      · split
        · exact hK.raise (hK.toAbsent h)
        · split
          · exact hK.putNode h
          · split
            · exact hK.raise (hK.toAbsent (hK.putNode h))
            · exact hK.putNode h
      · split
        · split
          · exact hK.toAbsent (hK.refuse h)
          · split
            · exact hK.raise (hK.countJoined (hK.putNode h))
            · exact hK.updN h
        · exact h

theorem Beating.heathEnd (h : K d) : K d.heathEnd := by
  refine foldl_invariant _ (fun d p _ k => ?_) h
  split
  · exact k
  · exact foldl_invariant _ (fun _ _ _ k => hK.nodeEnd k) (hK.joinUnanswered k)

/-! ## Ports and schedules -/

theorem Beating.haltPort (h : K d) : K (d.haltPort p) := by
  unfold Dev.haltPort
  refine hK.updP (hK.countJoined (hK.putB (port_off p) (hK.putB (port_off p) (hK.putB (port_off p) (foldl_invariant _ (fun d a _ k => ?_) h)))))
  split
  · exact k
  · exact hK.toAbsent k

theorem Beating.startPort (h : K d) : K (d.startPort p) := by
  unfold Dev.startPort
  split
  · exact hK.haltPort h
  · exact hK.putB (by decide) (hK.putPort (hK.putB (port_off p)
      (foldl_invariant _ (fun _ _ _ k => hK.updN (hK.putNode k)) (hK.haltPort h))))

theorem Beating.dropSchedule (h : K d) : K d.dropSchedule := by
  unfold Dev.dropSchedule
  exact hK.put (by decide) (hK.heath (foldl_invariant _ (fun _ i _ k =>
    hK (.setReg _ (.inl (by show _ ≤ 0x4404 + 8 * i ∧ 0x4404 + 8 * i ≠ _; omega)))
    (hK (.setReg _ (.inl (by show _ ≤ 0x4400 + 8 * i ∧ 0x4400 + 8 * i ≠ _; omega))) k)) (foldl_invariant _ (fun _ _ _ k => hK.haltPort k) h)))

theorem Beating.takeSchedule {s : Sched} (h : K d) : K (d.takeSchedule s) := by
  unfold Dev.takeSchedule
  refine hK.raise (hK.put (by decide) (foldl_invariant _ (fun d p _ k => ?_) (foldl_invariant _ (fun d x _ k =>
    hK.put (station_off _) (hK.putNode k)) (hK.heath (hK.dropSchedule h)))))
  have h1 := hK.putB (f := HTL_PENP p) (b := (s.ports.getD p none).isSome) (show BeatOff 0x4004 by decide) k
  dsimp only
  split
  · exact hK.startPort h1
  · exact h1

theorem Beating.host {x : HostSt} (h : K d) : K { d with host := x } := hK (.host _ (by decide)) h

theorem Beating.scheduleBoundary (h : K d) : K d.scheduleBoundary := by
  have h1 := fun x => hK.heath (x := x) h
  unfold Dev.scheduleBoundary
  split
  · exact h
  · dsimp only
    split
    · exact hK.complete (h1 _)
    · split
      · exact hK.complete (h1 _)
      · exact hK.complete (hK.host (hK.host (hK.takeSchedule (h1 _))))

theorem Beating.decideSwitch (h : K d) : K d.decideSwitch := hK.heath h

theorem Beating.switchBoundary (h : K d) : K d.switchBoundary := by
  unfold Dev.switchBoundary
  split
  · exact h
  next s0 _ =>
    split
    · exact h
    next b _ =>
      split
      · exact h
      · dsimp only
        have h1 := fun x (ports : List Nat) (miss : Nat → Bool) v => hK.put (f := HTL_MSWPORTS) (v := v) (by decide)
          (foldl_invariant (K := K) (f := fun (d : Dev) i => d.putB (HTL_MSWMISS (i + 1)) (miss (i + 1))) (List.range 96)
            (fun _ i _ k => hK.putB (switchMiss_off (i + 1)) k)
            (foldl_invariant (K := K) (f := fun (d : Dev) p => d.putB (HTL_SWPEND p) false) ports (fun _ p _ k => hK.putB (port_off p) k)
              (hK.heath (x := x) (hK.decideSwitch h))))
        split
        · refine hK.complete (hK.raise (hK.put (by decide) (foldl_invariant _ (fun d p _ k => ?_)
            (h1 _ _ _ _))))
          split
          · exact k
          · refine foldl_invariant _ (fun d a _ k => ?_) (hK.putPort k)
            split
            · exact k
            · split
              · exact hK.raise (hK.toAbsent k)
              · refine foldl_invariant _ (fun d j _ k => ?_) k
                split
                · exact k
                · exact hK.stopDelivering k
        · exact hK.complete (hK.raise (hK.put (by decide) (h1 _ _ _ _)))

theorem Beating.switchBegin (h : K d) : K d.switchBegin := by
  unfold Dev.switchBegin
  split
  · exact h
  · split
    · exact h
    · exact foldl_invariant _ (fun _ p _ k => hK.putB (port_off p) k) (hK.heath h)

theorem Beating.portBoundary (h : K d) : K d.portBoundary := by
  refine foldl_invariant _ (fun d p _ k => ?_) h
  dsimp only
  split
  · exact hK.startPort k
  · split
    · exact hK.haltPort k
    · exact k

theorem Beating.beginPort (h : K d) : K (d.beginPort p) := by
  have h1 : ∀ (f : PortRt → PortRt) (b : Bool) (g : Dev → Nat → NodeRt → NodeRt) (as : List Nat),
      K (as.foldl (fun (d : Dev) a => d.updN a (g d a)) ((d.putB (HTL_BKUP p) b).updP p f)) := fun f b g as =>
    foldl_invariant _ (fun _ _ _ k => hK.updN k) (hK.updP (hK.putB (port_off p) h))
  unfold Dev.beginPort
  dsimp only
  split
  · exact hK (.send _) (hK.updP (h1 _ _ _ _))
  · exact h1 _ _ _ _

theorem Beating.heathBegin (h : K d) : K d.heathBegin := by
  unfold Dev.heathBegin
  exact foldl_invariant _ (fun _ _ _ k => hK.beginPort k)
    (hK.switchBegin (hK.heath (hK.portBoundary (hK.scheduleBoundary (hK.switchBoundary h)))))

/-! ## The other units at a beat -/

theorem Beating.planner {x : PlannerSt} (hr : x.recov = d.planner.recov) (hw : x.window = d.planner.window) (h : K d) :
    K { d with planner := x } := hK (.planner _ (by decide) hr hw) h

theorem Beating.safety {x : SafetySt} (h : K d) : K { d with safety := x } := hK (.safety _ (by decide)) h

theorem Beating.drive {b : Bool} (h : K d) : K (d.drive b) := by
  unfold Dev.drive
  refine hK.safety ?_
  split
  · exact hK.safety h
  · exact hK.safety h

theorem Beating.setReg {o : Nat} {w : Word} (ho : BeatOff o) (h : K d) : K (d.setReg o w) := hK (.setReg _ ho) h

theorem Beating.publishCh (h : K d) : K (d.publishCh false) := by
  unfold Dev.publishCh
  exact hK.setReg (by decide) (hK.setReg (by decide) (hK.setReg (by decide) (hK.setReg (by decide) (hK.setReg (by decide)
    (hK.setReg (by decide) (hK.setReg (by decide) h))))))

theorem Beating.settle {b : Bool} (h : K d) : K (d.settle b) := by
  unfold Dev.settle
  split
  · exact hK.drive h
  · exact hK.publishCh (hK.drive h)

theorem Beating.dropForBeat (h : K d) : K d.dropForBeat := by
  have hset : ∀ (d : Dev) (b : Bool), K d → K (if d.chUp b then d.settle b else d) := fun d b k => by
    split
    · exact hK.settle k
    · exact k
  have hsched : K (((d.dropSchedule.put HTL_PEN 0).releaseCopy 4 0).releaseCopy 5 0) :=
    hK.host (hK.host (hK.put (by decide) (hK.dropSchedule h)))
  unfold Dev.dropForBeat
  generalize ((d.dropSchedule.put HTL_PEN 0).releaseCopy 4 0).releaseCopy 5 0 = q at hsched
  have hunset : K { q with servo := { q.servo with params := none, joints := [], unbound := [] }
                           safety := { q.safety with inForce := false } } :=
    hK.safety (hK (.servo { q.servo with params := none, joints := [], unbound := [] } (by decide) rfl) hsched)
  exact hset _ _ (hset _ _ (Stable.publishAlloc hK bind_off
    (hK.put (by decide) (hK.putB (by decide) (hK.putB (by decide) hunset)))))

theorem Beating.fbEnable {n : Nat} (h : K d) : K (d.fbEnable n) := by
  have h1 := fun f => hK.put (f := FIO_STATE n) (v := 1) (fio_off n _) (hK.putB (f := FIO_FAULTB n) (b := false)
    (show BeatOff 0xA700 by decide) (hK (.field { d.field with fb := updAt d.field.fb n f } (by decide)) h))
  unfold Dev.fbEnable
  dsimp only
  split
  · exact hK.put (fio_off n _) (h1 _)
  · split
    · exact h1 _
    · exact hK.raise (hK.put (fio_off n _) (h1 _))

theorem Beating.fieldBeat (h : K d) : K d.fieldBeat := by
  unfold Dev.fieldBeat
  refine foldl_invariant _ (fun d n _ k => hK (.field _ (by decide)) k) (foldl_invariant _ (fun d n _ k => ?_) h)
  have h1 := fun f => hK (.field { d.field with fb := updAt d.field.fb n f } (by decide)) k
  dsimp only
  split
  · exact h1 _
  · split
    · split
      · exact hK.fbEnable (h1 _)
      · exact h1 _
    · split
      · exact hK.put (fio_off n _) (h1 _)
      · exact h1 _

theorem Beating.stopAxes {src : Nat} (h : K d) : K (d.stopAxes src) := by
  refine foldl_invariant _ (fun d a _ k => ?_) h
  split
  · exact hK (.field _ (by decide)) k
  · exact k

theorem Beating.showStopping (h : K d) : K d.showStopping := by
  unfold Dev.showStopping
  split
  · exact h
  · exact hK.put (by decide) h

theorem Beating.enterStop {t : Nat} (h : K d) : K (d.enterStop t) := by
  rw [enterStop_eq]
  exact hK.stopAxes (hK.showStopping (hK.putB (by decide) (hK.planner rfl rfl h)))

theorem Beating.stopTick {t : Nat} (h : K d) : K (d.stopTick t) := by
  have h1 : ∀ d1 : Dev, K d1 → K (if !d1.planner.stopReq then d1
      else if d1.plState = 4 then { d1 with planner := { d1.planner with stopReq := false } } else d1.enterStop t) := fun d1 k => by
    split
    · exact k
    · split
      · exact hK.planner rfl rfl k
      · exact hK.enterStop k
  unfold Dev.stopTick
  refine h1 _ ?_
  split
  · exact hK.planner rfl rfl h
  · exact h

theorem Beating.reopen {p : Nat} (hp : BeatOff (FAB_CLOSED p).off) (h : K d) : K (d.reopen p) := by
  unfold Dev.reopen
  split
  · exact hK.raise (hK.putB hp h)
  · exact h

theorem Beating.showAge (h : K d) : K d.showAge := by
  unfold Dev.showAge
  split
  · exact hK.put (by decide) h
  · exact h

end

end Sys2Proof.Machine
end

section
/-! PROOFS. BEAT_TICK (R25, R265, R293): the beat that ends, the beat that begins, and what each leaves alone. -/

namespace Sys2Proof.Machine

variable {K : Dev → Prop} {P : Part → Prop} {R : Fld → Prop} {O : Nat → Prop} {d d' e n : Dev} {p a gj : Nat}

theorem stable_time (Q : TimeSt → Prop) : Beating (fun d => Q d.time) :=
  fun d d' h k => by
    have ht : d'.time = d.time := upd_same (p := .time) (by decide) h
    show Q d'.time
    rwa [ht]

/-! ## The beat that ends -/

theorem Beating.takeTimeConfig (hK : Beating K) (ht : ∀ (d : Dev) l, K d → K { d with time := { d.time with layout := l, pending := none } })
    (h : K d) : K d.takeTimeConfig := by
  unfold Dev.takeTimeConfig
  split
  · exact h
  · dsimp only
    split
    · exact hK.complete (hK.raise (hK.dropForBeat (ht _ _ h)))
    · exact hK.complete (hK.raise (ht _ _ h))

/-- The beat that ends, and the layout that begins with the next. -/
def Dev.beatEnds (d : Dev) : Dev :=
  let m := d.reach d.nextBeat.1
  let m := if !d.time.ticked then m else m.heathEnd
  if d.nextBeat.2 then m.takeTimeConfig else m

/-- The registers of a beat: the Heathline's and those above them, the heartbeat's age and TIM_RUNNING. -/
@[reducible] def BeatReg (o : Nat) : Prop := 0x4000 ≤ o ∨ o = 0x100C ∨ o = 0x3040

/-- The frame of a beat. -/
def Dev.beatFrames (d e : Dev) : Prop := d.keeps e (fun p => BeatPart p ∨ p = .time) BeatReg

theorem beating_beatFrames (d : Dev) : Beating d.beatFrames :=
  (stable_keeps d (fun p => BeatPart p ∨ p = .time) BeatReg).mono (fun _ => .inl) (fun _ h => h.imp_left And.left)

theorem beating_get {g : Fld} (v : Nat) (hg : g.ok) (ho : ¬ BeatOff g.off) : Beating (fun d => d.get g = v) :=
  (stable_get g v hg BeatPart).mono (fun _ => id) (fun _ hf => apart_of_off (fun he => ho (he ▸ hf)))

/-- What the beat that ends leaves for the one that begins: the frame, HTL_BEAT, the beat's place in the stride, and cell time, which
has come to the instant. -/
def Dev.endsAs (d e : Dev) : Prop :=
  d.beatFrames e ∧ e.get HTL_BEAT = d.get HTL_BEAT ∧ e.time.now = max d.now d.nextBeat.1 ∧ e.time.bis = d.time.bis ∧
    e.time.strideAt = d.time.strideAt

theorem beatEnds_endsAs (d : Dev) : d.endsAs d.beatEnds := by
  have hK : Beating d.endsAs := (beating_beatFrames d).and ((beating_get _ (by decide) (by decide)).and
    (stable_time (fun x => x.now = max d.now d.nextBeat.1 ∧ x.bis = d.time.bis ∧ x.strideAt = d.time.strideAt)))
  obtain ⟨x, hx, hnow⟩ := reach_at d d.nextBeat.1
  have hbis := congrArg TimeSt.bis hnow
  have hat := congrArg TimeSt.strideAt hnow
  have h1 : d.endsAs (d.atTime x) := ⟨keeps_time (.inr rfl) (keeps_refl _ _ _), rfl, congrArg TimeSt.now hnow, hbis, hat⟩
  have h2 : d.endsAs (if !d.time.ticked then d.atTime x else (d.atTime x).heathEnd) := by
    split
    · exact h1
    · exact hK.heathEnd h1
  unfold Dev.beatEnds
  rw [hx]
  dsimp only
  split
  · exact hK.takeTimeConfig (fun e l ⟨hf, hb, ht⟩ => ⟨keeps_time (.inr rfl) hf, hb, ht⟩) h2
  · exact h2

theorem beatEnds_layout {d : Dev} (h : d.nextBeat.2 = false) : d.beatEnds.time.layout = d.time.layout := by
  have hK := stable_time (fun x => x.layout = d.time.layout)
  obtain ⟨x, hx, hnow⟩ := reach_at d d.nextBeat.1
  have hlay := congrArg TimeSt.layout hnow
  have h1 : (d.atTime x).time.layout = d.time.layout := hlay
  unfold Dev.beatEnds
  rw [hx, h]
  dsimp only
  rw [if_neg Bool.false_ne_true]
  split
  · exact h1
  · exact hK.heathEnd h1

/-! ## The beat that begins -/

/-- The beat's number advances. -/
def Dev.nextNumber (d : Dev) : Dev := d.beatEnds.put HTL_BEAT ((d.beatEnds.get HTL_BEAT + 1) % 2 ^ 32)

/-- The place in the stride of the beat that begins. -/
def Dev.nextBis (d : Dev) : Nat :=
  if d.nextBeat.2 || !d.time.ticked then 0 else (d.nextNumber.time.bis + 1) % d.nextNumber.time.layout.strb

/-- The clock of the beat that begins. -/
def Dev.beatClock (d : Dev) : TimeSt :=
  { d.nextNumber.time with
    ticked := true, beatAt := d.nextBeat.1, bis := d.nextBis,
    strideAt := if d.nextBis = 0 then d.nextBeat.1 else d.nextNumber.time.strideAt }

/-- The number and the clock of the beat that begins. -/
def Dev.beatCounts (d : Dev) : Dev := { d.nextNumber with time := d.beatClock }

/-- The units at the start of a beat. -/
def Dev.beatUnits (d : Dev) (bis : Nat) : Dev :=
  let d := (d.latchBeat.heathBegin.reopen 36).reopen 37
  (if bis = 0 then d.reopen 4 else d).showAge

/-- The sources of a beat and of a stride. -/
def Dev.beatRaises (d : Dev) (bis : Nat) : Dev :=
  let d := d.raise 172 noDetail
  (if bis = 0 then d.raise 173 noDetail else d).hibCheck

theorem beatTick_eq (d : Dev) :
    d.beatTick = (((d.beatCounts.clearOnce.servoBeat d.time.beatAt).fieldBeat.stopTick d.nextBeat.1).beatUnits d.nextBis).beatRaises d.nextBis := by
  unfold Dev.beatTick Dev.beatRaises Dev.beatUnits Dev.beatCounts Dev.beatClock Dev.nextBis Dev.nextNumber Dev.beatEnds
  dsimp only [srcNo]

/-- The clock of the beat that begins after `d`. -/
def Dev.ticksAs (d : Dev) (x : TimeSt) : Prop :=
  x.ticked = true ∧ x.beatAt = d.nextBeat.1 ∧ x.now = max d.now d.nextBeat.1 ∧
  x.bis = (if d.nextBeat.2 || !d.time.ticked then 0 else (d.time.bis + 1) % d.time.layout.strb) ∧
  (x.bis = 0 → x.strideAt = x.beatAt)

/-- What the beat that begins after `d` keeps from its start on. -/
def Dev.startsAs (d e : Dev) : Prop :=
  d.beatFrames e ∧ e.get HTL_BEAT = (d.get HTL_BEAT + 1) % 2 ^ 32 ∧ d.ticksAs e.time

theorem beating_startsAs (d : Dev) : Beating d.startsAs :=
  (beating_beatFrames d).and ((beating_get _ (by decide) (by decide)).and (stable_time _))

theorem nextNumber_time (d : Dev) : d.nextNumber.time = d.beatEnds.time := put_time _ _ _

theorem nextBis_eq (d : Dev) : d.nextBis = if d.nextBeat.2 || !d.time.ticked then 0 else (d.time.bis + 1) % d.time.layout.strb := by
  obtain ⟨-, -, -, hbis, -⟩ := beatEnds_endsAs d
  unfold Dev.nextBis
  rw [nextNumber_time, hbis]
  cases h : d.nextBeat.2 with
  | true => rfl
  | false => rw [beatEnds_layout h]

theorem beatClock_ticksAs (d : Dev) : d.ticksAs d.beatClock := by
  obtain ⟨-, -, hnow, -, -⟩ := beatEnds_endsAs d
  refine ⟨rfl, rfl, ?_, nextBis_eq d, fun h => if_pos h⟩
  show d.nextNumber.time.now = _
  rw [nextNumber_time, hnow]

theorem get_atTime (d : Dev) (x : TimeSt) (f : Fld) : (d.atTime x).get f = d.get f := rfl

/-- The frame of a beat tick: HTL_BEAT is written besides. -/
theorem beatCounts_startsAs (d : Dev) : d.startsAs d.beatCounts := by
  obtain ⟨hf, hbeat, -, -, -⟩ := beatEnds_endsAs d
  refine ⟨?_, ?_, beatClock_ticksAs d⟩
  · exact keeps_time (.inr rfl) (keeps_put (.inl (by decide)) hf)
  · rw [show d.beatCounts = d.nextNumber.atTime d.beatClock from rfl, get_atTime, Dev.nextNumber, get_put_same _ _ _ (by decide), hbeat]
    exact Nat.mod_eq_of_lt (Nat.mod_lt _ (by decide))

theorem Beating.clearOnce (hK : Beating K) (ht : ∀ (d : Dev) b, K d → K { d with time := { d.time with dropSeen := b } })
    (h : K d) : K d.clearOnce := by
  have hfabric := hK (.fabric { d.fabric with lktSeen := false } (by decide)) h
  have hplanner := hK.planner (d := { d with fabric := { d.fabric with lktSeen := false } })
    (x := { d.planner with endPlan := d.planner.chanA.inForce }) rfl rfl hfabric
  have hmains := hK (.mains { d.mains with ovSeen := false } (by decide)) (ht _ false hplanner)
  unfold Dev.clearOnce
  exact hK.safety hmains

theorem servoBeat_startsAs {t : Nat} (h : d.startsAs e) :
    d.startsAs (e.servoBeat t) ∧ (e.servoBeat t).servo.frozen = false := by
  obtain ⟨hf, hb, ht⟩ := h
  exact ⟨⟨keeps_servo (.inl (by decide)) hf, hb, ht⟩, rfl⟩

theorem clearOnce_startsAs (h : d.startsAs e) : d.startsAs e.clearOnce :=
  (beating_startsAs d).clearOnce (fun _ _ ⟨hf, hb, ht⟩ => ⟨keeps_time (.inr rfl) hf, hb, ht⟩) h

theorem beatStart_startsAs (d : Dev) (t : Nat) :
    d.startsAs (d.beatCounts.clearOnce.servoBeat t) ∧ (d.beatCounts.clearOnce.servoBeat t).servo.frozen = false :=
  servoBeat_startsAs (clearOnce_startsAs (beatCounts_startsAs d))

section
variable (hK : Beating K)
include hK

theorem Beating.latchBeat (h : K d) : K d.latchBeat := hK.planner rfl rfl h

theorem Beating.beatUnits {n : Nat} (h : K d) : K (d.beatUnits n) := by
  have h1 := hK.reopen (p := 37) (by decide) (hK.reopen (p := 36) (by decide) (hK.heathBegin (hK.latchBeat h)))
  unfold Dev.beatUnits
  dsimp only
  split
  · exact hK.showAge (hK.reopen (by decide) h1)
  · exact hK.showAge h1

theorem Beating.beatRaises {n : Nat} (h : K d) : K (d.beatRaises n) := by
  unfold Dev.beatRaises
  refine Stable.hibCheck hK (by decide) (by decide) ?_
  split
  · exact hK.raise (hK.raise h)
  · exact hK.raise h

end

theorem beatRaises_requests (d : Dev) (n : Nat) : (172, noDetail) ∈ (d.beatRaises n).evReq ∧
    (n = 0 → (173, noDetail) ∈ (d.beatRaises n).evReq) := by
  have hK := fun x : Nat × Nat => (stable_request x (fun _ => True) (fun _ => True))
  unfold Dev.beatRaises
  refine ⟨(hK (172, noDetail)).hibCheck trivial trivial ?_, fun h0 => (hK (173, noDetail)).hibCheck trivial trivial ?_⟩
  · split
    · exact (hK (172, noDetail)).raise trivial (mem_raise _ _ _)
    · exact mem_raise _ _ _
  · rw [if_pos h0]
    exact mem_raise _ _ _

theorem beatTick_effect {s : State} (hu : s.dev.up = true) (hst : s.dev.time.started = true) : Completes .beatTick s (fun d =>
    d.get HTL_BEAT = (s.dev.get HTL_BEAT + 1) % 2 ^ 32 ∧ d.time.ticked = true ∧ d.time.beatAt = s.dev.nextBeat.1 ∧
    d.now = max s.dev.now s.dev.nextBeat.1 ∧
    d.time.bis = (if s.dev.nextBeat.2 || !s.dev.time.ticked then 0 else (s.dev.time.bis + 1) % s.dev.time.layout.strb) ∧
    (172, noDetail) ∈ d.evReq ∧ (d.time.bis = 0 → (173, noDetail) ∈ d.evReq ∧ d.time.strideAt = d.time.beatAt) ∧
    d.servo.frozen = false ∧
    s.dev.onlyParts d [.evReq, .freeCtr, .boot, .time, .host, .engSrcs, .heath, .planner, .servo, .safety, .field, .fbs, .ret,
      .fabric, .mains] ∧
    (∀ o, o < 0x4000 → o ≠ 0x100C → o ≠ 0x3040 → d.reg o = s.dev.reg o)) := by
  refine completes_when (c := s.dev.up && s.dev.time.started) (a := s.begun.beatTick) rfl (by rw [hu, hst]; rfl) ?_
  have hK : Beating (fun e => s.begun.startsAs e ∧ e.servo.frozen = false) := (beating_startsAs _).and (stable_frozen false _ _)
  have hend := hK.beatRaises (n := s.begun.nextBis) (hK.beatUnits (n := s.begun.nextBis) (hK.stopTick (t := s.begun.nextBeat.1)
    (hK.fieldBeat (beatStart_startsAs s.begun s.begun.time.beatAt))))
  obtain ⟨h172, h173⟩ := beatRaises_requests
    (((s.begun.beatCounts.clearOnce.servoBeat s.begun.time.beatAt).fieldBeat.stopTick s.begun.nextBeat.1).beatUnits s.begun.nextBis) s.begun.nextBis
  rw [← beatTick_eq] at hend h172 h173
  generalize s.begun.beatTick = e at *
  obtain ⟨⟨⟨hparts, hregs⟩, hbeat, hticked, hat, hnow, hbis, hstride⟩, hfrozen⟩ := hend
  refine ⟨hbeat, hticked, hat, hnow, hbis, h172, fun h0 => ⟨h173 ((nextBis_eq _).trans (hbis.symm.trans h0)), hstride h0⟩, hfrozen,
    fun p hp => ?_, fun o h4 h1 h3 => hregs o (by omega)⟩
  exact hparts p (fun h => hp (h.elim (fun hm => by revert hm; cases p <;> decide) (fun ht => by rw [ht]; decide)))

end Sys2Proof.Machine
end

section
/-! PROOFS. Polls and BEAT_ENDs (R265, R269, R289). -/

namespace Sys2Proof.Machine

variable {K : Dev → Prop} {P : Part → Prop} {R : Fld → Prop} {O : Nat → Prop} {d d' e n : Dev} {p a gj : Nat}

/-! ## POLL_SEND -/

theorem length_htlRest (len flags station : Nat) : (htlRest len flags station).length = 8 := by
  simp only [htlRest, List.length_append, length_leBytes]

theorem length_htlHead {type mode slot laddr beat : Nat} {rest : List Byte} :
    (htlHead type mode slot laddr beat rest).length = 8 + rest.length := by
  simp only [htlHead, List.length_append, length_leBytes]

theorem length_setpointEntry (axis use : Nat) (j : Option JointRt) : (setpointEntry axis j use).length = 12 := by
  unfold setpointEntry
  dsimp only
  split
  · split
    · simp only [List.length_append, length_leBytes]
    · simp only [List.length_append, length_leBytes, List.length_map, List.length_range]
  · simp only [List.length_append, length_leBytes, List.length_map, List.length_range]

/-- A frame with an output cleared holds the one sent. -/
theorem frame_out (d : Dev) (p : Nat) (f : List Byte) (h : d.out = []) : (d.frame p f).out = [.heathFrame p (d.ethHead p ++ htlBody f)] := by
  rw [Dev.frame, send_out, h]
  rfl

/-- The payload of a poll: the setpoint entries of the slot's axes, and the node output data. -/
def Dev.pollData (d : Dev) (p : Nat) (s : SlotEnt) : List Byte :=
  let a0 := axisBase (d.slots p) s
  let joint := fun (axis : Nat) =>
    if d.nstate s.laddr = 6 then (d.axisJoint s.laddr axis).bind (fun j => d.jrt j.gj) else none
  (List.range s.nax).flatMap (fun k => setpointEntry (a0 + k) (joint (a0 + k)) (d.freeCtr + 8 * k)) ++
    (List.range s.paux).map (fun i => freeByte (d.freeCtr + 8 * s.nax + i))

theorem length_pollData (d : Dev) (p : Nat) (s : SlotEnt) : (d.pollData p s).length = s.pollLen := by
  unfold Dev.pollData
  simp only [List.length_append, List.length_flatMap, length_setpointEntry, List.map_const', List.length_range, List.sum_replicate,
    smul_eq_mul, List.length_map, mul_comm s.nax 12]
  rfl

theorem poll_eq (d : Dev) (p : Nat) (s : SlotEnt) : d.poll p s = Dev.frame { d with freeCtr := d.freeCtr + 8 * s.nax + s.paux } p
    (htlHead 2 (d.get (HTL_MODE p)) s.slot (if d.onLine s.laddr then s.laddr else 0xFE) d.beatNo (htlRest s.pollLen 0 0) ++
      d.pollData p s) := by
  unfold Dev.poll Dev.pollData
  dsimp only
  rw [List.append_assoc]

theorem poll_keeps {P : Part → Prop} {R : Nat → Prop} {s : SlotEnt} (hc : P .freeCtr) (h : d.keeps d' P R) :
    d.keeps (d'.poll p s) P R := by
  rw [poll_eq]
  exact keeps_send ⟨fun q hq => same_trans (h.1 q hq) (by cases q <;> first | rfl | exact absurd hc hq), h.2⟩

theorem pollSend_effect {s : State} {p : Fin 4} {x : SlotEnt} (hr : s.dev.portRuns p = true)
    (hx : (s.dev.slots p).find? (fun y => y.slot == x.slot) = some x) : Completes (.pollSend p x.slot) s (fun d =>
      d.now = max s.dev.now (s.dev.time.beatAt + x.tpoll) ∧
      (∃ f, f.length = 16 + x.pollLen ∧ d.out = [.heathFrame p (s.dev.ethHead p ++ htlBody f)] ∧
        f.take 16 = htlHead 2 (s.dev.get (HTL_MODE p)) x.slot (if s.dev.onLine x.laddr then x.laddr else 0xFE)
          (s.dev.get HTL_BEAT) (htlRest x.pollLen 0 0)) ∧
      s.dev.only d [.time, .freeCtr] []) := by
  have hr' : Dev.portRuns { s.dev with out := [] } p = true := hr
  have hx' : (Dev.slots { s.dev with out := [] } p).find? (fun y => y.slot == x.slot) = some x := hx
  have hrun : exec (.pollSend p x.slot) s = .next ⟨s.pending, (s.begun.reach (s.dev.time.beatAt + x.tpoll)).poll p x⟩ := by
    show execPollSend p x.slot s = _
    unfold execPollSend State.run
    simp only [hr', hx', Bool.not_true, Bool.false_eq_true, if_false]
    rfl
  refine completes_of_next hrun ?_
  obtain ⟨y, hy, hnow⟩ := reach_at s.begun (s.dev.time.beatAt + x.tpoll)
  rw [hy]
  have honly := poll_keeps (d' := s.begun.atTime y) (P := (· ∈ [Part.time, .freeCtr])) (R := (· ∈ [])) (p := p) (s := x) (by decide)
    (keeps_time (by decide) (keeps_out (keeps_refl s.dev _ _)))
  refine ⟨?_, ⟨_, ?_, by rw [poll_eq]; exact frame_out _ _ _ rfl, List.take_left' ?_⟩, keeps_only honly⟩
  · rw [poll_eq]
    exact congrArg TimeSt.now hnow
  · rw [List.length_append, length_htlHead, length_htlRest, length_pollData]
  · rw [length_htlHead, length_htlRest]

theorem pollSend_idle {s : State} {p : Fin 4} {slot : Nat} (hr : s.dev.portRuns p = true) (h : ∀ x ∈ s.dev.slots p, x.slot ≠ slot) :
    Completes (.pollSend p slot) s (fun d => d.out = [] ∧ s.dev.only d [] []) := by
  have hr' : Dev.portRuns { s.dev with out := [] } p = true := hr
  have hx' : (Dev.slots { s.dev with out := [] } p).find? (fun y => y.slot == slot) = none :=
    List.find?_eq_none.2 (fun x hx => by rw [beq_iff_eq]; exact h x hx)
  refine completes_of_next (d := s.begun) ?_ ⟨rfl, keeps_only (keeps_out (keeps_refl _ _ _))⟩
  show execPollSend p slot s = _
  unfold execPollSend State.run
  simp only [hr', hx', Bool.not_true, Bool.false_eq_true, if_false]
  rfl

/-! ## BEAT_END_SEND -/

/-- BEAT_END leaves port `p` at `t` in the beat, and the engines of its missing axes are asked. -/
def Dev.sendBeatEnd (d : Dev) (p t : Nat) : Dev :=
  let d := ((d.frame p (d.beatFrame p 4)).put (HTL_BEATEND p) (t / 8)).updP p (fun r => { r with endSent := true })
  (d.portAddrs p).foldl (fun (d : Dev) a =>
    (d.nodeJoints a).foldl (fun (d : Dev) j =>
      if (d.jrt j.gj).any (fun r => r.missing && !r.done) then d.slotReady j.gj else d) d) d

/-- Every running port has sent its BEAT_END. -/
def Dev.beatDone (d : Dev) : Bool := (List.range 4).all (fun q => !d.portRuns q || (d.port q).endSent)

/-- The beat is done once the last BEAT_END has left. -/
def Dev.raiseBeatDone (d : Dev) (t : Nat) : Dev :=
  if d.beatDone then (d.reach (d.time.beatAt + t + frameTime 16)).raise 155 noDetail else d

theorem beatEndSend_run {s : State} {p : Fin 4} {post : Dev → Prop} (hr : s.dev.portRuns p = true) (he : (s.dev.port p).endSent = false)
    (h : post (((s.begun.reach (s.dev.time.beatAt + s.dev.endStart p)).sendBeatEnd p (s.dev.endStart p)).raiseBeatDone (s.dev.endStart p))) :
    Completes (.beatEndSend p) s post :=
  completes_unless (c := !s.dev.portRuns p || (s.dev.port p).endSent) (b := ((s.begun.reach (s.dev.time.beatAt + s.dev.endStart p)).sendBeatEnd p
    (s.dev.endStart p)).raiseBeatDone (s.dev.endStart p)) rfl (by rw [hr, he]; rfl) h

theorem beatEndSend_again {s : State} {p : Fin 4} (he : (s.dev.port p).endSent = true) :
    Completes (.beatEndSend p) s (fun d => d.out = [] ∧ s.dev.only d [] []) :=
  completes_when (c := !s.dev.portRuns p || (s.dev.port p).endSent) (a := s.begun) rfl (by rw [he, Bool.or_true])
    ⟨rfl, keeps_only (keeps_out (keeps_refl _ _ _))⟩

theorem slotReady_servo (d : Dev) (gj : Nat) : ∃ x, d.slotReady gj = { d with servo := x } := by
  unfold Dev.slotReady
  split
  · split
    · exact ⟨d.servo, rfl⟩
    · exact ⟨_, rfl⟩
  · exact ⟨d.servo, rfl⟩

/-- What the port has sent and shows, before the engines are asked. -/
def Dev.showBeatEnd (d : Dev) (p t : Nat) : Dev :=
  ((d.frame p (d.beatFrame p 4)).put (HTL_BEATEND p) (t / 8)).updP p (fun r => { r with endSent := true })

/-- The servo wall alone differs. -/
def Dev.servoOnly (d e : Dev) : Prop := ∃ x, e = { d with servo := x }

theorem sendBeatEnd_servoOnly (d : Dev) (p t : Nat) : (d.showBeatEnd p t).servoOnly (d.sendBeatEnd p t) := by
  refine foldl_invariant (K := (d.showBeatEnd p t).servoOnly) _ (fun e a _ h => ?_) ⟨(d.showBeatEnd p t).servo, rfl⟩
  refine foldl_invariant (K := (d.showBeatEnd p t).servoOnly) _ (fun e j _ h => ?_) h
  split
  · obtain ⟨x, rfl⟩ := h
    obtain ⟨y, hy⟩ := slotReady_servo ({ d.showBeatEnd p t with servo := x }) j.gj
    exact ⟨y, hy⟩
  · exact h

theorem port_eq {r : PortRt} (h : d.heath.ports[p]? = some r) : d.port p = r := by
  simp [Dev.port, List.getD, h]

theorem HTL_BEATEND_ok (p : Nat) : (HTL_BEATEND p).ok := ⟨by show 16 ≤ 31; decide, by show 31 < 32; decide⟩
theorem HTL_RUN_ok (p : Nat) : (HTL_RUN p).ok := ⟨le_rfl, by show 3 < 32; decide⟩

theorem showBeatEnd_keeps (d : Dev) (p t : Nat) : d.keeps (d.showBeatEnd p t) (· = .heath) (· = 0x4020 + 4 * p) :=
  keeps_heath rfl (keeps_put rfl (keeps_send (keeps_refl _ _ _)))

theorem get_updP (d : Dev) (p : Nat) (f : PortRt → PortRt) (g : Fld) : (d.updP p f).get g = d.get g := rfl

theorem showBeatEnd_shows (d : Dev) (p t : Nat) : (d.showBeatEnd p t).get (HTL_BEATEND p) = t / 8 % 65536 := by
  rw [Dev.showBeatEnd, get_updP, get_put_same _ _ _ (HTL_BEATEND_ok p)]
  rfl

theorem showBeatEnd_runs (d : Dev) {p : Nat} (hp : p < 4) (t q : Nat) : (d.showBeatEnd p t).portRuns q = d.portRuns q := by
  have hup : (d.showBeatEnd p t).up = d.up :=
    up_congr (showBeatEnd_keeps d p t) (by show ¬ 0xF800 = 0x4020 + 4 * p; omega)
      (by show ¬ 0x2000 = 0x4020 + 4 * p; omega)
  have hrun : (d.showBeatEnd p t).get (HTL_RUN q) = d.get (HTL_RUN q) := by
    rw [Dev.showBeatEnd, get_updP]
    by_cases h : q = p
    · subst h
      rw [get_put_apart _ _ _ _ (HTL_BEATEND_ok q) (HTL_RUN_ok q) (.inl (by show 3 < 16; decide))]
      rfl
    · rw [get_put_off _ _ _ _ (by show 0x4020 + 4 * q ≠ 0x4020 + 4 * p; omega)]
      rfl
  rw [Dev.portRuns, hup, is_eq, hrun, ← is_eq]
  rfl

theorem showBeatEnd_heath (d : Dev) (p t : Nat) :
    (d.showBeatEnd p t).heath = { d.heath with ports := updAt d.heath.ports p (fun r => { r with endSent := true }) } := by
  unfold Dev.showBeatEnd Dev.updP
  dsimp only
  rw [put_heath, Dev.frame, send_heath]

theorem showBeatEnd_time (d : Dev) (p t : Nat) : (d.showBeatEnd p t).time = d.time := by
  unfold Dev.showBeatEnd Dev.updP
  dsimp only
  rw [put_time, Dev.frame, send_time]

theorem showBeatEnd_out (p t : Nat) (h : d.out = []) :
    (d.showBeatEnd p t).out = [.heathFrame p (d.ethHead p ++ htlBody (d.beatFrame p 4))] := by
  unfold Dev.showBeatEnd Dev.updP
  dsimp only
  rw [put_out, frame_out _ _ _ h]

/-- Every other running port has sent its BEAT_END. -/
def Dev.othersSent (d : Dev) (p : Fin 4) : Prop := ∀ q : Fin 4, q ≠ p → d.portRuns q = false ∨ (d.port q).endSent = true

theorem showBeatEnd_sent (d : Dev) {p : Nat} (hp : p < d.heath.ports.length) (t : Nat) : ((d.showBeatEnd p t).port p).endSent = true := by
  have h : (d.showBeatEnd p t).heath.ports[p]? = some { d.heath.ports[p] with endSent := true } := by
    rw [showBeatEnd_heath]
    exact (updAt_same _ _ _).trans (congrArg _ (List.getElem?_eq_getElem hp))
  rw [port_eq h]

theorem showBeatEnd_other (d : Dev) {p q : Nat} (h : q ≠ p) (t : Nat) : (d.showBeatEnd p t).port q = d.port q := by
  unfold Dev.port
  rw [showBeatEnd_heath, List.getD_eq_getElem?_getD, List.getD_eq_getElem?_getD]
  dsimp only
  rw [updAt_ne _ _ _ _ h]

theorem beatDone_iff (d : Dev) {p : Fin 4} (hp : p.val < d.heath.ports.length) (t : Nat) :
    (d.showBeatEnd p t).beatDone = true ↔ d.othersSent p := by
  have hq : ∀ q : Nat, (!(d.showBeatEnd p t).portRuns q || ((d.showBeatEnd p t).port q).endSent) = true ↔
      (q = p.val ∨ d.portRuns q = false ∨ (d.port q).endSent = true) := fun q => by
    rw [Bool.or_eq_true, Bool.not_eq_true', showBeatEnd_runs d p.isLt]
    by_cases h : q = p.val
    · rw [h, showBeatEnd_sent d hp]
      simp
    · rw [showBeatEnd_other d h]
      simp [h]
  unfold Dev.beatDone Dev.othersSent
  rw [List.all_eq_true]
  constructor
  · exact fun h q hne => ((hq q).1 (h q (List.mem_range.2 q.isLt))).resolve_left (fun e => hne (Fin.ext e))
  · intro h q hm
    by_cases e : q = p.val
    · exact (hq q).2 (.inl e)
    · exact (hq q).2 (.inr (h ⟨q, List.mem_range.1 hm⟩ (fun c => e (congrArg Fin.val c))))

theorem beatEndSend_sends {s : State} {p : Fin 4} {r : PortRt} (hr : s.dev.portRuns p = true) (hp : s.dev.heath.ports[p.val]? = some r)
    (he : r.endSent = false) : Completes (.beatEndSend p) s (fun d =>
      d.now = max s.dev.now (s.dev.time.beatAt + s.dev.endStart p +
        (if ∀ q : Fin 4, q ≠ p → s.dev.portRuns q = false ∨ (s.dev.port q).endSent = true then frameTime 16 else 0)) ∧
      d.get (HTL_BEATEND p) = s.dev.endStart p / 8 % 65536 ∧ d.heath.ports[p.val]? = some { r with endSent := true } ∧
      d.out = [.heathFrame p (s.dev.ethHead p ++ htlBody (htlHead 4 (s.dev.get (HTL_MODE p)) 0xFF 0 (s.dev.get HTL_BEAT) r.head))] ∧
      ((∀ q : Fin 4, q ≠ p → s.dev.portRuns q = false ∨ (s.dev.port q).endSent = true) → (155, noDetail) ∈ d.evReq) ∧
      s.dev.only d [.time, .heath, .servo, .evReq] [0x4020 + 4 * p.val]) := by
  have hport := port_eq hp
  refine beatEndSend_run hr (by rw [hport]; exact he) ?_
  generalize s.dev.endStart p = t
  obtain ⟨x, hx, hnow⟩ := reach_at s.begun (s.dev.time.beatAt + t)
  rw [hx]
  obtain ⟨y, hy⟩ := sendBeatEnd_servoOnly (s.begun.atTime x) p t
  have hdone : ((s.begun.atTime x).showBeatEnd p t).beatDone = true ↔ s.dev.othersSent p :=
    beatDone_iff (s.begun.atTime x) (List.getElem?_eq_some_iff.1 hp).1 t
  have hkept : s.dev.keeps ((s.begun.atTime x).showBeatEnd p t) (· ∈ [Part.time, .heath, .servo, .evReq]) (· ∈ [0x4020 + 4 * p.val]) :=
    keeps_heath (by decide) (keeps_put (List.mem_singleton_self _) (keeps_send (keeps_time (by decide) (keeps_out (keeps_refl _ _ _)))))
  have hshow := showBeatEnd_shows (s.begun.atTime x) p t
  have hheath : ((s.begun.atTime x).showBeatEnd p t).heath.ports[p.val]? = some { r with endSent := true } := by
    rw [showBeatEnd_heath]
    exact (updAt_same _ _ _).trans (congrArg _ hp)
  have hx_now : x.now = max s.dev.now (s.dev.time.beatAt + t) := congrArg TimeSt.now hnow
  have hx_at : x.beatAt = s.dev.time.beatAt := by rw [hnow]; rfl
  have hout : ((s.begun.atTime x).showBeatEnd p t).out =
      [.heathFrame p (s.dev.ethHead p ++ htlBody (htlHead 4 (s.dev.get (HTL_MODE p)) 0xFF 0 (s.dev.get HTL_BEAT) r.head))] := by
    rw [← hport]
    exact showBeatEnd_out p t rfl
  have htime : ((s.begun.atTime x).showBeatEnd p t).time = x := showBeatEnd_time _ _ _
  rw [hy]
  generalize (s.begun.atTime x).showBeatEnd p t = m at *
  have hall : s.dev.keeps { m with servo := y } (· ∈ [Part.time, .heath, .servo, .evReq]) (· ∈ [0x4020 + 4 * p.val]) :=
    keeps_servo (by decide) hkept
  unfold Dev.raiseBeatDone
  by_cases hc : ∀ q : Fin 4, q ≠ p → s.dev.portRuns q = false ∨ (s.dev.port q).endSent = true
  · have hd : Dev.beatDone { m with servo := y } = true := hdone.2 hc
    have hlast : max m.time.now (m.time.beatAt + t + frameTime 16) = max s.dev.now (s.dev.time.beatAt + t + frameTime 16) := by
      rw [htime, hx_now, hx_at, max_assoc, max_eq_right (a := s.dev.time.beatAt + t) (by omega)]
    obtain ⟨z, hz, hznow⟩ := reach_at { m with servo := y } (m.time.beatAt + t + frameTime 16)
    rw [if_pos hd, if_pos hc, hz]
    refine ⟨?_, hshow, hheath, hout, fun _ => mem_raise _ _ _, keeps_only (keeps_raise (by decide) (keeps_time (by decide) hall))⟩
    exact (congrArg TimeSt.now hznow).trans hlast
  · have hd : ¬ Dev.beatDone { m with servo := y } = true := fun h => hc (hdone.1 h)
    rw [if_neg hd, if_neg hc]
    refine ⟨?_, hshow, hheath, hout, fun h => absurd h hc, keeps_only hall⟩
    exact (congrArg TimeSt.now htime).trans hx_now

end Sys2Proof.Machine
end

section
/-! PROOFS. The receipt of a response and the close of its window (R270, R271). -/

namespace Sys2Proof.Machine

variable {K : Dev → Prop} {P : Part → Prop} {R : Fld → Prop} {O : Nat → Prop} {d d' e n : Dev} {p a gj : Nat}

/-! ## What a response leaves of a node -/

/-- The answers of a node are those of another of its address. -/
def NodeRt.sameAnswers (n m : NodeRt) : Prop := m.laddr = n.laddr ∧ m.got = n.got ∧ m.inputs = n.inputs

section
variable (hK : Stable K P R) (hs : P .servo) (hf : P .fbs) (hv : P .evReq) (hc : R (.whole 0x604C))
  (hN : ∀ d a f, (∀ n : NodeRt, n.sameAnswers (f n)) → K d → K (d.updN a f))
include hK hs hf hv hc hN

theorem Stable.missAxis {x : Nat} (h : K d) : K (d.missAxis a x) := by
  have h1 := fun f hf => hN d a f hf h
  unfold Dev.missAxis
  dsimp only
  split
  · split
    · exact hK.markMissing hs hf hv hc (h1 _ (fun _ => ⟨rfl, rfl, rfl⟩))
    · exact hK.stopDelivering hs (hK.markMissing hs hf hv hc (h1 _ (fun _ => ⟨rfl, rfl, rfl⟩)))
  · exact h1 _ (fun _ => ⟨rfl, rfl, rfl⟩)

theorem Stable.takeEntry {b : List Byte} (h : K d) : K (d.takeEntry a b) := by
  have h1 := fun f hf => hN d a f hf h
  unfold Dev.takeEntry
  cases hval : bitOf (uAt b 1 1) 0 with
  | false =>
    simp only [Bool.not_false, Bool.false_eq_true, if_true, if_false]
    split
    · exact hK.slotReady hs (hK.missAxis hs hf hv hc hN (h1 _ (fun _ => ⟨rfl, rfl, rfl⟩)))
    · exact hK.missAxis hs hf hv hc hN (h1 _ (fun _ => ⟨rfl, rfl, rfl⟩))
  | true =>
    simp only [Bool.not_true, Bool.false_eq_true, if_true, if_false]
    split
    · exact h1 _ (fun _ => ⟨rfl, rfl, rfl⟩)
    · split
      · exact h1 _ (fun _ => ⟨rfl, rfl, rfl⟩)
      · split
        · exact hK.deliver hs hf (h1 _ (fun _ => ⟨rfl, rfl, rfl⟩))
        · exact hK.feed hs hf (h1 _ (fun _ => ⟨rfl, rfl, rfl⟩))

omit hs hf hc in
theorem Stable.takeTool {c : Nat} (h : K d) : K (d.takeTool a c) := by
  have h1 := fun f hf => hN d a f hf h
  unfold Dev.takeTool
  dsimp only
  split
  · exact hK.raise hv (h1 _ (fun _ => ⟨rfl, rfl, rfl⟩))
  · exact h1 _ (fun _ => ⟨rfl, rfl, rfl⟩)

end

theorem node_updN (d : Dev) (a k : Nat) {f : NodeRt → NodeRt} (hf : ∀ n, (f n).laddr = n.laddr) :
    (d.updN a f).node? k = (d.node? k).map (fun n => if n.laddr = a then f n else n) := by
  have hp : ((fun n : NodeRt => n.laddr == k) ∘ fun n => if n.laddr = a then f n else n) = fun n => n.laddr == k := by
    funext n
    dsimp only [Function.comp]
    split
    · rw [hf]
    · rfl
  show (d.heath.nodes.map _).find? _ = _
  rw [List.find?_map, hp]
  rfl

/-- The node at `a` holds these answers. -/
def Dev.holdsAnswers (d : Dev) (a : Nat) (got : List Nat) (inputs : List (Nat × List Byte)) : Prop :=
  ∃ n, d.node? a = some n ∧ n.got = got ∧ n.inputs = inputs

theorem holdsAnswers_updN {got : List Nat} {inputs : List (Nat × List Byte)} {k : Nat} {f : NodeRt → NodeRt}
    (hf : ∀ n : NodeRt, n.sameAnswers (f n)) (h : d.holdsAnswers a got inputs) : (d.updN k f).holdsAnswers a got inputs := by
  obtain ⟨n, hn, hgot, hin⟩ := h
  obtain ⟨-, hg, hi⟩ := hf n
  refine ⟨_, (node_updN d k a (fun n => (hf n).1)).trans (congrArg _ hn), ?_, ?_⟩
  · dsimp only
    split
    · exact hg.trans hgot
    · exact hgot
  · dsimp only
    split
    · exact hi.trans hin
    · exact hin

theorem stable_holdsAnswers (a : Nat) (got : List Nat) (inputs : List (Nat × List Byte)) :
    Stable (fun d => d.holdsAnswers a got inputs) (· ≠ .heath) (fun _ => True) := by
  intro d d' h k
  have hh : d'.heath = d.heath := upd_same (p := .heath) (fun n => n rfl) h
  unfold Dev.holdsAnswers Dev.node? at *
  rwa [hh]

/-! ## The parts of a response -/

/-- A node at which an accepted response is noted. -/
def Dev.noted (d : Dev) (p : Nat) (s : SlotEnt) (b : List Byte) (n : NodeRt) : NodeRt :=
  { n with
    got := n.got ++ [s.slot], leave := n.leave || (d.nstate s.laddr == 6 && bitOf (uAt b 0xA 1) 1)
    inputs := n.inputs.filter (fun (x : Nat × List Byte) => x.1 != s.slot) ++
      [(s.slot, bytesAt (b.drop 16) (24 * s.nax + 32 * s.nsafe) s.raux)]
    tracks := if d.nstate s.laddr == 6 && (d.slots p).any (fun t => t.laddr == s.laddr && t.plan) then
      n.tracks ++ (List.range s.nsafe).map (fun k => bytesAt (b.drop 16) (24 * s.nax + 32 * k) 32) else n.tracks }

/-- An accepted response is noted. -/
def Dev.noteResponse (d : Dev) (p : Nat) (s : SlotEnt) (b : List Byte) : Dev := d.updN s.laddr (d.noted p s b)

/-- The feedback entries of a response are taken. -/
def Dev.takeEntries (d : Dev) (s : SlotEnt) (b : List Byte) : Dev :=
  (List.range s.nax).foldl (fun (d : Dev) k => d.takeEntry s.laddr (bytesAt (b.drop 16) (24 * k) 24)) d

/-- The safety sub-telegrams of a response are handed over. -/
def Dev.handOvers (d : Dev) (s : SlotEnt) (b : List Byte) : Dev :=
  ((List.range s.nsafe).map (fun k => bytesAt (b.drop 16) (24 * s.nax + 32 * k) 32)).foldl (fun (d : Dev) t => d.handOver s.laddr t) d

/-- What a JOINED node's response hands over, and its tool code. -/
def Dev.takeJoined (d : Dev) (s : SlotEnt) (b : List Byte) (joined : Bool) : Dev :=
  let d := if joined then d.handOvers s b else d
  if joined then d.takeTool s.laddr (uAt b 0xB 1) else d

/-- MACK of a response, and the source of its feedback. -/
def Dev.endResponse (d : Dev) (p : Nat) (s : SlotEnt) (b : List Byte) : Dev :=
  let sw := d.heath.switch.map (fun (x : ModeSw) =>
    if bitOf (uAt b 0xA 1) 0 && (d.announced p).isSome && x.listed.contains s.laddr then { x with acked := s.laddr :: x.acked } else x)
  let d : Dev := { d with heath := { d.heath with switch := sw } }
  if 0 < s.nax then d.raise (srcNo 9 10) noDetail else d

theorem takeResponse_eq (d : Dev) (p : Nat) (s : SlotEnt) (b : List Byte) : d.takeResponse p s b =
    (((d.noteResponse p s b).takeEntries s b).takeJoined s b (d.nstate s.laddr == 6)).endResponse p s b := rfl

/-! ## A response as a whole -/

theorem Stable.handOver {b : List Byte} (hK : Stable K P R) (hsf : P .safety) (h : K d) : K (d.handOver a b) := by
  unfold Dev.handOver
  dsimp only
  split
  · exact hK (.safety _ hsf) (hK (.safety _ hsf) h)
  · exact hK (.safety _ hsf) h

section
variable (hK : Stable K P R) (hs : P .servo) (hf : P .fbs) (hv : P .evReq) (hsf : P .safety) (hc : R (.whole 0x604C))
  (hN : ∀ d a f, (∀ n : NodeRt, n.sameAnswers (f n)) → K d → K (d.updN a f))
  (hS : ∀ d x, K d → K { d with heath := { d.heath with switch := x } })

include hK hs hf hv hc hN in
theorem Stable.takeEntries {s : SlotEnt} {b : List Byte} (h : K d) : K (d.takeEntries s b) :=
  foldl_invariant _ (fun _ _ _ k => hK.takeEntry hs hf hv hc hN k) h

include hK hv hsf hN in
theorem Stable.takeJoined {s : SlotEnt} {b : List Byte} {j : Bool} (h : K d) : K (d.takeJoined s b j) := by
  cases j with
  | false => exact h
  | true => exact hK.takeTool hv hN (foldl_invariant _ (fun _ _ _ k => hK.handOver hsf k) h)

include hK hv hS in
theorem Stable.endResponse {s : SlotEnt} {b : List Byte} (h : K d) : K (d.endResponse p s b) := by
  unfold Dev.endResponse
  dsimp only
  split
  · exact hK.raise hv (hS _ _ h)
  · exact hS _ _ h

include hS in
theorem decideAfter_keeps {s : SlotEnt} (h : K d) : K (d.decideAfter p s) := by
  unfold Dev.decideAfter
  split
  · dsimp only
    split
    · exact hS _ _ h
    · exact h
  · exact h

end

/-- The node input data of a node once a response of slot `s` is noted. -/
def NodeRt.withInput (n : NodeRt) (s : SlotEnt) (b : List Byte) : List (Nat × List Byte) :=
  n.inputs.filter (fun (x : Nat × List Byte) => x.1 != s.slot) ++ [(s.slot, bytesAt (b.drop 16) (24 * s.nax + 32 * s.nsafe) s.raux)]

theorem noteResponse_holds {s : SlotEnt} {b : List Byte} {n : NodeRt} (hn : d.node? s.laddr = some n) :
    (d.noteResponse p s b).holdsAnswers s.laddr (n.got ++ [s.slot]) (n.withInput s b) := by
  have hl : n.laddr = s.laddr := beq_iff_eq.1 (List.find?_some (p := fun n : NodeRt => n.laddr == s.laddr) hn)
  refine ⟨_, (node_updN d s.laddr s.laddr (f := d.noted p s b) (fun _ => rfl)).trans (congrArg _ hn), ?_, ?_⟩
  · dsimp only
    rw [if_pos hl]
    rfl
  · dsimp only
    rw [if_pos hl]
    rfl

theorem respond_holds {s : SlotEnt} {b : List Byte} {got : List Nat} {inputs : List (Nat × List Byte)}
    (h : (d.noteResponse p s b).holdsAnswers s.laddr got inputs) :
    ((d.takeResponse p s b).decideAfter p s).holdsAnswers s.laddr got inputs := by
  have hK := stable_holdsAnswers s.laddr got inputs
  have hS : ∀ (d : Dev) (x : Option ModeSw), d.holdsAnswers s.laddr got inputs →
      Dev.holdsAnswers { d with heath := { d.heath with switch := x } } s.laddr got inputs := fun _ _ h => h
  have hN : ∀ (d : Dev) (k : Nat) (f : NodeRt → NodeRt), (∀ n : NodeRt, n.sameAnswers (f n)) → d.holdsAnswers s.laddr got inputs →
      (d.updN k f).holdsAnswers s.laddr got inputs := fun _ _ _ hf h => holdsAnswers_updN hf h
  rw [takeResponse_eq]
  exact decideAfter_keeps hS (hK.endResponse (by decide) hS (hK.takeJoined (by decide) (by decide) hN
    (hK.takeEntries (by decide) (by decide) (by decide) trivial hN h)))

/-- The parts that a response changes. -/
@[reducible] def RespPart (p : Part) : Prop := p ∈ [Part.heath, .servo, .fbs, .safety, .evReq]

theorem respond_keeps (d : Dev) (p : Nat) (s : SlotEnt) (b : List Byte) :
    d.keeps ((d.takeResponse p s b).decideAfter p s) RespPart (· ∈ [0x604C]) := by
  have hK := stable_keeps d RespPart (· ∈ [0x604C])
  have hS : ∀ (e : Dev) (x : Option ModeSw), d.keeps e RespPart (· ∈ [0x604C]) →
      d.keeps { e with heath := { e.heath with switch := x } } RespPart (· ∈ [0x604C]) := fun _ _ h => keeps_heath (by decide) h
  have hN : ∀ (e : Dev) (k : Nat) (f : NodeRt → NodeRt), (∀ n : NodeRt, n.sameAnswers (f n)) → d.keeps e RespPart (· ∈ [0x604C]) →
      d.keeps (e.updN k f) RespPart (· ∈ [0x604C]) := fun _ _ _ _ h => keeps_heath (by decide) h
  rw [takeResponse_eq]
  exact decideAfter_keeps hS (hK.endResponse (by decide) hS (hK.takeJoined (by decide) (by decide) hN
    (hK.takeEntries (by decide) (by decide) (by decide) (by decide) hN (keeps_heath (by decide) (keeps_refl _ _ _)))))

/-- What the channels hold, and the beat's number, outlive what does not touch the channels. -/
def Dev.holdsTel (d : Dev) (tel : List (Nat × Nat × List Byte)) (beat : Nat) : Prop := (d.ch false).tel = tel ∧ d.beatNo = beat

theorem stable_holdsTel (tel : List (Nat × Nat × List Byte)) (beat : Nat) :
    Stable (fun d => d.holdsTel tel beat) (· ≠ .safety) (fun f => f.apart HTL_BEAT) := by
  intro d d' h k
  have hs : d'.safety = d.safety := upd_same (p := .safety) (fun n => n rfl) h
  refine ⟨?_, stable_get HTL_BEAT beat (by decide) (· ≠ .safety) h k.2⟩
  rw [Dev.ch, hs]
  exact k.1

theorem handOver_tel {b : List Byte} {tel : List (Nat × Nat × List Byte)} {beat : Nat} (h : d.holdsTel tel beat) :
    (d.handOver a b).holdsTel (tel ++ [(a, beat, b)]) beat := by
  obtain ⟨htel, rfl⟩ := h
  have h1 : (d.updCh false (fun c => { c with tel := c.tel ++ [(a, d.beatNo, b)] })).holdsTel (tel ++ [(a, d.beatNo, b)]) d.beatNo :=
    ⟨congrArg (· ++ [(a, d.beatNo, b)]) htel, rfl⟩
  unfold Dev.handOver
  dsimp only
  split
  · exact h1
  · exact h1

theorem handOvers_tel (bs : List (List Byte)) {tel : List (Nat × Nat × List Byte)} {beat : Nat} (h : d.holdsTel tel beat) :
    (bs.foldl (fun (d : Dev) t => d.handOver a t) d).holdsTel (tel ++ bs.map (fun b => (a, beat, b))) beat := by
  induction bs generalizing d tel with
  | nil => rwa [List.map_nil, List.append_nil]
  | cons b bs ih =>
    have h2 := ih (handOver_tel (a := a) (b := b) h)
    rwa [List.append_assoc] at h2

theorem respond_tel {s : SlotEnt} {b : List Byte} (hj : d.nstate s.laddr = 6) :
    (((d.takeResponse p s b).decideAfter p s).ch false).tel = (d.ch false).tel ++ (List.range s.nsafe).map (fun k =>
      (s.laddr, d.get HTL_BEAT, bytesAt (b.drop 16) (24 * s.nax + 32 * k) 32)) := by
  have hK := fun tel => stable_holdsTel tel (d.get HTL_BEAT)
  have hS : ∀ tel (e : Dev) (x : Option ModeSw), e.holdsTel tel (d.get HTL_BEAT) →
      Dev.holdsTel { e with heath := { e.heath with switch := x } } tel (d.get HTL_BEAT) := fun _ _ _ h => h
  have hN : ∀ tel (e : Dev) (k : Nat) (f : NodeRt → NodeRt), (∀ n : NodeRt, n.sameAnswers (f n)) → e.holdsTel tel (d.get HTL_BEAT) →
      (e.updN k f).holdsTel tel (d.get HTL_BEAT) := fun _ _ _ _ _ h => h
  have hentries : ((d.noteResponse p s b).takeEntries s b).holdsTel (d.ch false).tel (d.get HTL_BEAT) :=
    (hK _).takeEntries (by decide) (by decide) (by decide) (by decide) (hN _) ⟨rfl, rfl⟩
  have hover := handOvers_tel (a := s.laddr) ((List.range s.nsafe).map (fun k => bytesAt (b.drop 16) (24 * s.nax + 32 * k) 32)) hentries
  rw [List.map_map] at hover
  rw [takeResponse_eq, hj]
  exact (decideAfter_keeps (K := fun e => e.holdsTel _ (d.get HTL_BEAT)) (hS _) ((hK _).endResponse (by decide) (hS _)
    ((hK _).takeTool (by decide) (hN _) hover))).1

theorem respond_requests {s : SlotEnt} {b : List Byte} (h : 0 < s.nax) :
    (154, noDetail) ∈ ((d.takeResponse p s b).decideAfter p s).evReq := by
  refine decideAfter_keeps (K := fun e => (154, noDetail) ∈ e.evReq) (fun _ _ h => h) ?_
  rw [takeResponse_eq]
  unfold Dev.endResponse
  rw [if_pos h]
  exact mem_raise _ _ _

end Sys2Proof.Machine
end

section
/-! PROOFS. RESP_RECEIVE and RESP_WINDOW_CLOSE (R263, R270, R271). -/

namespace Sys2Proof.Machine

variable {K : Dev → Prop} {P : Part → Prop} {R : Fld → Prop} {O : Nat → Prop} {d d' e n : Dev} {p a gj : Nat} {f : HtlFrame}

/-! ## RESP_RECEIVE -/

theorem respReceive_run {s : State} {p : Fin 4} {post : Dev → Prop} (h : post (s.begun.receiveFrame p f)) :
    Completes (.respReceive p f) s post := completes_of_next rfl h

theorem portRuns_up (h : d.portRuns p = true) : d.up = true := (Bool.and_eq_true_iff.1 h).1

theorem receiveFrame_foreign (h : (d.port p).link = false ∨ f.etype ≠ d.get HTL_ETYPE) : d.receiveFrame p f = d := by
  have hc : (!d.up || !(d.port p).link || f.etype != d.get HTL_ETYPE) = true := by
    rcases h with h | h
    · rw [h, Bool.not_false, Bool.or_true, Bool.true_or]
    · rw [bne_iff_ne.2 h, Bool.or_true]
  unfold Dev.receiveFrame
  rw [if_pos hc]

theorem receiveFrame_own (hu : d.up = true) (hl : (d.port p).link = true) (he : f.etype = d.get HTL_ETYPE) :
    (!d.up || !(d.port p).link || f.etype != d.get HTL_ETYPE) = false := by
  rw [hu, hl, he, bne_self_eq_false]
  rfl

theorem receiveFrame_fcs (hu : d.up = true) (hl : (d.port p).link = true) (he : f.etype = d.get HTL_ETYPE) (hf : f.fcsOk = false) :
    d.receiveFrame p f = d.discard p 0 := by
  unfold Dev.receiveFrame
  rw [receiveFrame_own hu hl he, hf]
  rfl

/-- A frame of the type of a response, intact on a running port. -/
structure IntactResp (d : Dev) (p : Nat) (f : HtlFrame) : Prop where
  runs : d.portRuns p = true
  link : (d.port p).link = true
  etype : f.etype = d.get HTL_ETYPE
  fcs : f.fcsOk = true
  long : 20 ≤ f.bytes.length
  crc : crc32c (f.bytes.take (f.bytes.length - 4)) = uAt f.bytes (f.bytes.length - 4) 4
  type : uAt f.bytes 0 1 = 0x13

theorem receiveFrame_resp (h : IntactResp d p f) : d.receiveFrame p f = d.receiveResp p f := by
  unfold Dev.receiveFrame
  rw [receiveFrame_own (portRuns_up h.runs) h.link h.etype, h.fcs]
  dsimp only
  rw [if_neg Bool.false_ne_true, if_neg (by simp), if_neg (not_lt.2 h.long), if_neg (not_not.2 h.crc), h.runs, if_neg (by simp), h.type]
  rfl

theorem receiveResp_wrong {sec : PortSched} {x : SlotEnt} (hs : d.section? p = some sec)
    (hx : ((d.slots p).filter d.awaits).find? (fun y => inWindow sec y f) = some x) (hh : d.headAgrees p x f.bytes = false) :
    d.receiveResp p f = d.discard p 2 := by
  unfold Dev.receiveResp
  rw [hs]
  dsimp only
  rw [hx]
  exact if_pos (.inr (by rw [hh]; rfl))

theorem receiveResp_right {sec : PortSched} {x : SlotEnt} (hs : d.section? p = some sec)
    (hx : ((d.slots p).filter d.awaits).find? (fun y => inWindow sec y f) = some x) (ht : uAt f.bytes 0 1 = 0x13)
    (hh : d.headAgrees p x f.bytes = true) : d.receiveResp p f = (d.takeResponse p x f.bytes).decideAfter p x := by
  unfold Dev.receiveResp
  rw [hs]
  dsimp only
  rw [hx]
  exact if_neg (by rw [ht, hh]; simp)

theorem receiveResp_stray {sec : PortSched} (hs : d.section? p = some sec)
    (hx : ((d.slots p).filter d.awaits).find? (fun y => inWindow sec y f) = none) : d.receiveResp p f =
      d.discard p (if ((d.slots p).filter d.awaits).any (fun y => y.slot == uAt f.bytes 2 1 && y.laddr == uAt f.bytes 3 1) then 3 else 5) := by
  unfold Dev.receiveResp
  rw [hs]
  dsimp only
  rw [hx]
  exact (apply_ite (d.discard p) _ 3 5).symm

theorem discard_effect {s : State} (p k : Nat) :
    (s.begun.discard p k).reg (HTL_PERR p k) = bumpWord (s.dev.reg (HTL_PERR p k)) ∧
    (s.begun.discard p k).evReq = s.dev.evReq ++ [(149, noDetail)] ∧ s.dev.only (s.begun.discard p k) [.evReq] [HTL_PERR p k] := by
  refine ⟨?_, ?_, ?_⟩
  · rw [Dev.discard, reg_raise, reg_bump_same]
    rfl
  · rw [Dev.discard, raise_evReq, bump_evReq]
    rfl
  · exact keeps_only (keeps_raise (by decide) (keeps_bump (List.mem_singleton_self _) (keeps_out (keeps_refl _ _ _))))

/-! ## RESP_WINDOW_CLOSE -/

/-- The response of slot `x` is missing: counted, raised, and its axes miss it. -/
def Dev.missResponse (d : Dev) (p : Nat) (x : SlotEnt) : Dev :=
  (List.range x.nax).foldl (fun (e : Dev) k => e.missAxis x.laddr (axisBase (d.slots p) x + k)) ((d.bump (HTL_PERR p 4)).raise 148 x.laddr)

/-- Has the slot answered, or was its node not polled? -/
def Dev.answered (d : Dev) (x : SlotEnt) : Bool := (d.node? x.laddr).any (fun n => n.got.contains x.slot || !n.polled)

/-- The window of slot `x` closes. -/
def Dev.closeResponse (d : Dev) (p : Nat) (x : SlotEnt) : Dev :=
  (if d.answered x || !d.onLine x.laddr then d else d.missResponse p x).decideAfter p x

theorem respWindowClose_run {s : State} {p : Fin 4} {sec : PortSched} {x : SlotEnt} (hr : s.dev.portRuns p = true)
    (hs : s.dev.section? p = some sec) (hx : (s.dev.slots p).find? (fun y => y.slot == x.slot) = some x) {post : Dev → Prop}
    (h : post ((s.begun.reach (s.dev.time.beatAt + sec.windowEnd x)).closeResponse p x)) :
    Completes (.respWindowClose p x.slot) s post := by
  refine completes_of_next ?_ h
  have hr' : Dev.portRuns { s.dev with out := [] } p = true := hr
  have hs' : Dev.section? { s.dev with out := [] } p = some sec := hs
  have hx' : (Dev.slots { s.dev with out := [] } p).find? (fun y => y.slot == x.slot) = some x := hx
  show execRespWindowClose p x.slot s = _
  unfold execRespWindowClose State.run
  simp only [hr', hs', hx', Bool.not_true, Bool.false_eq_true, if_false]
  rfl

/-- What a missing response leaves: the time, its count, its source and the frame. -/
def Dev.missesAs (d0 e : Dev) (p a : Nat) (y : TimeSt) : Prop :=
  e.time = y ∧ e.reg (HTL_PERR p 4) = bumpWord (d0.reg (HTL_PERR p 4)) ∧ (148, a) ∈ e.evReq ∧
    d0.keeps e (· ∈ [Part.time, .heath, .servo, .fbs, .evReq]) (· ∈ [HTL_PERR p 4, 0x604C])

theorem missesAs_heath {d0 : Dev} {y : TimeSt} {z : HeathSt} (h : d0.missesAs e p a y) : d0.missesAs { e with heath := z } p a y := by
  obtain ⟨ht, hc, hq, hk⟩ := h
  exact ⟨ht, hc, hq, keeps_heath (by decide) hk⟩

theorem stable_missesAs (d0 : Dev) {p : Nat} (hne : 0x604C ≠ HTL_PERR p 4) (a : Nat) (y : TimeSt) :
    Stable (fun e => d0.missesAs e p a y) (· ∈ [Part.servo, .fbs, .evReq]) (fun f => f.off = 0x604C) := by
  intro e e' h k
  obtain ⟨ht, hc, hq, hk⟩ := k
  refine ⟨(upd_same (p := .time) (by decide) h).trans ht, (upd_reg (fun f hf => hf ▸ hne) h).trans hc, stable_request _ _ _ h hq,
    (stable_keeps d0 (· ∈ [Part.time, .heath, .servo, .fbs, .evReq]) (· ∈ [HTL_PERR p 4, 0x604C])).mono
      (fun q hq => List.mem_cons_of_mem _ (List.mem_cons_of_mem _ hq)) (fun f hf => by simp [hf]) h hk⟩

theorem missResponse_missesAs {d0 : Dev} {y : TimeSt} {x : SlotEnt} (hne : 0x604C ≠ HTL_PERR p 4) (ht : d.time = y)
    (hreg : ∀ o, d.reg o = d0.reg o)
    (hk : d0.keeps d (· ∈ [Part.time, .heath, .servo, .fbs, .evReq]) (· ∈ [HTL_PERR p 4, 0x604C])) :
    d0.missesAs (d.missResponse p x) p x.laddr y := by
  refine foldl_invariant (K := fun e => d0.missesAs e p x.laddr y) _ (fun e k _ h => ?_) ⟨ht, ?_, mem_raise _ _ _, ?_⟩
  · exact (stable_missesAs d0 hne x.laddr y).missAxis (by decide) (by decide) (by decide) rfl (fun _ _ _ _ h => missesAs_heath h) h
  · rw [reg_raise, reg_bump_same, hreg]
  · exact keeps_raise (by decide) (keeps_bump (List.mem_cons_self ..) hk)

theorem respWindowClose_effect {s : State} {p : Fin 4} {sec : PortSched} {x : SlotEnt} {n : NodeRt} (hr : s.dev.portRuns p = true)
    (hs : s.dev.section? p = some sec) (hx : (s.dev.slots p).find? (fun y => y.slot == x.slot) = some x)
    (hn : s.dev.node? x.laddr = some n) :
    (n.got.contains x.slot = true → Completes (.respWindowClose p x.slot) s (fun d =>
      d.now = max s.dev.now (s.dev.time.beatAt + sec.windowEnd x) ∧ s.dev.only d [.time, .heath] [])) ∧
    (n.got.contains x.slot = false → n.polled = true → s.dev.onLine x.laddr = true →
      Completes (.respWindowClose p x.slot) s (fun d =>
        d.now = max s.dev.now (s.dev.time.beatAt + sec.windowEnd x) ∧
        d.reg (HTL_PERR p 4) = bumpWord (s.dev.reg (HTL_PERR p 4)) ∧ (148, x.laddr) ∈ d.evReq ∧
        s.dev.only d [.time, .heath, .servo, .fbs, .evReq] [HTL_PERR p 4, 0x604C])) := by
  obtain ⟨y, hy, hnow⟩ := reach_at s.begun (s.dev.time.beatAt + sec.windowEnd x)
  have hynow := congrArg TimeSt.now hnow
  have hans : (s.begun.atTime y).answered x = (n.got.contains x.slot || !n.polled) := congrArg (Option.any _) hn
  refine ⟨fun hg => respWindowClose_run hr hs hx ?_, fun hg hp hl => respWindowClose_run hr hs hx ?_⟩
  · rw [hy, Dev.closeResponse, hans, hg]
    rw [if_pos (by rfl)]
    have hfin := decideAfter_keeps (K := fun e => e.time = y ∧ s.dev.keeps e (· ∈ [Part.time, .heath]) (· ∈ []))
      (d := s.begun.atTime y) (p := p) (s := x) (fun e z h => ⟨h.1, keeps_heath (by decide) h.2⟩)
      ⟨rfl, keeps_time (by decide) (keeps_out (keeps_refl _ _ _))⟩
    exact ⟨(congrArg TimeSt.now hfin.1).trans hynow, keeps_only hfin.2⟩
  · have hne : 0x604C ≠ HTL_PERR p 4 := by
      have hp4 := p.isLt
      unfold HTL_PERR
      omega
    have hl' : (s.begun.atTime y).onLine x.laddr = true := hl
    rw [hy, Dev.closeResponse, hans, hg, hp, hl']
    rw [if_neg (by simp)]
    obtain ⟨ht, hc, hq, hk⟩ := decideAfter_keeps (K := fun e => s.dev.missesAs e p x.laddr y) (p := p) (s := x)
      (fun _ _ h => missesAs_heath h) (missResponse_missesAs (d := s.begun.atTime y) (x := x) hne rfl (fun _ => rfl)
        (keeps_time (by decide) (keeps_out (keeps_refl _ _ _))))
    exact ⟨(congrArg TimeSt.now ht).trans hynow, hc, hq, keeps_only hk⟩

/-! ## The obligation -/

theorem respReceive_right {s : State} {p : Fin 4} {sec : PortSched} {x : SlotEnt} {n : NodeRt} (hi : IntactResp s.begun p f)
    (hs : s.dev.section? p = some sec) (hx : ((s.dev.slots p).filter s.dev.awaits).find? (fun y => inWindow sec y f) = some x)
    (hn : s.dev.node? x.laddr = some n) (hh : s.dev.headAgrees p x f.bytes = true) : Completes (.respReceive p f) s (fun d =>
      (∃ n', d.node? x.laddr = some n' ∧ n'.got = n.got ++ [x.slot] ∧
        (x.slot, bytesAt (f.bytes.drop 16) (24 * x.nax + 32 * x.nsafe) x.raux) ∈ n'.inputs) ∧
      (0 < x.nax → (154, noDetail) ∈ d.evReq) ∧
      (s.dev.nstate x.laddr = 6 → (d.ch false).tel = (s.dev.ch false).tel ++ (List.range x.nsafe).map (fun k =>
        (x.laddr, s.dev.get HTL_BEAT, bytesAt (f.bytes.drop 16) (24 * x.nax + 32 * k) 32))) ∧
      s.dev.only d [.heath, .servo, .fbs, .safety, .evReq] [0x604C]) := by
  refine respReceive_run ?_
  rw [receiveFrame_resp hi, receiveResp_right (d := s.begun) hs hx hi.type hh]
  obtain ⟨n', hn', hgot, hin⟩ := respond_holds (noteResponse_holds (d := s.begun) (p := p) (b := f.bytes) hn)
  refine ⟨⟨n', hn', hgot, ?_⟩, respond_requests, fun hj => respond_tel (d := s.begun) hj, keeps_only (keeps_from_out (respond_keeps _ _ _ _))⟩
  rw [hin]
  exact List.mem_append_right _ (List.mem_singleton_self _)

/-- Settles O48, by the effect of each command. -/
theorem heathlineBeat : Obligations.HeathlineBeat := by
  unfold Obligations.HeathlineBeat
  intro s
  refine ⟨beatTick_effect, fun p hr => ⟨fun x => pollSend_effect hr, fun slot => pollSend_idle hr, fun f h => ?_, fun f hl he => ⟨fun hf => ?_,
    fun sec hf hlen hcrc ht hsec => ⟨fun x n hx hn => ⟨fun hh => ?_, fun hh => ?_⟩, fun hx k hk => ?_⟩⟩,
    fun sec x n hs hx hn => respWindowClose_effect hr hs hx hn, fun r hp => ⟨fun he => ?_, fun he => beatEndSend_sends hr hp he⟩⟩⟩
  · refine respReceive_run ?_
    rw [receiveFrame_foreign (d := s.begun) h]
    exact keeps_only (keeps_out (keeps_refl _ _ _))
  · refine respReceive_run ?_
    rw [receiveFrame_fcs (d := s.begun) (portRuns_up hr) hl he hf]
    exact discard_effect _ _
  · refine respReceive_run ?_
    rw [receiveFrame_resp (d := s.begun) ⟨hr, hl, he, hf, hlen, hcrc, ht⟩, receiveResp_wrong (d := s.begun) hsec hx hh]
    exact discard_effect _ _
  · exact respReceive_right ⟨hr, hl, he, hf, hlen, hcrc, ht⟩ hsec hx hn hh
  · refine respReceive_run ?_
    rw [receiveFrame_resp (d := s.begun) ⟨hr, hl, he, hf, hlen, hcrc, ht⟩, receiveResp_stray (d := s.begun) hsec hx]
    subst hk
    exact discard_effect _ _
  · exact beatEndSend_again (by rw [port_eq hp]; exact he)

end Sys2Proof.Machine
end

section
/-! PROOFS. A hung port whose owner serves a source that does not exist (R64, R405, R408, R409, R412). -/

namespace Sys2Proof.Machine

/-- A source beyond the 256 of the event controller. The model numbers the sources of a Mason's handlers without a bound and finds
the ACTIVE bit of one by its number alone. -/
def straySource : Nat := 96151

/-- The ACTIVE bit of that source is the bit in which the fabric shows port 23 closed. -/
theorem straySource_active : EVC_ACT straySource = FAB_CLOSED 23 := rfl

/-- A device that runs, where Mason 0, the owner of port 23, runs the handler of that source. -/
def strayHandler : State :=
  let d := (Dev.zero.put TST_STAGE 6).putB CLK_CORELK true
  ⟨[], { d with hod := { d.hod with masons := [⟨[(straySource, 0)], none, false, false, true, 0, 0, 0⟩] } }⟩

/-- As the Mason fails its handler's source leaves ACTIVE, and that opens the port that has just been closed. -/
theorem strayHandler_reopens {t : State} (h : exec (.portHang 23) strayHandler = .next t) : t.dev.is (FAB_CLOSED 23) = false := by
  injection h with h
  subst h
  decide

/-- Refutes O44: with source 96151 in the handler of Mason 0, PORT_HANG of port 23 ends with that port open. The statement bounds
the priorities of the tasks, which index registers as well, but not the numbers of the sources. -/
theorem not_portHangsAndRefetches : ¬ Obligations.PortHangsAndRefetches := by
  unfold Obligations.PortHangsAndRefetches
  intro h
  obtain ⟨hhang, -, -⟩ := h strayHandler (by decide)
  obtain ⟨t, ht, -, hclosed, -⟩ := hhang 23 (by decide) (by decide) (by decide) (by decide +kernel)
  exact Bool.false_ne_true ((strayHandler_reopens ht).symm.trans hclosed)

end Sys2Proof.Machine
end

section
/-! PROOFS. The commands of models and limits (R40, R43, R59, R60, R64, R75): what MODEL_LOAD registers, how its blob fills or empties
the staged slot, and when an activation or new limits wait for their latch. -/

namespace Sys2Proof.Machine

variable {s : State} {c : Cmd} {d : Dev} {b : List Byte} {m : Model}

/-! ## Commands that go on -/

/-- A command that starts leaves what its meaning leaves of the device in which it has started. -/
theorem starts_run {i : Instr} {op : Nat} {f : Dev → Cmd → Dev} {post : Dev → Prop} (h : s.starts op c)
    (hi : exec i s = s.run (fun d => d.start op f)) (hp : post (f (s.started c) c)) : Completes i s post :=
  completes_run hi (by rw [start_run h]; exact hp)

/-! ## MODEL_LOAD -/

theorem modelLoad_refused (h : s.starts 0x10 c) (hb : (s.dev.is KLN_LOADBUSY || s.dev.kiln.activating.isSome) = true) :
    EndsOnly .modelLoad s c .rejectedState :=
  endsOnly_of h rfl (if_pos hb)

theorem modelLoad_takes (h : s.starts 0x10 c) (hb : (s.dev.is KLN_LOADBUSY || s.dev.kiln.activating.isSome) = false) :
    Completes .modelLoad s (fun d =>
      d.runsOn c ∧ d.kiln = { s.dev.kiln with loading := some c.id } ∧ d.is KLN_LOADBUSY = true ∧
      d.host.copies = s.dev.host.copies ++ [⟨2, 0, c.addr, c.len, 0, 0, some c.id, false⟩] ∧
      s.dev.only d [.host, .kiln] [KLN_LOADBUSY.off]) := by
  refine starts_run h rfl ?_
  dsimp only
  rw [if_neg (by exact Bool.eq_false_iff.1 hb)]
  exact ⟨started_cmd h, rfl, is_putB_same _ KLN_LOADBUSY true (by decide), rfl,
    keeps_only (keeps_kiln (by decide) (keeps_putB (by decide) (keeps_host (by decide) (started_keeps (by decide)))))⟩

/-! ## MODEL_FETCH_DONE -/

/-- The fetch of a blob has ended, with whatever result. -/
def Dev.fetchEnded (d : Dev) : Dev := { d with kiln := { d.kiln with loading := none } }.putB KLN_LOADBUSY false

/-- The CRC unit reports a blob whose magic is good and whose CRC is not. -/
def Dev.crcChecked (d : Dev) (len : Nat) (b : List Byte) : Dev :=
  if magicOk b len && crc32c (b.drop 16) != uAt b 0x0C 4 then d.chkMiss 8 else d

/-- The staged slot takes some content or none, KLN_STGV shows `v`, and the copy of the content before is released. -/
def Dev.stage (d : Dev) (x : Option Model) (v : Nat) : Dev :=
  ({ d with kiln := { d.kiln with staged := x, refetch := d.kiln.refetch.filter (· != 2) } }.put KLN_STGV v).releaseCopy 2 0

/-- A blob is judged by its check unit and by R40; a good one fills the staged slot and a bad one empties it. -/
def Dev.judgeBlob (d : Dev) (c : Cmd) (b : List Byte) : Dev :=
  let parts := if d.chkWorks 8 then checkModel c.len b else setBit (checkModel c.len b) 15 true
  let e := if (magicOk b c.len && crc32c (b.drop 16) != uAt b 0x0C 4) || !d.chkWorks 8 then d.chkMiss 8 else d
  if parts ≠ 0 then (e.stage none 0).showModels.complete c.id .rejectedParam b.length parts 0 0
  else ((e.stage (some (parseModel b)) 1).adoptCopy c.id 2 0 (parseModel b).modelid (parseModel b).crc).showModels.complete
    c.id .ok b.length 0 0 0

/-- The command that waited for the blob goes on with it, or with its loss. -/
def Dev.blobFetched (d : Dev) (c : Cmd) (f : Fetch) : Dev :=
  match d.fetchEnded.served f with
  | .failed => d.fetchEnded.hostFault c.id 1
  | .bytes b => d.fetchEnded.judgeBlob c b

theorem chkMiss_host (d : Dev) (n : Nat) : (d.chkMiss n).host = d.host := by
  unfold Dev.chkMiss
  dsimp only
  split <;> rfl

theorem chkMiss_kiln (d : Dev) (n : Nat) : (d.chkMiss n).kiln = d.kiln := by
  unfold Dev.chkMiss
  dsimp only
  split <;> rfl

theorem chkMiss_get (d : Dev) (n : Nat) {f : Fld} (hf : f.off < 0xE040) : (d.chkMiss n).get f = d.get f := by
  have hb : (d.bump (0xE040 + 4 * n)).get f = d.get f := by rw [get_eq, get_eq, reg_bump_ne _ _ _ (by omega)]
  unfold Dev.chkMiss
  dsimp only
  split
  · exact hb
  · exact hb

theorem crcChecked_kept (d : Dev) (len : Nat) (b : List Byte) : (d.crcChecked len b).host = d.host ∧
    (d.crcChecked len b).kiln = d.kiln ∧ (d.crcChecked len b).is KLN_LOADBUSY = d.is KLN_LOADBUSY := by
  unfold Dev.crcChecked
  split
  · exact ⟨chkMiss_host d 8, chkMiss_kiln d 8, by rw [is_eq, is_eq, chkMiss_get d 8 (by decide)]⟩
  · exact ⟨rfl, rfl, rfl⟩

/-- With its check unit working a blob is judged by R40 alone. -/
theorem judgeBlob_eq (hw : d.chkWorks 8 = true) : d.judgeBlob c b =
    if checkModel c.len b ≠ 0 then
      ((d.crcChecked c.len b).stage none 0).showModels.complete c.id .rejectedParam b.length (checkModel c.len b) 0 0
    else (((d.crcChecked c.len b).stage (some (parseModel b)) 1).adoptCopy c.id 2 0 (parseModel b).modelid
      (parseModel b).crc).showModels.complete c.id .ok b.length 0 0 0 := by
  unfold Dev.judgeBlob Dev.crcChecked
  rw [hw, Bool.not_true, Bool.or_false, if_pos rfl]

theorem showModels_get (d : Dev) {f : Fld} (hf : f.off < 0x5104) : d.showModels.get f = d.get f := by
  have hput : ∀ (e : Dev) (n v : Nat), (e.put (KLN_MDLACT n) v).get f = e.get f := fun e n v =>
    get_put_off e _ f v (by show f.off ≠ 0x5104 + 4 * n; omega)
  unfold Dev.showModels
  dsimp only
  rw [hput, hput, hput, hput]

theorem showModels_host (d : Dev) : d.showModels.host = d.host := by
  unfold Dev.showModels
  dsimp only
  rw [put_host, put_host, put_host, put_host]

theorem showModels_kiln (d : Dev) : d.showModels.kiln = d.kiln := by
  unfold Dev.showModels
  dsimp only
  rw [put_kiln, put_kiln, put_kiln, put_kiln]

theorem complete_kiln (d : Dev) (id : Nat) (st : Status) (p q r0 r1 : Nat) : (d.complete id st p q r0 r1).kiln = d.kiln :=
  (keeps_complete (P := (· = .host)) (R := fun _ => False) rfl (keeps_refl d _ _)).1 .kiln (by decide)

theorem complete_get (d : Dev) (id : Nat) (st : Status) (p q r0 r1 : Nat) (f : Fld) : (d.complete id st p q r0 r1).get f = d.get f :=
  keeps_get (keeps_complete (P := (· = .host)) (R := fun _ => False) rfl (keeps_refl d _ _)) not_false

theorem stage_shows (d : Dev) (x : Option Model) {v : Nat} (hv : v < 4) :
    (d.stage x v).get KLN_STGV = v ∧ (d.stage x v).is KLN_LOADBUSY = d.is KLN_LOADBUSY :=
  ⟨(get_put_same _ KLN_STGV v (by decide)).trans (Nat.mod_eq_of_lt hv),
   is_put_apart _ KLN_STGV KLN_LOADBUSY v (by decide) (by decide) (by decide)⟩

/-- The command that a MODEL_FETCH_DONE ends is under way. -/
def State.fetches (s : State) (c : Cmd) : Prop :=
  s.dev.up = true ∧ s.dev.kiln.loading = some c.id ∧ s.dev.cmd? c.id = some c ∧ c.done = none

/-- A command found as it is ends with what is given. -/
theorem complete_endsAs {st : Status} {p q r0 r1 : Nat} (hc : d.cmd? c.id = some c) (hd : c.done = none) :
    (d.complete c.id st p q r0 r1).endedAs c st p q r0 r1 := complete_ends hc rfl hd

theorem fetchEnded_idle (d : Dev) : d.fetchEnded.is KLN_LOADBUSY = false := is_putB_same _ KLN_LOADBUSY false (by decide)

theorem modelFetchDone_run {f : Fetch} {post : Dev → Prop} (h : s.fetches c) (hp : post (s.begun.blobFetched c f)) :
    Completes (.modelFetchDone f) s post := by
  obtain ⟨hu, hl, hc, -⟩ := h
  have hrun : exec (.modelFetchDone f) s = .next ⟨s.pending, match s.dev.kiln.loading.bind s.dev.cmd? with
      | none => s.begun
      | some c => if !s.dev.up then s.begun else s.begun.blobFetched c f⟩ := rfl
  rw [hl, Option.bind_some, hc, hu] at hrun
  exact ⟨_, hrun, rfl, hp⟩

theorem cmd_of_host {e : Dev} (h : e.host = d.host) (hc : d.cmd? c.id = some c) : e.cmd? c.id = some c :=
  (cmd_of_cmds (congrArg HostSt.cmds h) c.id).trans hc

/-- A transfer that did not take place ends its command, and is counted at most. -/
theorem hostFault_ends (hc : d.cmd? c.id = some c) (hd : c.done = none) (n : Nat) :
    (d.hostFault c.id n).endedAs c .unitFault 0 0 n 0 ∧ (d.hostFault c.id n).kiln = d.kiln ∧
    ∀ f : Fld, f.off ≠ 0x104C → (d.hostFault c.id n).get f = d.get f := by
  unfold Dev.hostFault Dev.unitFault
  split
  · exact ⟨complete_endsAs hc hd, complete_kiln .., fun _ _ => complete_get ..⟩
  · exact ⟨complete_endsAs hc hd, complete_kiln .., fun f hf =>
      (complete_get ..).trans (by rw [get_eq, get_eq, Dev.dmaError, reg_raise, reg_bump_ne _ _ _ hf])⟩

theorem fetchEnded_get (d : Dev) {f : Fld} (hf : f.off ≠ 0x5100) : d.fetchEnded.get f = d.get f :=
  get_put_off _ KLN_LOADBUSY f _ hf

theorem modelFetchDone_failed (h : s.fetches c) : Completes (.modelFetchDone .failed) s (fun d =>
    d.endedAs c .unitFault 0 0 1 0 ∧ d.kiln = { s.dev.kiln with loading := none } ∧ d.is KLN_LOADBUSY = false ∧
    d.get KLN_STGV = s.dev.get KLN_STGV) := by
  have hf : s.begun.blobFetched c .failed = s.begun.fetchEnded.hostFault c.id 1 := by
    unfold Dev.blobFetched Dev.served
    rw [ite_self]
  refine modelFetchDone_run h ?_
  rw [hf]
  obtain ⟨-, -, hc, hd⟩ := h
  obtain ⟨hend, hkiln, hget⟩ := hostFault_ends (d := s.begun.fetchEnded) hc hd 1
  refine ⟨hend, hkiln, ?_, (hget _ (by decide)).trans (get_put_apart _ KLN_LOADBUSY KLN_STGV _ (by decide) (by decide) (by decide))⟩
  rw [is_eq, hget _ (by decide), ← is_eq]
  exact fetchEnded_idle s.begun

/-- A command that ends as the slots are shown leaves the Kiln and the status of the staged slot as they were. -/
theorem showModels_complete {st : Status} {p q : Nat} (hc : d.cmd? c.id = some c) (hd : c.done = none) :
    (d.showModels.complete c.id st p q 0 0).endedAs c st p q 0 0 ∧ (d.showModels.complete c.id st p q 0 0).kiln = d.kiln ∧
    ∀ f : Fld, f.off < 0x5104 → (d.showModels.complete c.id st p q 0 0).get f = d.get f :=
  ⟨complete_endsAs (cmd_of_host (showModels_host d) hc) hd, (complete_kiln ..).trans (showModels_kiln d),
   fun _ hf => (complete_get ..).trans (showModels_get d hf)⟩

/-- What a load leaves of the Kiln and of its status: the staged slot holds `x` and KLN_MODEL shows `v` of it. -/
def Dev.loadedAs (d0 d : Dev) (x : Option Model) (v : Nat) : Prop :=
  d.is KLN_LOADBUSY = false ∧ d.kiln.loading = none ∧ d.kiln.active = d0.kiln.active ∧ d.kiln.staged = x ∧ d.get KLN_STGV = v

theorem stage_loadedAs {d0 e n : Dev} {x : Option Model} {v : Nat} (he : e = d0.crcChecked c.len b) (hv : v < 4)
    (hl : d0.kiln.loading = none) (hb : d0.is KLN_LOADBUSY = false) (hk : n.kiln = (e.stage x v).kiln)
    (hg : ∀ f : Fld, f.off < 0x5104 → n.get f = (e.stage x v).get f) : d0.loadedAs n x v := by
  obtain ⟨-, hkiln, hbusy⟩ := crcChecked_kept d0 c.len b
  rw [← he] at hkiln hbusy
  obtain ⟨hstg, hidle⟩ := stage_shows e x hv
  have hek : (e.stage x v).kiln = { e.kiln with staged := x, refetch := e.kiln.refetch.filter (· != 2) } := rfl
  rw [hek, hkiln] at hk
  refine ⟨?_, by rw [hk]; exact hl, by rw [hk], by rw [hk], (hg _ (by decide)).trans hstg⟩
  rw [is_eq, hg _ (by decide), ← is_eq, hidle, hbusy]
  exact hb

theorem modelFetchDone_judged (h : s.fetches c) (h4 : s.dev.session ≠ 4) (hw : s.dev.chkWorks 8 = true) (b : List Byte) :
    Completes (.modelFetchDone (.bytes b)) s (fun d =>
      d.is KLN_LOADBUSY = false ∧ d.kiln.loading = none ∧ d.kiln.active = s.dev.kiln.active ∧
      (if checkModel c.len b = 0
       then d.endedAs c .ok b.length 0 0 0 ∧ d.kiln.staged = some (parseModel b) ∧ d.get KLN_STGV = 1
       else d.endedAs c .rejectedParam b.length (checkModel c.len b) 0 0 ∧ d.kiln.staged = none ∧ d.get KLN_STGV = 0)) := by
  refine modelFetchDone_run h ?_
  obtain ⟨-, -, hc, hd⟩ := h
  have hserved : s.begun.blobFetched c (.bytes b) = s.begun.fetchEnded.judgeBlob c b := by
    have hs : s.begun.fetchEnded.served (.bytes b) = .bytes b :=
      if_neg (by rw [show s.begun.fetchEnded.session = s.dev.session from fetchEnded_get _ (by decide)]; exact h4)
    unfold Dev.blobFetched
    rw [hs]
  have hworks : s.begun.fetchEnded.chkWorks 8 = true := by
    unfold Dev.chkWorks at hw ⊢
    rwa [is_eq, show s.begun.fetchEnded.get (CHK_FAILC 8) = s.dev.get (CHK_FAILC 8) from fetchEnded_get _ (by decide), ← is_eq]
  rw [hserved, judgeBlob_eq hworks]
  have hidle := fetchEnded_idle s.begun
  obtain ⟨hhost, -, -⟩ := crcChecked_kept s.begun.fetchEnded c.len b
  generalize he : s.begun.fetchEnded.crcChecked c.len b = e at hhost
  have hec : e.cmd? c.id = some c := cmd_of_host (d := s.begun.fetchEnded) hhost hc
  by_cases hz : checkModel c.len b = 0
  · rw [if_neg (not_not_intro hz), if_pos hz]
    obtain ⟨hend, hkiln, hget⟩ := showModels_complete (st := .ok) (p := b.length) (q := 0)
      (d := (e.stage (some (parseModel b)) 1).adoptCopy c.id 2 0 (parseModel b).modelid (parseModel b).crc) hec hd
    obtain ⟨hbusy, hload, hact, hstaged, hstg⟩ := stage_loadedAs he.symm (by decide) rfl hidle hkiln hget
    exact ⟨hbusy, hload, hact, hend, hstaged, hstg⟩
  · rw [if_pos hz, if_neg hz]
    obtain ⟨hend, hkiln, hget⟩ := showModels_complete (st := .rejectedParam) (p := b.length) (q := checkModel c.len b)
      (d := e.stage none 0) hec hd
    obtain ⟨hbusy, hload, hact, hstaged, hstg⟩ := stage_loadedAs he.symm (by decide) rfl hidle hkiln hget
    exact ⟨hbusy, hload, hact, hend, hstaged, hstg⟩

/-! ## MODEL_ACTIVATE -/

theorem modelActivate_empty (h : s.starts 0x11 c) (hs : s.dev.kiln.staged = none) :
    EndsOnly .modelActivate s c .rejectedState := by
  refine endsOnly_of h rfl ?_
  rw [show (s.started c).kiln.staged = none from hs]

theorem modelActivate_refused (h : s.starts 0x11 c) (hs : s.dev.kiln.staged = some m) (ha : s.dev.activateOk m = false) :
    EndsOnly .modelActivate s c .rejectedState := by
  refine endsOnly_of h rfl ?_
  rw [show (s.started c).kiln.staged = some m from hs]
  exact if_pos (by rw [show (s.started c).activateOk m = false from ha]; rfl)

theorem modelActivate_unmonitored (h : s.starts 0x11 c) (hs : s.dev.kiln.staged = some m) (ha : s.dev.activateOk m = true)
    (hm : s.dev.dmonOk m = false) : EndsOnly .modelActivate s c .rejectedParam := by
  refine endsOnly_of h rfl ?_
  rw [show (s.started c).kiln.staged = some m from hs]
  dsimp only
  rw [show (s.started c).activateOk m = true from ha, show (s.started c).dmonOk m = false from hm]
  rfl

theorem modelActivate_waits (h : s.starts 0x11 c) (hs : s.dev.kiln.staged = some m) (ha : s.dev.activateOk m = true)
    (hm : s.dev.dmonOk m = true) : Completes .modelActivate s (fun d =>
      d.runsOn c ∧ d.kiln = { s.dev.kiln with activating := some (c.id, c.accepted) } ∧ d.is KLN_ACTPEND = true ∧
      s.dev.only d [.host, .kiln] [KLN_ACTPEND.off]) := by
  refine starts_run h rfl ?_
  rw [show (s.started c).kiln.staged = some m from hs]
  dsimp only
  rw [show (s.started c).activateOk m = true from ha, show (s.started c).dmonOk m = true from hm]
  exact ⟨started_cmd h, rfl, is_putB_same _ KLN_ACTPEND true (by decide),
    keeps_only (keeps_putB (by decide) (keeps_kiln (by decide) (started_keeps (by decide))))⟩

/-! ## LIMITS_SET -/

/-- The factors that a LIMITS_SET gives. -/
def Cmd.factors (c : Cmd) : Limits := ⟨c.u 0x1C 4, c.u 0x20 4, c.u 0x24 4, c.u 0x28 4⟩

/-- The factors of an arm once those that wait for their latch are in force. -/
def KilnSt.limitsDue (k : KilnSt) (a : Nat) : Limits :=
  match k.limitsPend.reverse.find? (fun p => p.2.2.1 == a) with
  | some p => p.2.2.2
  | none => k.limits.getD a ⟨65536, 65536, 65536, 65536⟩

/-- The arms of which a joint could then brake more strongly than it may accelerate (R75). -/
def KilnSt.armsAtFault (k : KilnSt) (l : Limits) (arms : List Nat) : List Nat :=
  arms.filter (fun a => k.active.any (fun m => (m.armJoints a).any (fun j =>
    decide (j.amax * (limitsOf (k.limitsDue a) l.sv l.sa l.sj l.st).sa < j.dmon * 65536))))

/-- LIMITS_SET as it starts. -/
def Dev.setLimits (d : Dev) (c : Cmd) : Dev :=
  if [c.factors.sv, c.factors.sa, c.factors.sj, c.factors.st].any (fun x => decide (65536 < x)) then d.finish c.id .rejectedParam
  else if d.kiln.armsAtFault c.factors (bitsOf (c.u 0x18 1) 8) ≠ [] then
    d.complete c.id .rejectedParam 0 (maskOf (d.kiln.armsAtFault c.factors (bitsOf (c.u 0x18 1) 8))) 0 0
  else { d with kiln := { d.kiln with limitsPend := d.kiln.limitsPend ++
    (if bitsOf (c.u 0x18 1) 8 = [] then [8] else bitsOf (c.u 0x18 1) 8).map (fun a => (c.id, c.accepted, a, c.factors)) } }

theorem limitsSet_starts (s : State) : exec .limitsSet s = s.run (fun d => d.start 0x23 Dev.setLimits) := by
  show execLimitsSet s = _
  have hf : ∀ (d : Dev) (c : Cmd), (fun a => match d.kiln.active with
      | none => false
      | some m => (m.armJoints a).any (fun j => decide (j.amax * (limitsOf (d.kiln.limitsDue a) c.factors.sv c.factors.sa
          c.factors.sj c.factors.st).sa < j.dmon * 65536))) =
      (fun a => d.kiln.active.any (fun m => (m.armJoints a).any (fun j => decide (j.amax * (limitsOf (d.kiln.limitsDue a)
          c.factors.sv c.factors.sa c.factors.sj c.factors.st).sa < j.dmon * 65536)))) := fun d c => by
    funext a
    cases d.kiln.active <;> rfl
  unfold execLimitsSet Dev.setLimits KilnSt.armsAtFault
  simp only [← hf]
  rfl

theorem limitsSet_tooLarge (h : s.starts 0x23 c)
    (hx : 65536 < c.u 0x1C 4 ∨ 65536 < c.u 0x20 4 ∨ 65536 < c.u 0x24 4 ∨ 65536 < c.u 0x28 4) :
    EndsOnly .limitsSet s c .rejectedParam :=
  endsOnly_of h (limitsSet_starts s) (if_pos (by simpa [Cmd.factors] using hx))

/-- No factor is above 1. -/
def Limits.inRange (l : Limits) : Prop := l.sv ≤ 65536 ∧ l.sa ≤ 65536 ∧ l.sj ≤ 65536 ∧ l.st ≤ 65536

theorem inRange_none (h : c.factors.inRange) :
    ¬ [c.factors.sv, c.factors.sa, c.factors.sj, c.factors.st].any (fun x => decide (65536 < x)) = true := by
  obtain ⟨hv, ha, hj, ht⟩ := h
  simp [hv, ha, hj, ht]

theorem limitsSet_unmonitored (h : s.starts 0x23 c) (hr : c.factors.inRange) {bad : List Nat}
    (hb : bad = s.dev.kiln.armsAtFault c.factors (bitsOf (c.u 0x18 1) 8)) (hne : bad ≠ []) :
    Completes .limitsSet s (fun d => d.endedAs c .rejectedParam 0 (maskOf bad) 0 0 ∧ s.dev.only d [.host] []) := by
  refine ends_of h (limitsSet_starts s) ?_
  have hbad : (s.started c).kiln.armsAtFault c.factors (bitsOf (c.u 0x18 1) 8) = bad := hb.symm
  unfold Dev.setLimits
  rw [if_neg (inRange_none hr), hbad, if_pos hne]

theorem limitsSet_waits (h : s.starts 0x23 c) (hr : c.factors.inRange)
    (hb : s.dev.kiln.armsAtFault c.factors (bitsOf (c.u 0x18 1) 8) = []) :
    Completes .limitsSet s (fun d => d.runsOn c ∧ s.dev.only d [.host, .kiln] [] ∧
      d.kiln = { s.dev.kiln with limitsPend := s.dev.kiln.limitsPend ++
        (if bitsOf (c.u 0x18 1) 8 = [] then [8] else bitsOf (c.u 0x18 1) 8).map (fun a => (c.id, c.accepted, a, c.factors)) }) := by
  refine starts_run h (limitsSet_starts s) ?_
  have hbad : (s.started c).kiln.armsAtFault c.factors (bitsOf (c.u 0x18 1) 8) = [] := hb
  unfold Dev.setLimits
  rw [if_neg (inRange_none hr), hbad, if_neg (not_not_intro rfl)]
  exact ⟨started_cmd h, keeps_only (keeps_kiln (by decide) (started_keeps (by decide))), rfl⟩

/-! ## The obligation -/

/-- Settles O36, command by command. -/
theorem modelCommands : Obligations.ModelCommands := by
  unfold Obligations.ModelCommands
  intro s c
  refine ⟨modelLoad_refused, modelLoad_takes, fun hu _ hl hc hd => ⟨modelFetchDone_failed ⟨hu, hl, hc, hd⟩, fun b h4 hw =>
    modelFetchDone_judged ⟨hu, hl, hc, hd⟩ h4 hw b⟩, modelActivate_empty, fun m h hs => ⟨modelActivate_refused h hs,
    modelActivate_unmonitored h hs, modelActivate_waits h hs⟩, limitsSet_tooLarge, ?_⟩
  rintro arms l old bad h rfl rfl hv ha hj ht hold hbad
  have hfault : bad = s.dev.kiln.armsAtFault c.factors (bitsOf (c.u 0x18 1) 8) := by
    rw [show old = s.dev.kiln.limitsDue from funext hold] at hbad
    exact hbad
  exact ⟨limitsSet_unmonitored h ⟨hv, ha, hj, ht⟩ hfault, fun hb => limitsSet_waits h ⟨hv, ha, hj, ht⟩ (hfault.symm.trans hb)⟩

end Sys2Proof.Machine
end

section
/-! PROOFS. The Kiln's build of a problem and ASSEMBLY_START (R46, R68, R80): what a build changes, and the problem that it leaves. -/

namespace Sys2Proof.Machine

variable {K : Dev → Prop} {P : Part → Prop} {R : Fld → Prop} {d : Dev} {s : State} {m : Model}

/-! ## The steps of a build -/

/-- The registers in which a build reports, beside the epoch. -/
abbrev BuildOff (o : Nat) : Prop := o ∈ [0x5038, 0x503C, 0x5040, 0x5048]

/-- The epoch advances and the Kiln holds no problem (R80). -/
def Dev.beginBuild (d : Dev) (rebuild : Bool) : Dev :=
  let e := d.put KLN_EPOCH ((d.get KLN_EPOCH + 1) % 65536)
  { e with kiln := { e.kiln with
      assembling := true, rebuilding := rebuild, delivered := false, prob := none, used := none, asmAt := e.now } }

/-- The Kiln takes what it has built. -/
def Dev.takeBuilt (d : Dev) (b : Built) : Dev :=
  { d with kiln := { d.kiln with prob := some b.p, used := some (d.inputs b.p), normals := b.normals } }

/-- A problem with its warm start mapped from the plan that it follows (R86). -/
def Dev.warmed (d : Dev) (m : Model) (p : Problem) : Problem := d.warmStart m p (d.warmSource p.s).1 (d.warmSource p.s).2

/-- T_stop, and whether it is at its limit (R73). -/
def Dev.reportStop (d : Dev) (b : Built) : Dev :=
  let e := d.put KLN_TSTOP b.p.tstop
  if b.stoplim then (e.putB (KLN_TRUNC 3) true).raise (srcNo 2 6) noDetail else e

/-- The pools that were cut (R78). -/
def Dev.reportCut (d : Dev) (b : Built) : Dev :=
  let e := (bitsOf b.cut 3).foldl (fun (d : Dev) n => d.putB (KLN_TRUNC n) true) d
  if b.cut = 0 || e.kiln.truncSeen then e
  else { e with kiln := { e.kiln with truncSeen := true } }.raise (srcNo 2 4) noDetail

/-- A build of a model's problem, once it has begun. -/
def Dev.buildModel (d : Dev) (m : Model) (s : Nat) : Dev :=
  let b := d.build m s (d.get KLN_EPOCH)
  (if s = d.s ∨ d.planner.phase ≠ 0 then (d.takeBuilt b).mapWarm m else d.takeBuilt b).reportStop b |>.reportCut b

theorem beginBuild_epoch (d : Dev) (r : Bool) : (d.beginBuild r).get KLN_EPOCH = (d.get KLN_EPOCH + 1) % 65536 :=
  (get_put_same d KLN_EPOCH _ (by decide)).trans (Nat.mod_mod _ _)

theorem beginBuild_canBuild (d : Dev) (r : Bool) : (d.beginBuild r).canBuild = d.canBuild := by
  have hg : ∀ f : Fld, f.off ≠ 0x5020 → (d.beginBuild r).get f = d.get f := fun f h => get_put_off d KLN_EPOCH f _ h
  unfold Dev.canBuild
  rw [hg _ (by decide), is_eq, is_eq, hg _ (by decide)]

theorem startBuild_eq (d : Dev) (s : Nat) (r : Bool) : d.startBuild s r = match d.kiln.active with
    | none => d.beginBuild r
    | some m => if d.canBuild then (d.beginBuild r).buildModel m s else d.beginBuild r := by
  have h : d.startBuild s r = match d.kiln.active with
      | none => d.beginBuild r
      | some m => if !(d.beginBuild r).canBuild then d.beginBuild r else
        let b := (d.beginBuild r).build m s ((d.get KLN_EPOCH + 1) % 65536)
        (if s = d.s ∨ d.planner.phase ≠ 0 then ((d.beginBuild r).takeBuilt b).mapWarm m
          else (d.beginBuild r).takeBuilt b).reportStop b |>.reportCut b := rfl
  rw [h, beginBuild_canBuild]
  cases d.kiln.active with
  | none => rfl
  | some m =>
    dsimp only
    unfold Dev.buildModel
    rw [beginBuild_epoch]
    cases d.canBuild <;> rfl

/-! ## What outlives a build -/

section
variable (hK : Stable K P R) (hr : ∀ f : Fld, BuildOff f.off → R f) (hv : P .evReq)
include hK hr hv

theorem Stable.mapWarm (hk : ∀ (d : Dev) p, d.kiln.prob = some p → K d →
    K { d with kiln := { d.kiln with prob := some (d.warmed m p) } }) (h : K d) : K (d.mapWarm m) := by
  unfold Dev.mapWarm
  split
  · exact h
  next p hp =>
    have h1 := hK.putB (b := (d.warmed m p).cold) (hr KLN_COLD (by decide))
      (hK.put (v := (d.warmed m p).matchPm) (hr KLN_MATCH (by decide)) (hk d p hp h))
    dsimp only
    split
    · exact hK.raise hv (hK.bump (hr _ (by decide)) h1)
    · exact h1

theorem Stable.reportStop {b : Built} (h : K d) : K (d.reportStop b) := by
  have h1 := hK.put (f := KLN_TSTOP) (v := b.p.tstop) (hr _ (by decide)) h
  unfold Dev.reportStop
  dsimp only
  split
  · exact hK.raise hv (hK.putB (hr _ (by decide)) h1)
  · exact h1

theorem Stable.reportCut {b : Built} (hk : ∀ d : Dev, K d → K { d with kiln := { d.kiln with truncSeen := true } }) (h : K d) :
    K (d.reportCut b) := by
  have h1 := foldl_invariant (K := K) (bitsOf b.cut 3) (fun e n _ k => hK.putB (f := KLN_TRUNC n) (b := true) (hr _ List.mem_cons_self) k) h
  unfold Dev.reportCut
  dsimp only
  split
  · exact h1
  · exact hK.raise hv (hk _ h1)

end

/-- The Kiln as it stands beside its problem. -/
def KilnSt.besideProblem (k : KilnSt) : KilnSt := { k with prob := none, used := none, normals := [], truncSeen := false }

/-- What a build leaves: a problem of the model for the stride that starts at `s`, under the epoch in force. -/
def Dev.holdsProblem (d : Dev) (m : Model) (s : Nat) : Prop :=
  ∃ p, d.kiln.prob = some p ∧ p.s = s ∧ p.epoch = d.get KLN_EPOCH ∧ p.modelid = m.modelid

theorem Stable.buildModel (hK : Stable K P R) (hr : ∀ f : Fld, BuildOff f.off → R f) (hv : P .evReq)
    (hk : ∀ (d : Dev) x, x.besideProblem = d.kiln.besideProblem → K d → K { d with kiln := x }) {s : Nat} (h : K d) :
    K (d.buildModel m s) := by
  unfold Dev.buildModel
  refine hK.reportCut hr hv (fun d => hk d _ rfl) (hK.reportStop hr hv ?_)
  split
  · exact hK.mapWarm hr hv (fun d _ _ => hk d _ rfl) (hk d _ rfl h)
  · exact hk d _ rfl h

theorem buildModel_holdsProblem (d : Dev) (m : Model) (s : Nat) : (d.buildModel m s).holdsProblem m s := by
  have hK : Stable (Dev.holdsProblem · m s) (· = .evReq) (fun f => BuildOff f.off) := by
    rintro e e' hu ⟨p, hp, hs, he, hm⟩
    refine ⟨p, (congrArg KilnSt.prob (upd_same (p := .kiln) (by decide) hu)).trans hp, hs, he.trans ?_, hm⟩
    exact (upd_get (by decide) (fun f hf => apart_of_off (fun h => absurd (h ▸ hf) (by decide))) hu).symm
  unfold Dev.buildModel
  refine hK.reportCut (fun _ => id) rfl (fun _ h => h) (hK.reportStop (fun _ => id) rfl ?_)
  have hbuilt : (d.takeBuilt (d.build m s (d.get KLN_EPOCH))).holdsProblem m s := ⟨_, rfl, rfl, rfl, rfl⟩
  split
  · refine hK.mapWarm (fun _ => id) rfl ?_ hbuilt
    rintro e p hp ⟨q, hq, hs, he, hm⟩
    obtain rfl : p = q := Option.some.inj (hp.symm.trans hq)
    exact ⟨_, rfl, hs, he, hm⟩
  · exact hbuilt

/-- A build at `e` leaves `d`: the epoch, the clock and the Kiln beside its problem are those of `e`. -/
def Dev.buildsOn (e d : Dev) : Prop :=
  d.get KLN_EPOCH = e.get KLN_EPOCH ∧ d.kiln.besideProblem = e.kiln.besideProblem ∧ e.onlyParts d [.kiln, .evReq]

theorem buildModel_buildsOn (e : Dev) (m : Model) (s : Nat) : e.buildsOn (e.buildModel m s) := by
  have hK : Stable e.buildsOn (· = .evReq) (fun f => BuildOff f.off) := by
    rintro d d' hu ⟨he, hk, hp⟩
    refine ⟨(upd_get (by decide) (fun f hf => apart_of_off (fun h => absurd (h ▸ hf) (by decide))) hu).trans he,
      (congrArg KilnSt.besideProblem (upd_same (p := .kiln) (by decide) hu)).trans hk, fun q hq => same_trans (hp q hq) (upd_same ?_ hu)⟩
    rintro rfl
    exact hq (by decide)
  refine hK.buildModel (fun _ => id) rfl (fun d x hx => ?_) ⟨rfl, rfl, fun q _ => (keeps_refl e (fun _ => False) (fun _ => False)).1 q id⟩
  rintro ⟨he, hk, hp⟩
  exact ⟨he, hx.trans hk, (keeps_kiln (x := x) (R := fun _ => True) (by decide) ⟨hp, fun _ h => absurd trivial h⟩).1⟩

/-! ## ASSEMBLY_START -/

/-- The Kiln's set-up is latched, and what it built last becomes the problem before. -/
def Dev.nextAssembly (d : Dev) : Dev :=
  let e := d.latchKiln
  ({ e with kiln := { e.kiln with last := some (e.get KLN_EPOCH, e.kiln.delivered, e.kiln.rebuilding) } } : Dev).turnNormals

/-- An assembly with the set-up latched at its start. -/
def Dev.assemble (d : Dev) : Dev :=
  let d := d.latchKiln
  let d := { d with kiln := { d.kiln with last := some (d.get KLN_EPOCH, d.kiln.delivered, d.kiln.rebuilding) } }
  if d.kiln.ctrl % 2 = 0 then { d with kiln := { d.kiln with prob := none, delivered := false, assembling := false } }
  else d.turnNormals.startBuild (d.s + d.ts) false

theorem assemble_speculates (h : (d.reg 0x5000).toNat % 2 = 1) : d.assemble = d.nextAssembly.startBuild (d.s + d.ts) false :=
  if_neg (by show ¬ (d.reg 0x5000).toNat % 2 = 0; omega)

theorem assemblyStart_run {post : Dev → Prop} (hu : s.dev.up = true) (hp : s.dev.plState ≠ 0) (ha : s.dev.kiln.active = some m)
    (hc : s.dev.kiln.ctrl % 2 = 1) (hr : (s.dev.reg 0x5000).toNat % 2 = 1)
    (h : ∀ x : TimeSt, x = { s.dev.time with now := max s.dev.now (s.dev.s + s.dev.ts - s.dev.leadA), frac := x.frac } →
      post ((s.begun.atTime x).nextAssembly.startBuild (s.dev.s + s.dev.ts) false)) : Completes .assemblyStart s post := by
  obtain ⟨x, hx, hnow⟩ := reach_at s.begun (s.dev.s + s.dev.ts - s.dev.leadA)
  refine completes_unless (c := !s.dev.up || s.dev.plState == 0 || s.dev.kiln.active.isNone || s.dev.kiln.ctrl % 2 == 0)
    (b := (s.begun.reach (s.dev.s + s.dev.ts - s.dev.leadA)).assemble) rfl ?_ ?_
  · rw [hu, ha, hc, beq_false_of_ne hp]
    rfl
  · have hs : (s.begun.atTime x).s = s.dev.s := by
      show x.strideAt = s.dev.s
      rw [hnow]
      rfl
    have hts : (s.begun.atTime x).ts = s.dev.ts := by
      show x.layout.stride = s.dev.ts
      rw [hnow]
      rfl
    rw [hx, assemble_speculates (d := s.begun.atTime x) hr, hs, hts]
    exact h x hnow

theorem assemblyStart_effect (hu : s.dev.up = true) (hp : s.dev.plState ≠ 0) (ha : s.dev.kiln.active = some m)
    (hc : s.dev.kiln.ctrl % 2 = 1) (hr : (s.dev.reg 0x5000).toNat % 2 = 1) : Completes .assemblyStart s (fun d =>
      d.get KLN_EPOCH = (s.dev.get KLN_EPOCH + 1) % 65536 ∧ d.kiln.assembling = true ∧ d.kiln.delivered = false ∧
      d.kiln.last = some (s.dev.get KLN_EPOCH, s.dev.kiln.delivered, s.dev.kiln.rebuilding) ∧
      d.now = max s.dev.now (s.dev.s + s.dev.ts - s.dev.leadA) ∧ d.kiln.asmAt = d.now ∧
      (if s.dev.canBuild then ∃ p, d.kiln.prob = some p ∧ p.s = s.dev.s + s.dev.ts ∧ p.epoch = d.get KLN_EPOCH ∧
        p.modelid = m.modelid else d.kiln.prob = none) ∧ s.dev.onlyParts d [.kiln, .time, .evReq]) := by
  refine assemblyStart_run hu hp ha hc hr (fun x hx => ?_)
  generalize hn : (s.begun.atTime x).nextAssembly = n
  have hcan : n.canBuild = s.dev.canBuild := by rw [← hn]; rfl
  have hact : n.kiln.active = some m := by rw [← hn]; exact ha
  generalize he : n.beginBuild false = e
  -- the build goes on from the device in which it has begun
  have hbuilt : ∃ d, n.startBuild (s.dev.s + s.dev.ts) false = d ∧ e.buildsOn d ∧
      (if s.dev.canBuild then d.holdsProblem m (s.dev.s + s.dev.ts) else d.kiln.prob = none) := by
    refine ⟨_, rfl, ?_⟩
    rw [startBuild_eq, hact, ← hcan]
    dsimp only
    rw [he]
    cases n.canBuild with
    | true => exact ⟨buildModel_buildsOn e m _, buildModel_holdsProblem e m _⟩
    | false =>
      refine ⟨⟨rfl, rfl, fun p _ => ?_⟩, by rw [← he]; rfl⟩
      exact (only_refl e).1 p List.not_mem_nil
  obtain ⟨d, hd, ⟨hepoch, hkiln, hparts⟩, hprob⟩ := hbuilt
  rw [hd]
  have htime : d.time = e.time := hparts .time (by decide)
  have hex : e.time = x := by rw [← he, ← hn]; rfl
  have hkept : s.dev.keeps e (· ∈ [.kiln, .time, .evReq]) (fun _ => True) := by
    rw [← he, ← hn]
    exact keeps_kiln (by decide) (keeps_put trivial (keeps_kiln (by decide) (keeps_kiln (by decide) (keeps_kiln (by decide)
      (keeps_time (by decide) (keeps_out (keeps_refl _ _ _)))))))
  refine ⟨hepoch.trans ?_, (congrArg KilnSt.assembling hkiln).trans ?_, (congrArg KilnSt.delivered hkiln).trans ?_,
    (congrArg KilnSt.last hkiln).trans ?_, ?_, (congrArg KilnSt.asmAt hkiln).trans ?_, hprob, fun p hp => ?_⟩
  · rw [← he, beginBuild_epoch, ← hn]
    rfl
  · rw [← he]
    rfl
  · rw [← he]
    rfl
  · rw [← he, ← hn]
    rfl
  · rw [Dev.now, htime, hex, hx]
  · rw [Dev.now, htime, ← he]
    rfl
  · exact same_trans (hkept.1 p hp) (hparts p (fun h => hp (by revert h; cases p <;> decide)))

end Sys2Proof.Machine
end

section
/-! PROOFS. A solver wall at work (R94, R95, R98, R104): the delivery of a problem, one outer iteration without a fault, and the end of
a refactor. -/

namespace Sys2Proof.Machine

variable {K : Dev → Prop} {P : Part → Prop} {R : Fld → Prop} {d : Dev} {s : State} {w : Nat} {p : Problem} {x : WallSt} {it : Iterate}

/-! ## LAST_BLOCK_ARRIVAL -/

/-- The Kiln has delivered its problem, if it had not (R68). -/
def Dev.delivers (d : Dev) (p : Problem) : Dev :=
  if d.kiln.delivered then d
  else
    let d := { d with kiln := { d.kiln with delivered := true, assembling := false } }
    let d := d.put KLN_ASMT (min (d.now - d.kiln.asmAt) (2 ^ 32 - 1))
    let d := d.setReg 0x5030 (BitVec.ofNat 32 (p.count [1] + p.count [2, 3] * 2 ^ 16))
    d.setReg 0x5034 (BitVec.ofNat 32 (p.count [4, 5, 6] + p.nnz * 2 ^ 12))

/-- A wall takes a problem that has been delivered. -/
def Dev.receives (d : Dev) (w : Nat) (p : Problem) : Dev :=
  if d.role w = 0 then d
  else if decide (p.s = d.s + d.ts) && d.planner.phase == 0 then d.updW w (fun x => { x with next := some p })
  else if d.runsProblem w p.s then d.startProblem w p false (decide (p.s = d.s) && decide (d.s + 70000 ≤ d.now))
  else d.updW w (fun x => { x with problem := some p })

theorem lastBlock_eq (hu : d.up = true) (hs : d.plState ≠ 0) (hp : d.kiln.prob = some p) :
    d.lastBlock w = (d.delivers p).receives w p := by
  have h : d.lastBlock w = match d.kiln.prob with
      | none => d
      | some p => if !d.up || d.plState == 0 then d else (d.delivers p).receives w p := rfl
  rw [h, hp, hu, beq_false_of_ne hs]
  rfl

/-- What the delivery leaves: the Kiln's problem is delivered, and beside its reports nothing else has changed. -/
theorem delivers_effect (d : Dev) (p : Problem) :
    (d.delivers p).kiln = { d.kiln with delivered := true, assembling := (d.delivers p).kiln.assembling } ∧
    (d.kiln.delivered = false → (d.delivers p).kiln.assembling = false) ∧
    d.keeps (d.delivers p) (· = .kiln) (· ∈ [0x5044, 0x5030, 0x5034]) := by
  unfold Dev.delivers
  split
  next h => exact ⟨by rw [← h], fun h' => absurd (h.symm.trans h') (by decide), keeps_refl _ _ _⟩
  next h => exact ⟨rfl, fun _ => rfl, keeps_setReg (by decide) (keeps_setReg (by decide) (keeps_put (by decide)
      (keeps_kiln rfl (keeps_refl _ _ _))))⟩

theorem lastBlockArrival_run {w : Fin 2} {post : Dev → Prop} (hu : s.dev.up = true) (hs : s.dev.plState ≠ 0)
    (hp : s.dev.kiln.prob = some p) (h : post ((s.begun.delivers p).receives w p)) : Completes (.lastBlockArrival w) s post :=
  ⟨_, rfl, rfl, by
    show post (s.begun.lastBlock w)
    rw [lastBlock_eq (d := s.begun) hu hs hp]
    exact h⟩

theorem begun_keeps (s : State) (P : Part → Prop) (R : Nat → Prop) : s.dev.keeps s.begun P R := keeps_out (keeps_refl _ _ _)

theorem role_delivers (d : Dev) (p : Problem) (w : Fin 2) : (d.delivers p).role w = d.role w :=
  keeps_get (delivers_effect d p).2.2 (by
    show ¬ 0x5300 + 0x80 * w.val ∈ [0x5044, 0x5030, 0x5034]
    simp only [List.mem_cons, List.not_mem_nil, or_false]
    omega)

theorem lastBlockArrival_noRole {w : Fin 2} (hu : s.dev.up = true) (hs : s.dev.plState ≠ 0) (hp : s.dev.kiln.prob = some p)
    (h0 : s.dev.role w = 0) : Completes (.lastBlockArrival w) s (fun d =>
      d.kiln = { s.dev.kiln with delivered := true, assembling := d.kiln.assembling } ∧
      (s.dev.kiln.delivered = false → d.kiln.assembling = false) ∧ s.dev.onlyParts d [.kiln]) := by
  refine lastBlockArrival_run hu hs hp ?_
  obtain ⟨hkiln, hasm, hkept⟩ := delivers_effect s.begun p
  rw [show (s.begun.delivers p).receives w p = s.begun.delivers p from if_pos ((role_delivers s.begun p w).trans h0)]
  exact ⟨hkiln, hasm, fun q hq => same_trans ((begun_keeps s (fun _ => False) (fun _ => False)).1 q id)
    (hkept.1 q (fun e => hq (e ▸ List.mem_singleton_self _)))⟩

theorem lastBlockArrival_next {w : Fin 2} (hu : s.dev.up = true) (hs : s.dev.plState ≠ 0) (hp : s.dev.kiln.prob = some p)
    (hx : s.dev.planner.walls[w.val]? = some x) (h0 : s.dev.role w ≠ 0) (hps : p.s = s.dev.s + s.dev.ts)
    (hph : s.dev.planner.phase = 0) : Completes (.lastBlockArrival w) s (fun d =>
      d.kiln.delivered = true ∧ d.planner.walls[w.val]? = some { x with next := some p } ∧ s.dev.onlyParts d [.kiln, .planner]) := by
  refine lastBlockArrival_run hu hs hp ?_
  obtain ⟨hkiln, -, hkept⟩ := delivers_effect s.begun p
  have hrole := role_delivers s.begun p w
  generalize s.begun.delivers p = n at hkiln hkept hrole ⊢
  have htime : n.time = s.dev.time := hkept.1 .time (by decide)
  have hplan : n.planner = s.dev.planner := hkept.1 .planner (by decide)
  have hs' : p.s = n.s + n.ts := by rw [hps, Dev.s, Dev.ts, Dev.s, Dev.ts, htime]
  have hn : n.receives w p = n.updW w (fun x => { x with next := some p }) := by
    unfold Dev.receives
    rw [if_neg (fun e => h0 (hrole.symm.trans e)), decide_eq_true hs', hplan, hph]
    rfl
  rw [hn]
  refine ⟨by show n.kiln.delivered = true; rw [hkiln], by rw [walls_updW_same, hplan, hx]; rfl, fun q hq => ?_⟩
  exact (keeps_planner (P := (· ∈ [Part.kiln, .planner])) (R := fun _ => True) (by decide)
    ⟨fun r hr => same_trans ((begun_keeps s (fun _ => False) (fun _ => False)).1 r id)
      (hkept.1 r (fun e => hr (by rw [e]; decide))), fun _ h => absurd trivial h⟩).1 q hq

/-! ## REFACTOR_DONE -/

theorem refactorDone_effect {w : Fin 2} (hu : s.dev.up = true) (hx : s.dev.planner.walls[w.val]? = some x) :
    Completes (.refactorDone w) s (fun d => d.planner.walls[w.val]? = some { x with refactor := false } ∧ s.dev.only d [.planner] []) :=
  completes_when (c := s.dev.up) (a := s.begun.updW w.val (fun x => { x with refactor := false })) (b := s.begun) rfl hu
    ⟨by rw [walls_updW_same, show s.begun.planner.walls[w.val]? = some x from hx]; rfl,
     keeps_only (keeps_planner (by decide) (keeps_out (keeps_refl _ _ _)))⟩

/-! ## One outer iteration -/

theorem takeFold_eq (x : WallSt) : ∃ q b o, x.takeFold = { x with problem := q, folded := b, foldDue := o } := by
  unfold WallSt.takeFold
  split
  · exact ⟨_, _, _, rfl⟩
  · exact ⟨_, _, _, rfl⟩

/-- An iteration is on the folded problem (R96). -/
def WallSt.onFolded (x : WallSt) : Bool := x.folded && x.foldDue.isNone

/-- The cap on iterations (R97). -/
def WallSt.cap (x : WallSt) : Nat := if x.doubled then min 255 (2 * x.cfg.itcap) else x.cfg.itcap

/-- Wall `y` is wall `x` after an iteration that gave `it` with its residuals, with r as it was (R94 to R98). -/
def WallSt.steppedTo (x y : WallSt) (it : Iterate) (steps prim dual viol : Nat) : Prop :=
  y.cur = it ∧ y.iters = x.iters + 1 ∧ y.innerN = x.innerN + steps ∧ y.prim = prim ∧ y.dual = dual ∧ y.r = x.r ∧ y.brkn = x.brkn ∧
  y.best = (if x.onFolded && (match x.best with | some b => decide (viol ≤ b.2.1) | none => true)
    then some (it, viol, x.iters + 1) else x.best) ∧
  y.converged = (x.onFolded && decide (prim ≤ 2 ^ (30 - x.cfg.tolp)) && decide (dual ≤ 2 ^ (30 - x.cfg.told))) ∧
  y.iterating = (!y.converged && decide (x.iters + 1 < x.cap))

theorem WallSt.steppedTo.takeFold {y : WallSt} {steps prim dual viol : Nat} (h : x.steppedTo y it steps prim dual viol) :
    x.steppedTo y.takeFold it steps prim dual viol := by
  obtain ⟨q, b, o, hy⟩ := takeFold_eq y
  rw [hy]
  exact h

/-- The phase shows the end of the solving, if it has come (R97, R98). -/
def Dev.showEnd (d : Dev) (w : Nat) (pass capped : Bool) : Dev :=
  if pass then d.put (SLV_PHASE w) 3 else if capped then (d.put (SLV_PHASE w) 0).raiseW w 10 else d

theorem showEnd_planner (d : Dev) (w : Nat) (pass capped : Bool) : (d.showEnd w pass capped).planner = d.planner := by
  cases pass <;> cases capped <;> rfl

/-- The wall once its iteration is counted, `valid` of them on the folded problem. -/
def WallSt.counted (x : WallSt) (it : Iterate) (steps : Nat) (valid : Bool) : WallSt :=
  { x with cur := it, iters := x.iters + 1, innerN := x.innerN + steps, finalIters := x.finalIters + (if valid then 1 else 0) }

theorem bestOf_eq (old : Option (Iterate × Nat × Nat)) (it : Iterate) (viol n : Nat) (valid : Bool) :
    (if valid then match old with
      | some b => if viol ≤ b.2.1 then some (it, viol, n) else old
      | none => some (it, viol, n)
    else old) = if valid && (match old with | some b => decide (viol ≤ b.2.1) | none => true) then some (it, viol, n) else old := by
  cases valid <;> cases old <;> simp

theorem not_and_not_and (a b : Bool) : (!a && !(!a && b)) = (!a && !b) := by cases a <;> rfl

theorem not_decide_le (m n : Nat) : (!decide (m ≤ n)) = decide (n < m) := by
  rw [← decide_not]
  exact decide_eq_decide.mpr Nat.not_le

theorem iterated_effect {steps prim dual viol : Nat} (hx : d.planner.walls[w]? = some x) (hres : p.residuals it = .ok (prim, dual, viol))
    (hno : x.cfg.rhoint = 0 ∨ (x.iters + 1) % x.cfg.rhoint ≠ 0) :
    ∃ y, (d.iterated w p it steps).planner.walls[w]? = some y ∧ x.steppedTo y it steps prim dual viol := by
  have h1 : (d.updW w (fun y => y.counted it steps ((d.wall w).folded && (d.wall w).foldDue.isNone))).planner.walls[w]? =
      some (x.counted it steps x.onFolded) := by
    rw [walls_updW_same, hx, wall_eq hx]
    rfl
  unfold Dev.iterated
  rw [hres]
  dsimp only
  generalize hd1 : d.updW w _ = d1
  replace h1 : d1.planner.walls[w]? = some (x.counted it steps x.onFolded) := by rw [← hd1]; exact h1
  rw [wall_eq h1, wall_eq hx]
  generalize hy : x.counted it steps x.onFolded = y at h1
  have hcfg : y.cfg = x.cfg ∧ y.iters = x.iters + 1 := by rw [← hy]; exact ⟨rfl, rfl⟩
  have hkeep : (if y.cfg.rhoint ≠ 0 ∧ y.iters % y.cfg.rhoint = 0 then adaptRho y.cfg y.r prim dual else (y.r, false)) = (y.r, false) :=
    if_neg (by rw [hcfg.1, hcfg.2]; exact fun h => hno.elim h.1 (fun h' => h' h.2))
  rw [hkeep, if_neg (not_not_intro rfl), ← Dev.showEnd, showEnd_planner, walls_updW_same, h1]
  refine ⟨_, rfl, .takeFold ?_⟩
  subst hy
  refine ⟨rfl, rfl, rfl, rfl, rfl, rfl, rfl, bestOf_eq x.best it viol (x.iters + 1) x.onFolded, rfl, ?_⟩
  show (!_ && !(!_ && decide (x.cap ≤ x.iters + 1))) = (!_ && decide (x.iters + 1 < x.cap))
  rw [not_and_not_and, not_decide_le]

theorem brokeDown_wall (hx : d.planner.walls[w]? = some x) (b : Bool) : ∃ y, (if b then d.brokeDown w else d).planner.walls[w]? = some y ∧
    y = { x with brkn := x.brkn + (if b then 1 else 0), brkFlag := x.brkFlag || b } := by
  cases b with
  | false => exact ⟨x, hx, by rw [Bool.or_false]; rfl⟩
  | true =>
    refine ⟨_, ?_, rfl⟩
    show (d.updW w _).planner.walls[w]? = _
    rw [walls_updW_same, hx, Bool.or_true]
    rfl

section
variable (hK : Stable K P R) (hW : ∀ d f, K d → K (d.updW w f)) (hv : P .evReq) (hr : ∀ f, WorkFld w f → R f)
include hK hW hv hr

theorem Stable.brokeDown (h : K d) : K (d.brokeDown w) := hK.raiseW hv (hK.bump (hr _ (.count (by decide))) (hW _ _ h))

theorem Stable.ifBroke (b : Bool) (h : K d) : K (if b then d.brokeDown w else d) :=
  iteInduction (fun _ => hK.brokeDown hW hv hr h) (fun _ => h)

omit hW in
theorem Stable.showEnd {pass capped : Bool} (h : K d) : K (d.showEnd w pass capped) := by
  cases pass
  · cases capped
    · exact h
    · exact hK.raiseW hv (hK.put (hr _ .phase) h)
  · exact hK.put (hr _ .phase) h

theorem Stable.iterated {steps : Nat} (h : K d) : K (d.iterated w p it steps) := by
  have h1 := fun f => hW d f h
  unfold Dev.iterated
  dsimp only
  split
  · exact hK.wallSat hW hv hr (h1 _)
  · exact h1 _
  · have h2 : ∀ f g pass capped, K (((d.updW w f).updW w g).showEnd w pass capped) :=
      fun f g _ _ => hK.showEnd hv hr (hW _ g (h1 f))
    exact iteInduction (fun _ => hK.refactorNow hW hv hr (hW _ _ (h2 _ _ _ _))) (fun _ => h2 _ _ _ _)

end

/-! ## OUTER_ITERATION -/

/-- An iteration of a wall on its problem, with what follows from a quotient overflow. -/
theorem iterate_eq (hx : d.planner.walls[w]? = some x) (hp : x.problem = some p) : ∃ q, d.iterate w = d.outerStep w p q := by
  unfold Dev.iterate
  rw [wall_eq hx, hp]
  exact ⟨_, rfl⟩

theorem outerIteration_run {w : Fin 2} {post : Dev → Prop} (hu : s.dev.up = true) (hx : s.dev.planner.walls[w.val]? = some x)
    (hi : x.iterating = true) (hf : x.refactor = false) (h : post (s.begun.iterate w)) : Completes (.outerIteration w [] []) s post := by
  have hw : s.dev.atWork w = true := by
    rw [Dev.atWork, wall_eq hx, hi, hf]
    rfl
  refine completes_unless (c := !s.dev.up || !s.dev.atWork w) (a := s.begun)
    (b := if s.dev.atWork w then s.begun.iterate w else s.begun) rfl (by rw [hu, hw]; rfl) ?_
  rw [hw]
  exact h

theorem outerStep_done {q : Dev → Dev} {steps : Nat} {brk : Bool} (hx : d.planner.walls[w]? = some x)
    (ho : p.outer x.cfg x.r x.pc x.cur = .ok ((steps, brk), .ok it)) :
    d.outerStep w p q = (if brk then d.brokeDown w else d).iterated w p it steps := by
  unfold Dev.outerStep
  rw [wall_eq hx]
  dsimp only
  rw [ho]

theorem outerStep_sat {q : Dev → Dev} {k i : Nat} (hx : d.planner.walls[w]? = some x)
    (ho : p.outer x.cfg x.r x.pc x.cur = .error (.sat k i) ∨ ∃ cg, p.outer x.cfg x.r x.pc x.cur = .ok (cg, .error (.sat k i))) :
    ∃ b : Bool, d.outerStep w p q = (if b then d.brokeDown w else d).wallSat w (k, i) := by
  unfold Dev.outerStep
  rw [wall_eq hx]
  dsimp only
  obtain h | ⟨cg, h⟩ := ho
  · exact ⟨false, by rw [h]; rfl⟩
  · exact ⟨cg.2, by rw [h]⟩

/-- What a saturation leaves of the wall: its problem is abandoned (R99). -/
theorem wallSat_wall {b : Nat × Nat} (hx : d.planner.walls[w]? = some x) : ∃ y, (d.wallSat w b).planner.walls[w]? = some y ∧
    y.abandoned = 1 ∧ y.iterating = false ∧ y.best = none ∧ y.sat = some (x.sat.getD b) ∧ y.iters = x.iters := by
  have h : (d.wallSat w b).planner.walls[w]? = ((d.planner.walls[w]?).map _).map _ :=
    (walls_updW_same _ w _).trans (congrArg _ (walls_updW_same d w _))
  rw [hx] at h
  exact ⟨_, h, rfl, rfl, rfl, rfl, rfl⟩

theorem SLV_PHASE_ok (w : Nat) : (SLV_PHASE w).ok := ⟨by show 2 ≤ 4; decide, by show 4 < 32; decide⟩

theorem wallSat_phase (d : Dev) (w : Nat) (b : Nat × Nat) : (d.wallSat w b).get (SLV_PHASE w) = 4 :=
  (keeps_get (keeps_bump (R := (· = wallCtr w 8)) rfl (keeps_refl _ (fun _ => False) _))
    (by simp only [SLV_PHASE, wallCtr]; omega)).trans (get_put_same _ _ _ (SLV_PHASE_ok w))

theorem wallSat_count (d : Dev) (w : Nat) (b : Nat × Nat) : (d.wallSat w b).reg (wallCtr w 8) = bumpWord (d.reg (wallCtr w 8)) :=
  (reg_bump_same _ _).trans (congrArg bumpWord ((reg_put_ne _ _ _ _ (by simp only [SLV_PHASE, wallCtr]; omega)).trans
    (reg_bump_ne _ _ _ (by simp only [wallCtr]; omega))))

section
variable {w : Fin 2} (hu : s.dev.up = true) (hx : s.dev.planner.walls[w.val]? = some x) (hp : x.problem = some p)
  (hi : x.iterating = true) (hf : x.refactor = false)
include hu hx hp hi hf

theorem outerIteration_done {steps prim dual viol : Nat} {brk : Bool} (ho : p.outer x.cfg x.r x.pc x.cur = .ok ((steps, brk), .ok it))
    (hres : p.residuals it = .ok (prim, dual, viol)) (hno : x.cfg.rhoint = 0 ∨ (x.iters + 1) % x.cfg.rhoint ≠ 0) :
    Completes (.outerIteration w [] []) s (fun d => ∃ y, d.planner.walls[w.val]? = some y ∧
      WallSt.steppedTo { x with brkn := x.brkn + (if brk then 1 else 0), brkFlag := x.brkFlag || brk } y it steps prim dual viol ∧
      s.dev.onlyParts d [.planner, .evReq]) := by
  refine outerIteration_run hu hx hi hf ?_
  obtain ⟨q, hq⟩ := iterate_eq (d := s.begun) hx hp
  rw [hq, outerStep_done (d := s.begun) hx ho]
  obtain ⟨y, hy, rfl⟩ := brokeDown_wall (d := s.begun) hx brk
  obtain ⟨z, hz, hstep⟩ := iterated_effect hy hres hno
  have hK := stable_keeps s.dev (· ∈ [.planner, .evReq]) (fun _ => True)
  have hW := fun d f (k : s.dev.keeps d (· ∈ [.planner, .evReq]) (fun _ => True)) => hK.updW (f := f) (w := w.val) (by decide) k
  have h0 : s.dev.keeps s.begun (· ∈ [.planner, .evReq]) (fun _ => True) := begun_keeps s _ _
  refine ⟨z, hz, hstep, (hK.iterated hW (by decide) (fun _ _ => trivial) ?_).1⟩
  exact hK.ifBroke hW (by decide) (fun _ _ => trivial) brk h0

theorem outerIteration_sat {k i : Nat} (ho : p.outer x.cfg x.r x.pc x.cur = .error (.sat k i) ∨
      ∃ cg, p.outer x.cfg x.r x.pc x.cur = .ok (cg, .error (.sat k i))) : Completes (.outerIteration w [] []) s (fun d =>
    (∃ x', d.planner.walls[w.val]? = some x' ∧ x'.abandoned = 1 ∧ x'.iterating = false ∧ x'.best = none ∧
      x'.sat = some (x.sat.getD (k, i)) ∧ x'.iters = x.iters) ∧
    d.get (SLV_PHASE w) = 4 ∧ d.reg (wallCtr w 8) = bumpWord (s.dev.reg (wallCtr w 8)) ∧
    s.dev.onlyParts d [.planner, .evReq]) := by
  refine outerIteration_run hu hx hi hf ?_
  obtain ⟨q, hq⟩ := iterate_eq (d := s.begun) hx hp
  obtain ⟨b, hb⟩ := outerStep_sat (d := s.begun) (q := q) hx ho
  rw [hq, hb]
  obtain ⟨y, hy, rfl⟩ := brokeDown_wall (d := s.begun) hx b
  have hK := stable_keeps s.dev (· ∈ [.planner, .evReq]) (fun _ => True)
  have hW := fun d f (k : s.dev.keeps d (· ∈ [.planner, .evReq]) (fun _ => True)) => hK.updW (f := f) (w := w.val) (by decide) k
  have h0 : s.dev.keeps s.begun (· ∈ [.planner, .evReq]) (fun _ => True) := begun_keeps s _ _
  obtain ⟨z, hz, hleft⟩ := wallSat_wall hy
  refine ⟨⟨z, hz, hleft⟩, wallSat_phase _ _ _, (wallSat_count _ _ _).trans ?_, (hK.wallSat hW (by decide) (fun _ _ => trivial) ?_).1⟩
  · cases b with
    | false => rfl
    | true => exact congrArg bumpWord (reg_bump_ne _ _ _ (by simp [wallCtr]))
  · exact hK.ifBroke hW (by decide) (fun _ _ => trivial) b h0

end

end Sys2Proof.Machine
end

section
/-! PROOFS. CHECK_POINT with no activation due (R46, R61, R81): what the latch of limits, KNOTS and OBJW leaves, and that the references,
the bounds and the problem of the stride leave it so. -/

namespace Sys2Proof.Machine

variable {K : Dev → Prop} {P : Part → Prop} {R : Fld → Prop} {d : Dev} {s : State} {m : Model} {t : TimeSt} {k : KilnSt}

/-! ## The latch of limits -/

/-- An accepted change of limits takes effect. -/
def Dev.takeLimits (d : Dev) (p : Nat × Nat × Nat × Limits) : Dev :=
  { d with kiln := { d.kiln with
      limits := updAt d.kiln.limits p.2.2.1 (fun o => limitsOf o p.2.2.2.sv p.2.2.2.sa p.2.2.2.sj p.2.2.2.st) } }

/-- The limits still to wait at the cell time. -/
def Dev.limitsLeft (d : Dev) : List (Nat × Nat × Nat × Limits) :=
  d.kiln.limitsPend.filter (fun p => !decide (p.2.1 + 20000 ≤ d.now))

theorem latchLimits_fst (d : Dev) : ∃ due ids : List _, d.latchLimits.1 = ids.foldl (fun (d : Dev) id => d.finish id .ok)
    (due.foldl Dev.takeLimits { d with kiln := { d.kiln with limitsPend := d.limitsLeft } }) := ⟨_, _, rfl⟩

/-- What a latch of limits leaves of `d`. -/
def Dev.limitsLatched (d e : Dev) : Prop :=
  e.time = d.time ∧ (∀ o, e.reg o = d.reg o) ∧ e.kiln.active = d.kiln.active ∧ e.kiln.limitsPend = d.limitsLeft

theorem latchLimits_effect (d : Dev) : d.limitsLatched d.latchLimits.1 := by
  obtain ⟨due, ids, h⟩ := latchLimits_fst d
  rw [h]
  have hK : Stable d.limitsLatched (· = .host) (fun _ => False) := by
    rintro e e' hu ⟨htime, hreg, hact, hlim⟩
    have hkiln : e'.kiln = e.kiln := upd_same (p := .kiln) (by decide) hu
    exact ⟨(upd_same (p := .time) (by decide) hu).trans htime, fun o => (upd_reg (fun _ => False.elim) hu).trans (hreg o),
      (congrArg KilnSt.active hkiln).trans hact, (congrArg KilnSt.limitsPend hkiln).trans hlim⟩
  exact foldl_invariant ids (fun _ _ _ k => hK.complete rfl k) (foldl_invariant due (fun _ _ _ k => k) ⟨rfl, fun _ => rfl, rfl, rfl⟩)

/-! ## What has been latched stays -/

/-- What a check point latches in the Kiln. -/
def KilnSt.latched (k : KilnSt) : Nat × Nat × List (Nat × Nat × Nat × Limits) × Option Model × List RefChange :=
  (k.knots, k.objw, k.limitsPend, k.active, k.changes)

theorem latched_congr {x y : KilnSt} (h : x.besideProblem = y.besideProblem) : x.latched = y.latched := by
  have h' : x.besideProblem.latched = y.besideProblem.latched := congrArg KilnSt.latched h
  exact h'

/-- The device holds what has been latched, at an instant. -/
def Dev.holdsLatch (t : TimeSt) (k : KilnSt) (d : Dev) : Prop := d.time = t ∧ d.kiln.latched = k.latched

theorem holdsLatch_stable (t : TimeSt) (k : KilnSt) : Stable (Dev.holdsLatch t k) (fun p => p ≠ .time ∧ p ≠ .kiln) (fun _ => True) := by
  rintro d d' hu ⟨htime, hkiln⟩
  exact ⟨(upd_same (p := .time) (by decide) hu).trans htime,
    (congrArg KilnSt.latched (upd_same (p := .kiln) (by decide) hu)).trans hkiln⟩

/-- `K` outlives changes of the Kiln beside what has been latched. -/
def KeepsLatch (K : Dev → Prop) : Prop := ∀ (d : Dev) x, x.latched = d.kiln.latched → K d → K { d with kiln := x }

theorem holdsLatch_keeps (t : TimeSt) (k : KilnSt) : KeepsLatch (Dev.holdsLatch t k) := fun _ _ hx h => ⟨h.1, hx.trans h.2⟩

section
variable (hK : Stable K (fun p => p ≠ .time ∧ p ≠ .kiln) (fun _ => True)) (hL : KeepsLatch K)
include hK

theorem Stable.dropOld (h : K d) : K d.dropOld := by
  refine foldl_invariant [0, 1] (fun e w _ k => ?_) h
  have h1 := hK.updW (w := w) (f := fun x => { x.fresh with problem := none, iterating := false, folded := false }) (by decide) k
  exact iteInduction (fun _ => h1) (fun _ => hK.put trivial h1)

include hL

omit hK in
theorem KeepsLatch.setRef {r : ArmRef} (h : K d) : K (d.setRef r) := hL d _ rfl h

theorem KeepsLatch.applyChange {n : Nat} {c : RefChange} (h : K d) : K (d.applyChange m n c) := by
  cases c with
  | append a segs => exact hL.setRef h
  | flush arms tfrom cmd => exact hK.complete (by decide) (foldl_invariant _ (fun _ _ _ k => hL.setRef k) h)
  | target a dur cmd pos => exact hK.complete (by decide) (hL.setRef h)

theorem KeepsLatch.groupStep {p : GroupPrep} (h : K d) : K (d.groupStep m p) := by
  have hdrop := hL d { d.kiln with group := d.kiln.group.filter (fun (x : GroupPrep) => x.cmd != p.cmd) } rfl h
  unfold Dev.groupStep
  dsimp only
  split
  · exact hK.complete (by decide) hdrop
  · split
    · exact h
    · exact hK.complete (by decide) (foldl_invariant _ (fun _ _ _ k => hL.setRef k) hdrop)

omit hL in
theorem Stable.boundTest {outside : List Nat} (h : K d) : K (d.boundTest m outside) := by
  have h1 := foldl_invariant (d.boundsHit m outside) (fun (e : Dev) n _ k =>
    hK.bump (o := 0x5120 + 4 * n) trivial (hK.putB (f := KLN_BOUND n) (b := true) trivial k)) h
  unfold Dev.boundTest
  dsimp only
  split
  · exact h1
  · exact hK.raise (by decide) h1

theorem KeepsLatch.startBuild {n : Nat} {rebuild : Bool} (h : K d) : K (d.startBuild n rebuild) := by
  have hbegun : K (d.beginBuild rebuild) := hL _ _ rfl (hK.put (f := KLN_EPOCH) trivial h)
  rw [startBuild_eq]
  split
  · exact hbegun
  · exact iteInduction (fun _ => hK.buildModel (fun _ _ => trivial) (by decide)
      (fun d x hx => hL d x (latched_congr hx)) hbegun) (fun _ => hbegun)

theorem KeepsLatch.squash {n : Nat} (h : K d) : K (d.squash n) :=
  hL.startBuild hK (hK.dropOld (hK.raise (by decide) (hK.bump trivial (hK.put trivial h))))

theorem KeepsLatch.probSat {b : Nat × Nat} (h : K d) : K (d.probSat b) := by
  unfold Dev.probSat
  split
  · exact h
  · refine foldl_invariant [0, 1] (fun e w _ k => ?_) (hL _ _ rfl h)
    have hW : ∀ d f, K d → K (d.updW w f) := fun d f => hK.updW (by decide)
    exact iteInduction (fun _ => hK.wallSat hW (by decide) (fun _ _ => trivial) k) (fun _ => hW _ _ k)

theorem KeepsLatch.fold {used : List (Nat × List Int)} (h : K d) : K (d.fold m used) := by
  unfold Dev.fold
  split
  · exact h
  · refine iteInduction (fun _ => hL.probSat hK h) (fun _ => foldl_invariant [0, 1] (fun e w _ k => ?_) (hL _ _ rfl h))
    exact iteInduction (fun _ => iteInduction (fun _ => hK.updW (by decide) k) (fun _ => hK.updW (by decide) k)) (fun _ => k)

theorem KeepsLatch.checkProblem {idle latched : Bool} (h : K d) : K (d.checkProblem m idle latched) := by
  unfold Dev.checkProblem
  split
  · exact hL.startBuild hK (hL _ _ rfl (hK.dropOld (hL _ _ rfl h)))
  · split
    · exact iteInduction (fun _ => hL.startBuild hK (hK.dropOld h)) (fun _ => h)
    · exact iteInduction (fun _ => hL.startBuild hK (hK.dropOld h))
        (fun _ => iteInduction (fun _ => hL.squash hK h) (fun _ => hL.fold hK h))

end

/-! ## CHECK_POINT -/

/-- KNOTS and OBJW are latched. -/
def Dev.latchCounts (d : Dev) : Dev :=
  { d with kiln := { d.kiln with knots := (d.reg 0x5010).toNat, objw := (d.reg 0x5014).toNat, written := false } }

/-- The references, the groups, the arms present and the bounds of a model at its check point. -/
def Dev.latchMoves (d : Dev) (m : Model) (outside : List Nat) : Dev :=
  let d := d.latchRefs m
  let d := d.kiln.group.foldl (fun (d : Dev) p => d.groupStep m p) d
  { d with kiln := { d.kiln with present := d.presence m } }.boundTest m outside

/-- The problem of the stride at its check point, unless the planner is IDLE. -/
def Dev.latchProblem (d : Dev) (m : Model) (idle latched : Bool) : Dev :=
  if d.plState = 0 then d.hibCheck
  else
    let d := d.checkProblem m idle latched
    (match d.kiln.latchSat with | some b => d.probSat b | none => d).hibCheck

/-- A check point, at its instant. -/
def Dev.checkPoint (d : Dev) (outside : List Nat) : Dev :=
  let idle := d.plState == 0
  let activated := d.modelDue.isSome
  let d := d.modelLatch
  let lim := d.latchLimits
  let latched := activated || lim.2 || lim.1.kiln.written
  let d := lim.1.latchCounts
  match d.kiln.active with
  | none => d.hibCheck
  | some m => (d.latchMoves m outside).latchProblem m idle latched

theorem exec_checkPoint (outside : List Nat) (s : State) : exec (.checkPoint outside) s =
    .next ⟨s.pending, if !s.dev.up then s.begun else (s.begun.reach (s.dev.s + 70000)).checkPoint outside⟩ := rfl

/-- The latch of the references has applied every waiting change of one (R365). -/
theorem latchRefs_holds (h : d.holdsLatch t k) : (d.latchRefs m).holdsLatch t { k with changes := [] } := by
  have hretired := foldl_invariant (m.arms.map (·.armid)) (f := fun e a => e.setRef ((e.armRef m a).retire (d.convRef m) e.s))
    (fun _ _ _ k => (holdsLatch_keeps _ _).setRef k) h
  refine foldl_invariant _ (fun _ _ _ k => (holdsLatch_keeps _ _).applyChange (holdsLatch_stable _ _) k) ⟨hretired.1, ?_⟩
  exact congrArg (fun v => (v.1, v.2.1, v.2.2.1, v.2.2.2.1, [])) hretired.2

theorem latchMoves_holds {outside : List Nat} (h : d.holdsLatch t k) :
    (d.latchMoves m outside).holdsLatch t { k with changes := [] } := by
  have hrefs := latchRefs_holds (m := m) h
  have hgroups := foldl_invariant (d.latchRefs m).kiln.group (f := fun e p => e.groupStep m p)
    (fun _ _ _ k => (holdsLatch_keeps _ _).groupStep (holdsLatch_stable _ _) k) hrefs
  exact (holdsLatch_stable _ _).boundTest (holdsLatch_keeps _ _ _ _ rfl hgroups)

theorem latchProblem_holds {idle latched : Bool} (h : d.holdsLatch t k) : (d.latchProblem m idle latched).holdsLatch t k := by
  have hK := holdsLatch_stable t k
  have hL := holdsLatch_keeps t k
  refine iteInduction (fun _ => hK.hibCheck (by decide) trivial h) (fun _ => hK.hibCheck (by decide) trivial ?_)
  have hproblem := hL.checkProblem hK (m := m) (idle := idle) (latched := latched) h
  split
  · exact hL.probSat hK hproblem
  · exact hproblem

theorem modelLatch_idle (h : d.modelDue = none) : d.modelLatch = d := by
  unfold Dev.modelLatch
  rw [h]
  rfl

/-- What the check point latches with no activation due, and, with a model active, no change of a reference waiting. -/
theorem checkPoint_holds {outside : List Nat} (h : d.modelDue = none) : ∃ k : KilnSt, (d.checkPoint outside).holdsLatch d.time k ∧
    k.knots = (d.reg 0x5010).toNat ∧ k.objw = (d.reg 0x5014).toNat ∧ k.limitsPend = d.limitsLeft ∧ k.active = d.kiln.active ∧
    (d.kiln.active.isSome = true → k.changes = []) := by
  obtain ⟨htime, hreg, hact, hlim⟩ := latchLimits_effect d
  unfold Dev.checkPoint
  dsimp only
  rw [modelLatch_idle h]
  generalize (d.modelDue.isSome || d.latchLimits.2 || d.latchLimits.1.kiln.written) = latched
  generalize hn : d.latchLimits.1.latchCounts = n
  have h0 : n.holdsLatch d.time n.kiln := ⟨by rw [← hn]; exact htime, rfl⟩
  have hknots : n.kiln.knots = (d.reg 0x5010).toNat := by rw [← hn, ← hreg]; rfl
  have hobjw : n.kiln.objw = (d.reg 0x5014).toNat := by rw [← hn, ← hreg]; rfl
  have hpend : n.kiln.limitsPend = d.limitsLeft := by rw [← hn]; exact hlim
  replace hact : n.kiln.active = d.kiln.active := by rw [← hn]; exact hact
  cases ha : n.kiln.active with
  | none =>
    refine ⟨n.kiln, (holdsLatch_stable _ _).hibCheck (by decide) trivial h0, hknots, hobjw, hpend, hact, fun hs => ?_⟩
    rw [← hact, ha] at hs
    exact absurd hs (by decide)
  | some m => exact ⟨{ n.kiln with changes := [] }, latchProblem_holds (latchMoves_holds h0), hknots, hobjw, hpend, hact, fun _ => rfl⟩

theorem checkPoint_effect (outside : List Nat) (hu : s.dev.up = true) (h : s.dev.modelDue = none) :
    Completes (.checkPoint outside) s (fun d =>
      d.now = max s.dev.now (s.dev.s + 70000) ∧ d.kiln.knots = (s.dev.reg 0x5010).toNat ∧ d.kiln.objw = (s.dev.reg 0x5014).toNat ∧
      d.kiln.limitsPend = s.dev.kiln.limitsPend.filter (fun p => !decide (p.2.1 + 20000 ≤ d.now)) ∧
      (s.dev.kiln.active.isSome = true → d.kiln.changes = []) ∧ d.kiln.active = s.dev.kiln.active) := by
  refine completes_unless (exec_checkPoint outside s) (by rw [hu]; rfl) ?_
  obtain ⟨t, ht, hnow⟩ := reach_at s.begun (s.dev.s + 70000)
  have hs : (s.begun.atTime t).s = s.dev.s := by
    show t.strideAt = s.dev.s
    rw [hnow]
    rfl
  have hkiln : (s.begun.atTime t).kiln = s.dev.kiln := rfl
  have hdue := (modelDue_congr (sameModels_of_kiln hkiln) hs).trans h
  rw [ht]
  obtain ⟨k, ⟨htime, hlatched⟩, hknots, hobjw, hpend, hact, hchanges⟩ := checkPoint_holds (outside := outside) hdue
  generalize (s.begun.atTime t).checkPoint outside = d at htime hlatched ⊢
  have hd : d.now = t.now := congrArg TimeSt.now htime
  have hpick : ∀ {α : Type} (f : Nat × Nat × List (Nat × Nat × Nat × Limits) × Option Model × List RefChange → α),
      f d.kiln.latched = f k.latched := fun f => congrArg f hlatched
  refine ⟨by rw [hd, hnow]; rfl, (hpick (·.1)).trans hknots, (hpick (·.2.1)).trans hobjw, (hpick (·.2.2.1)).trans ?_,
    fun hs => (hpick (·.2.2.2.2)).trans (hchanges hs), (hpick (·.2.2.2.1)).trans hact⟩
  rw [hd]
  exact hpend

end Sys2Proof.Machine
end

section
/-! PROOFS. The assembly, the iterations and the check point, put together (O45). -/

namespace Sys2Proof.Machine

/-- Settles O45, command by command. -/
theorem assemblyAndIterations : Obligations.AssemblyAndIterations := by
  unfold Obligations.AssemblyAndIterations
  intro s w hu
  refine ⟨fun m hp ha hc hr => assemblyStart_effect hu hp ha hc hr, fun p x hs hp hx => ⟨fun h0 => lastBlockArrival_noRole hu hs hp h0,
    fun h0 hps hph => lastBlockArrival_next hu hs hp hx h0 hps hph⟩, fun p x hx hp hi hf => ⟨?_, fun k i ho =>
    outerIteration_sat hu hx hp hi hf ho, refactorDone_effect hu hx⟩, fun outside h => checkPoint_effect outside hu h⟩
  intro steps brk it prim dual viol ho hres hno
  obtain ⟨s', hrun, hq, y, hy, hstep, hparts⟩ := outerIteration_done hu hx hp hi hf ho hres hno
  obtain ⟨hcur, hiters, hinner, hprim, hdual, hr, hbrk, hbest, hconv, hiterating⟩ := hstep
  exact ⟨s', hrun, hq, y, hy, hcur, hiters, hinner, hprim, hdual, hr, hbrk, hbest, hconv, hiterating, hparts⟩

end Sys2Proof.Machine
end

section
/-! PROOFS. A joint whose number lies beyond the servo wall's (R151, R177): its warning raises a vector's priority. -/

namespace Sys2Proof.Machine

/-- A joint beyond the 60 of the cell. The model takes the joints of a parameter set without a bound and finds the warning bit of
one by its number alone. -/
def strayJoint : Nat := 199448

/-- The warning bit of that joint (R151) is the lowest bit of the priority of vector 6 (R177). -/
theorem strayJoint_warns : SRV_FEWARN strayJoint = ⟨(EVC_ENGPRI 6).off, (EVC_ENGPRI 6).lo, (EVC_ENGPRI 6).lo⟩ := rfl

/-- The bank of slot 0, at the entry of the ROM. -/
def strayBank : Bank := Bank.zero 0

/-- An engine in the handler of slot 0, which has interrupted that of vector 6; another vector 6 of the same priority is pending. -/
def strayEngine : Engine :=
  { Engine.zero with banks := [Bank.zero 7, Bank.zero 7, strayBank], pend := 2 ^ 6,
                     handlers := [⟨2, 0, 8, false, 0, []⟩, ⟨1, 6, 4, false, 0, []⟩] }

/-- The joint delivers and lies one unit off its hold reference. -/
def strayJointRt : JointRt := { JointRt.fresh strayJoint with hold := some 1, delivering := true }

/-- An entry of the joint that warns of every following error. -/
def strayEntry : ServoEnt := ⟨strayJoint, [], [], 0⟩

/-- A device that runs, where slot 0 of engine 0 holds that joint. -/
def strayDelivery : State :=
  let d := (Dev.zero.put TST_STAGE 6).putB CLK_CORELK true
  ⟨[], { d with servo := { d.servo with
    params := some ⟨0, 0, 0, [strayEntry], [], [(strayJoint, 0, 0)]⟩,
    engines := updAt d.servo.engines 0 (fun _ => strayEngine), joints := [strayJointRt] } }⟩

/-- JEND checks the following error first, and the warning lets vector 6 rise above the level returned to: its handler is entered. -/
theorem strayDelivery_chains {t : State} (h : exec (.jend 0) strayDelivery = .next t) :
    (t.dev.engine 0).map (fun g => g.handlers.length) = some 2 := by
  injection h with h
  subst h
  decide +kernel

/-- Refutes O29: JEND of joint 199448 leaves two handlers in progress where the statement says one. The statement bounds the slot of
the bank but not the number of the joint, which indexes registers. -/
theorem not_engineHandlers : ¬ Obligations.EngineHandlers := by
  unfold Obligations.EngineHandlers
  intro h
  obtain ⟨-, -, -, -, -, hjend⟩ := h strayDelivery 0 strayBank strayEngine (by decide +kernel) (by decide +kernel)
  obtain ⟨t, ht, -, -, g, hg, hlen, -⟩ := (hjend (by decide +kernel) _ _ rfl (by decide) (by decide) (by decide +kernel)).2
    strayJoint strayJointRt strayEntry (by decide +kernel) (by decide +kernel) (by decide +kernel) rfl
  have htwo := strayDelivery_chains ht
  rw [show t.dev.engine 0 = some g from hg] at htwo
  exact absurd (hlen.symm.trans (Option.some.inj htwo)) (by decide)

end Sys2Proof.Machine
end

section
/-! PROOFS. The loads of schedules and servo containers (R148, R149, R181, R273, R274, R286): when a load is taken, and what its fetch
and its check leave. -/

namespace Sys2Proof.Machine

variable {s : State} {c : Cmd} {d : Dev} {b : List Byte}

/-! ## Fetches and check units -/

/-- A transfer that did not take place changes no unit but the host interface and its requests. -/
theorem hostFault_same (d : Dev) (id n : Nat) {x : Part} (hx : x ∉ [Part.host, .evReq]) : x.same d (d.hostFault id n) := by
  have hk : d.keeps (d.hostFault id n) (· ∈ [Part.host, .evReq]) (· = 0x104C) := by
    unfold Dev.hostFault
    split
    · exact keeps_complete (by decide) (keeps_refl d _ _)
    · exact keeps_complete (by decide) (keeps_raise (by decide) (keeps_bump rfl (keeps_refl d _ _)))
  exact hk.1 x hx

/-- The end of a command changes no unit but the host interface. -/
theorem complete_same (d : Dev) (id : Nat) (st : Status) (p q r0 r1 : Nat) {x : Part} (hx : x ≠ .host) :
    x.same d (d.complete id st p q r0 r1) :=
  (keeps_complete (P := (· = .host)) (R := fun _ => False) rfl (keeps_refl d _ _)).1 x hx

theorem complete_heath (d : Dev) (id : Nat) (st : Status) (p q r0 r1 : Nat) : (d.complete id st p q r0 r1).heath = d.heath :=
  complete_same (x := .heath) d id st p q r0 r1 (by decide)

theorem complete_servo (d : Dev) (id : Nat) (st : Status) (p q r0 r1 : Nat) : (d.complete id st p q r0 r1).servo = d.servo :=
  complete_same (x := .servo) d id st p q r0 r1 (by decide)

theorem complete_safety (d : Dev) (id : Nat) (st : Status) (p q r0 r1 : Nat) : (d.complete id st p q r0 r1).safety = d.safety :=
  complete_same (x := .safety) d id st p q r0 r1 (by decide)

/-- A blob of the right magic and size fails its CRC. -/
def crcFails (b : List Byte) (magic len : Nat) : Bool :=
  uAt b 0 4 == magic && b.length == len && crc32c (b.drop 16) != uAt b 0x0C 4

/-- A check unit reports a mismatch, or has found none (R286). -/
def Dev.reported (d : Dev) (n : Nat) (miss : Bool) : Dev := if miss then d.chkMiss n else d

theorem reported_keeps (d : Dev) (n : Nat) (miss : Bool) :
    d.keeps (d.reported n miss) (· ∈ [Part.evReq, .heath]) (· = 0xE040 + 4 * n) := by
  have hb : d.keeps (d.bump (0xE040 + 4 * n)) (· ∈ [Part.evReq, .heath]) (· = 0xE040 + 4 * n) := keeps_bump rfl (keeps_refl d _ _)
  unfold Dev.reported Dev.chkMiss
  dsimp only
  split
  · split
    · exact hb
    · exact keeps_raise (by decide) (keeps_heath (by decide) hb)
  · exact keeps_refl d _ _

theorem reported_heath (d : Dev) (n : Nat) (miss : Bool) : ∃ x, (d.reported n miss).heath = { d.heath with chkSeen := x } := by
  unfold Dev.reported Dev.chkMiss
  dsimp only
  split
  · split
    · exact ⟨_, rfl⟩
    · exact ⟨true, rfl⟩
  · exact ⟨_, rfl⟩

theorem reported_works (d : Dev) (n : Nat) (miss : Bool) : (d.reported n miss).chkWorks n = d.chkWorks n :=
  congrArg (!·) (keeps_is (reported_keeps d n miss) (by show ¬ 0xE004 = 0xE040 + 4 * n; omega))

theorem reported_cmd (n : Nat) (miss : Bool) (h : d.cmd? c.id = some c) : (d.reported n miss).cmd? c.id = some c :=
  cmd_of_host ((reported_keeps d n miss).1 .host (by decide)) h

theorem reported_time (d : Dev) (n : Nat) (miss : Bool) : (d.reported n miss).time = d.time :=
  (reported_keeps d n miss).1 .time (by decide)

theorem reported_servo (d : Dev) (n : Nat) (miss : Bool) : (d.reported n miss).servo = d.servo :=
  (reported_keeps d n miss).1 .servo (by decide)

/-- A fetch has ended: the command goes on with the bytes, or fails without them. -/
def Dev.fetched (d : Dev) (c : Cmd) (f : Fetch) (judge : Dev → List Byte → Dev) : Dev :=
  match d.served f with
  | .failed => d.hostFault c.id 1
  | .bytes b => judge d b

theorem fetched_failed (d : Dev) (c : Cmd) (judge : Dev → List Byte → Dev) : d.fetched c .failed judge = d.hostFault c.id 1 := by
  unfold Dev.fetched Dev.served
  rw [ite_self]

theorem fetched_bytes (h : d.session ≠ 4) (c : Cmd) (b : List Byte) (judge : Dev → List Byte → Dev) :
    d.fetched c (.bytes b) judge = judge d b := by
  unfold Dev.fetched Dev.served
  rw [if_neg h]

/-- The command that waits under a number for the end of a fetch is under way. -/
def State.waits (s : State) (l : Option Nat) (c : Cmd) : Prop :=
  s.dev.up = true ∧ l = some c.id ∧ s.dev.cmd? c.id = some c ∧ c.done = none

theorem waits_run {i : Instr} {l : Option Nat} {f : Cmd → Dev} {post : Dev → Prop} (h : s.waits l c)
    (hi : exec i s = .next ⟨s.pending, match l.bind s.dev.cmd? with
      | none => s.begun
      | some c => if !s.dev.up then s.begun else f c⟩) (hp : post (f c)) : Completes i s post := by
  obtain ⟨hu, hl, hc, -⟩ := h
  rw [hl, Option.bind_some, hc, hu] at hi
  exact ⟨_, hi, rfl, hp⟩

/-- A command that starts leaves what its meaning comes to. -/
theorem starts_to {i : Instr} {op : Nat} {f : Dev → Cmd → Dev} {x : Dev} {post : Dev → Prop} (h : s.starts op c)
    (hi : exec i s = s.run (fun d => d.start op f)) (hf : f (s.started c) c = x) (hp : post x) : Completes i s post :=
  starts_run h hi (hf ▸ hp)

/-- A command in progress has all its bytes. -/
theorem progress_cmd (hc : d.cmd? c.id = some c) (n : Nat) :
    (d.updCmd c.id (fun c => { c with progress := n })).cmd? c.id = some { c with progress := n } := by
  rw [cmd_updCmd_same d c.id (fun c => { c with progress := n }) (fun _ => rfl), hc]
  rfl

/-! ## Schedules -/

theorem scheduleLoad_refused (h : s.starts 0x13 c) (hb : (!s.dev.idleOrStopped || s.dev.heath.switch.isSome ||
    s.dev.heath.loading.isSome || s.dev.heath.awaiting.isSome || s.dev.beatChanging) = true) :
    EndsOnly .scheduleLoad s c .rejectedState :=
  endsOnly_of h rfl (if_pos hb)

theorem scheduleLoad_takes (h : s.starts 0x13 c) (hb : (!s.dev.idleOrStopped || s.dev.heath.switch.isSome ||
    s.dev.heath.loading.isSome || s.dev.heath.awaiting.isSome || s.dev.beatChanging) = false) :
    Completes .scheduleLoad s (fun d => d.runsOn c ∧ d.heath = { s.dev.heath with loading := some c.id } ∧
      d.host.copies = s.dev.host.copies ++ [⟨4, 0, c.addr, c.len, 0, 0, some c.id, false⟩] ∧ s.dev.only d [.host, .heath] []) := by
  refine starts_run h rfl ?_
  dsimp only
  rw [if_neg (by exact Bool.eq_false_iff.1 hb)]
  exact ⟨started_cmd h, rfl, rfl, keeps_only (keeps_heath (by decide) (keeps_host (by decide) (started_keeps (by decide))))⟩

/-- The fetch of a schedule has ended, with whatever result. -/
def Dev.schedFetched (d : Dev) : Dev := { d with heath := { d.heath with loading := none } }

/-- A schedule is judged by its check unit (R274): a good one awaits the next beat boundary. -/
def Dev.judgeSchedule (d : Dev) (c : Cmd) (b : List Byte) : Dev :=
  let e := d.reported 13 (crcFails b 0x4C544853 c.len || !d.chkWorks 13)
  let parts := if e.chkWorks 13 then checkSched b c.len e.time.layout.tb else 0x8000
  if parts ≠ 0 then e.complete c.id .rejectedParam b.length parts 0 0
  else
    let e := e.updCmd c.id (fun c => { c with progress := b.length })
    { e with heath := { e.heath with awaiting := some (parseSched b, c.id) } }

theorem scheduleCheckDone_run {f : Fetch} {post : Dev → Prop} (h : s.waits s.dev.heath.loading c)
    (hp : post (s.begun.schedFetched.fetched c f (fun d b => d.judgeSchedule c b))) :
    Completes (.scheduleCheckDone f) s post :=
  waits_run (f := fun c => s.begun.schedFetched.fetched c f (fun d b => d.judgeSchedule c b)) h rfl hp

theorem scheduleCheckDone_failed (h : s.waits s.dev.heath.loading c) : Completes (.scheduleCheckDone .failed) s (fun d =>
    d.endedAs c .unitFault 0 0 1 0 ∧ d.heath = { s.dev.heath with loading := none }) := by
  refine scheduleCheckDone_run h ?_
  rw [fetched_failed]
  obtain ⟨-, -, hc, hd⟩ := h
  exact ⟨(hostFault_ends (d := s.begun.schedFetched) hc hd 1).1, hostFault_same (x := .heath) _ _ _ (by decide)⟩

theorem judgeSchedule_effect (hw : d.chkWorks 13 = true) (hc : d.cmd? c.id = some c) (hd : c.done = none) (b : List Byte) :
    (d.judgeSchedule c b).heath.loading = d.heath.loading ∧ (d.judgeSchedule c b).heath.sched = d.heath.sched ∧
    (if checkSched b c.len d.time.layout.tb = 0
     then (d.judgeSchedule c b).cmd? c.id = some { c with progress := b.length } ∧
       (d.judgeSchedule c b).heath.awaiting = some (parseSched b, c.id)
     else (d.judgeSchedule c b).endedAs c .rejectedParam b.length (checkSched b c.len d.time.layout.tb) 0 0 ∧
       (d.judgeSchedule c b).heath.awaiting = d.heath.awaiting) := by
  unfold Dev.judgeSchedule
  dsimp only
  generalize (crcFails b 0x4C544853 c.len || !d.chkWorks 13) = miss
  obtain ⟨x, hx⟩ := reported_heath d 13 miss
  have hcmd := reported_cmd 13 miss hc
  rw [reported_works, hw, if_pos rfl, reported_time]
  by_cases hz : checkSched b c.len d.time.layout.tb = 0
  · rw [if_neg (not_not_intro hz), if_pos hz]
    exact ⟨(congrArg HeathSt.loading hx :), (congrArg HeathSt.sched hx :), progress_cmd hcmd _, rfl⟩
  · rw [if_pos hz, if_neg hz, complete_heath, hx]
    exact ⟨rfl, rfl, complete_endsAs hcmd hd, rfl⟩

theorem scheduleCheckDone_judged (h : s.waits s.dev.heath.loading c) (h4 : s.dev.session ≠ 4) (hw : s.dev.chkWorks 13 = true)
    (b : List Byte) : Completes (.scheduleCheckDone (.bytes b)) s (fun d =>
      d.heath.loading = none ∧ d.heath.sched = s.dev.heath.sched ∧
      (if checkSched b c.len s.dev.time.layout.tb = 0
       then d.cmd? c.id = some { c with progress := b.length } ∧ d.heath.awaiting = some (parseSched b, c.id)
       else d.endedAs c .rejectedParam b.length (checkSched b c.len s.dev.time.layout.tb) 0 0 ∧
         d.heath.awaiting = s.dev.heath.awaiting)) := by
  refine scheduleCheckDone_run h ?_
  rw [fetched_bytes (d := s.begun.schedFetched) h4]
  obtain ⟨-, -, hc, hd⟩ := h
  exact judgeSchedule_effect (d := s.begun.schedFetched) hw hc hd b

/-! ## Servo containers -/

theorem servoProgramLoad_refused (h : s.starts 0x50 c)
    (hb : (s.dev.servo.loading.isSome || s.dev.servo.pending.isSome || s.dev.beatChanging) = true) :
    EndsOnly .servoProgramLoad s c .rejectedState :=
  endsOnly_of h rfl (if_pos hb)

theorem servoProgramLoad_takes (h : s.starts 0x50 c)
    (hb : (s.dev.servo.loading.isSome || s.dev.servo.pending.isSome || s.dev.beatChanging) = false) :
    Completes .servoProgramLoad s (fun d => d.runsOn c ∧ d.servo = { s.dev.servo with loading := some c.id } ∧
      d.host.copies = s.dev.host.copies ++ [⟨5, 0, c.addr, c.len, 0, 0, some c.id, false⟩] ∧
      s.dev.only d [.host, .servo] []) := by
  refine starts_run h rfl ?_
  dsimp only
  rw [if_neg (by exact Bool.eq_false_iff.1 hb)]
  exact ⟨started_cmd h, rfl, rfl, keeps_only (keeps_servo (by decide) (keeps_host (by decide) (started_keeps (by decide))))⟩

/-- The fetch of a container has ended, with whatever result. -/
def Dev.setFetched (d : Dev) : Dev := { d with servo := { d.servo with loading := none } }

/-- The joints that the active model needs entries for. -/
def Dev.jointsNeeded (d : Dev) : List Nat := match d.kiln.active with | some m => m.joints.map (·.gj) | none => []

/-- The programs in force. -/
def Dev.progsInForce (d : Dev) : List Prog := match d.servo.params with | some ps => ps.progs | none => []

/-- A container without faults awaits its boundary (R149). -/
def Dev.awaitSet (d : Dev) (c : Cmd) (b : List Byte) : Dev :=
  let ps : ParamSet := ⟨uAt b 0x10 4, uAt b 0x0C 4, d.time.layout.tb, srvEntries b, srvProgs b,
    (bindAll (srvProgs b) (srvEntries b) d.time.layout.tb).1⟩
  let d := d.updCmd c.id (fun c => { c with progress := b.length })
  { d with servo := { d.servo with pending := some (ps, c.id, d.now) } }.putB SRV_PPEND true

/-- A container whose header is good is judged by its programs and joints (R181); which parts a rejection names is the model's
choice (log 75). -/
def Dev.judgeParts (d : Dev) (c : Cmd) (b : List Byte) (st : BitVec 8) : Dev :=
  let pf := progFaults b (srvEntries b) st.toNat
  let jf := jointFaults b d.time.layout.tb (srvEntries b) (srvProgs b) d.jointsNeeded
  if srvProgs b ≠ d.progsInForce ∧ !d.idleOrStopped then d.complete c.id .rejectedState b.length 0 0 0
  else if !pf.isEmpty || !jf.isEmpty then d.complete c.id .rejectedParam b.length (srvParts pf jf) 0 (srvResult1 pf jf)
  else d.awaitSet c b

/-- A container is judged by its check unit (R181). -/
def Dev.judgeContainer (d : Dev) (c : Cmd) (b : List Byte) (st : BitVec 8) : Dev :=
  let e := d.reported 9 (crcFails b 0x53565250 c.len || !d.chkWorks 9)
  if !srvHeadOk b c.len || !e.chkWorks 9 then e.complete c.id .rejectedParam b.length 0x8000 0 0xFF else e.judgeParts c b st

theorem crcFails_of_headOk {len : Nat} (h : srvHeadOk b len = true) : crcFails b 0x53565250 len = false := by
  cases hcrc : crc32c (b.drop 16) == uAt b 0x0C 4 with
  | true => simp [crcFails, bne, hcrc]
  | false => simp [srvHeadOk, hcrc] at h

/-- With its check unit working a container of a good header is judged by its parts alone. -/
theorem judgeContainer_headOk {st : BitVec 8} (hw : d.chkWorks 9 = true) (hb : srvHeadOk b c.len = true) :
    d.judgeContainer c b st = d.judgeParts c b st := by
  unfold Dev.judgeContainer Dev.reported
  rw [crcFails_of_headOk hb, hw, hb]
  dsimp only
  rw [Bool.not_true, Bool.or_false, if_neg Bool.false_ne_true, hw, if_neg (by decide)]

theorem servoLoadCheckDone_run {f : Fetch} {st : BitVec 8} {post : Dev → Prop} (h : s.waits s.dev.servo.loading c)
    (hp : post (s.begun.setFetched.fetched c f (fun d b => d.judgeContainer c b st))) :
    Completes (.servoLoadCheckDone f st) s post :=
  waits_run (f := fun c => s.begun.setFetched.fetched c f (fun d b => d.judgeContainer c b st)) h rfl hp

theorem servoLoadCheckDone_failed (h : s.waits s.dev.servo.loading c) (st : BitVec 8) :
    Completes (.servoLoadCheckDone .failed st) s (fun d => d.endedAs c .unitFault 0 0 1 0 ∧
      d.servo = { s.dev.servo with loading := none }) := by
  refine servoLoadCheckDone_run h ?_
  rw [fetched_failed]
  obtain ⟨-, -, hc, hd⟩ := h
  exact ⟨(hostFault_ends (d := s.begun.setFetched) hc hd 1).1, hostFault_same (x := .servo) _ _ _ (by decide)⟩

theorem servoLoadCheckDone_malformed (h : s.waits s.dev.servo.loading c) (h4 : s.dev.session ≠ 4)
    (hb : srvHeadOk b c.len = false) (st : BitVec 8) : Completes (.servoLoadCheckDone (.bytes b) st) s (fun d =>
      d.endedAs c .rejectedParam b.length 0x8000 0 0xFF ∧ d.servo = { s.dev.servo with loading := none }) := by
  refine servoLoadCheckDone_run h ?_
  rw [fetched_bytes (d := s.begun.setFetched) h4]
  obtain ⟨-, -, hc, hd⟩ := h
  unfold Dev.judgeContainer
  dsimp only
  rw [hb, Bool.not_false, Bool.true_or, if_pos rfl]
  exact ⟨complete_endsAs (reported_cmd (d := s.begun.setFetched) _ _ hc) hd, (complete_servo ..).trans (reported_servo ..)⟩

theorem judgeParts_effect {pf jf : List Nat} {st : BitVec 8} (hc : d.cmd? c.id = some c) (hd : c.done = none)
    (hi : d.idleOrStopped = true) (hpf : pf = progFaults b (srvEntries b) st.toNat)
    (hjf : jf = jointFaults b d.time.layout.tb (srvEntries b) (srvProgs b) d.jointsNeeded) :
    (d.judgeParts c b st).servo.loading = d.servo.loading ∧ (d.judgeParts c b st).servo.params = d.servo.params ∧
    (if pf = [] ∧ jf = []
     then (d.judgeParts c b st).cmd? c.id = some { c with progress := b.length } ∧ (d.judgeParts c b st).is SRV_PPEND = true ∧
       ∃ ps, (d.judgeParts c b st).servo.pending = some (ps, c.id, d.now) ∧ ps.entries = srvEntries b ∧ ps.progs = srvProgs b
     else (d.judgeParts c b st).endedAs c .rejectedParam b.length (srvParts pf jf) 0 (srvResult1 pf jf) ∧
       (d.judgeParts c b st).servo.pending = d.servo.pending) := by
  unfold Dev.judgeParts
  dsimp only
  rw [← hpf, ← hjf, hi, if_neg (fun h => Bool.false_ne_true h.2)]
  by_cases hz : pf = [] ∧ jf = []
  · rw [if_pos hz, if_neg (by rw [hz.1, hz.2]; decide)]
    exact ⟨rfl, rfl, progress_cmd hc _, is_putB_same _ SRV_PPEND true (by decide), _, rfl, rfl, rfl⟩
  · have hfault : (!pf.isEmpty || !jf.isEmpty) = true := by simpa [Decidable.imp_iff_not_or] using hz
    rw [if_neg hz, if_pos hfault, complete_servo]
    exact ⟨rfl, rfl, complete_endsAs hc hd, rfl⟩

theorem servoLoadCheckDone_judged (h : s.waits s.dev.servo.loading c) (h4 : s.dev.session ≠ 4) (hw : s.dev.chkWorks 9 = true)
    (hb : srvHeadOk b c.len = true) (hi : s.dev.idleOrStopped = true) {pf jf : List Nat} {st : BitVec 8}
    (hpf : pf = progFaults b (srvEntries b) st.toNat)
    (hjf : jf = jointFaults b s.dev.time.layout.tb (srvEntries b) (srvProgs b) s.dev.jointsNeeded) :
    Completes (.servoLoadCheckDone (.bytes b) st) s (fun d => d.servo.loading = none ∧ d.servo.params = s.dev.servo.params ∧
      (if pf = [] ∧ jf = []
       then d.cmd? c.id = some { c with progress := b.length } ∧ d.is SRV_PPEND = true ∧
         ∃ ps, d.servo.pending = some (ps, c.id, s.dev.now) ∧ ps.entries = srvEntries b ∧ ps.progs = srvProgs b
       else d.endedAs c .rejectedParam b.length (srvParts pf jf) 0 (srvResult1 pf jf) ∧
         d.servo.pending = s.dev.servo.pending)) := by
  refine servoLoadCheckDone_run h ?_
  rw [fetched_bytes (d := s.begun.setFetched) h4, judgeContainer_headOk (d := s.begun.setFetched) hw hb]
  obtain ⟨-, -, hc, hd⟩ := h
  exact judgeParts_effect (d := s.begun.setFetched) hc hd hi hpf hjf

end Sys2Proof.Machine
end

section
/-! PROOFS. The load of a safety set (R253, R254): when it is taken, and what it needs of both channels. -/

namespace Sys2Proof.Machine

variable {s : State} {c : Cmd} {d : Dev} {b : List Byte}

/-! ## SAFETY_PARAM_LOAD -/

theorem safetyParamLoad_refused {f : Fetch} (h : s.starts 0x12 c)
    (hb : (s.dev.torqueOn || s.dev.loading || s.dev.beatChanging) = true) : EndsOnly (.safetyParamLoad f) s c .rejectedState :=
  endsOnly_of h rfl (if_pos hb)

theorem safetyParamLoad_unlinked {f : Fetch} (h : s.starts 0x12 c)
    (hb : (s.dev.torqueOn || s.dev.loading || s.dev.beatChanging) = false) (hx : s.dev.is CLK_XDIE = false) :
    Completes (.safetyParamLoad f) s (fun d => d.endedAs c .unitFault 0 0 3 0 ∧ s.dev.only d [.host] []) := by
  refine ends_of h rfl ?_
  have hx' : (!(s.started c).is CLK_XDIE) = true := by rw [show (s.started c).is CLK_XDIE = false from hx]; rfl
  exact (if_neg (Bool.eq_false_iff.1 hb)).trans (if_pos hx')

theorem safetyParamLoad_takes (h : s.starts 0x12 c) (hb : (s.dev.torqueOn || s.dev.loading || s.dev.beatChanging) = false)
    (hx : s.dev.is CLK_XDIE = true) (h4 : s.dev.session ≠ 4) (b : List Byte) :
    Completes (.safetyParamLoad (.bytes b)) s (fun d => d.runsOn c ∧
      d.safety = { s.dev.safety with load := some (c.id, b), loadA := none, loadB := none } ∧
      s.dev.only d [.host, .safety] []) := by
  refine starts_run h rfl ?_
  have hx' : (s.started c).is CLK_XDIE = true := hx
  have hserved : ((s.started c).registerCopy c 3 0).served (.bytes b) = .bytes b := if_neg h4
  dsimp only
  rw [if_neg (by exact Bool.eq_false_iff.1 hb), hx', if_neg (by decide), hserved]
  exact ⟨started_cmd h, rfl, keeps_only (keeps_safety (by decide) (keeps_host (by decide) (started_keeps (by decide))))⟩

/-! ## SAFETY_SET_CHECKED -/

/-- A channel has noted its finding. -/
def Dev.finding (d : Dev) (h : Bool) (f : Nat) : Dev :=
  { d with safety := if h then { d.safety with loadB := some f } else { d.safety with loadA := some f } }

/-- With the findings of both channels a load is accepted or rejected (R254); that it ends only then is the model's choice
(log 124). -/
def Dev.loadDecided (d : Dev) (id : Nat) (b : List Byte) : Dev :=
  match d.safety.loadA, d.safety.loadB with
  | some fa, some fb =>
    let d := { d with safety := { d.safety with load := none, loadA := none, loadB := none } }
    if fa = 0 ∧ fb = 0 then
      let d := d.updCmd id (fun c => { c with progress := b.length })
      (d.updCh false (fun c => { c with next := some (parseSet b) })).updCh true (fun c => { c with next := some (parseSet b) })
    else d.complete id .rejectedParam b.length (fa + 256 * fb) 0 0
  | _, _ => d

theorem raiseS_eq (d : Dev) (h : Bool) (n det : Nat) :
    ∃ x y, d.raiseS h n det = { d with safety := { d.safety with hdgEv := x }, evReq := y } := by
  unfold Dev.raiseS
  split
  · split
    · exact ⟨_, _, rfl⟩
    · exact ⟨_, _, rfl⟩
  · exact ⟨_, _, rfl⟩

/-- From `d` to `d'` no set comes into force, and both channels keep their sets and their sides. -/
def Dev.setsKept (d d' : Dev) : Prop :=
  d'.safety.inForce = d.safety.inForce ∧ ∀ k, (d'.ch k).set = (d.ch k).set ∧ (d'.ch k).cmd = (d.ch k).cmd

theorem Dev.setsKept.trans {d d' d'' : Dev} (h : d.setsKept d') (h' : d'.setsKept d'') : d.setsKept d'' :=
  ⟨h'.1.trans h.1, fun k => ⟨(h'.2 k).1.trans (h.2 k).1, (h'.2 k).2.trans (h.2 k).2⟩⟩

theorem loadDecided_waits (id : Nat) (b : List Byte) (h : d.safety.loadA = none ∨ d.safety.loadB = none) :
    d.loadDecided id b = d := by
  unfold Dev.loadDecided
  split
  next fa fb ha hb =>
    rw [ha, hb] at h
    rcases h with h | h
    · cases h
    · cases h
  · rfl

theorem complete_ch (d : Dev) (id : Nat) (st : Status) (p q r0 r1 : Nat) (k : Bool) : (d.complete id st p q r0 r1).ch k = d.ch k := by
  unfold Dev.ch
  rw [complete_safety]

/-- Both channels take the set only where both found nothing (R254). -/
theorem loadDecided_effect {fa fb : Nat} (ha : d.safety.loadA = some fa) (hb : d.safety.loadB = some fb)
    (hc : d.cmd? c.id = some c) (hd : c.done = none) (b : List Byte) :
    d.setsKept (d.loadDecided c.id b) ∧ (d.loadDecided c.id b).safety.load = none ∧
    (if fa = 0 ∧ fb = 0
     then (∀ k, ((d.loadDecided c.id b).ch k).next = some (parseSet b)) ∧
       (d.loadDecided c.id b).cmd? c.id = some { c with progress := b.length }
     else (∀ k, ((d.loadDecided c.id b).ch k).next = (d.ch k).next) ∧
       (d.loadDecided c.id b).endedAs c .rejectedParam b.length (fa + 256 * fb) 0 0) := by
  unfold Dev.loadDecided
  rw [ha, hb]
  dsimp only
  by_cases hz : fa = 0 ∧ fb = 0
  · rw [if_pos hz, if_pos hz]
    refine ⟨⟨rfl, fun k => ?_⟩, rfl, fun k => ?_, progress_cmd hc _⟩
    · cases k <;> exact ⟨rfl, rfl⟩
    · cases k <;> rfl
  · rw [if_neg hz, if_neg hz, complete_safety]
    refine ⟨⟨?_, fun k => ?_⟩, rfl, fun k => ?_, complete_endsAs hc hd⟩
    · rw [complete_safety]
    · rw [complete_ch]
      exact ⟨rfl, rfl⟩
    · rw [complete_ch]
      rfl

/-- From `d` to `d'` a channel has noted its finding and nothing else of the load, of the channels or of the journal has changed. -/
structure Dev.FindingNoted (d d' : Dev) (h : Bool) (f : Nat) : Prop where
  channels : ∀ k, d'.ch k = d.ch k
  inForce : d'.safety.inForce = d.safety.inForce
  load : d'.safety.load = d.safety.load
  own : (if h then d'.safety.loadB else d'.safety.loadA) = some f
  other : (if h then d'.safety.loadA else d'.safety.loadB) = if h then d.safety.loadA else d.safety.loadB
  cmd : ∀ id, d'.cmd? id = d.cmd? id

theorem Dev.FindingNoted.setsKept {d' : Dev} {h : Bool} {f : Nat} (hn : d.FindingNoted d' h f) : d.setsKept d' :=
  ⟨hn.inForce, fun k => by rw [hn.channels k]; exact ⟨rfl, rfl⟩⟩

theorem finding_noted (d : Dev) (h : Bool) (f n det : Nat) : d.FindingNoted ((d.finding h f).raiseS h n det) h f := by
  obtain ⟨x, y, hr⟩ := raiseS_eq (d.finding h f) h n det
  rw [hr]
  cases h
  · exact ⟨fun k => by cases k <;> rfl, rfl, rfl, rfl, rfl, fun _ => rfl⟩
  · exact ⟨fun k => by cases k <;> rfl, rfl, rfl, rfl, rfl, fun _ => rfl⟩

/-- A load is being checked, and a channel that runs finds `own`. -/
def State.finds (s : State) (h : Bool) (c : Cmd) (b : List Byte) (own : Nat) : Prop :=
  s.dev.safety.load = some (c.id, b) ∧ s.dev.chUp h = true ∧ s.dev.cmd? c.id = some c ∧
  own = checkSet s.dev.kiln.active c.len s.dev.time.layout.tb b

theorem safetySetChecked_run {h : Bool} {own : Nat} {post : Dev → Prop} (hf : s.finds h c b own)
    (hp : ∀ n, s.dev.FindingNoted n h own → post (n.loadDecided c.id b)) : Completes (.safetySetChecked h) s post := by
  obtain ⟨hl, hu, hc, ho⟩ := hf
  have hi : exec (.safetySetChecked h) s = .next ⟨s.pending, match s.dev.safety.load with
      | none => s.begun
      | some (id, b) => if !s.dev.chUp h then s.begun else
        Dev.loadDecided ((s.begun.finding h (checkSet s.dev.kiln.active (((s.dev.cmd? id).map (·.len)).getD b.length)
          s.dev.time.layout.tb b)).raiseS h 15 noDetail) id b⟩ := rfl
  rw [hl] at hi
  dsimp only at hi
  rw [hu, hc, Option.map_some, Option.getD_some, ← ho] at hi
  obtain ⟨hch, hin, hload, hown, hother, hcmd⟩ := finding_noted s.begun h own 15 noDetail
  exact ⟨_, hi, rfl, hp _ ⟨hch, hin, hload, hown, hother, hcmd⟩⟩

/-- The channel that finds first waits for the other. -/
theorem safetySetChecked_first {h : Bool} {own : Nat} (hf : s.finds h c b own)
    (hn : (if h then s.dev.safety.loadA else s.dev.safety.loadB) = none) :
    Completes (.safetySetChecked h) s (fun d => s.dev.setsKept d ∧ d.safety.load = some (c.id, b) ∧
      (if h then d.safety.loadB else d.safety.loadA) = some own) := by
  refine safetySetChecked_run hf fun n hnote => ?_
  have hwait : n.safety.loadA = none ∨ n.safety.loadB = none := by
    have hother := hnote.other.trans hn
    cases h
    · exact .inr hother
    · exact .inl hother
  rw [loadDecided_waits _ _ hwait]
  exact ⟨hnote.setsKept, hnote.load.trans hf.1, hnote.own⟩

/-- With the finding of the second channel the load is decided. -/
theorem safetySetChecked_second {h : Bool} {own o : Nat} (hf : s.finds h c b own) (hd : c.done = none)
    (hn : (if h then s.dev.safety.loadA else s.dev.safety.loadB) = some o) :
    Completes (.safetySetChecked h) s (fun d => s.dev.setsKept d ∧ d.safety.load = none ∧
      (if own = 0 ∧ o = 0
       then (∀ k, (d.ch k).next = some (parseSet b)) ∧ d.cmd? c.id = some { c with progress := b.length }
       else (∀ k, (d.ch k).next = (s.dev.ch k).next) ∧
         d.endedAs c .rejectedParam b.length (if h then o + 256 * own else own + 256 * o) 0 0)) := by
  refine safetySetChecked_run hf fun n hnote => ?_
  obtain ⟨-, -, hc, -⟩ := hf
  have hcmd : n.cmd? c.id = some c := (hnote.cmd c.id).trans hc
  have hnext : ∀ k, (n.ch k).next = (s.dev.ch k).next := fun k => congrArg Channel.next (hnote.channels k)
  have hother := hnote.other.trans hn
  have hown := hnote.own
  simp only [← hnext]
  cases h
  · obtain ⟨hsets, hload, hrest⟩ := loadDecided_effect hown hother hcmd hd b
    exact ⟨hnote.setsKept.trans hsets, hload, hrest⟩
  · obtain ⟨hsets, hload, hrest⟩ := loadDecided_effect hother hown hcmd hd b
    rw [if_congr and_comm rfl rfl] at hrest
    exact ⟨hnote.setsKept.trans hsets, hload, hrest⟩

end Sys2Proof.Machine
end

section
/-! PROOFS. MODE_SWITCH and TIME_CONFIG (R23, R113, R117, R150, R281, R294), and with the loads the whole of O38. -/

namespace Sys2Proof.Machine

variable {s : State} {c : Cmd} {d : Dev}

/-! ## MODE_SWITCH -/

/-- That a mask without ports is out of range is the model's choice (log 174). -/
theorem modeSwitch_outOfRange (h : s.starts 0x14 c) (hp : c.u 0x18 1 = 0 ∨ 16 ≤ c.u 0x18 1) :
    EndsOnly .modeSwitch s c .rejectedParam :=
  endsOnly_of h rfl (if_pos (hp.imp id .inl))

/-- The modes that a MODE_SWITCH names, port by port. -/
def Cmd.modes (c : Cmd) : List Nat := (List.range 4).map (fun p => c.u (0x19 + p) 1)

theorem modes_getD {p : Nat} (hp : p < 4) : c.modes.getD p 0 = c.u (0x19 + p) 1 := by
  simp [Cmd.modes, hp]

/-- A port's schedule has no mode of the number asked. -/
def Dev.modeMissing (d : Dev) (c : Cmd) (p : Nat) : Bool :=
  match d.section? p with | some x => decide (x.modes.length ≤ c.modes.getD p 0) | none => false

theorem modeSwitch_waits (h : s.starts 0x14 c) (hlo : 1 ≤ c.u 0x18 1) (hhi : c.u 0x18 1 < 16)
    (hp : ∀ p ∈ bitsOf (c.u 0x18 1) 4, s.dev.portRuns p = true ∧
      ∀ x, s.dev.section? p = some x → (c.u (0x19 + p) 1) < x.modes.length)
    (hb : (s.dev.heath.switch.isSome || s.dev.heath.loading.isSome || s.dev.heath.awaiting.isSome || s.dev.beatChanging) = false) :
    Completes .modeSwitch s (fun d => d.runsOn c ∧ d.heath = { s.dev.heath with
        switch := some ⟨c.u 0x18 1, c.modes, c.id, c.accepted, none, [], [], none⟩ } ∧ s.dev.only d [.host, .heath] []) := by
  have hmodes : (bitsOf (c.u 0x18 1) 4).any ((s.started c).modeMissing c) = false := by
    refine List.any_eq_false.2 fun p hm => ?_
    obtain ⟨-, hlen⟩ := hp p hm
    unfold Dev.modeMissing
    split
    next x hx =>
      rw [modes_getD (mem_bitsOf.1 hm).1]
      exact fun hle => absurd (of_decide_eq_true hle) (Nat.not_le.2 (hlen x hx))
    · decide
  have hports : (bitsOf (c.u 0x18 1) 4).any (fun p => !(s.started c).portRuns p) = false :=
    List.any_eq_false.2 fun p hm => by rw [show (s.started c).portRuns p = true from (hp p hm).1]; decide
  have hfree : ¬ ((bitsOf (c.u 0x18 1) 4).any (fun p => !(s.started c).portRuns p) || s.dev.heath.switch.isSome ||
      s.dev.heath.loading.isSome || s.dev.heath.awaiting.isSome || s.dev.beatChanging) = true := by
    rw [hports, Bool.false_or]
    exact Bool.eq_false_iff.1 hb
  refine starts_to h rfl ((if_neg (not_or.2 ⟨by omega, not_or.2 ⟨by omega, Bool.eq_false_iff.1 hmodes⟩⟩)).trans (if_neg hfree)) ?_
  exact ⟨started_cmd h, rfl, keeps_only (keeps_heath (by decide) (started_keeps (by decide)))⟩

/-! ## TIME_CONFIG -/

/-- The layout that a TIME_CONFIG asks for. -/
def Cmd.layout (c : Cmd) : Layout := ⟨c.u 0x18 1, c.u 0x19 1, c.u 0x1C 4⟩

theorem timeConfig_outOfRange (h : s.starts 0x60 c) (hl : 2 < c.layout.tb ∨ c.layout.strb < 4 ∨ 16 < c.layout.strb ∨
    c.layout.beat ≤ c.layout.bphase ∨ c.layout.stride < 500000) : EndsOnly .timeConfig s c .rejectedParam :=
  endsOnly_of h rfl (if_pos (hl.imp id (.imp id (.imp id (.imp id .inl)))))

/-- A layout in its ranges, with which the timing of the planner and its stop stay in theirs (R113, R117). -/
def Dev.fitsLayout (d : Dev) (l : Layout) : Prop :=
  l.tb ≤ 2 ∧ 4 ≤ l.strb ∧ l.strb ≤ 16 ∧ l.bphase < l.beat ∧ 500000 ≤ l.stride ∧
  timingWordsOk (d.reg 0x5400).toNat (d.reg 0x5404).toNat l.stride = true ∧
  missWithin (d.get SLV_MSTOP) (d.reg 0x5010).toNat = true

theorem fitsLayout_inRange {l : Layout} (h : d.fitsLayout l) :
    ¬ (2 < l.tb ∨ l.strb < 4 ∨ 16 < l.strb ∨ l.beat ≤ l.bphase ∨ l.stride < 500000 ∨
      (!timingWordsOk (d.reg 0x5400).toNat (d.reg 0x5404).toNat l.stride) = true ∨
      (!missWithin (d.get SLV_MSTOP) (d.reg 0x5010).toNat) = true) := by
  obtain ⟨htb, hlo, hhi, hphase, hstride, htiming, hmiss⟩ := h
  rw [htiming, hmiss]
  simp only [Bool.not_true, Bool.false_eq_true, or_false]
  omega

theorem timeConfig_refused (h : s.starts 0x60 c) (hl : s.dev.fitsLayout c.layout)
    (hb : s.dev.is CLK_TIMELK = false ∨ s.dev.time.pending.isSome = true) : EndsOnly .timeConfig s c .rejectedState := by
  have hbusy : ∀ x y : Bool, (!s.dev.is CLK_TIMELK || s.dev.time.pending.isSome || x || y) = true := fun x y => by
    rcases hb with hb | hb
    · rw [hb]
      rfl
    · rw [hb, Bool.or_true]
      rfl
  exact endsOnly_of h rfl ((if_neg (fitsLayout_inRange hl)).trans (if_pos (hbusy _ _)))

theorem timeConfig_waits (h : s.starts 0x60 c) (hl : s.dev.fitsLayout c.layout) (ht : s.dev.is CLK_TIMELK = true)
    (hn : s.dev.time.pending = none) (hp : s.dev.plState = 0) (hf : s.dev.loadsBusy = false) (he : s.dev.get HTL_PEN = 0) :
    Completes .timeConfig s (fun d => d.runsOn c ∧
      d.time = { s.dev.time with pending := some (c.layout, c.accepted + 10000, c.id) } ∧ s.dev.only d [.host, .time] []) := by
  have hfree : ∀ x y : Bool, ¬ (!s.dev.is CLK_TIMELK || s.dev.time.pending.isSome || (x && (s.dev.plState != 0 || s.dev.loadsBusy)) ||
      (y && (s.dev.plState != 0 || s.dev.get HTL_PEN != 0))) = true := fun x y => by
    rw [ht, hn, hp, hf, he]
    cases x <;> cases y <;> decide
  refine starts_to h rfl ((if_neg (fitsLayout_inRange hl)).trans (if_neg (hfree _ _))) ?_
  exact ⟨started_cmd h, rfl, keeps_only (keeps_time (by decide) (started_keeps (by decide)))⟩

/-! ## The obligation -/

/-- Settles O38, command by command. -/
theorem loadsAndSwitches : Obligations.LoadsAndSwitches := by
  unfold Obligations.LoadsAndSwitches
  intro s c b f st h
  refine ⟨?_, fun hu _ hl hc hd => ⟨scheduleCheckDone_failed ⟨hu, hl, hc, hd⟩, fun h4 hw =>
    scheduleCheckDone_judged ⟨hu, hl, hc, hd⟩ h4 hw b⟩, fun hs => ⟨servoProgramLoad_refused hs, servoProgramLoad_takes hs⟩,
    fun hu _ hl hc hd => ⟨servoLoadCheckDone_failed ⟨hu, hl, hc, hd⟩ st, fun h4 hb =>
    servoLoadCheckDone_malformed ⟨hu, hl, hc, hd⟩ h4 hb st, fun h4 hw hb hi pf jf hpf hjf =>
    servoLoadCheckDone_judged ⟨hu, hl, hc, hd⟩ h4 hw hb hi hpf hjf⟩, fun hs => ⟨safetyParamLoad_refused hs, fun hb =>
    ⟨safetyParamLoad_unlinked hs hb, fun hx h4 => safetyParamLoad_takes hs hb hx h4 b⟩⟩, ?_, fun hs =>
    ⟨modeSwitch_outOfRange hs, modeSwitch_waits hs⟩, ?_⟩
  · rintro blocked rfl hs
    exact ⟨scheduleLoad_refused hs, scheduleLoad_takes hs⟩
  · intro own other _ hc hd hl hu ho hn
    cases other with
    | none =>
      obtain ⟨t, ht, hq, ⟨hin, hsets⟩, hrest⟩ := safetySetChecked_first ⟨hl, hu, hc, ho⟩ hn
      exact ⟨t, ht, hq, hin, hsets, hrest⟩
    | some o =>
      obtain ⟨t, ht, hq, ⟨hin, hsets⟩, hrest⟩ := safetySetChecked_second ⟨hl, hu, hc, ho⟩ hd hn
      exact ⟨t, ht, hq, hin, hsets, hrest⟩
  · rintro hs l rfl
    exact ⟨timeConfig_outOfRange hs, fun htb hlo hhi hphase hstride htiming hmiss =>
      ⟨timeConfig_refused hs ⟨htb, hlo, hhi, hphase, hstride, htiming, hmiss⟩,
       timeConfig_waits hs ⟨htb, hlo, hhi, hphase, hstride, htiming, hmiss⟩⟩⟩

end Sys2Proof.Machine
end

section
/-! PROOFS. The instructions of the servo engines that work on the bank alone (R165, R166, R171 to R173, R175): the exact result of
each, and the bank it leaves. -/

namespace Sys2Proof.Machine

variable {d : Dev} {s : State} {i : Instr} {e op : Nat} {pm : Option PostMod} {b b' : Bank}

/-! ## Results and flags -/

theorem absInt_eq_natAbs (v : Int) : absInt v = v.natAbs := by
  unfold absInt
  split <;> omega

theorem shrRne_of_pos (v : Int) {k : Nat} (hk : 0 < k) : shrRne v k = divRne v (2 ^ k) := by
  unfold shrRne
  rw [if_neg (by omega), Int.natAbs_natCast]

/-- The shift of a rounding: 23 bits and the extra ones, in one step. -/
theorem shrRne_extra (v : Int) (extra : Nat) : shrRne v (23 + extra) = divRne v (2 ^ (23 + extra)) :=
  shrRne_of_pos v (k := 23 + extra) (Nat.add_pos_left (by decide) extra)

/-- The quotient of R173: the dividend takes the sign of the divisor. -/
theorem divQ23_eq (x y : Int) : divQ23 x y =
    if y = 0 then (if x = 0 then (0, false) else if 0 < x then (8388607, true) else (-8388608, true))
    else satQ23 (divRne (x * 2 ^ 23 * y.sign) y.natAbs) := by
  unfold divQ23
  dsimp only
  rcases lt_trichotomy y 0 with hy | rfl | hy
  · rw [if_neg hy.ne, if_neg hy.ne, if_neg hy.not_gt, Int.sign_eq_neg_one_of_neg hy, mul_neg_one]
    rfl
  · rfl
  · rw [if_neg hy.ne', if_neg hy.ne', if_pos hy, Int.sign_eq_one_of_pos hy, mul_one]
    rfl

theorem flags_sub (b : Bank) (x y : Int) : b.flags (x - y) = { b with z := decide (x = y), n := decide (x < y) } := by
  simp only [Bank.flags, sub_eq_zero, sub_neg]

theorem bitOf_toNat (w : Word) (n : Nat) : bitOf w.toNat n = w.getLsbD n := bitOf_eq_testBit _ _

/-! ## Commands -/

theorem completes_mono {P Q : Dev → Prop} (h : Completes i s P) (hPQ : ∀ d, P d → Q d) : Completes i s Q := by
  obtain ⟨t, hrun, hq, hp⟩ := h
  exact ⟨t, hrun, hq, hPQ _ hp⟩

/-- An ALU instruction with the exact result `r`. -/
theorem completes_aluDone {n : Nat} {v : Bank → Int} {r : Int}
    (hi : exec i s = s.run (fun d => d.bankOp e op (fun b => b.alu n (v b)))) (hb : s.dev.bank? e = some b) (hv : v b = r)
    (h : s.dev.runs e op none = true) : Completes i s (fun d => s.dev.aluDone d e b n r) :=
  hv ▸ completes_alu n v hi h hb

/-- An accumulator instruction with the exact result `r`. -/
theorem completes_accDone {a : Nat} {v : Bank → Int} {r : Int}
    (hi : exec i s = s.run (fun d => d.bankOp e op (fun b => b.accum a (v b)))) (hb : s.dev.bank? e = some b) (hv : v b = r)
    (h : s.dev.runs e op none = true) : Completes i s (fun d => s.dev.accDone d e b a r) :=
  hv ▸ completes_accum a v hi h hb

/-- An instruction that leaves the bank `b'` before it goes on. -/
theorem completes_leaves {f : Bank → Bank} (hi : exec i s = s.run (fun d => d.bankOp e op f)) (hb : s.dev.bank? e = some b)
    (hf : f b = b') (h : s.dev.runs e op none = true) : Completes i s (fun d => s.dev.ranBank d e (Bank.next b') []) :=
  completes_bankOp f hi h hb hf

/-- An instruction that leaves the memories alone. -/
theorem completes_instr {cyc : Bank → Nat} {f : Ctx → Except Nat Ctx} (hi : exec i s = s.run (fun d => d.instr e op pm cyc f))
    (hb : s.dev.bank? e = some b) (hf : ∀ g : Engine, s.dev.engine e = some g →
      f ⟨g.fetched (cyc b), b, s.dev.regions e b.slot⟩ = .ok ⟨g.fetched (cyc b), b', s.dev.regions e b.slot⟩)
    (h : s.dev.runs e op pm = true) : Completes i s (fun d => s.dev.ranBank d e b' []) :=
  completes_run hi (ranBank_from_out (instr_ran (d := { s.dev with out := [] }) cyc f h hb hf))

theorem ctxOp_step {f : Ctx → Except Nat Ctx} {c c' : Ctx} (h : f c = .ok c') :
    (f c >>= fun c => .ok { c with bank := c.bank.advance }) = Except.ok { c' with bank := Bank.next c'.bank } := by
  rw [h]
  rfl

/-- An instruction on the context that leaves the memories alone and goes on to the next. -/
theorem ctxOp_ran {cyc : Nat} {f : Ctx → Except Nat Ctx} (h : d.runs e op pm = true) (hb : d.bank? e = some b)
    (hf : ∀ g : Engine, d.engine e = some g → f ⟨g.fetched cyc, b, d.regions e b.slot⟩ = .ok ⟨g.fetched cyc, b', d.regions e b.slot⟩) :
    d.ranBank (d.ctxOp e op pm cyc f) e (Bank.next b') [] :=
  instr_ran (fun _ => cyc) (fun c => f c >>= fun c => .ok { c with bank := c.bank.advance }) h hb fun g hg => ctxOp_step (hf g hg)

theorem completes_ctxOp {cyc : Nat} {f : Ctx → Except Nat Ctx} (hi : exec i s = s.run (fun d => d.ctxOp e op pm cyc f))
    (hb : s.dev.bank? e = some b) (hf : ∀ g : Engine, s.dev.engine e = some g →
      f ⟨g.fetched cyc, b, s.dev.regions e b.slot⟩ = .ok ⟨g.fetched cyc, b', s.dev.regions e b.slot⟩)
    (h : s.dev.runs e op pm = true) : Completes i s (fun d => s.dev.ranBank d e (Bank.next b') []) :=
  completes_run hi (ranBank_from_out (ctxOp_ran (d := { s.dev with out := [] }) h hb hf))

/-- Settles O20: the shape of ALU instructions with the result of each. -/
theorem engineAlu : Obligations.EngineAlu := by
  unfold Obligations.EngineAlu
  intro s e dd x y b hb
  exact ⟨completes_aluDone rfl hb rfl, completes_aluDone rfl hb rfl, completes_aluDone rfl hb rfl,
    completes_aluDone rfl hb (absInt_eq_natAbs _), completes_aluDone rfl hb (min_def _ _), completes_aluDone rfl hb (max_def _ _),
    completes_aluDone rfl hb (by simp only [absInt_eq_natAbs]), completes_aluDone rfl hb rfl⟩

/-- Settles O21: the shape of accumulator instructions with the result of each; MACG saturates twice. -/
theorem engineAccumulators : Obligations.EngineAccumulators := by
  unfold Obligations.EngineAccumulators
  intro s e a m x y sh b hb
  exact ⟨completes_accDone rfl hb rfl, completes_accDone rfl hb rfl, completes_accDone rfl hb rfl, completes_accDone rfl hb rfl,
    completes_accDone rfl hb rfl, completes_accDone rfl hb rfl, completes_accDone rfl hb rfl, completes_accDone rfl hb rfl,
    fun h => completes_mono (completes_leaves rfl hb rfl h) fun _ hd => ⟨_, _, _, rfl, rfl, rfl, hd⟩⟩

/-- Settles O22: the bank that each instruction leaves. -/
theorem engineRegisters : Obligations.EngineRegisters := by
  unfold Obligations.EngineRegisters
  intro s e dd x y n a i12 i8 i14 b hb
  refine ⟨completes_leaves rfl hb rfl, completes_leaves rfl hb rfl, completes_leaves rfl hb rfl, completes_leaves rfl hb rfl,
    completes_leaves rfl hb rfl, completes_leaves rfl hb rfl, completes_leaves rfl hb rfl, completes_ctxOp rfl hb fun g hg => ?_,
    completes_leaves rfl hb (by simp only [bitOf_toNat]), completes_leaves rfl hb rfl, completes_leaves rfl hb (flags_sub _ _ _),
    completes_leaves rfl hb rfl, completes_leaves rfl hb rfl, completes_aluDone rfl hb (shrRne_extra _ 0), fun h => ?_,
    fun h v hv => completes_ctxOp rfl hb (fun g _ => ?_) h⟩
  · rw [hg, curBank_fetched]
    rfl
  · exact completes_mono (completes_instr rfl hb (fun _ _ => rfl) h) fun d hd => ⟨_, _, _, rfl, divQ23_eq _ _, hd⟩
  · dsimp only
    rw [hv]
    rfl

end Sys2Proof.Machine
end

section
/-! PROOFS. Memory operands of the servo engines: loads, stores and the multiplications of memory words (R162, R163, R166, R170, R171,
R174, R175). -/

namespace Sys2Proof.Machine

variable {d d' : Dev} {s : State} {i : Instr} {e op n k : Nat} {pm : Option PostMod} {q : PostMod} {b b' b1 b2 : Bank} {g : Engine}
  {r : Regions} {x : Engine} {ps : List Part} {W E : Nat → Word}

/-! ## Accesses of a context -/

theorem ok_bind {α β : Type} (a : α) (f : α → Except Nat β) : (Except.ok a >>= f) = f a := rfl

theorem wmAt_eq (hg : d.engine e = some g) : d.wmAt e = fileGet ramDefault g.wm := by
  funext a
  simp only [Dev.wmAt, hg]

theorem emAt_eq (hg : d.engine e = some g) : d.emAt e = fileGet ramDefault g.em := by
  funext a
  simp only [Dev.emAt, hg]

theorem cmAt_eq (hg : d.engine e = some g) : d.cmAt e = fileGet cmDefault g.cm := by
  funext a
  simp only [Dev.cmAt, hg]

theorem readW_fetched (hg : d.engine e = some g) (hm : pdMode (b.pd.getD n 0) ≠ 3) (ho : okWm r (b.ptr n) = true) :
    Ctx.readW ⟨g.fetched k, b, r⟩ n = .ok (d.wmAt e (b.ptr n)) := by
  rw [wmAt_eq hg]
  exact (if_neg hm).trans (if_pos ho)

theorem readE_fetched (hg : d.engine e = some g) (hm : pdMode (b.pd.getD n 0) ≠ 3) (ho : okEm r b.slot (b.ptr n) = true) :
    Ctx.readE ⟨g.fetched k, b, r⟩ n = .ok (d.emAt e (b.ptr n)) := by
  rw [emAt_eq hg]
  exact (if_neg hm).trans (if_pos ho)

theorem readC_fetched {a : Nat} (hg : d.engine e = some g) (hm : pdMode (b.pd.getD 7 0) ≠ 3) (ho : okCm r a = true) :
    Ctx.readC ⟨g.fetched k, b, r⟩ a = .ok (d.cmAt e a) := by
  rw [cmAt_eq hg]
  exact (if_neg hm).trans (if_pos ho)

theorem modeOk_fetched (hm : pdMode (b.pd.getD n 0) ≠ 3) : Ctx.modeOk ⟨x, b, r⟩ n = .ok () := if_neg hm

theorem writeW_allowed {a : Nat} (w : Word) (ho : okWm r a = true) :
    Ctx.writeW ⟨x, b, r⟩ a w = .ok ⟨{ x with wm := filePut ramDefault x.wm a w }, b, r⟩ := if_pos ho

theorem writeE_allowed {a : Nat} (w : Word) (ho : okEm r b.slot a = true) (hw : engineWord b.slot a = false) :
    Ctx.writeE ⟨x, b, r⟩ a w = .ok ⟨{ x with em := filePut ramDefault x.em a w }, b, r⟩ :=
  (if_pos ho).trans (if_neg (Bool.eq_false_iff.1 hw))

theorem post_admitted (hp : b.post n q = some b1) : Ctx.post ⟨x, b, r⟩ n q = .ok ⟨x, b1, r⟩ := by
  simp only [Ctx.post, hp]

/-- A post-modify changes the pointers alone. -/
theorem post_pointers (hp : b.post n q = some b1) : b1 = { b with p := b1.p } := by
  unfold Bank.post at hp
  cases q
  case none =>
    obtain ⟨-, he⟩ := Option.ite_none_left_eq_some.1 hp
    cases he
    rfl
  all_goals
    obtain ⟨v, -, rfl⟩ := Option.map_eq_some_iff.1 hp
    rfl

theorem post_acc (hp : b.post n q = some b1) (a : Nat) : b1.acc a = b.acc a := by
  rw [post_pointers hp]
  rfl

/-- A post-modify is blind to the flags and to GROW. -/
theorem post_flags (hp : b.post n q = some b1) (sv : Bool) (gr : Nat) :
    Bank.post { b with sv := sv, grow := gr } n q = some { b1 with sv := sv, grow := gr } := by
  unfold Bank.post at hp ⊢
  cases q
  case none =>
    obtain ⟨hm, he⟩ := Option.ite_none_left_eq_some.1 hp
    cases he
    exact if_neg hm
  all_goals
    obtain ⟨v, hv, rfl⟩ := Option.map_eq_some_iff.1 hp
    exact congrArg (Option.map _) hv

theorem fileGet_filePut (f : Nat → Word) (m : List (Nat × Word)) (a : Nat) (w : Word) :
    fileGet f (filePut f m a w) = Function.update (fileGet f m) a w := by
  funext o
  by_cases h : o = a
  · rw [h, fileGet_filePut_same, Function.update_self]
  · rw [fileGet_filePut_ne f m a o w h, Function.update_of_ne h]

/-! ## Instructions that write memory -/

/-- Engine `e` has run one instruction that leaves bank `b'` and data memories that read as `W` and `E`. -/
def Dev.ranMem (d d' : Dev) (e : Nat) (b' : Bank) (ps : List Part) (W E : Nat → Word) : Prop :=
  d'.bank? e = some b' ∧ d.engineFrame d' e ps ∧ d'.wmAt e = W ∧ d'.emAt e = E

/-- What an instruction on the context makes of the context fetched: bank `b'` and memories that read as `W` and `E`. -/
def Dev.leavesMem (d : Dev) (e cyc : Nat) (b : Bank) (f : Ctx → Except Nat Ctx) (b' : Bank) (W E : Nat → Word) : Prop :=
  ∀ g, d.engine e = some g → ∃ wm em, f ⟨g.fetched cyc, b, d.regions e b.slot⟩ =
    .ok ⟨{ g.fetched cyc with wm := wm, em := em }, b', d.regions e b.slot⟩ ∧ fileGet ramDefault wm = W ∧ fileGet ramDefault em = E

theorem leavesMem_wm {cyc a : Nat} {w : Word} {f : Ctx → Except Nat Ctx} (hf : ∀ g, d.engine e = some g →
    f ⟨g.fetched cyc, b, d.regions e b.slot⟩ =
      .ok ⟨{ g.fetched cyc with wm := filePut ramDefault g.wm a w }, b', d.regions e b.slot⟩) :
    d.leavesMem e cyc b f b' (Function.update (d.wmAt e) a w) (d.emAt e) :=
  fun g hg => ⟨_, g.em, hf g hg, by rw [wmAt_eq hg, fileGet_filePut], (emAt_eq hg).symm⟩

theorem leavesMem_em {cyc a : Nat} {w : Word} {f : Ctx → Except Nat Ctx} (hf : ∀ g, d.engine e = some g →
    f ⟨g.fetched cyc, b, d.regions e b.slot⟩ =
      .ok ⟨{ g.fetched cyc with em := filePut ramDefault g.em a w }, b', d.regions e b.slot⟩) :
    d.leavesMem e cyc b f b' (d.wmAt e) (Function.update (d.emAt e) a w) :=
  fun g hg => ⟨g.wm, _, hf g hg, (wmAt_eq hg).symm, by rw [emAt_eq hg, fileGet_filePut]⟩

theorem leavesMem_both {cyc a a' : Nat} {w w' : Word} {f : Ctx → Except Nat Ctx} (hf : ∀ g, d.engine e = some g →
    f ⟨g.fetched cyc, b, d.regions e b.slot⟩ = .ok ⟨{ g.fetched cyc with
      wm := filePut ramDefault g.wm a w, em := filePut ramDefault g.em a' w' }, b', d.regions e b.slot⟩) :
    d.leavesMem e cyc b f b' (Function.update (d.wmAt e) a w) (Function.update (d.emAt e) a' w') :=
  fun g hg => ⟨_, _, hf g hg, by rw [wmAt_eq hg, fileGet_filePut], by rw [emAt_eq hg, fileGet_filePut]⟩

theorem ctxOp_mem {cyc : Nat} {f : Ctx → Except Nat Ctx} (hb : d.bank? e = some b) (hf : d.leavesMem e cyc b f b' W E)
    (h : d.runs e op pm = true) : d.ranMem (d.ctxOp e op pm cyc f) e (Bank.next b') [] W E := by
  obtain ⟨g, hg, hk, -⟩ := runs_parts h hb
  obtain ⟨wm, em, hrun, rfl, rfl⟩ := hf g hg
  obtain ⟨hbank, hframe, hwm, hem, -⟩ := instr_ok (wm := wm) (em := em) (fun _ => cyc)
    (fun c => f c >>= fun c => .ok { c with bank := c.bank.advance }) h hg hk (ctxOp_step hrun)
  exact ⟨hbank, hframe, funext hwm, funext hem⟩

theorem begun_mem {cyc : Nat} {f : Ctx → Except Nat Ctx} (hb : s.dev.bank? e = some b) (hf : s.dev.leavesMem e cyc b f b' W E)
    (h : s.dev.runs e op pm = true) : s.dev.ranMem (s.begun.ctxOp e op pm cyc f) e (Bank.next b') [] W E := by
  obtain ⟨hbank, hframe, hmem⟩ := ctxOp_mem (d := s.begun) hb hf h
  exact ⟨hbank, engineFrame_from_out hframe, hmem⟩

/-! ## Reading after a store -/

theorem update_reads {M M' : Nat → Word} {a : Nat} {w : Word} (h : M' = Function.update M a w) :
    M' a = w ∧ ∀ o, o ≠ a → M' o = M o :=
  h ▸ ⟨Function.update_self a w M, fun _ ho => Function.update_of_ne ho w M⟩

theorem ranMem_both {a a' : Nat} {w w' : Word}
    (h : d.ranMem d' e b' ps (Function.update (d.wmAt e) a w) (Function.update (d.emAt e) a' w')) :
    d'.bank? e = some b' ∧ d.engineFrame d' e ps ∧ d'.wmAt e a = w ∧ d'.emAt e a' = w' ∧
    (∀ o, o ≠ a → d'.wmAt e o = d.wmAt e o) ∧ (∀ o, o ≠ a' → d'.emAt e o = d.emAt e o) := by
  obtain ⟨hbank, hframe, hwm, hem⟩ := h
  obtain ⟨hw, hwo⟩ := update_reads hwm
  obtain ⟨he, heo⟩ := update_reads hem
  exact ⟨hbank, hframe, hw, he, hwo, heo⟩

theorem ranMem_wm {a : Nat} {w : Word} (h : d.ranMem d' e b' ps (Function.update (d.wmAt e) a w) (d.emAt e)) :
    d'.bank? e = some b' ∧ d.engineFrame d' e ps ∧ d'.wmAt e a = w ∧ (∀ o, o ≠ a → d'.wmAt e o = d.wmAt e o) ∧
    (∀ o, d'.emAt e o = d.emAt e o) := by
  obtain ⟨hbank, hframe, hwm, hem⟩ := h
  obtain ⟨hw, hwo⟩ := update_reads hwm
  exact ⟨hbank, hframe, hw, hwo, congrFun hem⟩

theorem ranMem_stored_wm {a : Nat} {w : Word} (h : d.ranMem d' e (Bank.next b') [] (Function.update (d.wmAt e) a w) (d.emAt e)) :
    d.stored d' e true a w b' := by
  obtain ⟨hbank, hframe, hw, hwo, hem⟩ := ranMem_wm h
  exact ⟨hbank, hframe, hw, fun o ho => hwo o (ho.resolve_left (by decide)), fun o _ => hem o⟩

theorem ranMem_stored_em {a : Nat} {w : Word} (h : d.ranMem d' e (Bank.next b') [] (d.wmAt e) (Function.update (d.emAt e) a w)) :
    d.stored d' e false a w b' := by
  obtain ⟨hbank, hframe, hwm, hem⟩ := h
  obtain ⟨he, heo⟩ := update_reads hem
  exact ⟨hbank, hframe, he, fun o _ => congrFun hwm o, fun o ho => heo o (ho.resolve_left (by decide))⟩

/-! ## Instructions that draw a free value first -/

theorem engineFrame_draw (h : d.draw.engineFrame d' e ps) : d.engineFrame d' e (.freeCtr :: ps) := by
  obtain ⟨⟨hparts, hregs⟩, hrest⟩ := h
  refine ⟨⟨fun p hp => ?_, hregs⟩, hrest⟩
  simp only [List.mem_cons, not_or] at hp
  obtain ⟨hservo, hctr, hps⟩ := hp
  have := hparts p (by simp only [List.mem_cons, not_or]; exact ⟨hservo, hps⟩)
  cases p
  case freeCtr => exact absurd rfl hctr
  all_goals exact this

theorem drawn_ran {cyc : Nat} {f : Ctx → Except Nat Ctx} (hb : s.dev.bank? e = some b)
    (hf : ∀ g : Engine, s.dev.engine e = some g →
      f ⟨g.fetched cyc, b, s.dev.regions e b.slot⟩ = .ok ⟨g.fetched cyc, b', s.dev.regions e b.slot⟩)
    (h : s.dev.runs e op pm = true) : s.dev.ranBank (s.begun.draw.ctxOp e op pm cyc f) e (Bank.next b') [.freeCtr] := by
  obtain ⟨hbank, hframe, hrest⟩ := ctxOp_ran (d := s.begun.draw) h hb hf
  exact ⟨hbank, engineFrame_from_out (engineFrame_draw hframe), hrest⟩

theorem drawn_mem {cyc : Nat} {f : Ctx → Except Nat Ctx} (hb : s.dev.bank? e = some b) (hf : s.dev.leavesMem e cyc b f b' W E)
    (h : s.dev.runs e op pm = true) : s.dev.ranMem (s.begun.draw.ctxOp e op pm cyc f) e (Bank.next b') [.freeCtr] W E := by
  obtain ⟨hbank, hframe, hmem⟩ := ctxOp_mem (d := s.begun.draw) hb hf h
  exact ⟨hbank, engineFrame_from_out (engineFrame_draw hframe), hmem⟩

/-! ## Loads -/

/-- Settles O23: the word read, then the pointer. -/
theorem engineLoads : Obligations.EngineLoads := by
  unfold Obligations.EngineLoads
  intro s e dd n pm b b1 hb
  refine ⟨fun h hm hp ho => completes_ctxOp rfl hb (fun g hg => ?_) h, fun h hm hp ho => completes_ctxOp rfl hb (fun g hg => ?_) h,
    fun h hm hp ho => completes_instr rfl hb (fun g hg => ?_) h⟩
  · simp only [readW_fetched hg hm ho, post_admitted hp]
    rfl
  · simp only [readE_fetched hg hm ho, post_admitted hp]
    rfl
  · simp only [readC_fetched hg hm ho, post_admitted hp]
    rfl

/-! ## Stores -/

/-- A block-scaled store rounds by 23 bits and SHIFT more, sets SV where it saturates and raises GROW (R166, R175). -/
theorem blockRound_eq (b : Bank) (v : Int) : b.blockRound v =
    (ofQ23 (satQ23 (divRne v (2 ^ (23 + b.shift)))).1,
     { b with sv := b.sv || (satQ23 (divRne v (2 ^ (23 + b.shift)))).2,
              grow := max b.grow (growClass (satQ23 (divRne v (2 ^ (23 + b.shift)))).1) }) := by
  unfold Bank.blockRound roundQ23
  rw [shrRne_extra]
  rfl

/-- Settles O24: the word written, then the pointer. -/
theorem engineStores : Obligations.EngineStores := by
  unfold Obligations.EngineStores
  rintro s e n x a pm b b1 b2 v r hb hm hp rfl rfl rfl
  have hpost := post_flags hp
  refine ⟨fun ho => ⟨fun h => ?_, fun h => ?_⟩, fun ho hw => ⟨fun h => ?_, fun h => ?_⟩⟩
  · refine completes_of_next rfl (ranMem_stored_wm (begun_mem hb (leavesMem_wm fun g _ => ?_) h))
    simp only [modeOk_fetched hm, writeW_allowed _ ho]
    exact post_admitted hp
  · refine completes_of_next rfl (ranMem_stored_wm (begun_mem hb (leavesMem_wm fun g _ => ?_) h))
    simp only [modeOk_fetched hm, writeW_allowed _ ho, blockRound_eq]
    exact post_admitted (hpost _ _)
  · refine completes_of_next rfl (ranMem_stored_em (begun_mem hb (leavesMem_em fun g _ => ?_) h))
    simp only [modeOk_fetched hm, writeE_allowed _ ho hw]
    exact post_admitted hp
  · refine completes_of_next rfl (ranMem_stored_em (begun_mem hb (leavesMem_em fun g _ => ?_) h))
    simp only [modeOk_fetched hm, writeE_allowed _ ho hw, blockRound_eq]
    exact post_admitted (hpost _ _)

/-! ## Multiplications of memory words -/

theorem encSigned_natCast (w p : Nat) : encSigned w p = p % 2 ^ w := by
  unfold encSigned
  omega

/-- The third operand is CM[P7] while the loop body is cached, and the free word without it (R170). -/
theorem third_fetched (hm : pdMode (b.pd.getD 7 0) ≠ 3) (ho : b.cv = true → okCm r (b.ptr 7 % 2 ^ 14) = true) (free : Word) :
    ∃ c, (b.cv = true → c = d.cmAt e (b.ptr 7 % 2 ^ 14)) ∧
      ∀ g : Engine, d.engine e = some g → Ctx.third ⟨g.fetched k, b, r⟩ 0 free = .ok c := by
  unfold Ctx.third
  cases hc : b.cv
  case false => exact ⟨free, fun h => Bool.noConfusion h, fun g _ => if_neg (by simp [hc])⟩
  case true =>
    have haddr : encSigned 14 ((b.ptr 7 : Int) + (0 : Nat)) = b.ptr 7 % 2 ^ 14 := encSigned_natCast 14 _
    refine ⟨_, fun _ => rfl, fun g hg => (if_pos hc).trans ?_⟩
    rw [haddr]
    exact readC_fetched hg hm (ho hc)

/-- Settles O25: the operands are read before the pointers move, and the samples written up are those read. -/
theorem engineMultiplyMemory : Obligations.EngineMultiplyMemory := by
  unfold Obligations.EngineMultiplyMemory
  intro s e a m i j pi pj p7 b b1 b2 b3 x y hb h1 h2 h3 hmi hmj hm7 hoi hoj hx hy
  have hreadW : ∀ g : Engine, s.dev.engine e = some g → Ctx.readW ⟨g.fetched 1, b, s.dev.regions e b.slot⟩ i = .ok x :=
    fun g hg => hx ▸ readW_fetched hg hmi hoi
  have hreadE : ∀ g : Engine, s.dev.engine e = some g → Ctx.readE ⟨g.fetched 1, b, s.dev.regions e b.slot⟩ j = .ok y :=
    fun g hg => hy ▸ readE_fetched hg hmj hoj
  have hacc2 : b2.acc a = b.acc a := (post_acc h2 a).trans (post_acc h1 a)
  have hacc3 : b3.acc a = b.acc a := (post_acc h3 a).trans hacc2
  refine ⟨completes_ctxOp rfl hb fun g hg => ?_, fun h ho => ?_, fun hoc => ?_⟩
  · simp only [hreadW g hg, hreadE g hg, ok_bind, post_admitted h1, post_admitted h2, hacc2]
  · refine completes_of_next rfl (ranMem_wm (begun_mem hb (leavesMem_wm fun g hg => ?_) h))
    simp only [hreadW g hg, hreadE g hg, ok_bind, writeW_allowed _ ho, post_admitted h1, post_admitted h2, hacc2]
    rfl
  · obtain ⟨c, hcm, hthird⟩ := third_fetched (d := s.dev) (e := e) (k := 1) hm7 hoc (freeWord s.dev.freeCtr)
    refine ⟨fun h => ?_, fun h hox hoy hwy => ?_⟩
    · refine completes_of_next rfl ⟨c, _, hcm, rfl, drawn_ran hb (fun g hg => ?_) h⟩
      simp only [hreadW g hg, hreadE g hg, hthird g hg, ok_bind, post_admitted h1, post_admitted h2, post_admitted h3, hacc3]
    · refine completes_of_next rfl ⟨c, _, hcm, rfl, ranMem_both (drawn_mem hb (leavesMem_both fun g hg => ?_) h)⟩
      simp only [hreadW g hg, hreadE g hg, hthird g hg, ok_bind, writeW_allowed _ hox,
        writeE_allowed _ hoy hwy, post_admitted h1, post_admitted h2, post_admitted h3, hacc3]
      rfl

end Sys2Proof.Machine
end

section
/-! PROOFS. Control flow of the servo engines: loops, branches, calls and returns (R169, R170, R172). -/

namespace Sys2Proof.Machine

variable {d : Dev} {s : State} {e op : Nat} {pm : Option PostMod} {b b' : Bank} {g : Engine}

/-! ## The program counter -/

theorem jump_pc (b : Bank) (t : Nat) : (b.jump t).pc = t := by
  unfold Bank.jump
  split <;> rfl

/-- A target outside the body of the active loop leaves the loop. -/
theorem jump_outside {t : Nat} (hl : b.la = true) (ht : t < b.ls ∨ b.le < t) :
    b.jump t = { b with la := false, cv := false, lc := 0, pc := t } := if_pos (by simp [hl, ht])

theorem jump_inside {t : Nat} (h1 : b.ls ≤ t) (h2 : t ≤ b.le) : b.jump t = { b with pc := t } :=
  if_neg (by simp [h1, h2])

theorem next_passes (hl : b.la = true) (hp : b.pc = b.le) (hc : 1 < b.lc) : Bank.next b = { b with lc := b.lc - 1, pc := b.ls } :=
  (if_pos (by simp [hl, hp])).trans (if_pos hc)

theorem next_leaves (hl : b.la = true) (hp : b.pc = b.le) (hc : b.lc ≤ 1) :
    Bank.next b = { b with la := false, cv := false, lc := 0, pc := b.pc + 1 } :=
  (if_pos (by simp [hl, hp])).trans (if_neg (Nat.not_lt.2 hc))

theorem next_plain (h : b.la = false ∨ b.pc ≠ b.le) : Bank.next b = { b with pc := b.pc + 1 } :=
  if_neg (by rcases h with h | h <;> simp [h])

/-! ## LOOP -/

/-- An engine that goes on with bank `b'`, whose loop cache belongs to `o` and which is as fetched otherwise. -/
def Engine.looped (g : Engine) (cyc : Nat) (o : Option Nat) (b' : Bank) : Engine :=
  { g.fetched cyc with cacheOwner := o, banks := updAt g.banks g.curBank (fun _ => b') }

theorem curBank_looped (g : Engine) (cyc : Nat) (o : Option Nat) (b' : Bank) : (g.looped cyc o b').curBank = g.curBank :=
  curBank_fetched g cyc

theorem looped_frame {cyc : Nat} {o : Option Nat} (hg : d.engine e = some g) :
    d.engineFrame (d.updE e (fun _ => g.looped cyc o b')) e [] := by
  refine ⟨updE_only d e _, rfl, fun k hk => engine_updE_ne d e k _ hk, fun g0 hg0 => ?_⟩
  obtain rfl : g = g0 := Option.some.inj (hg.symm.trans hg0)
  refine ⟨g.looped cyc o b', ?_, curBank_looped g cyc o b', fun n hn => updAt_ne g.banks g.curBank n _ hn, ⟨_, rfl⟩, rfl⟩
  rw [engine_updE_same, hg]
  rfl

/-- An instruction that may take the loop cache and leaves the memories alone. -/
theorem instr_looped {cyc : Bank → Nat} {f : Ctx → Except Nat Ctx} {o : Engine → Option Nat} (hb : d.bank? e = some b)
    (hf : ∀ g : Engine, d.engine e = some g → f ⟨g.fetched (cyc b), b, d.regions e b.slot⟩ =
      .ok ⟨{ g.fetched (cyc b) with cacheOwner := o g }, b', d.regions e b.slot⟩) (h : d.runs e op pm = true) :
    (d.instr e op pm cyc f).bank? e = some b' ∧
    (∀ g g', d.engine e = some g → (d.instr e op pm cyc f).engine e = some g' → g'.cacheOwner = o g) ∧
    d.engineFrame (d.instr e op pm cyc f) e [] ∧ d.memFrame (d.instr e op pm cyc f) e := by
  obtain ⟨g, hg, hk, -⟩ := runs_parts h hb
  have hrun : d.instr e op pm cyc f = d.updE e (fun _ => g.looped (cyc b) (o g) b') := by
    rw [instr_run cyc f h hg hk, hf g hg]
    exact congrArg (fun n => d.updE e fun _ => { g.fetched (cyc b) with cacheOwner := o g, banks := updAt g.banks n (fun _ => b') })
      (curBank_fetched g (cyc b))
  have he : (d.updE e (fun _ => g.looped (cyc b) (o g) b')).engine e = some (g.looped (cyc b) (o g) b') := by
    rw [engine_updE_same, hg]
    rfl
  rw [hrun]
  refine ⟨?_, fun g0 g1 h0 h1 => ?_, looped_frame hg, fun a => ⟨?_, ?_⟩⟩
  · unfold Dev.bank?
    rw [he]
    show (updAt g.banks g.curBank fun _ => b')[(g.looped (cyc b) (o g) b').curBank]? = some b'
    rw [curBank_looped, updAt_same, hk]
    rfl
  · obtain rfl : g = g0 := Option.some.inj (hg.symm.trans h0)
    obtain rfl := Option.some.inj (he.symm.trans h1)
    rfl
  · rw [wmAt_eq he, wmAt_eq hg]
    rfl
  · rw [emAt_eq he, emAt_eq hg]
    rfl

/-- A loop whose body is cached under the condition `C` takes the cache for its bank under that condition (R170). -/
theorem completes_looped {i : Instr} {cyc : Bank → Nat} {f : Ctx → Except Nat Ctx} (C : Prop) [Decidable C]
    (hi : exec i s = s.run (fun d => d.instr e op pm cyc f)) (hb : s.dev.bank? e = some b)
    (hf : ∀ g : Engine, f ⟨g.fetched (cyc b), b, s.dev.regions e b.slot⟩ = .ok ⟨{ g.fetched (cyc b) with
      cacheOwner := if decide C then some (g.fetched (cyc b)).curBank else g.cacheOwner }, b', s.dev.regions e b.slot⟩)
    (h : s.dev.runs e op pm = true) : Completes i s (fun d => d.bank? e = some b' ∧
      (C → ∀ g g', s.dev.engine e = some g → d.engine e = some g' → g'.cacheOwner = some g.curBank) ∧
      s.dev.engineFrame d e [] ∧ s.dev.memFrame d e) := by
  obtain ⟨hbank, howner, hframe, hmem⟩ := instr_looped (d := s.begun) hb (fun g _ => hf g) h
  refine completes_run hi ⟨hbank, fun hc g g' hg hg' => (howner g g' hg hg').trans ?_, engineFrame_from_out hframe, hmem⟩
  rw [if_pos (decide_eq_true hc), curBank_fetched]

/-- Settles O27: the bank that each instruction leaves, and where its program counter goes. -/
theorem engineControlFlow : Obligations.EngineControlFlow := by
  unfold Obligations.EngineControlFlow
  intro s e n len cc t b hb
  refine ⟨completes_looped (len.toNat ≤ 64) rfl hb fun _ => rfl, fun h => ?_,
    fun h hs => completes_instr rfl hb (fun _ _ => if_neg (Nat.not_le.2 hs)) h,
    fun h r rest hs => completes_instr rfl hb (fun _ _ => ?_) h, completes_leaves rfl hb rfl, jump_pc b t.toNat, fun hl ht => ?_,
    fun hl h1 h2 => ?_, next_passes, next_leaves, next_plain⟩
  · cases cc <;> exact completes_instr rfl hb (fun _ _ => rfl) h
  · dsimp only
    rw [hs]
  · rw [jump_outside hl ht]
    exact ⟨rfl, rfl⟩
  · rw [jump_inside h1 h2]
    exact ⟨hl, rfl⟩

end Sys2Proof.Machine
end

section
/-! PROOFS. Assertions of event sources (R379, R381, R382, R384, R385): the count, the host's entry, and the delivery to a Mason or to
Hod. -/

namespace Sys2Proof.Machine

variable {d d0 : Dev} {s : State} {src det n c : Nat} {P : Part → Prop} {R : Nat → Prop}

/-! ## Fields of the event controller -/

theorem keeps_requests {x : List (Nat × Nat)} (hp : P .evReq) (h : d0.keeps d P R) : d0.keeps { d with evReq := x } P R := by
  refine ⟨fun p n => ?_, h.2⟩
  cases p
  case evReq => exact absurd hp n
  all_goals exact h.1 _ n

theorem EVC_PEND_ok (n : Nat) : (EVC_PEND n).ok := ⟨le_rfl, Nat.mod_lt n (by decide)⟩
theorem EVC_ACT_ok (n : Nat) : (EVC_ACT n).ok := ⟨le_rfl, Nat.mod_lt n (by decide)⟩

/-! ## The count and the host's entry -/

/-- The entries that an assertion makes for the host: to the event ring with HVEN, to the log alone with LOG (R382, R384). -/
def Dev.hostEntries (d : Dev) (src det : Nat) : List EvEntry :=
  if src = 224 ∨ d.is (EVC_HVEN src) = true ∨ d.is (EVC_LOG src) = true then
    [⟨d.now, src, if src = 224 then 0 else if d.is (EVC_HVEN src) then d.get (EVC_HVEC src) else 0xFF, 1, det,
      d.get HTL_BEAT + 2 ^ 32 * d.planSeq, d.host.evSeq, 0⟩]
  else []

/-- The host's queue of entries with some more, each taking a number. -/
def HostSt.logged (h : HostSt) (es : List EvEntry) : HostSt :=
  { h with evOut := h.evOut ++ es, evSeq := if es = [] then h.evSeq else (h.evSeq + 1) % 2 ^ 32 }

theorem hostEntry_eq (d : Dev) (src det : Nat) : d.hostEntry src det = { d with host := d.host.logged (d.hostEntries src det) } := by
  unfold Dev.hostEntry Dev.hostEntries
  by_cases h1 : src = 224
  · simp [h1, HostSt.logged]
  · by_cases h2 : d.is (EVC_HVEN src) = true <;> by_cases h3 : d.is (EVC_LOG src) = true <;> simp [h1, h2, h3, HostSt.logged]

/-- An assertion is counted and logged for the host. -/
def Dev.tallied (d : Dev) (src det : Nat) : Dev := (d.bump (0xC800 + 4 * src)).hostEntry src det

theorem tallied_eq (hs : src < 256) (det : Nat) : d.tallied src det =
    { d.bump (0xC800 + 4 * src) with host := d.host.logged (d.hostEntries src det) } := by
  have hget : ∀ f : Fld, f.off ≠ 0xC800 + 4 * src → (d.bump (0xC800 + 4 * src)).get f = d.get f := fun f hf =>
    keeps_get (keeps_bump (R := (· = 0xC800 + 4 * src)) rfl (keeps_refl d (fun _ => False) _)) hf
  have hentries : (d.bump (0xC800 + 4 * src)).hostEntries src det = d.hostEntries src det := by
    unfold Dev.hostEntries Dev.is
    rw [hget (EVC_HVEN src) (by show 0xC400 + 4 * src ≠ _; omega), hget (EVC_LOG src) (by show 0xC400 + 4 * src ≠ _; omega),
      hget (EVC_HVEC src) (by show 0xC400 + 4 * src ≠ _; omega), hget HTL_BEAT (by show 0x4010 ≠ _; omega)]
    rfl
  unfold Dev.tallied
  rw [hostEntry_eq, hentries]
  rfl

theorem tallied_keeps (hs : src < 256) (det : Nat) (hp : P .host) (hr : R (0xC800 + 4 * src)) (h : d0.keeps d P R) :
    d0.keeps (d.tallied src det) P R := by
  rw [tallied_eq hs]
  exact keeps_host hp (keeps_bump hr h)

theorem tallied_get (hs : src < 256) (det : Nat) {f : Fld} (hf : f.off ≠ 0xC800 + 4 * src) : (d.tallied src det).get f = d.get f :=
  keeps_get (tallied_keeps (P := (· = .host)) (R := (· = 0xC800 + 4 * src)) hs det rfl rfl (keeps_refl d _ _)) hf

/-! ## Delivery -/

theorem assertion_none (hs : src < 256) (hk : src = 224 ∨ d.get (EVC_KIND src) = 0) : d.assertion src det = d.tallied src det := by
  have hkind : (if src = 224 then 0 else (d.tallied src det).get (EVC_KIND src)) = 0 := by
    rw [tallied_get hs det (by show 0xC400 + 4 * src ≠ _; omega)]
    rcases hk with hk | hk
    · exact if_pos hk
    · rw [hk, ite_self]
  unfold Dev.assertion
  dsimp only
  rw [show (d.bump (0xC800 + 4 * src)).hostEntry src det = d.tallied src det from rfl, hkind]
  rfl

theorem assertion_mason (hs : src < 256) (hn : src ≠ 224) (hk : d.get (EVC_KIND src) = 1) :
    d.assertion src det = (d.tallied src det).toMason src (d.get (EVC_TIDX src) % 8) := by
  unfold Dev.assertion
  dsimp only
  rw [show (d.bump (0xC800 + 4 * src)).hostEntry src det = d.tallied src det from rfl, if_neg hn,
    tallied_get hs det (by show 0xC400 + 4 * src ≠ _; omega), tallied_get hs det (by show 0xC400 + 4 * src ≠ _; omega), hk]
  rfl

theorem assertion_hod (hs : src < 256) (hn : src ≠ 224) (hk : d.get (EVC_KIND src) = 2) :
    d.assertion src det = (d.tallied src det).post src := by
  unfold Dev.assertion
  dsimp only
  rw [show (d.bump (0xC800 + 4 * src)).hostEntry src det = d.tallied src det from rfl, if_neg hn,
    tallied_get hs det (by show 0xC400 + 4 * src ≠ _; omega), hk]
  rfl

/-- A Mason that runs gets the source PENDING, or merged where it is already. -/
theorem toMason_running (hc : (d.mason c).code ∉ [0, 4]) :
    d.toMason src c = if d.is (EVC_PEND src) then d.bump 0xCC00 else d.putB (EVC_PEND src) true := by
  have hrun : ¬ ((d.mason c).code = 0 ∨ (d.mason c).code = 4) := by simpa using hc
  unfold Dev.toMason
  cases d.is (EVC_PEND src) <;> exact if_neg hrun

theorem toMason_effect (hs : src < 256) (hc : (d.mason c).code ∉ [0, 4]) :
    (d.toMason src c).is (EVC_PEND src) = true ∧
    (d.toMason src c).reg 0xCC00 = (if d.is (EVC_PEND src) then bumpWord (d.reg 0xCC00) else d.reg 0xCC00) ∧
    (d.toMason src c).evReq = d.evReq ∧ (d.toMason src c).host = d.host ∧
    (∀ d0 P R, R (EVC_PEND src).off → R 0xCC00 → Dev.keeps d0 d P R → d0.keeps (d.toMason src c) P R) := by
  have hoff : (EVC_PEND src).off ≠ 0xCC00 := by
    show 0xC100 + 4 * (src / 32) ≠ 0xCC00
    omega
  rw [toMason_running hc]
  cases hp : d.is (EVC_PEND src) <;> simp only [Bool.false_eq_true, if_false, if_true]
  · refine ⟨is_putB_same d _ true (EVC_PEND_ok src), ?_, rfl, rfl, fun _ _ _ hr _ h => keeps_putB hr h⟩
    exact reg_put_ne d _ _ _ hoff.symm
  · refine ⟨?_, reg_bump_same d 0xCC00, rfl, rfl, fun _ _ _ _ hr h => keeps_bump hr h⟩
    exact (keeps_is (keeps_bump (P := fun _ => False) (R := (· = 0xCC00)) rfl (keeps_refl d _ _)) hoff).trans hp

theorem post_unawaited (h : d.waiters (.source src) = []) :
    d.post src = { d with hod := { d.hod with posts := d.hod.posts.filter (· != src) ++ [src] } } := by
  unfold Dev.post
  rw [h]

/-! ## SOURCE_ASSERTION -/

/-- The device that a source's request has left. -/
def State.requestTaken (s : State) (rest : List (Nat × Nat)) : Dev := { s.begun with evReq := rest }

/-- The source whose target cannot be changed (R384), by its number. -/
theorem toNat_eq_224 {k : BitVec 8} : k.toNat = 224 ↔ k = 224 := BitVec.toNat_inj (y := 224#8)

/-- A requested source takes its request and is asserted. -/
theorem completes_assertion {k : BitVec 8} {rest : List (Nat × Nat)} {post : Dev → Prop} (hu : s.dev.up = true)
    (hq : takeReq k.toNat s.dev.evReq = some (det, rest)) (h : post ((s.requestTaken rest).assertion k.toNat det)) :
    Completes (.sourceAssertion k) s post := by
  refine completes_unless rfl (congrArg not hu) ?_
  show post (match takeReq k.toNat s.dev.evReq with | none => _ | some (det, rest) => _)
  rw [hq]
  exact h

theorem requestTaken_tallied_keeps {rest : List (Nat × Nat)} (hs : src < 256) (det : Nat) (hq : P .evReq) (hh : P .host)
    (hr : R (0xC800 + 4 * src)) : s.dev.keeps ((s.requestTaken rest).tallied src det) P R :=
  tallied_keeps hs det hh hr (keeps_requests hq (begun_keeps s P R))

/-- What an assertion does before it is delivered: its request is taken, it is counted and logged for the host. -/
theorem requestTaken_tallied (s : State) (rest : List (Nat × Nat)) (hs : src < 256) (det : Nat) :
    ((s.requestTaken rest).tallied src det).evReq = rest ∧
    ((s.requestTaken rest).tallied src det).host = s.dev.host.logged (s.dev.hostEntries src det) ∧
    ((s.requestTaken rest).tallied src det).reg (0xC800 + 4 * src) = bumpWord (s.dev.reg (0xC800 + 4 * src)) := by
  rw [tallied_eq hs]
  exact ⟨rfl, rfl, reg_bump_same _ _⟩

/-- With target none the assertion is counted and logged for the host alone. -/
theorem sourceAssertion_none (hu : s.dev.up = true) {k : BitVec 8} {rest : List (Nat × Nat)}
    (hq : takeReq k.toNat s.dev.evReq = some (det, rest)) (hk : k = 224 ∨ s.dev.get (EVC_KIND k.toNat) = 0) :
    Completes (.sourceAssertion k) s (fun d =>
      d.evReq = rest ∧ d.host = s.dev.host.logged (s.dev.hostEntries k.toNat det) ∧
      d.reg (0xC800 + 4 * k.toNat) = bumpWord (s.dev.reg (0xC800 + 4 * k.toNat)) ∧
      s.dev.only d [.evReq, .host] [0xC800 + 4 * k.toNat]) := by
  obtain ⟨hreq, hhost, hcount⟩ := requestTaken_tallied s rest k.isLt det
  refine completes_assertion hu hq ?_
  rw [assertion_none (d := s.requestTaken rest) k.isLt (hk.imp_left toNat_eq_224.mpr)]
  exact ⟨hreq, hhost, hcount, keeps_only (requestTaken_tallied_keeps k.isLt det (by simp) (by simp) (by simp))⟩

/-- A Mason that runs gets the source. -/
theorem sourceAssertion_mason (hu : s.dev.up = true) {k : BitVec 8} {rest : List (Nat × Nat)}
    (hq : takeReq k.toNat s.dev.evReq = some (det, rest)) (hn : k ≠ 224) (hk : s.dev.get (EVC_KIND k.toNat) = 1)
    (hc : (s.dev.mason (s.dev.get (EVC_TIDX k.toNat) % 8)).code ∉ [0, 4]) :
    Completes (.sourceAssertion k) s (fun d =>
      d.evReq = rest ∧ d.host = s.dev.host.logged (s.dev.hostEntries k.toNat det) ∧ d.is (EVC_PEND k.toNat) = true ∧
      d.reg 0xCC00 = (if s.dev.is (EVC_PEND k.toNat) then bumpWord (s.dev.reg 0xCC00) else s.dev.reg 0xCC00) ∧
      s.dev.only d [.evReq, .host] [0xC800 + 4 * k.toNat, (EVC_PEND k.toNat).off, 0xCC00]) := by
  have hs : k.toNat < 256 := k.isLt
  obtain ⟨hreq, hhost, -⟩ := requestTaken_tallied s rest hs det
  have hkeep : s.dev.keeps ((s.requestTaken rest).tallied k.toNat det) (· ∈ [.evReq, .host]) (· = 0xC800 + 4 * k.toNat) :=
    requestTaken_tallied_keeps hs det (by simp) (by simp) rfl
  have hpend : ((s.requestTaken rest).tallied k.toNat det).is (EVC_PEND k.toNat) = s.dev.is (EVC_PEND k.toNat) :=
    keeps_is hkeep (by show 0xC100 + 4 * (k.toNat / 32) ≠ _; omega)
  have hmerged : ((s.requestTaken rest).tallied k.toNat det).reg 0xCC00 = s.dev.reg 0xCC00 :=
    hkeep.2 _ (by show 0xCC00 ≠ _; omega)
  obtain ⟨hset, hcount, hreq', hhost', hkeeps⟩ := toMason_effect (d := (s.requestTaken rest).tallied k.toNat det)
    (c := s.dev.get (EVC_TIDX k.toNat) % 8) hs (by rw [tallied_eq hs]; exact hc)
  refine completes_assertion hu hq ?_
  rw [assertion_mason (d := s.requestTaken rest) hs (mt toNat_eq_224.mp hn) hk]
  rw [hpend, hmerged] at hcount
  exact ⟨hreq'.trans hreq, hhost'.trans hhost, hset, hcount,
    keeps_only (hkeeps _ _ _ (by simp) (by simp) (requestTaken_tallied_keeps hs det (by simp) (by simp) (by simp)))⟩

/-- Hod gets a post where no task waits for the source. -/
theorem sourceAssertion_hod (hu : s.dev.up = true) {k : BitVec 8} {rest : List (Nat × Nat)}
    (hq : takeReq k.toNat s.dev.evReq = some (det, rest)) (hn : k ≠ 224) (hk : s.dev.get (EVC_KIND k.toNat) = 2)
    (hw : s.dev.waiters (.source k.toNat) = []) : Completes (.sourceAssertion k) s (fun d =>
      d.evReq = rest ∧ d.host = s.dev.host.logged (s.dev.hostEntries k.toNat det) ∧
      d.hod = { s.dev.hod with posts := s.dev.hod.posts.filter (· != k.toNat) ++ [k.toNat] } ∧
      s.dev.only d [.evReq, .host, .hod] [0xC800 + 4 * k.toNat]) := by
  obtain ⟨hreq, hhost, -⟩ := requestTaken_tallied s rest k.isLt det
  refine completes_assertion hu hq ?_
  rw [assertion_hod (d := s.requestTaken rest) k.isLt (mt toNat_eq_224.mp hn) hk, post_unawaited (by rw [tallied_eq k.isLt]; exact hw)]
  exact ⟨hreq, hhost, by rw [tallied_eq k.isLt]; rfl,
    keeps_only (keeps_hod (by simp) (requestTaken_tallied_keeps k.isLt det (by simp) (by simp) (by simp)))⟩

end Sys2Proof.Machine
end

section
/-! PROOFS. The handlers of a Mason (R386 to R388): the source that it takes next, a handler that starts, and the dispatch of tasks
after a full return, which leaves every Mason's handlers as they were. -/

namespace Sys2Proof.Machine

variable {d d0 : Dev} {s : State} {src c p id : Nat} {m : Mason} {P : Part → Prop} {R : Nat → Prop}

/-! ## The Masons in Hod's state -/

theorem mason_of_getElem? (h : d.hod.masons[c]? = some m) : d.mason c = m := by
  rw [Dev.mason, List.getD_eq_getElem?_getD, h]
  rfl

theorem updMason_masons (d : Dev) (c : Nat) (f : Mason → Mason) :
    (d.updMason c f).hod.masons = updAt d.hod.masons c (fun _ => f ((d.mason c).account d.now)) := rfl

theorem updMason_same (f : Mason → Mason) (h : d.hod.masons[c]? = some m) :
    (d.updMason c f).hod.masons[c]? = some (f (m.account d.now)) := by
  rw [updMason_masons, updAt_same, h, mason_of_getElem? h]
  rfl

theorem keeps_updMason {f : Mason → Mason} (hp : P .hod) (hr : R (0xD010 + 4 * c)) (h : d0.keeps d P R) :
    d0.keeps (d.updMason c f) P R :=
  keeps_put (f := HOD_LVL c) hr (keeps_put (f := HOD_TPRI c) hr (keeps_put (f := HOD_TASK c) hr (keeps_put (f := HOD_STATE c) hr
    (keeps_hod hp h))))

theorem is_updMason (d : Dev) (c : Nat) (f : Mason → Mason) {g : Fld} (hg : g.off < 0xD000) : (d.updMason c f).is g = d.is g :=
  keeps_is (keeps_updMason (P := (· = .hod)) (R := (0xD000 ≤ ·)) rfl (by omega) (keeps_refl d _ _)) (by omega)

/-! ## Dispatch of tasks -/

/-- From `d0` to `d` nothing changes but Hod and its registers, and no Mason's handlers change. -/
def Dev.rescheduled (d0 d : Dev) : Prop :=
  d0.keeps d (· = .hod) (0xD000 ≤ ·) ∧ ∀ k : Nat, (d.hod.masons[k]?).map Mason.handlers = (d0.hod.masons[k]?).map Mason.handlers

theorem rescheduled_refl (d : Dev) : d.rescheduled d := ⟨keeps_refl d _ _, fun _ => rfl⟩

theorem rescheduled_hod {x : HodSt} (hx : x.masons = d.hod.masons) (h : d0.rescheduled d) : d0.rescheduled { d with hod := x } :=
  ⟨keeps_hod rfl h.1, fun k => by rw [← h.2 k]; show (x.masons[k]?).map _ = _; rw [hx]⟩

theorem rescheduled_put {f : Fld} {v : Nat} (hf : 0xD000 ≤ f.off) (h : d0.rescheduled d) : d0.rescheduled (d.put f v) :=
  ⟨keeps_put hf h.1, h.2⟩

theorem rescheduled_bump {o : Nat} (ho : 0xD000 ≤ o) (h : d0.rescheduled d) : d0.rescheduled (d.bump o) := ⟨keeps_bump ho h.1, h.2⟩

theorem rescheduled_updTask {f : Task → Task} (h : d0.rescheduled d) : d0.rescheduled (d.updTask id f) := rescheduled_hod rfl h

theorem rescheduled_setReady {l : List Nat} (h : d0.rescheduled d) : d0.rescheduled (d.setReady p l) :=
  rescheduled_put (Nat.le_add_right_of_le (by decide)) (rescheduled_hod rfl h)

theorem rescheduled_updMason {f : Mason → Mason} (hf : ∀ m, (f m).handlers = m.handlers) (h : d0.rescheduled d) :
    d0.rescheduled (d.updMason c f) := by
  refine ⟨keeps_updMason rfl (by omega) h.1, fun k => ?_⟩
  rw [← h.2 k, updMason_masons]
  by_cases hk : k = c
  · subst hk
    rw [updAt_same]
    cases hm : d.hod.masons[k]? with
    | none => rfl
    | some m => simp [mason_of_getElem? hm, hf, Mason.account]
  · rw [updAt_ne _ _ _ _ hk]

theorem rescheduled_pushReady {b : Bool} (h : d0.rescheduled d) : d0.rescheduled (d.pushReady id b) := by
  unfold Dev.pushReady
  split
  · exact h
  · exact rescheduled_setReady (rescheduled_updTask h)

theorem rescheduled_startTask (h : d0.rescheduled d) : d0.rescheduled (d.startTask c id) := by
  unfold Dev.startTask
  split
  · exact h
  · exact rescheduled_updMason (fun _ => rfl) (rescheduled_bump (by decide)
      (rescheduled_hod rfl (rescheduled_updTask (rescheduled_setReady h))))

theorem rescheduled_vacate (h : d0.rescheduled d) : d0.rescheduled (d.vacate c) := rescheduled_updMason (fun _ => rfl) h

theorem rescheduled_fillMason (h : d0.rescheduled d) : d0.rescheduled (d.fillMason c) := by
  unfold Dev.fillMason
  split
  · split
    · exact rescheduled_startTask h
    · exact h
  · exact h

/-- A Mason's task gives way to another one: counted, and the Mason takes the other. -/
theorem rescheduled_preempted (h : d0.rescheduled d) : d0.rescheduled
    ({ (d.bump 0xD104).vacate c with
       hod := { ((d.bump 0xD104).vacate c).hod with preempts := ((d.bump 0xD104).vacate c).hod.preempts + 1 } }.startTask c id) :=
  rescheduled_startTask (rescheduled_hod rfl (rescheduled_vacate (rescheduled_bump (by decide) h)))

theorem rescheduled_dispatch (n : Nat) {d : Dev} {id : Nat} {b : Bool} (h : d0.rescheduled d) :
    d0.rescheduled (Dev.dispatch n d id b) := by
  induction n generalizing d id b with
  | zero => exact rescheduled_pushReady h
  | succ n ih =>
    have hpush := rescheduled_pushReady (id := id) (b := b) h
    unfold Dev.dispatch
    dsimp only
    split
    · exact hpush
    split
    · exact rescheduled_startTask hpush
    split
    · exact hpush
    split
    · exact hpush
    · exact ih (rescheduled_preempted hpush)

/-- A full return lets the Mason take a task and leaves its handlers alone. -/
theorem rescheduled_resume (h : d0.rescheduled d) : d0.rescheduled (d.resume c) := by
  unfold Dev.resume
  split
  · exact rescheduled_fillMason h
  split
  · exact h
  dsimp only
  split
  · exact rescheduled_dispatch 32 (rescheduled_preempted h)
  · exact h

/-! ## The source taken next -/

theorem leastBy_mem {key : Nat → Nat} {l : List Nat} {x : Nat} (h : leastBy key l = some x) : x ∈ l := by
  induction l generalizing x with
  | nil => exact absurd h (by simp [leastBy])
  | cons y l ih =>
    rw [leastBy] at h
    split at h
    · exact (Option.some.inj h) ▸ List.mem_cons_self
    · next z hz =>
      split at h
      · exact (Option.some.inj h) ▸ List.mem_cons_of_mem _ (ih hz)
      · exact (Option.some.inj h) ▸ List.mem_cons_self

theorem leastBy_congr {key key' : Nat → Nat} {l : List Nat} (h : ∀ x ∈ l, key x = key' x) : leastBy key l = leastBy key' l := by
  induction l with
  | nil => rfl
  | cons y l ih =>
    obtain ⟨hy, hl⟩ := List.forall_mem_cons.mp h
    rw [leastBy, leastBy, ih hl]
    split
    · rfl
    · next z hz => rw [hy, hl z (leastBy_mem hz)]

theorem nextSource_lt {lvl : Int} (h : d.nextSource c lvl = some src) : src < 256 :=
  List.mem_range.mp (List.mem_filter.mp (leastBy_mem h)).1

/-- The source taken next depends on the sources' configurations and on PENDING alone. -/
theorem nextSource_congr {d d' : Dev} {lvl : Int} (h : d.keeps d' P R)
    (hconf : ∀ k < 256, ¬ R (0xC400 + 4 * k)) (hpend : ∀ k < 256, ¬ R (0xC100 + 4 * (k / 32))) :
    d'.nextSource c lvl = d.nextSource c lvl := by
  have hpri : ∀ k < 256, d'.get (EVC_PRI k) = d.get (EVC_PRI k) := fun k hk => keeps_get h (hconf k hk)
  have hkind : ∀ k < 256, d'.get (EVC_KIND k) = d.get (EVC_KIND k) := fun k hk => keeps_get h (hconf k hk)
  have htidx : ∀ k < 256, d'.get (EVC_TIDX k) = d.get (EVC_TIDX k) := fun k hk => keeps_get h (hconf k hk)
  have hp : ∀ k < 256, d'.is (EVC_PEND k) = d.is (EVC_PEND k) := fun k hk => keeps_is h (hpend k hk)
  unfold Dev.nextSource
  rw [List.filter_congr (fun k hk => by
    have hlt := List.mem_range.mp hk
    rw [hp k hlt, hkind k hlt, htidx k hlt, hpri k hlt])]
  exact leastBy_congr (fun k hk => by rw [hpri k (List.mem_range.mp (List.mem_filter.mp hk).1)])

/-! ## A handler starts -/

theorem PEND_apart_PEND {a b : Nat} (hne : a ≠ b) : (EVC_PEND a).apart (EVC_PEND b) := fun he => by
  refine ⟨EVC_PEND_ok a, ?_⟩
  have : 0xC100 + 4 * (a / 32) = 0xC100 + 4 * (b / 32) := he
  show b % 32 < a % 32 ∨ a % 32 < b % 32
  omega

theorem ACT_apart_ACT {a b : Nat} (hne : a ≠ b) : (EVC_ACT a).apart (EVC_ACT b) := fun he => by
  refine ⟨EVC_ACT_ok a, ?_⟩
  have : 0xC120 + 4 * (a / 32) = 0xC120 + 4 * (b / 32) := he
  show b % 32 < a % 32 ∨ a % 32 < b % 32
  omega

theorem PEND_apart_ACT {a b : Nat} (ha : a < 256) : (EVC_PEND a).apart (EVC_ACT b) := apart_of_off (by
  show 0xC100 + 4 * (a / 32) ≠ 0xC120 + 4 * (b / 32)
  omega)

theorem ACT_apart_PEND {a b : Nat} (hb : b < 256) : (EVC_ACT a).apart (EVC_PEND b) := apart_of_off (by
  show 0xC120 + 4 * (a / 32) ≠ 0xC100 + 4 * (b / 32)
  omega)

theorem is_putB_apart {f g : Fld} {b : Bool} (hg : g.ok) (h : f.apart g) : (d.putB f b).is g = d.is g := by
  by_cases he : f.off = g.off
  · exact is_put_apart d f g _ (h he).1 hg (h he).2
  · exact is_put_off d f g _ (Ne.symm he)

theorem activate_mason (src : Nat) (h : d.hod.masons[c]? = some m) : ∃ m', (d.activate c src).hod.masons[c]? = some m' ∧
    m'.handlers = (src, d.get (EVC_PRI src)) :: m.handlers ∧ m'.task = m.task := by
  have hshown : ((d.putB (EVC_PEND src) false).putB (EVC_ACT src) true).hod.masons[c]? = some m := h
  unfold Dev.activate
  exact ⟨_, updMason_same _ hshown, rfl, rfl⟩

/-- The source whose handler starts is active and no longer PENDING. -/
theorem activate_shown (d : Dev) (c : Nat) (hs : src < 256) :
    (d.activate c src).is (EVC_PEND src) = false ∧ (d.activate c src).is (EVC_ACT src) = true := by
  unfold Dev.activate
  constructor
  · rw [is_updMason _ _ _ (by show 0xC100 + 4 * (src / 32) < _; omega), is_putB_apart (EVC_PEND_ok src) (ACT_apart_PEND hs),
      is_putB_same _ _ _ (EVC_PEND_ok src)]
  · rw [is_updMason _ _ _ (by show 0xC120 + 4 * (src / 32) < _; omega), is_putB_same _ _ _ (EVC_ACT_ok src)]

/-- Other sources stay as they were. -/
theorem activate_others (d : Dev) (c : Nat) {k : Nat} (hs : src < 256) (hk : k < 256) (hne : src ≠ k) :
    (d.activate c src).is (EVC_PEND k) = d.is (EVC_PEND k) ∧ (d.activate c src).is (EVC_ACT k) = d.is (EVC_ACT k) := by
  unfold Dev.activate
  constructor
  · rw [is_updMason _ _ _ (by show 0xC100 + 4 * (k / 32) < _; omega), is_putB_apart (EVC_PEND_ok k) (ACT_apart_PEND hk),
      is_putB_apart (EVC_PEND_ok k) (PEND_apart_PEND hne)]
  · rw [is_updMason _ _ _ (by show 0xC120 + 4 * (k / 32) < _; omega), is_putB_apart (EVC_ACT_ok k) (ACT_apart_ACT hne),
      is_putB_apart (EVC_ACT_ok k) (PEND_apart_ACT hs)]

theorem activate_keeps (hp : P .hod) (hr : ∀ o, R o) (h : d0.keeps d P R) : d0.keeps (d.activate c src) P R := by
  unfold Dev.activate
  exact keeps_updMason hp (hr _) (keeps_putB (hr _) (keeps_putB (hr _) h))

/-! ## A handler ends or gives way -/

/-- The innermost handler ends: its source is no longer active. -/
def Dev.handlerEnded (d : Dev) (c : Nat) (h : Nat × Nat) (rest : List (Nat × Nat)) : Dev :=
  (d.putB (EVC_ACT h.1) false).updMason c (fun m => { m with handlers := rest })

/-- The innermost handler, just entered, gives way to a late source: its own goes back to PENDING. -/
def Dev.handlerDisplaced (d : Dev) (c : Nat) (h : Nat × Nat) (rest : List (Nat × Nat)) : Dev :=
  ((d.putB (EVC_ACT h.1) false).putB (EVC_PEND h.1) true).updMason c (fun m => { m with handlers := rest })

section
variable {h : Nat × Nat} {rest : List (Nat × Nat)}

theorem handlerEnded_mason (hm : d.hod.masons[c]? = some m) :
    ∃ m', (d.handlerEnded c h rest).hod.masons[c]? = some m' ∧ m'.handlers = rest ∧ m'.task = m.task := by
  have hshown : (d.putB (EVC_ACT h.1) false).hod.masons[c]? = some m := hm
  unfold Dev.handlerEnded
  exact ⟨_, updMason_same _ hshown, rfl, rfl⟩

theorem handlerEnded_keeps (hp : P .hod) (hr : R (EVC_ACT h.1).off) (hd : R (0xD010 + 4 * c)) (hk : d0.keeps d P R) :
    d0.keeps (d.handlerEnded c h rest) P R := keeps_updMason hp hd (keeps_putB hr hk)

theorem handlerEnded_active (hlt : h.1 < 256) : (d.handlerEnded c h rest).is (EVC_ACT h.1) = false := by
  unfold Dev.handlerEnded
  rw [is_updMason _ _ _ (by show 0xC120 + 4 * (h.1 / 32) < _; omega), is_putB_same _ _ _ (EVC_ACT_ok h.1)]

theorem handlerEnded_priority (hlt : h.1 < 256) (hc : c < 8) (hs : src < 256) :
    (d.handlerEnded c h rest).get (EVC_PRI src) = d.get (EVC_PRI src) :=
  keeps_get (handlerEnded_keeps (P := (· = .hod)) (R := (· ∈ [(EVC_ACT h.1).off, 0xD010 + 4 * c])) rfl (by simp) (by simp)
    (keeps_refl d _ _)) (by
      show ¬ 0xC400 + 4 * src ∈ [0xC120 + 4 * (h.1 / 32), 0xD010 + 4 * c]
      simp only [List.mem_cons, List.not_mem_nil, or_false]
      omega)

/-- The next source after a handler's end is that of the device before it. -/
theorem handlerEnded_nextSource (hlt : h.1 < 256) (hc : c < 8) (lvl : Int) :
    (d.handlerEnded c h rest).nextSource c lvl = d.nextSource c lvl :=
  nextSource_congr (handlerEnded_keeps (P := (· = .hod)) (R := (· ∈ [(EVC_ACT h.1).off, 0xD010 + 4 * c])) rfl (by simp) (by simp)
    (keeps_refl d _ _))
    (fun k hk => by
      show ¬ 0xC400 + 4 * k ∈ [0xC120 + 4 * (h.1 / 32), 0xD010 + 4 * c]
      simp only [List.mem_cons, List.not_mem_nil, or_false]
      omega)
    (fun k hk => by
      show ¬ 0xC100 + 4 * (k / 32) ∈ [0xC120 + 4 * (h.1 / 32), 0xD010 + 4 * c]
      simp only [List.mem_cons, List.not_mem_nil, or_false]
      omega)

theorem handlerDisplaced_mason (hm : d.hod.masons[c]? = some m) :
    ∃ m', (d.handlerDisplaced c h rest).hod.masons[c]? = some m' ∧ m'.handlers = rest ∧ m'.task = m.task := by
  have hshown : ((d.putB (EVC_ACT h.1) false).putB (EVC_PEND h.1) true).hod.masons[c]? = some m := hm
  unfold Dev.handlerDisplaced
  exact ⟨_, updMason_same _ hshown, rfl, rfl⟩

theorem handlerDisplaced_keeps (hp : P .hod) (ha : R (EVC_ACT h.1).off) (hq : R (EVC_PEND h.1).off) (hd : R (0xD010 + 4 * c))
    (hk : d0.keeps d P R) : d0.keeps (d.handlerDisplaced c h rest) P R :=
  keeps_updMason hp hd (keeps_putB hq (keeps_putB ha hk))

theorem handlerDisplaced_shown (hlt : h.1 < 256) :
    (d.handlerDisplaced c h rest).is (EVC_PEND h.1) = true ∧ (d.handlerDisplaced c h rest).is (EVC_ACT h.1) = false := by
  unfold Dev.handlerDisplaced
  constructor
  · rw [is_updMason _ _ _ (by show 0xC100 + 4 * (h.1 / 32) < _; omega), is_putB_same _ _ _ (EVC_PEND_ok h.1)]
  · rw [is_updMason _ _ _ (by show 0xC120 + 4 * (h.1 / 32) < _; omega), is_putB_apart (EVC_ACT_ok h.1) (PEND_apart_ACT hlt),
      is_putB_same _ _ _ (EVC_ACT_ok h.1)]

theorem handlerDisplaced_priority (hlt : h.1 < 256) (hc : c < 8) (hs : src < 256) :
    (d.handlerDisplaced c h rest).get (EVC_PRI src) = d.get (EVC_PRI src) :=
  keeps_get (handlerDisplaced_keeps (P := (· = .hod)) (R := (· ∈ [(EVC_ACT h.1).off, (EVC_PEND h.1).off, 0xD010 + 4 * c])) rfl
    (by simp) (by simp) (by simp) (keeps_refl d _ _)) (by
      show ¬ 0xC400 + 4 * src ∈ [0xC120 + 4 * (h.1 / 32), 0xC100 + 4 * (h.1 / 32), 0xD010 + 4 * c]
      simp only [List.mem_cons, List.not_mem_nil, or_false]
      omega)

end

/-! ## MASON_INTERRUPT_ENTRY and MASON_HANDLER_RETURN -/

/-- A Mason whose innermost handler stays takes its next source. -/
theorem completes_interrupt {k : Fin 8} {late : Bool} {post : Dev → Prop} (hu : s.dev.up = true)
    (hm : s.dev.hod.masons[k.val]? = some m) (hf : m.failed = false) (hr : m.running = true)
    (hn : s.dev.nextSource k m.level = some src) (hl : late = false ∨ m.handlers = []) (h : post (s.begun.activate k src)) :
    Completes (.masonInterruptEntry k late) s post := by
  have hmason : s.begun.mason k = m := mason_of_getElem? hm
  have hnext : s.begun.nextSource k m.level = some src := hn
  refine completes_unless (c := !s.begun.up || (s.begun.mason k).failed || !(s.begun.mason k).running) rfl ?_ ?_
  · rw [hmason, hf, hr, show s.begun.up = true from hu]
    rfl
  · change post (match s.begun.nextSource k (s.begun.mason k).level with
      | none => _
      | some src => (match (generalizing := false) late, (s.begun.mason k).handlers with | true, h :: rest => _ | _, _ => _))
    rw [hmason, hnext]
    rcases hl with rfl | hl
    · exact h
    · rw [hl]
      cases late <;> exact h

/-- A late source displaces the handler just entered. -/
theorem completes_lateInterrupt {k : Fin 8} {post : Dev → Prop} {h : Nat × Nat} {rest : List (Nat × Nat)} (hu : s.dev.up = true)
    (hm : s.dev.hod.masons[k.val]? = some m) (hf : m.failed = false) (hr : m.running = true)
    (hn : s.dev.nextSource k m.level = some src) (hh : m.handlers = h :: rest)
    (hpost : post ((s.begun.handlerDisplaced k h rest).activate k src)) : Completes (.masonInterruptEntry k true) s post := by
  have hmason : s.begun.mason k = m := mason_of_getElem? hm
  have hnext : s.begun.nextSource k m.level = some src := hn
  refine completes_unless (c := !s.begun.up || (s.begun.mason k).failed || !(s.begun.mason k).running) rfl ?_ ?_
  · rw [hmason, hf, hr, show s.begun.up = true from hu]
    rfl
  · change post (match s.begun.nextSource k (s.begun.mason k).level with
      | none => _
      | some src => (match true, (s.begun.mason k).handlers with | true, h :: rest => _ | _, _ => _))
    rw [hmason, hnext, hh]
    exact hpost

/-- What a Mason does when the innermost handler has ended: the next source's handler, or the task it held or a higher one. -/
def Dev.afterHandler (d : Dev) (c : Nat) (rest : List (Nat × Nat)) (next : Option Nat) : Dev :=
  match next with
  | some src => d.activate c src
  | none => if rest.isEmpty then d.resume c else d

/-- A command that works on the innermost of some handlers. -/
theorem completes_innermost {i : Instr} {l rest : List (Nat × Nat)} {h : Nat × Nat} {a : Dev} {b : Nat × Nat → List (Nat × Nat) → Dev}
    {post : Dev → Prop} (hi : exec i s = .next ⟨s.pending, match l with | [] => a | h :: rest => b h rest⟩) (hl : l = h :: rest)
    (hp : post (b h rest)) : Completes i s post := ⟨_, hi, rfl, by subst hl; exact hp⟩

theorem completes_handlerReturn {k : Fin 8} {post : Dev → Prop} {h : Nat × Nat} {rest : List (Nat × Nat)} {lvl : Int}
    (hu : s.dev.up = true) (hm : s.dev.hod.masons[k.val]? = some m) (hf : m.failed = false) (hlt : h.1 < 256)
    (hlvl : lvl = match rest with | x :: _ => (x.2 : Int) | [] => -1) (hh : m.handlers = h :: rest)
    (hpost : post ((s.begun.handlerEnded k h rest).afterHandler k rest (s.dev.nextSource k lvl))) :
    Completes (.masonHandlerReturn k) s post := by
  have hmason : s.begun.mason k = m := mason_of_getElem? hm
  have hlevel : ((s.begun.handlerEnded k h rest).mason k).level = lvl := by
    obtain ⟨m', hm', hrest, -⟩ := handlerEnded_mason (d := s.begun) (h := h) (rest := rest) hm
    refine (congrArg Mason.level (mason_of_getElem? hm')).trans ?_
    subst hlvl hrest
    unfold Mason.level
    cases m'.handlers <;> rfl
  have hnext : (s.begun.handlerEnded k h rest).nextSource k lvl = s.dev.nextSource k lvl := handlerEnded_nextSource hlt k.isLt lvl
  rw [← hnext, ← hlevel] at hpost
  refine completes_innermost rfl ((congrArg Mason.handlers hmason).trans hh) ?_
  have hruns : ¬ ((!s.begun.up || (s.begun.mason k).failed) = true) := by
    rw [hmason, hf, show s.begun.up = true from hu]
    decide
  refine Eq.mpr (congrArg post (if_neg hruns)) ?_
  have hthen : ∀ o, (s.begun.handlerEnded k h rest).nextSource k ((s.begun.handlerEnded k h rest).mason k).level = o →
      post ((s.begun.handlerEnded k h rest).afterHandler k rest o) := fun o ho => ho ▸ hpost
  dsimp only
  split
  next src hsrc => exact hthen (some src) hsrc
  next hsrc => exact hthen none hsrc

/-- A Mason takes its highest pending source above its level. -/
theorem masonInterruptEntry_takes {k : Fin 8} {late : Bool} (hu : s.dev.up = true) (hm : s.dev.hod.masons[k.val]? = some m)
    (hf : m.failed = false) (hr : m.running = true) (hn : s.dev.nextSource k m.level = some src)
    (hl : late = false ∨ m.handlers = []) : Completes (.masonInterruptEntry k late) s (fun d =>
      d.is (EVC_PEND src) = false ∧ d.is (EVC_ACT src) = true ∧
      (∃ m', d.hod.masons[k.val]? = some m' ∧ m'.handlers = (src, s.dev.get (EVC_PRI src)) :: m.handlers ∧ m'.task = m.task) ∧
      s.dev.onlyParts d [.hod]) := by
  obtain ⟨hpend, hact⟩ := activate_shown s.begun k (nextSource_lt hn)
  exact completes_interrupt hu hm hf hr hn hl ⟨hpend, hact, activate_mason src hm,
    keeps_parts (activate_keeps (R := fun _ => True) (by simp) (fun _ => trivial) (begun_keeps s _ _))⟩

/-- A late source takes the vector of the handler just entered, whose source goes back to PENDING. -/
theorem masonInterruptEntry_late {k : Fin 8} {h : Nat × Nat} {rest : List (Nat × Nat)} (hu : s.dev.up = true)
    (hm : s.dev.hod.masons[k.val]? = some m) (hf : m.failed = false) (hr : m.running = true)
    (hn : s.dev.nextSource k m.level = some src) (hh : m.handlers = h :: rest) (hlt : h.1 < 256) (hne : h.1 ≠ src) :
    Completes (.masonInterruptEntry k true) s (fun d =>
      d.is (EVC_PEND src) = false ∧ d.is (EVC_ACT src) = true ∧ d.is (EVC_PEND h.1) = true ∧ d.is (EVC_ACT h.1) = false ∧
      (∃ m', d.hod.masons[k.val]? = some m' ∧ m'.handlers = (src, s.dev.get (EVC_PRI src)) :: rest ∧ m'.task = m.task) ∧
      s.dev.onlyParts d [.hod]) := by
  have hs := nextSource_lt hn
  obtain ⟨hpend, hact⟩ := activate_shown (s.begun.handlerDisplaced k h rest) k hs
  obtain ⟨hpend', hact'⟩ := activate_others (s.begun.handlerDisplaced k h rest) k hs hlt hne.symm
  obtain ⟨hback, hended⟩ := handlerDisplaced_shown (d := s.begun) (c := k) (rest := rest) hlt
  obtain ⟨m1, hm1, hrest, htask⟩ := handlerDisplaced_mason (d := s.begun) (h := h) (rest := rest) hm
  obtain ⟨m2, hm2, hhandlers, htask2⟩ := activate_mason src hm1
  refine completes_lateInterrupt hu hm hf hr hn hh ⟨hpend, hact, hpend'.trans hback, hact'.trans hended,
    ⟨m2, hm2, ?_, htask2.trans htask⟩, keeps_parts (activate_keeps (R := fun _ => True) (by simp) (fun _ => trivial)
      (handlerDisplaced_keeps (by simp) trivial trivial trivial (begun_keeps s _ _)))⟩
  rw [hhandlers, hrest, handlerDisplaced_priority hlt k.isLt hs]
  rfl

/-- A handler that returns tail-chains to a source above the level returned to. -/
theorem masonHandlerReturn_tailChains {k : Fin 8} {h : Nat × Nat} {rest : List (Nat × Nat)} {lvl : Int} (hu : s.dev.up = true)
    (hm : s.dev.hod.masons[k.val]? = some m) (hf : m.failed = false) (hlt : h.1 < 256)
    (hlvl : lvl = match rest with | x :: _ => (x.2 : Int) | [] => -1) (hh : m.handlers = h :: rest)
    (hn : s.dev.nextSource k lvl = some src) : Completes (.masonHandlerReturn k) s (fun d =>
      d.is (EVC_PEND src) = false ∧ d.is (EVC_ACT src) = true ∧
      (∃ m', d.hod.masons[k.val]? = some m' ∧ m'.handlers = (src, s.dev.get (EVC_PRI src)) :: rest) ∧ s.dev.onlyParts d [.hod]) := by
  have hs := nextSource_lt hn
  obtain ⟨hpend, hact⟩ := activate_shown (s.begun.handlerEnded k h rest) k hs
  obtain ⟨m1, hm1, hrest, -⟩ := handlerEnded_mason (d := s.begun) (h := h) (rest := rest) hm
  obtain ⟨m2, hm2, hhandlers, -⟩ := activate_mason src hm1
  refine completes_handlerReturn hu hm hf hlt hlvl hh ?_
  rw [hn]
  refine ⟨hpend, hact, ⟨m2, hm2, ?_⟩, keeps_parts (activate_keeps (R := fun _ => True) (by simp) (fun _ => trivial)
    (handlerEnded_keeps (by simp) trivial trivial (begun_keeps s _ _)))⟩
  rw [hhandlers, hrest, handlerEnded_priority hlt k.isLt hs]
  rfl

/-- A handler that returns where no source lies above the level returned to leaves the handlers around it. -/
theorem masonHandlerReturn_ends {k : Fin 8} {h : Nat × Nat} {rest : List (Nat × Nat)} {lvl : Int} (hu : s.dev.up = true)
    (hm : s.dev.hod.masons[k.val]? = some m) (hf : m.failed = false) (hlt : h.1 < 256)
    (hlvl : lvl = match rest with | x :: _ => (x.2 : Int) | [] => -1) (hh : m.handlers = h :: rest)
    (hn : s.dev.nextSource k lvl = none) : Completes (.masonHandlerReturn k) s (fun d =>
      d.is (EVC_ACT h.1) = false ∧ (∃ m', d.hod.masons[k.val]? = some m' ∧ m'.handlers = rest) ∧ s.dev.onlyParts d [.hod]) := by
  obtain ⟨m1, hm1, hrest, -⟩ := handlerEnded_mason (d := s.begun) (h := h) (rest := rest) hm
  have hafter : (s.begun.handlerEnded k h rest).rescheduled ((s.begun.handlerEnded k h rest).afterHandler k rest none) := by
    unfold Dev.afterHandler
    dsimp only
    split
    · exact rescheduled_resume (rescheduled_refl _)
    · exact rescheduled_refl _
  obtain ⟨hkept, hhandlers⟩ := hafter
  refine completes_handlerReturn hu hm hf hlt hlvl hh ?_
  rw [hn]
  refine ⟨(keeps_is hkept (by show ¬ 0xD000 ≤ 0xC120 + 4 * (h.1 / 32); omega)).trans (handlerEnded_active hlt), ?_, fun p hp => ?_⟩
  · have hk := hhandlers k
    rw [hm1] at hk
    obtain ⟨m2, hm2, he⟩ := Option.map_eq_some_iff.mp hk
    exact ⟨m2, hm2, he.trans hrest⟩
  · have hended := handlerEnded_keeps (h := h) (rest := rest) (P := (· = .hod)) (R := fun _ => True) (c := k.val) rfl trivial trivial
      (begun_keeps s _ _)
    exact same_trans (hended.1 p (by simpa using hp)) (hkept.1 p (by simpa using hp))

end Sys2Proof.Machine
end

section
/-! PROOFS. The vectors of the servo engines (R146, R177): a handler that is entered, a default-chain slot computed at once, and the
vectors held with both handler banks in use. -/

namespace Sys2Proof.Machine

variable {d d0 : Dev} {s : State} {e v gj : Nat} {g : Engine} {P : Part → Prop} {R : Nat → Prop}

/-! ## Masks -/

theorem bitOf_setBit_same (x n : Nat) (b : Bool) : bitOf (setBit x n b) n = b := by
  unfold setBit
  split
  next h => exact beq_iff_eq.mp h
  next h =>
    have hpos : 0 < 2 ^ n := Nat.two_pow_pos n
    have hbit : bitOf x n = !b := by cases hx : bitOf x n <;> cases b <;> simp_all
    cases b with
    | true =>
      rw [if_pos rfl, Nat.add_comm, bitOf_eq_testBit, Nat.testBit_two_pow_add_eq, ← bitOf_eq_testBit, hbit]
      rfl
    | false =>
      have hle : 2 ^ n ≤ x := Nat.ge_two_pow_of_testBit ((bitOf_eq_testBit x n).symm.trans hbit)
      have hsum := Nat.testBit_two_pow_add_eq (x - 2 ^ n) n
      rw [Nat.add_sub_of_le hle, ← bitOf_eq_testBit, hbit] at hsum
      rw [if_neg (by decide), bitOf_eq_testBit]
      simpa using hsum.symm

/-- Setting a bit leaves every other one. -/
theorem bitOf_setBit_ne (x : Nat) {n k : Nat} (hne : k ≠ n) : bitOf (setBit x n true) k = bitOf x k := by
  unfold setBit
  split
  · rfl
  next h =>
    have hclear : x / 2 ^ n % 2 = 0 := by
      have : bitOf x n = false := by simpa using h
      have hbit : ¬ x / 2 ^ n % 2 = 1 := by simpa [bitOf] using this
      omega
    rw [if_pos rfl, bitOf_eq_testBit, bitOf_eq_testBit]
    rcases Nat.lt_or_gt_of_ne hne with hlt | hgt
    · rw [Nat.add_comm, Nat.testBit_two_pow_add_gt hlt]
    · have hhigh : (x + 2 ^ n) / 2 ^ (n + 1) = x / 2 ^ (n + 1) := by
        rw [pow_succ, ← Nat.div_div_eq_div_mul, ← Nat.div_div_eq_div_mul, Nat.add_div_right _ (Nat.two_pow_pos n)]
        omega
      obtain ⟨j, rfl⟩ := Nat.exists_eq_add_of_le' (Nat.succ_le_of_lt hgt)
      rw [Nat.succ_eq_add_one, ← Nat.testBit_div_two_pow, ← Nat.testBit_div_two_pow, hhigh]

/-- A mask with the bits of a list set too. -/
def withBits (x : Nat) (l : List Nat) : Nat := l.foldl (fun x v => setBit x v true) x

theorem bitOf_withBits (l : List Nat) (x k : Nat) : bitOf (withBits x l) k = (bitOf x k || l.contains k) := by
  induction l generalizing x with
  | nil => simp [withBits]
  | cons v l ih =>
    rw [show withBits x (v :: l) = withBits (setBit x v true) l from rfl, ih, List.contains_cons]
    by_cases hk : k = v
    · subst hk
      simp [bitOf_setBit_same]
    · simp [bitOf_setBit_ne x hk, beq_eq_false_iff_ne.mpr hk]

/-! ## ENGINE_VECTOR_ENTRY -/

theorem keeps_engSrcs {x : List EngSrc} (hp : P .engSrcs) (h : d0.keeps d P R) : d0.keeps { d with engSrcs := x } P R := by
  refine ⟨fun p n => ?_, h.2⟩
  cases p
  case engSrcs => exact absurd hp n
  all_goals exact h.1 _ n

/-- The entry of an engine whose checks find nothing. -/
theorem completes_vectorEntry {k : Fin 16} {post : Dev → Prop} (hu : s.dev.up = true) (hf : s.dev.is (SRV_FAILED k) = false)
    (h : post (s.begun.engineVector k)) : Completes (.engineVectorEntry k .none) s post := by
  refine completes_unless (c := !s.begun.up || s.begun.is (SRV_FAILED k)) rfl ?_ ?_
  · rw [show s.begun.is (SRV_FAILED k) = false from hf, show s.begun.up = true from hu]
    rfl
  · exact h

theorem engineVector_base (he : d.engine e = some g) (hn : d.nextVector g g.level = some v) (hh : g.handlers = []) :
    d.engineVector e = d.serveVector e v 1 [] := by
  unfold Dev.engineVector
  rw [he]
  dsimp only
  rw [hn, hh]

theorem engineVector_full {h h' : Handler} {rest : List Handler} (he : d.engine e = some g) (hn : d.nextVector g g.level = some v)
    (hh : g.handlers = h :: h' :: rest) (hin : h.entering = false) : d.engineVector e = d.nestFull e := by
  unfold Dev.engineVector
  rw [he]
  dsimp only
  rw [hn, hh]
  dsimp only
  rw [hin]
  rfl

/-! ## A handler that is entered -/

/-- Vector 6 takes the sources that pend for the engine. -/
def Dev.sourcesTaken (d : Dev) (e v : Nat) : Dev :=
  if v ≠ 6 then d
  else { d with engSrcs := d.engSrcs.map (fun (x : EngSrc) =>
    if x.eng = e ∧ x.pend then { x with pend := false, act := true } else x) }

theorem sourcesTaken_keeps (hp : P .engSrcs) (h : d0.keeps d P R) : d0.keeps (d.sourcesTaken e v) P R := by
  unfold Dev.sourcesTaken
  split
  · exact h
  · exact keeps_engSrcs hp h

theorem sourcesTaken_engine (d : Dev) (e v k : Nat) : (d.sourcesTaken e v).engine k = d.engine k := by
  unfold Dev.sourcesTaken
  split <;> rfl

theorem sourcesTaken_get (d : Dev) (e v : Nat) (f : Fld) : (d.sourcesTaken e v).get f = d.get f := by
  unfold Dev.sourcesTaken
  split <;> rfl

/-- A vector that is taken has its handler innermost, pends no more and wakes the engine. -/
theorem takeVector_eq (d : Dev) (e v bank : Nat) (below : List Handler) :
    ∃ f : Engine → Engine, d.takeVector e v bank below = (d.sourcesTaken e v).updE e f ∧ ∀ g, bitOf (f g).pend v = false ∧
      (f g).asleep = false ∧ ∃ saved, (f g).handlers = ⟨bank, v, d.get (EVC_ENGPRI v), true, 0, saved⟩ :: below :=
  ⟨_, rfl, fun g => ⟨bitOf_setBit_same _ v false, rfl, _, by rw [← sourcesTaken_get d e v]; rfl⟩⟩

theorem engineVectorEntry_enters {k : Fin 16} (hu : s.dev.up = true) (hf : s.dev.is (SRV_FAILED k) = false)
    (he : s.dev.engine k = some g) (hn : s.dev.nextVector g g.level = some v) (hh : g.handlers = []) (hr : s.dev.romSlot k v = false) :
    Completes (.engineVectorEntry k .none) s (fun d =>
      (∃ g' h', d.engine k = some g' ∧ g'.handlers = [h'] ∧ h'.bank = 1 ∧ h'.vec = v ∧ h'.prio = s.dev.get (EVC_ENGPRI v) ∧
        h'.entering = true ∧ h'.cycles = 0 ∧ bitOf g'.pend v = false ∧ g'.asleep = false) ∧
      (∀ j, j ≠ k.val → d.engine j = s.dev.engine j) ∧ s.dev.only d [.servo, .engSrcs] []) := by
  refine completes_vectorEntry hu hf ?_
  obtain ⟨f, htake, hf'⟩ := takeVector_eq s.begun k v 1 []
  obtain ⟨hpend, hawake, saved, hhandlers⟩ := hf' g
  have hrom : s.begun.romSlot k v = false := hr
  rw [engineVector_base (d := s.begun) he hn hh, Dev.serveVector, if_neg (by simp [hrom]), htake]
  refine ⟨⟨f g, _, ?_, hhandlers, rfl, rfl, rfl, rfl, rfl, hpend, hawake⟩, fun j hj => ?_, ?_⟩
  · rw [engine_updE_same, sourcesTaken_engine, show s.begun.engine k = some g from he]
    rfl
  · rw [engine_updE_ne _ _ _ _ hj, sourcesTaken_engine]
    rfl
  · exact keeps_only (keeps_servo (by simp) (sourcesTaken_keeps (by simp) (begun_keeps s _ _)))

/-! ## Vectors held with both handler banks in use -/

/-- Vectors counted once under NEST_FULL. -/
def Dev.nestCounted (d : Dev) (e : Nat) (l : List Nat) : Dev :=
  l.foldl (fun (d : Dev) v =>
    ((d.updE e (fun g => { g with nestSeen := setBit g.nestSeen v true })).bump 0x6068).raise (srcNo 5 14) e) d

theorem nestFull_eq (he : d.engine e = some g) : d.nestFull e = d.nestCounted e
    ((List.range 7).filter (fun v => bitOf g.pend v && decide (g.level < d.get (EVC_ENGPRI v)) && !bitOf g.nestSeen v)) := by
  unfold Dev.nestFull
  rw [he]
  rfl

theorem nestCounted_engine (l : List Nat) (he : d.engine e = some g) :
    (d.nestCounted e l).engine e = some { g with nestSeen := withBits g.nestSeen l } := by
  induction l generalizing d g with
  | nil => exact he
  | cons v l ih =>
    have hstep : (((d.updE e (fun g => { g with nestSeen := setBit g.nestSeen v true })).bump 0x6068).raise (srcNo 5 14) e).engine e
        = some { g with nestSeen := setBit g.nestSeen v true } := (engine_updE_same d e _).trans (by rw [he]; rfl)
    exact ih hstep

theorem nestCounted_reg (l : List Nat) (d : Dev) (e : Nat) :
    (d.nestCounted e l).reg 0x6068 = l.foldl (fun r _ => bumpWord r) (d.reg 0x6068) := by
  induction l generalizing d with
  | nil => rfl
  | cons v l ih => exact (ih _).trans (congrArg (l.foldl fun r _ => bumpWord r) (reg_bump_same _ 0x6068))

theorem nestCounted_evReq (l : List Nat) (d : Dev) (e : Nat) :
    (d.nestCounted e l).evReq = d.evReq ++ l.map (fun _ => (94, e)) := by
  induction l generalizing d with
  | nil => exact (List.append_nil _).symm
  | cons v l ih => exact (ih _).trans (by rw [raise_evReq, List.append_assoc]; rfl)

theorem nestCounted_keeps (l : List Nat) (hs : P .servo) (hv : P .evReq) (hr : R 0x6068) (h : d0.keeps d P R) :
    d0.keeps (d.nestCounted e l) P R :=
  foldl_invariant (K := (d0.keeps · P R)) l (fun _ _ _ k => keeps_raise hv (keeps_bump hr (keeps_servo hs k))) h

theorem engineVectorEntry_nestFull {k : Fin 16} {h h' : Handler} {rest : List Handler} (hu : s.dev.up = true)
    (hf : s.dev.is (SRV_FAILED k) = false) (he : s.dev.engine k = some g) (hn : s.dev.nextVector g g.level = some v)
    (hh : g.handlers = h :: h' :: rest) (hin : h.entering = false) {l : List Nat}
    (hl : l = (List.range 7).filter (fun v => bitOf g.pend v && decide (g.level < s.dev.get (EVC_ENGPRI v)) && !bitOf g.nestSeen v)) :
    Completes (.engineVectorEntry k .none) s (fun d =>
      (∃ g', d.engine k = some g' ∧ g' = { g with nestSeen := g'.nestSeen } ∧
        ∀ j, bitOf g'.nestSeen j = (bitOf g.nestSeen j || l.contains j)) ∧
      d.reg 0x6068 = l.foldl (fun r _ => bumpWord r) (s.dev.reg 0x6068) ∧
      d.evReq = s.dev.evReq ++ l.map (fun _ => (94, k.val)) ∧ s.dev.only d [.servo, .evReq] [0x6068]) := by
  refine completes_vectorEntry hu hf ?_
  rw [engineVector_full (d := s.begun) he hn hh hin, nestFull_eq (d := s.begun) he]
  subst hl
  exact ⟨⟨_, nestCounted_engine _ he, rfl, bitOf_withBits _ _⟩, nestCounted_reg _ _ _, nestCounted_evReq _ _ _,
    keeps_only (nestCounted_keeps _ (by simp) (by simp) (by simp) (begun_keeps s _ _))⟩

/-! ## A default-chain slot computed at once -/

/-- What a slot's computation leaves of the engines: every field but their memories. -/
def Engine.taken (g : Engine) : List Handler × Nat := (g.handlers, g.pend)

/-- From `d0` to `d` the parameters in force, the handlers and pending vectors of the engines and a joint's presence stay. -/
def Dev.computing (d0 d : Dev) (gj : Nat) : Prop :=
  d.servo.params = d0.servo.params ∧ (∀ k, (d.engine k).map Engine.taken = (d0.engine k).map Engine.taken) ∧
  (d.jrt gj).isSome = (d0.jrt gj).isSome

theorem computing_refl (d : Dev) (gj : Nat) : d.computing d gj := ⟨rfl, fun _ => rfl, rfl⟩

theorem computing_of_servo {d' : Dev} (hs : d'.servo = d.servo) (h : d0.computing d gj) : d0.computing d' gj := by
  unfold Dev.computing Dev.engine Dev.jrt at *
  rw [hs]
  exact h

theorem computing_updE {f : Engine → Engine} (hf : ∀ g, (f g).taken = g.taken) (h : d0.computing d gj) :
    d0.computing (d.updE e f) gj := by
  obtain ⟨hparams, hengines, hjoint⟩ := h
  refine ⟨hparams, fun k => ?_, hjoint⟩
  rw [← hengines k]
  by_cases hk : k = e
  · subst hk
    rw [engine_updE_same, Option.map_map]
    exact congrArg (Option.map · (d.engine k)) (funext hf)
  · rw [engine_updE_ne _ _ _ _ hk]

theorem computing_updJ {f : JointRt → JointRt} (hf : ∀ j, (f j).gj = j.gj) (h : d0.computing d gj) :
    d0.computing (d.updJ gj f) gj := by
  obtain ⟨hparams, hengines, hjoint⟩ := h
  exact ⟨hparams, hengines, by rw [jrt_updJ_same d gj f hf, Option.isSome_map]; exact hjoint⟩

theorem computing_ite {c : Prop} [Decidable c] {a b : Dev} (ha : d0.computing a gj) (hb : d0.computing b gj) :
    d0.computing (if c then a else b) gj := by
  split
  · exact ha
  · exact hb

theorem computing_putSlot {ws : List (Nat × Word)} (h : d0.computing d gj) : d0.computing (d.putSlot gj ws) gj := by
  unfold Dev.putSlot
  split
  · exact computing_updE (fun _ => rfl) h
  · exact h

theorem computing_reportSat {b : Bool} (h : d0.computing d gj) : d0.computing (d.reportSat gj b) gj := by
  unfold Dev.reportSat
  split
  · exact computing_of_servo rfl h
  · exact h

theorem stopRequest_servo (d : Dev) : d.stopRequest.servo = d.servo :=
  ((stable_keeps d (· ∈ [.host, .kiln, .planner]) (fun _ => True)).stopRequest (by simp) (by simp) (by simp)
    (keeps_refl d _ _)).1 .servo (by simp)

/-- A following error above its warning limit is shown, counted and raised. -/
theorem computing_warned {c c' : Prop} [Decidable c] [Decidable c'] (h : d0.computing d gj) : d0.computing
    (if c then (let d := (d.putB (SRV_FEWARN gj) true).bump 0x6044; if c' then d else d.raise (srcNo 5 1) gj) else d) gj :=
  computing_ite (computing_ite (computing_of_servo rfl h) (computing_of_servo rfl h)) h

/-- A following error above its fault limit for long enough is shown, counted and raised. -/
theorem computing_faulted (h : d0.computing d gj) :
    d0.computing (((d.putB (SRV_FEFLT gj) true).bump 0x6048).raise (srcNo 5 2) gj) gj := computing_of_servo rfl h

theorem computing_followCheck {fe : Int} {b : Bool} (h : d0.computing d gj) : d0.computing (d.followCheck gj fe b) gj := by
  unfold Dev.followCheck
  split
  · split
    · exact h
    · exact computing_ite (computing_ite (computing_of_servo (stopRequest_servo _)
        (computing_faulted (computing_warned (computing_updJ (fun _ => rfl) h))))
        (computing_faulted (computing_warned (computing_updJ (fun _ => rfl) h)))) (computing_warned (computing_updJ (fun _ => rfl) h))
  · exact h

theorem sample_gj (j : JointRt) (x : ServoEnt) (b : Bool) (t : Nat) : (j.sample x b t).gj = j.gj := by
  unfold JointRt.sample
  split
  · rfl
  · exact (apply_ite JointRt.gj _ _ _).trans (ite_self j.gj)

/-- A joint of the parameter set in force is marked done with its results. -/
theorem jointDone_eq (st : ChainSt) (vcmd tcmd : Int) (ws : List Word) (he : (d.entry gj).isSome = true) :
    ∃ f : JointRt → JointRt, d.jointDone gj st vcmd tcmd ws = d.updJ gj f ∧ ∀ j, (f j).gj = j.gj ∧ (f j).done = true := by
  obtain ⟨x, hx⟩ := Option.isSome_iff_exists.mp he
  unfold Dev.jointDone
  rw [hx]
  exact ⟨_, rfl, fun j => ⟨sample_gj j x j.missing d.time.beatAt, rfl⟩⟩

/-- The computation of a slot ends with its joint done. -/
theorem slotCompute_eq {j : JointRt} (hj : d.jrt gj = some j) (hd : j.delivering = true) (he : (d.entry gj).isSome = true)
    (hv : (d.planVals gj).isSome = true) :
    ∃ d' st vcmd tcmd ws, d.slotCompute gj = d'.jointDone gj st vcmd tcmd ws ∧ d.computing d' gj := by
  obtain ⟨x, hx⟩ := Option.isSome_iff_exists.mp he
  obtain ⟨w, hw⟩ := Option.isSome_iff_exists.mp hv
  unfold Dev.slotCompute
  rw [hx, hj, hw]
  dsimp only
  rw [if_neg (by simp [hd])]
  refine ⟨_, _, _, _, _, rfl, computing_updJ (fun _ => rfl) (computing_followCheck (computing_reportSat ?_))⟩
  split
  · exact computing_updE (fun _ => rfl) (computing_putSlot (computing_refl d gj))
  · exact computing_putSlot (computing_refl d gj)

theorem slotCompute_effect {j : JointRt} (hj : d.jrt gj = some j) (hd : j.delivering = true) (he : (d.entry gj).isSome = true)
    (hv : (d.planVals gj).isSome = true) :
    (∃ j', (d.slotCompute gj).jrt gj = some j' ∧ j'.done = true) ∧ d.computing (d.slotCompute gj) gj := by
  obtain ⟨d', st, vcmd, tcmd, ws, heq, hcomp⟩ := slotCompute_eq hj hd he hv
  have ⟨hparams, _, hjoint⟩ := hcomp
  have hentry : (d'.entry gj).isSome = true := by
    unfold Dev.entry at he ⊢
    rwa [hparams]
  obtain ⟨f, hdone, hf⟩ := jointDone_eq st vcmd tcmd ws hentry
  obtain ⟨j', hj'⟩ := Option.isSome_iff_exists.mp (hjoint.trans (congrArg Option.isSome hj))
  rw [heq, hdone]
  refine ⟨⟨f j', ?_, (hf j').2⟩, computing_updJ (fun j => (hf j).1) hcomp⟩
  rw [jrt_updJ_same d' gj f (fun j => (hf j).1), hj']
  rfl

/-- A vector that is served pends no more. -/
def Dev.vectorServed (d : Dev) (e v : Nat) : Dev :=
  d.updE e (fun g => { g with pend := setBit g.pend v false, nestSeen := setBit g.nestSeen v false })

theorem romVector_eq (hs : d.slotJoint e v = some gj) : d.romVector e v = (d.vectorServed e v).slotCompute gj := by
  have hserved : (d.vectorServed e v).slotJoint e v = some gj := hs
  unfold Dev.romVector
  exact congrArg (fun o => match o with | some gj => (d.vectorServed e v).slotCompute gj | none => d.vectorServed e v) hserved

theorem engineVectorEntry_computes {k : Fin 16} {j : JointRt} (hu : s.dev.up = true) (hf : s.dev.is (SRV_FAILED k) = false)
    (he : s.dev.engine k = some g) (hn : s.dev.nextVector g g.level = some v) (hh : g.handlers = []) (hr : s.dev.romSlot k v = true)
    (hs : s.dev.slotJoint k v = some gj) (hj : s.dev.jrt gj = some j) (hd : j.delivering = true)
    (hentry : (s.dev.entry gj).isSome = true) (hvals : (s.dev.planVals gj).isSome = true) :
    Completes (.engineVectorEntry k .none) s (fun d =>
      (∃ g', d.engine k = some g' ∧ g'.handlers = [] ∧ bitOf g'.pend v = false) ∧ (∃ j', d.jrt gj = some j' ∧ j'.done = true)) := by
  refine completes_vectorEntry hu hf ?_
  have hrom : s.begun.romSlot k v = true := hr
  have hserved : (s.begun.vectorServed k v).engine k =
      some { g with pend := setBit g.pend v false, nestSeen := setBit g.nestSeen v false } :=
    (engine_updE_same _ _ _).trans (congrArg (Option.map _) he)
  have hjoint : (s.begun.vectorServed k v).jrt gj = some j := hj
  have heffect := slotCompute_effect hjoint hd hentry hvals
  obtain ⟨hdone, -, hengines, -⟩ := heffect
  rw [engineVector_base (d := s.begun) he hn hh, Dev.serveVector, if_pos hrom, romVector_eq (d := s.begun) hs]
  refine ⟨?_, hdone⟩
  have hk := hengines k
  rw [hserved] at hk
  obtain ⟨g', hg', htaken⟩ := Option.map_eq_some_iff.mp hk
  obtain ⟨hhandlers, hpend⟩ := Prod.mk.inj htaken
  exact ⟨g', hg', hhandlers.trans hh, by rw [hpend]; exact bitOf_setBit_same _ v false⟩

end Sys2Proof.Machine
end

section
/-! PROOFS. Delivery of assertions and the handlers that take them (O40). -/

namespace Sys2Proof.Machine

theorem hostEntries_source (d : Dev) (k : BitVec 8) (det : Nat) : d.hostEntries k.toNat det =
    if k = 224 ∨ d.is (EVC_HVEN k.toNat) = true ∨ d.is (EVC_LOG k.toNat) = true
    then [⟨d.now, k.toNat, if k = 224 then 0 else if d.is (EVC_HVEN k.toNat) then d.get (EVC_HVEC k.toNat)
      else 0xFF, 1, det, d.get HTL_BEAT + 2 ^ 32 * d.planSeq, d.host.evSeq, 0⟩] else [] := by
  unfold Dev.hostEntries
  simp only [toNat_eq_224]

/-- Settles O40: an assertion is counted, logged and delivered; a Mason's handlers are the sources taken, late or by tail-chaining, and
a task that resumes leaves them; an engine enters the handler of its vector, computes a default-chain slot, or counts what it holds. -/
theorem eventDelivery : Obligations.EventDelivery := by
  unfold Obligations.EventDelivery
  intro s hu
  refine ⟨?_, ?_, ?_, ?_⟩
  · intro k det rest hq hosts hhosts
    rw [← hostEntries_source] at hhosts
    subst hhosts
    refine ⟨fun hk => completes_mono (sourceAssertion_none hu hq hk) ?_,
      fun hn hk hc => completes_mono (sourceAssertion_mason hu hq hn hk hc) ?_,
      fun hn hk hw => completes_mono (sourceAssertion_hod hu hq hn hk hw) ?_⟩
    · rintro d ⟨hreq, hhost, hcount, honly⟩
      exact ⟨hreq, by rw [hhost]; rfl, by rw [hhost]; rfl, hcount, honly⟩
    · rintro d ⟨hreq, hhost, hpend, hmerged, honly⟩
      exact ⟨hreq, by rw [hhost]; rfl, hpend, hmerged, honly⟩
    · rintro d ⟨hreq, hhost, hpost, honly⟩
      exact ⟨hreq, by rw [hhost]; rfl, hpost, honly⟩
  · intro c late m src hm hf hr hn
    refine ⟨masonInterruptEntry_takes hu hm hf hr hn, ?_⟩
    rintro h rest rfl hh hlt hne
    exact masonInterruptEntry_late hu hm hf hr hn hh hlt hne
  · intro c m h rest lvl hm hf hh hlt hlvl
    exact ⟨fun src hn => masonHandlerReturn_tailChains hu hm hf hlt hlvl hh hn,
      fun hn => masonHandlerReturn_ends hu hm hf hlt hlvl hh hn⟩
  · intro e g v hf he hn
    exact ⟨engineVectorEntry_enters hu hf he hn,
      fun gj j hh hr hs hj hd hentry hvals => engineVectorEntry_computes hu hf he hn hh hr hs hj hd hentry hvals,
      fun h h' rest L hh hin hL => engineVectorEntry_nestFull hu hf he hn hh hin hL⟩

end Sys2Proof.Machine
end

section
/-! PROOFS. The commands of commons, of auxiliary axes and of hysteretic loops (R189, R330, R331, R333, R343): what each is checked
for, and what then waits. -/

namespace Sys2Proof.Machine

variable {s : State} {c : Cmd} {d : Dev} {b : List Byte} {f : Fetch} {r : AuxRt} {a op : Nat}

/-! ## COMMONS_REQUEST and COMMONS_RELEASE -/

/-- The active model has the commons that a request names, and the commons admits its arm. -/
def Dev.admits (d : Dev) (c : Cmd) : Bool :=
  (d.kiln.active.bind (fun m => m.commons.find? (fun e => e.cid == c.u 0x19 1))).any (fun e =>
    decide (c.u 0x18 1 < 8) && bitOf e.armmask (c.u 0x18 1))

theorem admits_iff : d.admits c = true ↔ ∃ m e, d.kiln.active = some m ∧
    m.commons.find? (fun e => e.cid == c.u 0x19 1) = some e ∧ c.u 0x18 1 < 8 ∧ bitOf e.armmask (c.u 0x18 1) = true := by
  simp only [Dev.admits, Option.any_eq_true, Option.bind_eq_some_iff, Bool.and_eq_true, decide_eq_true_eq]
  exact ⟨fun ⟨e, ⟨m, hm, he⟩, ha⟩ => ⟨m, e, hm, he, ha⟩, fun ⟨m, e, hm, he, ha⟩ => ⟨e, ⟨m, hm, he⟩, ha⟩⟩

theorem commonsRequest_refused (h : s.starts 0x28 c) (ha : s.dev.admits c = false) :
    EndsOnly .commonsRequest s c .rejectedParam :=
  endsOnly_of h rfl (if_neg (Bool.eq_false_iff.1 ha))

/-- A request or release that starts waits for the latch behind those that wait already (R189). -/
theorem queueCommons_waits (h : s.starts op c) (request : Bool) :
    ((s.started c).queueCommons c request).runsOn c ∧
    ((s.started c).queueCommons c request).commons = { s.dev.commons with queue := s.dev.commons.queue ++
      [⟨s.dev.now, request, c.u 0x18 1, c.u 0x19 1, if request then c.u 0x1C 4 else 0, c.id⟩] } ∧
    s.dev.only ((s.started c).queueCommons c request) [.host, .commons] [] :=
  ⟨started_cmd h, rfl, keeps_only (keeps_commons (by decide) (started_keeps (by decide)))⟩

theorem commonsRequest_waits (h : s.starts 0x28 c) (ha : s.dev.admits c = true) : Completes .commonsRequest s (fun d =>
    d.runsOn c ∧ d.commons = { s.dev.commons with queue := s.dev.commons.queue ++
      [⟨s.dev.now, true, c.u 0x18 1, c.u 0x19 1, c.u 0x1C 4, c.id⟩] } ∧ s.dev.only d [.host, .commons] []) :=
  starts_to h rfl (if_pos ha) (queueCommons_waits h true)

theorem commonsRelease_waits (h : s.starts 0x29 c) : Completes .commonsRelease s (fun d =>
    d.runsOn c ∧ d.commons = { s.dev.commons with queue := s.dev.commons.queue ++
      [⟨s.dev.now, false, c.u 0x18 1, c.u 0x19 1, 0, c.id⟩] } ∧ s.dev.only d [.host, .commons] []) :=
  starts_run h rfl (queueCommons_waits h false)

/-! ## Axes -/

theorem axis_updAx_same (d : Dev) (a : Nat) (g : AuxRt → AuxRt) : (d.updAx a g).axis a = (d.axis a).map g :=
  updAt_same d.field.aux a g

theorem axis_updAx_ne (d : Dev) {a k : Nat} (g : AuxRt → AuxRt) (h : k ≠ a) : (d.updAx a g).axis k = d.axis k :=
  updAt_ne d.field.aux a k g h

/-- An axis takes commands: it is IDLE, or moves in a mode (R331, R333). Which states refuse is the model's choice (log 129). -/
def Dev.axisReady (d : Dev) (a : Nat) : Prop := d.get (AUX_STATE a) ∈ [1, 2, 3]

theorem axisReady_iff : d.axisReady a ↔ d.get (AUX_STATE a) = 1 ∨ d.get (AUX_STATE a) = 2 ∨ d.get (AUX_STATE a) = 3 := by
  simp only [Dev.axisReady, List.mem_cons, List.not_mem_nil, or_false]

/-! ## The end of another command -/

theorem cmd_id {id : Nat} {x : Cmd} (h : d.cmd? id = some x) : x.id = id := by
  simpa using List.find?_some h

/-- The end of a command leaves the others in the journal as they are. -/
theorem cmd_complete_ne {id k : Nat} (st : Status) (p q r0 r1 : Nat) (hk : k ≠ id) :
    (d.complete id st p q r0 r1).cmd? k = d.cmd? k := by
  rcases complete_cmds d id st p q r0 r1 with ⟨e, -⟩ | e
  · exact cmd_of_cmds e k
  · exact (cmd_of_cmds e k).trans (cmd_updCmd_ne d id k (·.ended st p q r0 r1) (fun _ => rfl) hk)

theorem started_cmd_ne {k : Nat} (hk : k ≠ c.id) : (s.started c).cmd? k = s.dev.cmd? k :=
  cmd_updCmd_ne s.begun c.id k (fun c => { c with started := true }) (fun _ => rfl) hk

/-- A command under way that is completed has ended with the status given. -/
theorem complete_status {id : Nat} {x : Cmd} {st : Status} {p q r0 r1 : Nat} (hx : d.cmd? id = some x) (hd : x.done = none) :
    ∃ y, (d.complete id st p q r0 r1).cmd? id = some y ∧ y.done.map Cpl.status = some st := by
  obtain rfl := cmd_id hx
  exact ⟨_, (complete_endsAs hx hd).1, rfl⟩

/-! ## AUX_TARGET -/

theorem auxTarget_outOfRange (h : s.starts 0x31 c) (hx : 16 ≤ c.u 0x18 1 ∨ 5000000 * 256 < c.u 0x28 4 ∨
    (c.u 0x30 4 ≠ 0 ∧ c.u 0x30 4 < s.dev.get (AUX_DSTOP (c.u 0x18 1)))) : EndsOnly .auxTarget s c .rejectedParam :=
  endsOnly_of h rfl (if_pos hx)

/-- The axis, the speed and the deceleration of an AUX_TARGET are in their ranges. -/
def Dev.targetInRange (d : Dev) (c : Cmd) : Prop :=
  c.u 0x18 1 < 16 ∧ c.u 0x28 4 ≤ 5000000 * 256 ∧ (c.u 0x30 4 = 0 ∨ d.get (AUX_DSTOP (c.u 0x18 1)) ≤ c.u 0x30 4)

theorem targetInRange_not (h : d.targetInRange c) : ¬ (16 ≤ c.u 0x18 1 ∨ c.u 0x28 4 > 5000000 * 256 ∨
    (c.u 0x30 4 ≠ 0 ∧ c.u 0x30 4 < d.get (AUX_DSTOP (c.u 0x18 1)))) := by
  obtain ⟨haxis, hspeed, hdec⟩ := h
  omega

theorem auxTarget_notReady (h : s.starts 0x31 c) (hr : s.dev.targetInRange c) (hn : ¬ s.dev.axisReady (c.u 0x18 1)) :
    EndsOnly .auxTarget s c .rejectedState :=
  endsOnly_of h rfl ((if_neg (targetInRange_not hr)).trans (if_neg (mt axisReady_iff.2 hn)))

/-- The target that waits for the tick, if any, is superseded. -/
def Dev.supersedeNext (d : Dev) (a : Nat) : Dev :=
  match (d.axis a).bind (·.next) with | some t => d.finish t.cmd .superseded | none => d

theorem supersedeNext_keeps (d : Dev) (a : Nat) : d.keeps (d.supersedeNext a) (· = .host) (fun _ => False) := by
  unfold Dev.supersedeNext
  split
  · exact keeps_complete rfl (keeps_refl _ _ _)
  · exact keeps_refl _ _ _

theorem supersedeNext_axis (d : Dev) (a k : Nat) : (d.supersedeNext a).axis k = d.axis k := by
  unfold Dev.axis
  rw [(supersedeNext_keeps d a).1 .field (by decide)]

theorem supersedeNext_cmd_ne {k : Nat} (hr : d.axis a = some r) (hk : ∀ t, r.next = some t → t.cmd ≠ k) :
    (d.supersedeNext a).cmd? k = d.cmd? k := by
  unfold Dev.supersedeNext
  rw [hr, Option.bind_some]
  split
  next t ht => exact cmd_complete_ne _ _ _ _ _ (hk t ht).symm
  · rfl

theorem supersedeNext_superseded {t : AuxTgt} {x : Cmd} (hr : d.axis a = some r) (ht : r.next = some t)
    (hx : d.cmd? t.cmd = some x) (hd : x.done = none) :
    ∃ y, (d.supersedeNext a).cmd? t.cmd = some y ∧ y.done.map Cpl.status = some .superseded := by
  unfold Dev.supersedeNext
  rw [hr, Option.bind_some, ht]
  exact complete_status hx hd

/-- The target that an AUX_TARGET asks for. -/
def Cmd.target (c : Cmd) : AuxTgt := ⟨c.i 0x20 8, c.u 0x28 4, c.u 0x2C 4, c.u 0x30 4, c.id⟩

theorem auxTarget_waits (h : s.starts 0x31 c) (hi : s.dev.targetInRange c) (hr : s.dev.axis (c.u 0x18 1) = some r)
    (ha : s.dev.axisReady (c.u 0x18 1)) : Completes .auxTarget s (fun d =>
      ((∀ t, r.next = some t → t.cmd ≠ c.id) → d.runsOn c) ∧
      d.axis (c.u 0x18 1) = some { r with next := some c.target } ∧
      (∀ k, k ≠ c.u 0x18 1 → d.axis k = s.dev.axis k) ∧
      (∀ t x, r.next = some t → t.cmd ≠ c.id → s.dev.cmd? t.cmd = some x → x.done = none →
        ∃ y, d.cmd? t.cmd = some y ∧ y.done.map Cpl.status = some .superseded) ∧ s.dev.only d [.host, .field] []) := by
  have hs : (s.started c).axis (c.u 0x18 1) = some r := hr
  refine starts_to (x := ((s.started c).supersedeNext (c.u 0x18 1)).updAx (c.u 0x18 1) (fun r => { r with next := some c.target }))
    h rfl ((if_neg (targetInRange_not hi)).trans (if_pos (axisReady_iff.1 ha))) ⟨fun hk => ?_, ?_, fun k hk => ?_, ?_, ?_⟩
  · exact (supersedeNext_cmd_ne hs hk).trans (started_cmd h)
  · rw [axis_updAx_same, supersedeNext_axis, hs, Option.map_some]
  · exact (axis_updAx_ne _ _ hk).trans (supersedeNext_axis _ _ k)
  · exact fun t x ht hne hx hd => supersedeNext_superseded hs ht ((started_cmd_ne hne).trans hx) hd
  · have hkeep := supersedeNext_keeps (s.started c) (c.u 0x18 1)
    have hstart : s.dev.keeps (s.started c) (· ∈ [Part.host, .field]) (· ∈ []) := started_keeps (by decide)
    refine keeps_only (keeps_field (by decide) ⟨fun p hp => ?_, fun o ho => ?_⟩)
    · exact same_trans (hstart.1 p hp) (hkeep.1 p (fun e => hp (by rw [e]; decide)))
    · exact (hkeep.2 o not_false).trans (hstart.2 o ho)

/-! ## AUX_PROFILE -/

theorem auxProfile_badShape (h : s.starts 0x30 c)
    (hx : 16 ≤ c.u 0x18 1 ∨ c.u 0x1A 2 = 0 ∨ 1024 < c.u 0x1A 2 ∨ c.len ≠ 16 * c.u 0x1A 2) :
    EndsOnly (.auxProfile f) s c .rejectedParam :=
  endsOnly_of h rfl (if_pos (hx.imp id (.imp id (.imp id .inl))))

/-- The axis and the table of an AUX_PROFILE that starts at the next tick are in their ranges (R333). -/
def Cmd.profileInShape (c : Cmd) : Prop :=
  c.u 0x18 1 < 16 ∧ 1 ≤ c.u 0x1A 2 ∧ c.u 0x1A 2 ≤ 1024 ∧ c.len = 16 * c.u 0x1A 2 ∧ c.u 0x20 8 = 0

theorem profileInShape_not (h : c.profileInShape) (p q : Prop) : ¬ (16 ≤ c.u 0x18 1 ∨ c.u 0x1A 2 = 0 ∨ 1024 < c.u 0x1A 2 ∨
    c.len ≠ 16 * c.u 0x1A 2 ∨ (c.u 0x20 8 ≠ 0 ∧ p ∧ q)) := by
  obtain ⟨haxis, hlo, hhi, hlen, hstart⟩ := h
  rintro (hx | hx | hx | hx | ⟨hx, -⟩) <;> omega

/-- The axis of an AUX_PROFILE takes no table: it is not ready, or both of its tables are in use. -/
def Dev.profileBlocked (d : Dev) (c : Cmd) (r : AuxRt) : Prop :=
  ¬ d.axisReady (c.u 0x18 1) ∨ (r.run.isSome = true ∧ r.wait.isSome = true)

/-- A table fetched is rejected, or waits for its start in place of one that waits already (R333). -/
def Dev.judgeProfile (d : Dev) (c : Cmd) (b : List Byte) : Dev :=
  if b.length ≠ c.len ∨ !auxTableOk (d.get (AUX_VMAX (c.u 0x18 1))) 0 (auxSegs b (c.u 0x1A 2)) then d.finish c.id .rejectedParam
  else
    let d := d.dropWait (c.u 0x18 1) .superseded
    let start := if c.u 0x20 8 = 0 then (d.now / 10000 + 1) * 10000 else (c.u 0x20 8 + 9999) / 10000 * 10000
    d.updAx (c.u 0x18 1) (fun r => { r with
      wait := some ⟨auxSegs b (c.u 0x1A 2), start, c.u 0x20 8 = 0xFFFFFFFFFFFFFFFF, 0, 0, c.id⟩ })

/-- AUX_PROFILE as it starts. -/
def Dev.startProfile (f : Fetch) (d : Dev) (c : Cmd) : Dev :=
  let a := c.u 0x18 1
  let ts := c.u 0x20 8
  if 16 ≤ a ∨ c.u 0x1A 2 = 0 ∨ 1024 < c.u 0x1A 2 ∨ c.len ≠ 16 * c.u 0x1A 2 ∨
      (ts ≠ 0 ∧ !decide (ts = 0xFFFFFFFFFFFFFFFF) ∧ ts < c.accepted + 20000) then d.finish c.id .rejectedParam
  else if !decide (d.get (AUX_STATE a) = 1 ∨ d.get (AUX_STATE a) = 2 ∨ d.get (AUX_STATE a) = 3) ∨
      (((d.axis a).bind (·.run)).isSome ∧ ((d.axis a).bind (·.wait)).isSome) ∨
      (ts = 0xFFFFFFFFFFFFFFFF ∧ !((d.axis a).bind (·.run)).isSome) then d.finish c.id .rejectedState
  else (d.registerCopy c 6 a).fetched c f (fun d b => d.judgeProfile c b)

theorem auxProfile_starts (f : Fetch) (s : State) : exec (.auxProfile f) s = s.run (fun d => d.start 0x30 (Dev.startProfile f)) := rfl

theorem startProfile_blocked (hc : c.profileInShape) (hr : d.axis (c.u 0x18 1) = some r) (hb : d.profileBlocked c r) :
    d.startProfile f c = d.finish c.id .rejectedState := by
  have hblock : (!decide (d.get (AUX_STATE (c.u 0x18 1)) = 1 ∨ d.get (AUX_STATE (c.u 0x18 1)) = 2 ∨
      d.get (AUX_STATE (c.u 0x18 1)) = 3)) = true ∨ (r.run.isSome = true ∧ r.wait.isSome = true) := by
    rw [Bool.not_eq_true', decide_eq_false_iff_not, ← axisReady_iff]
    exact hb
  unfold Dev.startProfile
  dsimp only
  rw [if_neg (profileInShape_not hc _ _), hr, Option.bind_some, Option.bind_some]
  exact if_pos (hblock.imp id Or.inl)

theorem startProfile_fetches (hc : c.profileInShape) (hr : d.axis (c.u 0x18 1) = some r) (ha : d.axisReady (c.u 0x18 1))
    (hw : r.wait = none) : d.startProfile f c = (d.registerCopy c 6 (c.u 0x18 1)).fetched c f (fun d b => d.judgeProfile c b) := by
  obtain ⟨-, -, -, -, hts⟩ := id hc
  unfold Dev.startProfile
  dsimp only
  rw [if_neg (profileInShape_not hc _ _), hr, Option.bind_some, Option.bind_some, hw, hts, decide_eq_true (axisReady_iff.1 ha)]
  exact if_neg (by simp)

theorem auxProfile_blocked (h : s.starts 0x30 c) (hc : c.profileInShape) (hr : s.dev.axis (c.u 0x18 1) = some r)
    (hb : s.dev.profileBlocked c r) : EndsOnly (.auxProfile f) s c .rejectedState :=
  endsOnly_of h (auxProfile_starts f s) (startProfile_blocked (d := s.started c) hc hr hb)

/-- A table that was fetched is judged in the device that has registered its master copy. -/
theorem auxProfile_run {post : Dev → Prop} (h : s.starts 0x30 c) (hc : c.profileInShape)
    (hr : s.dev.axis (c.u 0x18 1) = some r) (ha : s.dev.axisReady (c.u 0x18 1)) (hw : r.wait = none) (h4 : s.dev.session ≠ 4)
    (hp : post (((s.started c).registerCopy c 6 (c.u 0x18 1)).judgeProfile c b)) : Completes (.auxProfile (.bytes b)) s post :=
  starts_to h (auxProfile_starts _ s) ((startProfile_fetches (d := s.started c) hc hr ha hw).trans
    (fetched_bytes (d := (s.started c).registerCopy c 6 (c.u 0x18 1)) h4 c b _)) hp

theorem auxProfile_malformed (h : s.starts 0x30 c) (hc : c.profileInShape) (hr : s.dev.axis (c.u 0x18 1) = some r)
    (ha : s.dev.axisReady (c.u 0x18 1)) (hw : r.wait = none) (h4 : s.dev.session ≠ 4)
    (hb : b.length ≠ c.len ∨ auxTableOk (s.dev.get (AUX_VMAX (c.u 0x18 1))) 0 (auxSegs b (c.u 0x1A 2)) = false) :
    Completes (.auxProfile (.bytes b)) s (fun d => d.endedAs c .rejectedParam 0 0 0 0 ∧ d.axis (c.u 0x18 1) = some r ∧
      s.dev.only d [.host] []) := by
  refine auxProfile_run h hc hr ha hw h4 ?_
  unfold Dev.judgeProfile
  rw [if_pos (hb.imp id (fun hbad => by rw [Bool.not_eq_true']; exact hbad))]
  have hd := (startable_is h.2.2).2.2
  refine ⟨complete_ends (started_cmd h) rfl hd, ?_, keeps_only (keeps_complete (by decide) (keeps_host (by decide)
    (started_keeps (by decide))))⟩
  unfold Dev.axis Dev.finish
  rw [complete_same (x := .field) _ _ _ _ _ _ _ (by decide)]
  exact hr

theorem dropWait_none (hr : d.axis a = some r) (hw : r.wait = none) (st : Status) : d.dropWait a st = d := by
  unfold Dev.dropWait
  rw [hr, Option.bind_some, hw]

/-- The table that an AUX_PROFILE without a start of its own brings starts at the next tick (R333). -/
def Dev.nextTickTable (d : Dev) (c : Cmd) (b : List Byte) : AuxTable :=
  ⟨auxSegs b (c.u 0x1A 2), (d.now / 10000 + 1) * 10000, false, 0, 0, c.id⟩

theorem judgeProfile_waits (hts : c.u 0x20 8 = 0) (hr : d.axis (c.u 0x18 1) = some r) (hw : r.wait = none)
    (hlen : b.length = c.len) (hok : auxTableOk (d.get (AUX_VMAX (c.u 0x18 1))) 0 (auxSegs b (c.u 0x1A 2)) = true) :
    d.judgeProfile c b = d.updAx (c.u 0x18 1) (fun r => { r with wait := some (d.nextTickTable c b) }) := by
  unfold Dev.judgeProfile
  rw [if_neg (by simp [hlen, hok]), dropWait_none hr hw, hts]
  rfl

theorem auxProfile_waits (h : s.starts 0x30 c) (hc : c.profileInShape) (hr : s.dev.axis (c.u 0x18 1) = some r)
    (ha : s.dev.axisReady (c.u 0x18 1)) (hw : r.wait = none) (h4 : s.dev.session ≠ 4) (hlen : b.length = c.len)
    (hok : auxTableOk (s.dev.get (AUX_VMAX (c.u 0x18 1))) 0 (auxSegs b (c.u 0x1A 2)) = true) :
    Completes (.auxProfile (.bytes b)) s (fun d => d.runsOn c ∧
      d.host.copies = s.dev.host.copies ++ [⟨6, c.u 0x18 1, c.addr, c.len, 0, 0, some c.id, false⟩] ∧
      d.axis (c.u 0x18 1) = some { r with wait := some (s.dev.nextTickTable c b) } ∧ s.dev.only d [.host, .field] []) := by
  refine auxProfile_run h hc hr ha hw h4 ?_
  have hr' : ((s.started c).registerCopy c 6 (c.u 0x18 1)).axis (c.u 0x18 1) = some r := hr
  obtain ⟨-, -, -, -, hts⟩ := hc
  rw [judgeProfile_waits hts hr' hw hlen hok]
  refine ⟨started_cmd h, rfl, ?_, keeps_only (keeps_field (by decide) (keeps_host (by decide) (started_keeps (by decide))))⟩
  rw [axis_updAx_same, hr']
  rfl

/-! ## HL_SETPOINT -/

/-- The loops that an HL_SETPOINT names. -/
def Cmd.loops (c : Cmd) : List Nat := bitsOf (c.u 0x18 4) 32

/-- A loop that an HL_SETPOINT names is not enabled or is owned, or setpoints wait already (R343). -/
def Dev.setpointsBlocked (d : Dev) (c : Cmd) : Bool :=
  c.loops.any (fun l => !d.is (HYS_EN l) || d.is (HYS_OWNED l)) || d.field.hl.isSome

theorem setpointsBlocked_iff : d.setpointsBlocked c = true ↔
    (∃ l ∈ c.loops, d.is (HYS_EN l) = false ∨ d.is (HYS_OWNED l) = true) ∨ d.field.hl.isSome = true := by
  simp only [Dev.setpointsBlocked, Bool.or_eq_true, List.any_eq_true, Bool.not_eq_true']

theorem setpointsBlocked_none (hl : ∀ l ∈ c.loops, d.is (HYS_EN l) = true ∧ d.is (HYS_OWNED l) = false)
    (hn : d.field.hl = none) : ¬ d.setpointsBlocked c = true := by
  rw [setpointsBlocked_iff, hn]
  rintro (⟨l, hm, hx⟩ | hx)
  · obtain ⟨hen, hown⟩ := hl l hm
    rw [hen, hown] at hx
    simp at hx
  · cases hx

/-- The setpoints fetched wait for their time; those of no loop are done with (R343). That the latter end OK is the model's
choice. -/
def Dev.takeSetpoints (d : Dev) (c : Cmd) (b : List Byte) : Dev :=
  if c.loops.isEmpty then d.finish c.id .ok
  else { d with field := { d.field with
    hl := some ⟨c.id, c.loops, c.u 0x20 8, c.loops.map (fun l => (l, uAt b (2 * l) 2))⟩ } }

/-- HL_SETPOINT as it starts. -/
def Dev.startSetpoints (f : Fetch) (d : Dev) (c : Cmd) : Dev :=
  if c.len ≠ 64 then d.finish c.id .rejectedParam
  else if d.setpointsBlocked c then d.finish c.id .rejectedState
  else d.fetched c f (fun d b => d.takeSetpoints c b)

theorem hlSetpoint_starts (f : Fetch) (s : State) : exec (.hlSetpoint f) s = s.run (fun d => d.start 0x38 (Dev.startSetpoints f)) :=
  rfl

theorem startSetpoints_takes (hlen : c.len = 64) (hb : ¬ d.setpointsBlocked c = true) (h4 : d.session ≠ 4) :
    d.startSetpoints (.bytes b) c = d.takeSetpoints c b :=
  ((if_neg (not_not_intro hlen)).trans (if_neg hb)).trans (fetched_bytes h4 c b _)

theorem hlSetpoint_badLength (h : s.starts 0x38 c) (hlen : c.len ≠ 64) : EndsOnly (.hlSetpoint f) s c .rejectedParam :=
  endsOnly_of h (hlSetpoint_starts f s) (if_pos hlen)

theorem hlSetpoint_blocked (h : s.starts 0x38 c) (hlen : c.len = 64) (hb : s.dev.setpointsBlocked c = true) :
    EndsOnly (.hlSetpoint f) s c .rejectedState :=
  endsOnly_of h (hlSetpoint_starts f s) ((if_neg (not_not_intro hlen)).trans (if_pos hb))

theorem hlSetpoint_noLoop (h : s.starts 0x38 c) (hlen : c.len = 64) (hb : ¬ s.dev.setpointsBlocked c = true)
    (h4 : s.dev.session ≠ 4) (he : c.loops = []) : EndsOnly (.hlSetpoint (.bytes b)) s c .ok :=
  endsOnly_of h (hlSetpoint_starts _ s) ((startSetpoints_takes (d := s.started c) hlen hb h4).trans
    (if_pos (List.isEmpty_iff.2 he)))

theorem hlSetpoint_waits (h : s.starts 0x38 c) (hlen : c.len = 64) (hb : ¬ s.dev.setpointsBlocked c = true)
    (h4 : s.dev.session ≠ 4) (he : c.loops ≠ []) : Completes (.hlSetpoint (.bytes b)) s (fun d => d.runsOn c ∧
      d.field = { s.dev.field with
        hl := some ⟨c.id, c.loops, c.u 0x20 8, c.loops.map (fun l => (l, uAt b (2 * l) 2))⟩ } ∧
      s.dev.only d [.host, .field] []) :=
  starts_to h (hlSetpoint_starts _ s) ((startSetpoints_takes (d := s.started c) hlen hb h4).trans
    (if_neg (mt List.isEmpty_iff.1 he)))
    ⟨started_cmd h, rfl, keeps_only (keeps_field (by decide) (started_keeps (by decide)))⟩

/-! ## The obligation -/

/-- Settles O39, command by command. -/
theorem commonsAndAxisCommands : Obligations.CommonsAndAxisCommands := by
  unfold Obligations.CommonsAndAxisCommands
  rintro s c f b a rfl
  refine ⟨fun h ok hok => ?_, commonsRelease_waits, auxTarget_outOfRange, fun r h ha hv hd hr =>
    ⟨auxTarget_notReady h ⟨ha, hv, hd⟩, auxTarget_waits h ⟨ha, hv, hd⟩ hr⟩, auxProfile_badShape,
    fun r h ha hlo hhi hlen hts hr => ?_, ?_⟩
  · obtain rfl : s.dev.admits c = ok := Bool.eq_iff_iff.2 (admits_iff.trans hok.symm)
    exact ⟨commonsRequest_refused h, commonsRequest_waits h⟩
  · have hc : c.profileInShape := ⟨ha, hlo, hhi, hlen, hts⟩
    exact ⟨auxProfile_blocked h hc hr, fun hst hw h4 => ⟨auxProfile_malformed h hc hr hst hw h4, auxProfile_waits h hc hr hst hw h4⟩⟩
  · rintro h loops rfl
    exact ⟨hlSetpoint_badLength h, fun hlen => ⟨fun hb => hlSetpoint_blocked h hlen (setpointsBlocked_iff.2 hb), fun hl hn h4 =>
      ⟨hlSetpoint_noLoop h hlen (setpointsBlocked_none hl hn) h4, hlSetpoint_waits h hlen (setpointsBlocked_none hl hn) h4⟩⟩⟩

end Sys2Proof.Machine
end

section
/-! PROOFS. A joint on a node beyond those of the Heathline (R44, R223, R259): counting a discrepancy changes which arms are present. -/

namespace Sys2Proof.Machine

/-- A node beyond the 96 of the Heathline. The model takes the feedback addresses of a model's joints without a bound and finds the
state of a node by its address alone. -/
def strayNode : Nat := 1929

/-- The state of that node (R272) is the low bits of channel A's counter of discrepancies (R259). -/
theorem strayNode_state : HTL_NSTATE strayNode = ⟨0x8040 + 4 * 0, 2, 0⟩ := rfl

/-- A model of arm 0 with one joint, which that node carries. -/
def strayModel : Model :=
  ⟨0, 0, 0, 0, [⟨0, 1, 0, 0, 0, 0, 0, 0, []⟩], [⟨0, 0, 0, 0, 0, 0, 0, 0, 0, 0, 0, 0, strayNode, 0, 0, 0, 0, 0, []⟩],
   [], [], [], [], [], [], [], []⟩

/-- A schedule in which port 0 polls that node. -/
def straySched : Sched := ⟨0, 0, 0, [some ⟨[], [[⟨0, strayNode, 1, 0, 0, 0, true, 0⟩]], 0, 0⟩]⟩

/-- The node delivers its one axis in every beat. -/
def strayNodeRt : NodeRt := ⟨strayNode, [], 0, true, false, [], none, [⟨0, 0, 0, 0, 0, 0, 0, 0, 0⟩], [], []⟩

/-- A light curtain that stops arm 1 under SS1. -/
def strayCurtain : SafPair := ⟨4, 1, 2, false, 1000, 50, 0, 500, []⟩

/-- A set of that light curtain alone. -/
def straySet : SafSet := ⟨0, 0, 0, 0, 0, false, 0, 0, 0, 0, 0, 0, 0, [strayCurtain], [], [], [], []⟩

/-- The pair is at its OK level and in discrepancy. -/
def strayPair : PairRt := ⟨true, 0, false, 0, false, false, true, .off, 0⟩

/-- A device that runs with six discrepancies counted, whose channel A has the set in force and both arms in RUN. -/
def strayDiscrepancy : State :=
  let d := (((Dev.zero.put TST_STAGE 6).putB CLK_CORELK true).putB CLK_SAFALK true).setReg 0x8040 6
  ⟨[], { d with
    kiln := { d.kiln with active := some strayModel }
    heath := { d.heath with sched := some straySched, nodes := [strayNodeRt], cfg := 1 }
    safety := { d.safety with inForce := true, a := { Channel.zero with
      set := some straySet, pairs := [strayPair], arms := List.replicate 8 ⟨.run, false, false, 0, 0⟩ } } }⟩

/-- Arm 0 is present until the discrepancy is counted. -/
theorem strayDiscrepancy_present : strayDiscrepancy.dev.presentArms = 1 ∧ (strayDiscrepancy.dev.countS false 0).presentArms = 0 := by
  decide +kernel

/-- The fault of the pair is counted before its reaction, which then does not find arm 0 present and leaves it in RUN. -/
theorem strayDiscrepancy_runs {t : State} (h : exec (.discrepancyTimeout false 0) strayDiscrepancy = .next t) :
    ((t.dev.ch false).arm 0).st = .run := by
  injection h with h
  subst h
  decide +kernel

/-- Refutes O54: with a joint on node 1929, DISCREPANCY_TIMEOUT of a light curtain leaves an arm in RUN that is present as it starts.
The statement takes the present arms of the state before, and does not bound the node addresses of the active model, which index
registers. -/
theorem not_safetyInputs : ¬ Obligations.SafetyInputs := by
  unfold Obligations.SafetyInputs
  intro h
  obtain ⟨hpair, -⟩ := h strayDiscrepancy false (by decide +kernel)
  obtain ⟨-, -, -, -, hdisc, -⟩ := hpair 0 strayPair rfl
  obtain ⟨t, ht, -, -, -, -, -, -, hreacts⟩ := hdisc straySet 0 strayPair strayCurtain rfl rfl rfl rfl (by decide) rfl rfl
  obtain ⟨-, hstops⟩ := hreacts (by decide) (.inl (by decide))
  have hstop := hstops (by decide) 0 (by decide) (by rw [strayDiscrepancy_present.1]; decide)
  rw [strayDiscrepancy_runs ht] at hstop
  exact absurd hstop (by decide)

end Sys2Proof.Machine
end

section
/-! PROOFS. The output sides of a safety channel (R216, R221, R230 to R234, R254, R257): which sides its function states want, what
driving the sides leaves, and that the sides are safe once they are driven. -/

namespace Sys2Proof.Machine

variable {d : Dev} {h : Bool} {n a : Nat}

/-! ## Masks -/

theorem bitOf_setBit (x n k : Nat) (b : Bool) : bitOf (setBit x n b) k = if k = n then b else bitOf x k := by
  split
  next hk => rw [hk, bitOf_setBit_same]
  next hk =>
    cases b with
    | true => exact bitOf_setBit_ne x hk
    | false =>
      by_cases hx : bitOf x n = true
      · -- setting the bit again gives the mask back
        have hle : 2 ^ n ≤ x := Nat.ge_two_pow_of_testBit ((bitOf_eq_testBit x n).symm.trans hx)
        have hback : setBit (setBit x n false) n true = x := by
          have hclear := bitOf_setBit_same x n false
          have hsub : setBit x n false = x - 2 ^ n := by simp [setBit, hx]
          rw [hsub] at hclear ⊢
          simp only [setBit, hclear, Bool.false_beq, Bool.not_true, Bool.false_eq_true, if_false, if_true]
          omega
        exact (bitOf_setBit_ne _ hk).symm.trans (congrArg (bitOf · k) hback)
      · simp [setBit, hx]

@[simp] theorem bitOf_maskOf (l : List Nat) (k : Nat) : bitOf (maskOf l) k = l.contains k :=
  (bitOf_withBits l 0 k).trans (by rw [bitOf_zero, Bool.false_or])

theorem contains_range_filter (p : Nat → Bool) (m k : Nat) : ((List.range m).filter p).contains k = (decide (k < m) && p k) := by
  rw [Bool.eq_iff_iff]
  simp

@[simp] theorem bitOf_unionMask (m n k : Nat) : bitOf (unionMask m n) k = (decide (k < 16) && (bitOf m k || bitOf n k)) := by
  rw [unionMask, bitOf_maskOf, contains_range_filter]

@[simp] theorem bitOf_minusMask (m n k : Nat) : bitOf (minusMask m n) k = (decide (k < 16) && (bitOf m k && !bitOf n k)) := by
  rw [minusMask, bitOf_maskOf, contains_range_filter]

theorem bitOf_two_pow (n k : Nat) : bitOf (2 ^ n) k = decide (n = k) := by
  rw [bitOf_eq_testBit, Nat.testBit_two_pow]

theorem bitOf_all8 : ∀ a < 8, bitOf 0xFF a = true := by decide

/-! ## The sides that the function states want -/

/-- Side n of an arm is wanted high by the function states of a set, where sides may be high at all (R216, R221, R251). -/
def Channel.wantsSide (c : Channel) (s : SafSet) (n : Nat) : Bool :=
  let r := c.arm (n % 8)
  c.ready s (n % 8) && r.st != .sto && (if n < 8 then decide (2 ≤ r.phase) else r.phase == 3) && !bitOf c.outFlt n

/-- The mask of the wanted sides of the arms below k. -/
def Channel.wantsUpTo (c : Channel) (s : SafSet) (k : Nat) : Nat :=
  (List.range k).foldl (fun m a =>
    let r := c.arm a
    let on := c.ready s a && r.st != .sto
    let m := setBit m a (on && decide (2 ≤ r.phase) && !bitOf c.outFlt a)
    setBit m (8 + a) (on && r.phase == 3 && !bitOf c.outFlt (8 + a))) 0

theorem bitOf_wantsUpTo (c : Channel) (s : SafSet) {k : Nat} (hk : k ≤ 8) (n : Nat) :
    bitOf (c.wantsUpTo s k) n = (decide (n < 16 ∧ n % 8 < k) && c.wantsSide s n) := by
  induction k with
  | zero => simp [Channel.wantsUpTo, bitOf_zero]
  | succ k ih =>
    have hstep : bitOf (c.wantsUpTo s (k + 1)) n =
        if n = 8 + k then c.wantsSide s n else if n = k then c.wantsSide s n else bitOf (c.wantsUpTo s k) n := by
      simp only [Channel.wantsUpTo, List.range_succ, List.foldl_append, List.foldl_cons, List.foldl_nil, bitOf_setBit]
      split
      next he =>
        have hm : k % 8 = k := by omega
        simp [Channel.wantsSide, hm, he]
      next =>
        split
        next he =>
          have hm : k % 8 = k := by omega
          have hlt : k < 8 := by omega
          simp [Channel.wantsSide, hm, hlt, he]
        next => rfl
    rw [hstep, ih (by omega)]
    by_cases hn : n = 8 + k ∨ n = k
    · have hin : n < 16 ∧ n % 8 < k + 1 := by omega
      rcases hn with he | he
      · rw [if_pos he, decide_eq_true hin, Bool.true_and]
      · rw [if_neg (by omega), if_pos he, decide_eq_true hin, Bool.true_and]
    · have hsame : (n < 16 ∧ n % 8 < k) ↔ (n < 16 ∧ n % 8 < k + 1) := by omega
      rw [if_neg (by omega), if_neg (by omega), decide_eq_decide.mpr hsame]

theorem bitOf_wantSides (d : Dev) (h : Bool) (n : Nat) : bitOf (d.wantSides h) n =
    (decide (n < 16) && d.sidesFree h && (d.setOf h).any (fun s => (d.ch h).wantsSide s n)) := by
  unfold Dev.wantSides
  cases d.setOf h with
  | none => simp [bitOf_zero]
  | some s =>
    cases d.sidesFree h with
    | false => simp [bitOf_zero]
    | true =>
      have hall : decide (n < 16 ∧ n % 8 < 8) = decide (n < 16) := decide_eq_decide.mpr (by omega)
      have h8 := bitOf_wantsUpTo (d.ch h) s (Nat.le_refl 8) n
      rw [hall] at h8
      exact h8.trans (by simp)

/-- An arm in STO wants neither of its sides (R234). -/
theorem wantsSide_of_sto {c : Channel} (s : SafSet) (hs : (c.arm (n % 8)).st = .sto) : c.wantsSide s n = false := by
  simp [Channel.wantsSide, hs]

theorem wantSides_of_sto (hs : ((d.ch h).arm (n % 8)).st = .sto) : bitOf (d.wantSides h) n = false := by
  rw [bitOf_wantSides]
  cases d.setOf h with
  | none => simp
  | some s => simp [wantsSide_of_sto s hs]

/-! ## Driving the sides -/

/-- A channel's arms where the outputs follow: an arm in STO is off, one that is not ready falls back to the start (R221). -/
def Channel.fallBack (c : Channel) (s : Option SafSet) : Channel :=
  match s with
  | none => { c with arms := c.arms.map (fun (r : ArmRt) => { r with phase := min r.phase 1 }) }
  | some s => { c with arms := c.arms.mapIdx (fun a (r : ArmRt) =>
      if r.st = .sto then { r with phase := 0 } else if c.ready s a then r else { r with phase := min r.phase 1 }) }

/-- A channel that commands the wanted sides, less those in an off-pulse test, with those in their clearing test (R231, R233). -/
def Channel.command (c : Channel) (want : Nat) (free : Bool) : Channel :=
  let cmd := unionMask (minusMask want c.pulse) (if free then c.clearing else 0)
  { c with cmd := cmd, pulse := minusMask c.pulse (minusMask c.pulse want),
           rb := unionMask (minusMask cmd c.outFlt) (maskOf ((bitsOf c.outFlt 16).filter (bitOf c.rb))) }

/-- The device whose arms of one channel have followed. -/
def Dev.fallBack (d : Dev) (h : Bool) : Dev := d.updCh h (·.fallBack (d.setOf h))

theorem drive_eq (d : Dev) (h : Bool) :
    d.drive h = (d.fallBack h).updCh h (·.command ((d.fallBack h).wantSides h) ((d.fallBack h).sidesFree h)) := by
  unfold Dev.drive Dev.fallBack Channel.fallBack
  cases d.setOf h <;> rfl

theorem ch_updCh (d : Dev) (h : Bool) (f : Channel → Channel) : (d.updCh h f).ch h = f (d.ch h) := by cases h <;> rfl

theorem ch_updCh_other (d : Dev) (h : Bool) (f : Channel → Channel) : (d.updCh h f).ch (!h) = d.ch (!h) := by cases h <;> rfl

theorem inForce_updCh (d : Dev) (h : Bool) (f : Channel → Channel) : (d.updCh h f).safety.inForce = d.safety.inForce := by
  cases h <;> rfl

theorem fallBack_failed (c : Channel) (s : Option SafSet) : (c.fallBack s).failed = c.failed := by cases s <;> rfl
theorem fallBack_set (c : Channel) (s : Option SafSet) : (c.fallBack s).set = c.set := by cases s <;> rfl
theorem fallBack_pulse (c : Channel) (s : Option SafSet) : (c.fallBack s).pulse = c.pulse := by cases s <;> rfl
theorem fallBack_clearing (c : Channel) (s : Option SafSet) : (c.fallBack s).clearing = c.clearing := by cases s <;> rfl

theorem setOf_updCh (d : Dev) (h : Bool) (f : Channel → Channel) (hf : (f (d.ch h)).set = (d.ch h).set) :
    (d.updCh h f).setOf h = d.setOf h := by
  unfold Dev.setOf
  rw [inForce_updCh, ch_updCh, hf]

theorem sidesFree_updCh (d : Dev) (h : Bool) (f : Channel → Channel) (hf : (f (d.ch h)).failed = (d.ch h).failed) :
    (d.updCh h f).sidesFree h = d.sidesFree h := by
  have hup : (d.updCh h f).chUp h = d.chUp h := rfl
  unfold Dev.sidesFree
  rw [inForce_updCh, ch_updCh, hf, hup]
  rfl

theorem sidesFree_fallBack (d : Dev) (h : Bool) : (d.fallBack h).sidesFree h = d.sidesFree h :=
  sidesFree_updCh d h _ (fallBack_failed _ _)

theorem drive_ch (d : Dev) (h : Bool) :
    (d.drive h).ch h = ((d.ch h).fallBack (d.setOf h)).command ((d.fallBack h).wantSides h) (d.sidesFree h) := by
  rw [drive_eq, ch_updCh, sidesFree_fallBack]
  exact congrArg (Channel.command · _ _) (ch_updCh d h _)

/-- What the sides want does not depend on what is commanded. -/
theorem drive_wantSides (d : Dev) (h : Bool) : (d.drive h).wantSides h = (d.fallBack h).wantSides h := by
  have hset : (d.drive h).setOf h = (d.fallBack h).setOf h := by rw [drive_eq]; exact setOf_updCh _ _ _ rfl
  have hfree : (d.drive h).sidesFree h = (d.fallBack h).sidesFree h := by rw [drive_eq]; exact sidesFree_updCh _ _ _ rfl
  unfold Dev.wantSides
  rw [hset, hfree, drive_eq, ch_updCh]
  rfl

theorem drive_sideHigh (d : Dev) (h : Bool) (n : Nat) : (d.drive h).sideHigh h n =
    (bitOf ((d.drive h).wantSides h) n && !bitOf (d.ch h).pulse n ||
      d.sidesFree h && decide (n < 16) && bitOf (d.ch h).clearing n) := by
  have hwant : bitOf ((d.drive h).wantSides h) n = (decide (n < 16) && bitOf ((d.drive h).wantSides h) n) := by
    rw [bitOf_wantSides, ← Bool.and_assoc, ← Bool.and_assoc, Bool.and_self]
  unfold Dev.sideHigh
  rw [drive_ch, hwant, drive_wantSides]
  simp only [Channel.command, bitOf_unionMask, bitOf_minusMask, fallBack_pulse, fallBack_clearing]
  cases decide (n < 16) <;> cases d.sidesFree h <;> simp [bitOf_zero]

theorem drive_pulse (d : Dev) (h : Bool) (n : Nat) :
    bitOf ((d.drive h).ch h).pulse n = (bitOf (d.ch h).pulse n && bitOf ((d.drive h).wantSides h) n) := by
  rw [drive_ch, drive_wantSides, bitOf_wantSides]
  simp only [Channel.command, bitOf_minusMask, fallBack_pulse]
  rw [bitOf_wantSides]
  cases decide (n < 16) <;> cases bitOf (d.ch h).pulse n <;> simp

/-! ## What settling a channel leaves -/

/-- The registers that an operation of a channel writes: channel A's own; the Hedge's are shown by its mirror (R259). -/
@[reducible] def ChannelOff (h : Bool) (o : Nat) : Prop := o ∈ if h then [] else safaRegs

theorem channelOff_range {o : Nat} (ho : ChannelOff h o) : 0x8000 ≤ o ∧ o < 0x9000 := by
  cases h
  · exact (by decide : ∀ o ∈ safaRegs, 0x8000 ≤ o ∧ o < 0x9000) o ho
  · exact absurd ho (by simp)

theorem keeps_trans {d d' d'' : Dev} {P : Part → Prop} {R : Nat → Prop} (h : d.keeps d' P R) (h' : d'.keeps d'' P R) : d.keeps d'' P R :=
  ⟨fun p hp => same_trans (h.1 p hp) (h'.1 p hp), fun o ho => (h'.2 o ho).trans (h.2 o ho)⟩

theorem keeps_mono {d d' : Dev} {P Q : Part → Prop} {R T : Nat → Prop} (h : d.keeps d' P R) (hp : ∀ p, P p → Q p) (hr : ∀ o, R o → T o) :
    d.keeps d' Q T :=
  ⟨fun p n => h.1 p (mt (hp p) n), fun o n => h.2 o (mt (hr o) n)⟩

/-- The main die runs as before where its stage and its clock are as before. -/
theorem keeps_up {d d' : Dev} {P : Part → Prop} {R : Nat → Prop} (k : d.keeps d' P R) (hs : ¬ R 0xF800) (hc : ¬ R 0x2000) :
    d'.up = d.up := by
  have hstage : d'.get TST_STAGE = d.get TST_STAGE := keeps_get k hs
  have hlock : d'.is CLK_CORELK = d.is CLK_CORELK := keeps_is k hc
  unfold Dev.up
  rw [hstage, hlock]

theorem keeps_chUp {d d' : Dev} {P : Part → Prop} {R : Nat → Prop} (k : d.keeps d' P R) (hb : ¬ P .boot) (hs : ¬ R 0xF800)
    (hc : ¬ R 0x2000) (h : Bool) : d'.chUp h = d.chUp h := by
  have hboot : d'.boot = d.boot := k.1 .boot hb
  have hlock : d'.is CLK_SAFALK = d.is CLK_SAFALK := keeps_is k hc
  unfold Dev.chUp Dev.hedgeUp
  rw [hboot, keeps_up k hs hc, hlock]

theorem publishCh_keeps {d0 : Dev} {P : Part → Prop} {R : Nat → Prop} (hR : ∀ o ∈ safaRegs, R o) (k : d0.keeps d P R) :
    d0.keeps (d.publishCh false) P R := by
  unfold Dev.publishCh
  exact keeps_setReg (hR _ (by decide)) (keeps_setReg (hR _ (by decide)) (keeps_setReg (hR _ (by decide)) (keeps_setReg (hR _ (by decide))
    (keeps_setReg (hR _ (by decide)) (keeps_setReg (hR _ (by decide)) (keeps_setReg (hR _ (by decide)) k))))))

theorem settle_keeps (d : Dev) (h : Bool) : d.keeps (d.settle h) (· = .safety) (ChannelOff h) := by
  have hdrive := drive_keeps (R := ChannelOff h) h (P := (· = .safety)) rfl (keeps_refl d _ _)
  cases h
  · exact publishCh_keeps (fun o ho => ho) hdrive
  · exact hdrive

theorem settle_safety (d : Dev) (h : Bool) : (d.settle h).safety = (d.drive h).safety := by cases h <;> rfl

theorem settle_ch (d : Dev) (h g : Bool) : (d.settle h).ch g = (d.drive h).ch g := by
  unfold Dev.ch
  rw [settle_safety]

theorem settle_other (d : Dev) (h : Bool) : (d.settle h).ch (!h) = d.ch (!h) := (settle_ch d h _).trans (drive_other d h)

theorem settle_inForce (d : Dev) (h : Bool) : (d.settle h).safety.inForce = d.safety.inForce :=
  (congrArg SafetySt.inForce (settle_safety d h)).trans (drive_inForce d h)

/-- Settling a channel changes its output sequences, its commands, pulses and readbacks. -/
theorem settle_own (d : Dev) (h : Bool) : ∃ cmd pulse rb,
    (d.settle h).ch h = { (d.ch h).fallBack (d.setOf h) with cmd := cmd, pulse := pulse, rb := rb } :=
  ⟨_, _, _, (settle_ch d h h).trans (drive_ch d h)⟩

/-- Settling a channel changes nothing of the channels' common state. -/
theorem settle_common (d : Dev) (h : Bool) : (d.settle h).safety = { d.safety with a := (d.settle h).safety.a, b := (d.settle h).safety.b } := by
  rw [settle_safety, drive_eq]
  cases h <;> rfl

theorem settle_raisedS {s det : Nat} (hr : d.raisedS h s det) : (d.settle h).raisedS h s det := by
  unfold Dev.raisedS at hr ⊢
  have hreq : (d.settle h).evReq = d.evReq := (settle_keeps d h).1 .evReq (by decide)
  have hev : (d.settle h).safety.hdgEv = d.safety.hdgEv := by rw [settle_common]
  rwa [hreq, hev]

theorem settle_chUp (d : Dev) (h g : Bool) : (d.settle h).chUp g = d.chUp g :=
  keeps_chUp (settle_keeps d h) (by decide) (fun ho => absurd (channelOff_range ho) (by decide))
    (fun ho => absurd (channelOff_range ho) (by decide)) g

theorem settle_setOf (d : Dev) (h : Bool) : (d.settle h).setOf h = d.setOf h := by
  obtain ⟨cmd, pulse, rb, hown⟩ := settle_own d h
  unfold Dev.setOf
  rw [settle_inForce, hown]
  exact congrArg (ite _ · none) (fallBack_set _ _)

theorem settle_sidesFree (d : Dev) (h : Bool) : (d.settle h).sidesFree h = d.sidesFree h := by
  obtain ⟨cmd, pulse, rb, hown⟩ := settle_own d h
  have hheld : (d.settle h).hedgeHeld = d.hedgeHeld := by
    unfold Dev.hedgeHeld
    rw [show (d.settle h).boot = d.boot from (settle_keeps d h).1 .boot (by decide)]
  unfold Dev.sidesFree
  rw [settle_chUp, settle_inForce, hheld, hown]
  exact congrArg (fun f => _ && ite _ (_ && !f) _) (fallBack_failed _ _)

theorem settle_wantSides (d : Dev) (h : Bool) : (d.settle h).wantSides h = (d.drive h).wantSides h := by
  have hset : (d.drive h).setOf h = d.setOf h := by
    unfold Dev.setOf
    rw [drive_inForce, drive_set]
  have hfree : (d.drive h).sidesFree h = d.sidesFree h := by rw [drive_eq]; exact (sidesFree_updCh _ _ _ rfl).trans (sidesFree_fallBack d h)
  unfold Dev.wantSides
  rw [settle_setOf, settle_sidesFree, hset, hfree, settle_ch]

theorem settle_sideHigh (d : Dev) (h : Bool) (n : Nat) : (d.settle h).sideHigh h n =
    (bitOf ((d.settle h).wantSides h) n && !bitOf (d.ch h).pulse n ||
      d.sidesFree h && decide (n < 16) && bitOf (d.ch h).clearing n) := by
  rw [settle_wantSides, ← drive_sideHigh]
  unfold Dev.sideHigh
  rw [settle_ch]

theorem settle_pulse (d : Dev) (h : Bool) (n : Nat) :
    bitOf ((d.settle h).ch h).pulse n = (bitOf (d.ch h).pulse n && bitOf ((d.settle h).wantSides h) n) := by
  rw [settle_wantSides, settle_ch, drive_pulse]

/-! ## Arms of a settled channel -/

/-- Where the output sequence of an arm stands once the outputs have followed. -/
def Channel.phaseAfter (c : Channel) (s : Option SafSet) (a : Nat) (r : ArmRt) : Nat :=
  match s with
  | none => min r.phase 1
  | some s => if r.st = .sto then 0 else if c.ready s a then r.phase else min r.phase 1

theorem phaseAfter_le (c : Channel) (s : Option SafSet) (a : Nat) (r : ArmRt) : c.phaseAfter s a r ≤ r.phase := by
  unfold Channel.phaseAfter
  split
  · exact Nat.min_le_left _ _
  · split
    · exact Nat.zero_le _
    · split
      · exact Nat.le_refl _
      · exact Nat.min_le_left _ _

theorem fallBack_arms (c : Channel) (s : Option SafSet) (a : Nat) :
    (c.fallBack s).arms[a]? = (c.arms[a]?).map (fun r => { r with phase := c.phaseAfter s a r }) := by
  cases s with
  | none => exact List.getElem?_map
  | some s =>
    refine List.getElem?_mapIdx.trans (congrArg (Option.map · _) (funext fun r => ?_))
    unfold Channel.phaseAfter
    dsimp only
    split
    · rfl
    · split
      · rfl
      · rfl

theorem settle_arms (d : Dev) (h : Bool) (a : Nat) : ((d.settle h).ch h).arms[a]? =
    ((d.ch h).arms[a]?).map (fun r => { r with phase := (d.ch h).phaseAfter (d.setOf h) a r }) := by
  obtain ⟨cmd, pulse, rb, hown⟩ := settle_own d h
  rw [hown]
  exact fallBack_arms _ _ _

theorem arm_eq_getD (c : Channel) (a : Nat) : c.arm a = (c.arms[a]?).getD ⟨.sto, true, true, 0, 0⟩ :=
  List.getD_eq_getElem?_getD

theorem settle_arm (d : Dev) (h : Bool) (a : Nat) : ∃ p ≤ ((d.ch h).arm a).phase, ((d.settle h).ch h).arm a = { (d.ch h).arm a with phase := p } := by
  rw [arm_eq_getD, arm_eq_getD, settle_arms]
  cases (d.ch h).arms[a]? with
  | none => exact ⟨0, Nat.le_refl _, rfl⟩
  | some r => exact ⟨_, phaseAfter_le _ _ a r, rfl⟩

theorem settle_st (d : Dev) (h : Bool) (a : Nat) : (((d.settle h).ch h).arm a).st = ((d.ch h).arm a).st := by
  obtain ⟨p, -, hp⟩ := settle_arm d h a
  rw [hp]

/-! ## Safe sides -/

theorem settle_low_of_sto (hs : ((d.ch h).arm (n % 8)).st = .sto) (hh : (d.settle h).sideHigh h n = true) :
    bitOf (d.ch h).clearing n = true := by
  rw [settle_sideHigh, wantSides_of_sto ((settle_st d h _).trans hs), Bool.false_and, Bool.false_or] at hh
  exact (Bool.and_eq_true_iff.1 hh).2

/-- Once a channel has settled, an arm in STO has no side high but one in its clearing test, and without a set none is high. -/
theorem settle_safe (d : Dev) (h : Bool) : (d.settle h).stoLow h ∧ (d.settle h).noSetLow h := by
  obtain ⟨cmd, pulse, rb, hown⟩ := settle_own d h
  have hclear : ((d.settle h).ch h).clearing = (d.ch h).clearing := by rw [hown]; exact fallBack_clearing _ _
  refine ⟨fun a ha hs => ?_, fun hn => ?_⟩
  · rw [settle_st] at hs
    rw [hclear]
    exact ⟨settle_low_of_sto (by rwa [Nat.mod_eq_of_lt ha]), settle_low_of_sto (by rwa [Nat.add_mod_left, Nat.mod_eq_of_lt ha])⟩
  · rw [settle_inForce] at hn
    rw [settle_ch]
    exact drive_noSet d h hn

end Sys2Proof.Machine
end

section
/-! PROOFS. What the reactions of a safety channel can do (R220, R223, R233 to R236, R247, R248, R250): they tighten the states of its
arms, latch faults and raise sources, and leave its commands, its set and the other channel alone. -/

namespace Sys2Proof.Machine

variable {d d0 : Dev} {h : Bool} {le : Prop} {n a : Nat}

/-! ## Reactions of a channel -/

/-- A channel less its pairs, axes, tracks and what it notes of a beat. -/
def Channel.core (c : Channel) : Channel :=
  { c with pairs := [], axes := [], pulse := 0, rb := 0, te := none, t0 := none, v0set := false, judged := false, owed := 0,
           viol := 0, sphere := none, sensors := [], tracks := [], tel := [] }

/-- Of these, what no reaction changes: its set, its sides, and what it knows of itself and of the last verdict. -/
def Channel.kept (c : Channel) : Channel := { c.core with arms := [], flt := [] }

/-- An arm in STO stays there, a covered arm stays covered, and one in SS1 or STO stays in SS1 or STO, be it every one (`le`) or those
that the request covers (R234, R238). -/
structure ArmRt.tightens (le : Prop) (r r' : ArmRt) : Prop where
  sto : r.st = .sto → r'.st = .sto
  covered : r.covered = true → r'.covered = true
  stops : 2 ≤ r.st.code → le ∨ r.covered = true → 2 ≤ r'.st.code

/-- A reaction within a channel. -/
structure Channel.reacts (le : Prop) (c c' : Channel) : Prop where
  kept : c'.kept = c.kept
  arms : ∀ a, (c.arm a).tightens le (c'.arm a)
  faults : ∀ n, bitOf c.faults n = true → bitOf c'.faults n = true

/-- The parts of the device that a reaction of a channel reaches: a stop request leaves it for the planner and the commands. -/
@[reducible] def ReactPart (p : Part) : Prop := p ∈ [Part.safety, .evReq, .planner, .kiln, .host]

/-- The common state of the channels less what they raise and count. -/
def SafetySt.shared (x : SafetySt) : SafetySt := { x with a := Channel.zero, b := Channel.zero, hdgEv := [], hdgCnt := [] }

/-- From `d` to `d'` channel `h` has reacted; what the channels share may have changed, but not whether a set is in force. -/
structure Dev.follows (d : Dev) (le : Prop) (h : Bool) (d' : Dev) : Prop where
  frame : d.keeps d' ReactPart (ChannelOff h)
  other : d'.ch (!h) = d.ch (!h)
  inForce : d'.safety.inForce = d.safety.inForce
  own : (d.ch h).reacts le (d'.ch h)
  raised : ∀ s det, d.raisedS h s det → d'.raisedS h s det

/-- From `d` to `d'` channel `h` has reacted and nothing else. -/
structure Dev.reacts (d : Dev) (le : Prop) (h : Bool) (d' : Dev) : Prop where
  follows : d.follows le h d'
  shared : d'.safety.shared = d.safety.shared

theorem tightens_refl (r : ArmRt) : r.tightens le r := ⟨id, id, fun hc _ => hc⟩

theorem ArmRt.tightens.trans {r r' r'' : ArmRt} (h : r.tightens le r') (h' : r'.tightens le r'') : r.tightens le r'' :=
  ⟨h'.sto ∘ h.sto, h'.covered ∘ h.covered, fun hc hl => h'.stops (h.stops hc hl) (hl.imp_right h.covered)⟩

theorem stricter_code (x y : FState) : (x.stricter y).code = max x.code y.code := by
  cases x <;> cases y <;> rfl

theorem stricter_sto (y : FState) : FState.stricter .sto y = .sto := by
  cases y <;> rfl

/-- An arm is in SS1 or STO, as a covered one where that is asked. -/
def ArmRt.taken (r : ArmRt) (cov : Bool) : Prop := 2 ≤ r.st.code ∧ (cov = true → r.covered = true)

theorem ArmRt.tightens.taken {r r' : ArmRt} {cov : Bool} (ht : r.tightens le r') (hl : le ∨ cov = true) (hr : r.taken cov) : r'.taken cov :=
  ⟨ht.stops hr.1 (hl.imp_right hr.2), fun hc => ht.covered (hr.2 hc)⟩

/-- An arm that goes into STO (R235). -/
def ArmRt.intoSto (r : ArmRt) : ArmRt := { r with st := .sto, phase := 0, still := 0 }

theorem intoSto_tightens (r : ArmRt) : r.tightens le r.intoSto :=
  ⟨fun _ => rfl, id, fun _ _ => (by decide : 2 ≤ FState.code .sto)⟩

/-- An arm that SS1 takes (R236). -/
def ArmRt.intoSs1 (r : ArmRt) (cov : Bool) : ArmRt :=
  { r with st := r.st.stricter .ss1, covered := r.covered || cov, still := if r.st = .ss1 then r.still else 0 }

theorem intoSs1_taken (r : ArmRt) (cov : Bool) : (r.intoSs1 cov).taken cov := by
  refine ⟨?_, fun hc => ?_⟩
  · show 2 ≤ (r.st.stricter .ss1).code
    rw [stricter_code]
    exact Nat.le_max_right _ _
  · show (r.covered || cov) = true
    rw [hc, Bool.or_true]

theorem intoSs1_tightens (r : ArmRt) (cov : Bool) : r.tightens le (r.intoSs1 cov) :=
  ⟨fun hs => by rw [ArmRt.intoSs1, hs]; rfl, fun hc => by rw [ArmRt.intoSs1, hc]; rfl, fun _ _ => (intoSs1_taken r cov).1⟩

/-- An edit of a channel that leaves its core is a reaction. -/
theorem Channel.reacts.of_core {c c' : Channel} (hc : c'.core = c.core) : c.reacts le c' := by
  have harms : c'.arms = c.arms := (congrArg Channel.arms hc :)
  have hflt : c'.flt = c.flt := (congrArg Channel.flt hc :)
  refine ⟨congrArg (fun c : Channel => { c with arms := [], flt := [] }) hc, fun a => ?_, fun n hn => ?_⟩
  · unfold Channel.arm
    rw [harms]
    exact tightens_refl _
  · unfold Channel.faults at hn ⊢
    rwa [hflt]

theorem Channel.reacts.trans {c c' c'' : Channel} (h : c.reacts le c') (h' : c'.reacts le c'') : c.reacts le c'' :=
  ⟨h'.kept.trans h.kept, fun a => (h.arms a).trans (h'.arms a), fun n hn => h'.faults n (h.faults n hn)⟩

theorem reacts_refl (d : Dev) (le : Prop) (h : Bool) : d.reacts le h d :=
  ⟨⟨keeps_refl d _ _, rfl, rfl, .of_core rfl, fun _ _ hr => hr⟩, rfl⟩

theorem Dev.follows.trans {d d' d'' : Dev} (k : d.follows le h d') (k' : d'.follows le h d'') : d.follows le h d'' :=
  ⟨keeps_trans k.frame k'.frame, k'.other.trans k.other, k'.inForce.trans k.inForce, k.own.trans k'.own,
   fun s det hr => k'.raised s det (k.raised s det hr)⟩

theorem Dev.reacts.trans {d d' d'' : Dev} (k : d.reacts le h d') (k' : d'.reacts le h d'') : d.reacts le h d'' :=
  ⟨k.follows.trans k'.follows, k'.shared.trans k.shared⟩

/-! ## What a reaction leaves -/

section
variable {d' : Dev} (k : d.follows le h d')
include k

theorem Dev.follows.set : (d'.ch h).set = (d.ch h).set := (congrArg Channel.set k.own.kept :)
theorem Dev.follows.next : (d'.ch h).next = (d.ch h).next := (congrArg Channel.next k.own.kept :)
theorem Dev.follows.clearing : (d'.ch h).clearing = (d.ch h).clearing := (congrArg Channel.clearing k.own.kept :)
theorem Dev.follows.cmd : (d'.ch h).cmd = (d.ch h).cmd := (congrArg Channel.cmd k.own.kept :)
theorem Dev.follows.outFlt : (d'.ch h).outFlt = (d.ch h).outFlt := (congrArg Channel.outFlt k.own.kept :)
theorem Dev.follows.cyc : (d'.ch h).cyc = (d.ch h).cyc := (congrArg Channel.cyc k.own.kept :)
theorem Dev.follows.failed : (d'.ch h).failed = (d.ch h).failed := (congrArg Channel.failed k.own.kept :)
theorem Dev.follows.verMiss : (d'.ch h).verMiss = (d.ch h).verMiss := (congrArg Channel.verMiss k.own.kept :)
theorem Dev.follows.lastVerdict : (d'.ch h).lastVerdict = (d.ch h).lastVerdict := (congrArg Channel.lastVerdict k.own.kept :)

theorem Dev.follows.sto {a : Nat} (hs : ((d.ch h).arm a).st = .sto) : ((d'.ch h).arm a).st = .sto := (k.own.arms a).sto hs

theorem Dev.follows.setOf : d'.setOf h = d.setOf h := by
  unfold Dev.setOf
  rw [k.inForce, k.set]

theorem channelOff_absent {o : Nat} (ho : o < 0x8000 ∨ 0x9000 ≤ o) : d'.reg o = d.reg o :=
  k.frame.2 o (fun hc => by have := channelOff_range hc; omega)

theorem Dev.follows.get {f : Fld} (hf : f.off < 0x8000 ∨ 0x9000 ≤ f.off) : d'.get f = d.get f := by
  rw [get_eq, get_eq, channelOff_absent k hf]

theorem Dev.follows.is {f : Fld} (hf : f.off < 0x8000 ∨ 0x9000 ≤ f.off) : d'.is f = d.is f := by
  unfold Dev.is
  rw [k.get hf]

theorem Dev.follows.chUp (g : Bool) : d'.chUp g = d.chUp g :=
  keeps_chUp k.frame (by decide) (fun ho => absurd (channelOff_range ho) (by decide))
    (fun ho => absurd (channelOff_range ho) (by decide)) g

end

section
variable {d' : Dev} (k : d.reacts le h d')
include k

theorem Dev.reacts.noRec : d'.safety.noRec = d.safety.noRec := (congrArg SafetySt.noRec k.shared :)
theorem Dev.reacts.recs : d'.safety.recs = d.safety.recs := (congrArg SafetySt.recs k.shared :)
theorem Dev.reacts.ss1A : d'.safety.ss1A = d.safety.ss1A := (congrArg SafetySt.ss1A k.shared :)
theorem Dev.reacts.ss1B : d'.safety.ss1B = d.safety.ss1B := (congrArg SafetySt.ss1B k.shared :)
theorem Dev.reacts.resetArms : d'.safety.resetArms = d.safety.resetArms := (congrArg SafetySt.resetArms k.shared :)

end

/-! ## Elementary reactions -/

theorem raiseS_hdgEv (d : Dev) (s det : Nat) : (d.raiseS true s det).safety.hdgEv =
    if d.safety.hdgEv.contains (s, det) then d.safety.hdgEv else d.safety.hdgEv ++ [(s, det)] := by
  unfold Dev.raiseS
  rw [if_pos rfl]
  split
  · rfl
  · rfl

/-- A source that a channel raises is raised. -/
theorem raiseS_raised (d : Dev) (h : Bool) (s det : Nat) : (d.raiseS h s det).raisedS h s det := by
  cases h
  · exact List.mem_append_right _ (List.mem_singleton_self _)
  · show _ ∈ (d.raiseS true s det).safety.hdgEv
    rw [raiseS_hdgEv]
    split
    next hc => exact List.contains_iff_mem.1 hc
    next => exact List.mem_append_right _ (List.mem_singleton_self _)

theorem raiseS_raisedS {s det t e : Nat} (ht : d.raisedS h t e) : (d.raiseS h s det).raisedS h t e := by
  cases h
  · exact List.mem_append_left _ ht
  · show _ ∈ (d.raiseS true s det).safety.hdgEv
    rw [raiseS_hdgEv]
    split
    · exact ht
    · exact List.mem_append_left _ ht

theorem arm_updArm_ne (c : Channel) {a b : Nat} (f : ArmRt → ArmRt) (hb : b ≠ a) : (c.updArm a f).arm b = c.arm b := by
  rw [arm_eq_getD, arm_eq_getD]
  exact congrArg (Option.getD · _) (updAt_ne c.arms a b f hb)

/-- What holds of an edited arm and of an arm that the channel does not have holds of the arm. -/
theorem arm_updArm_same {p : ArmRt → Prop} (c : Channel) (a : Nat) (f : ArmRt → ArmRt) (hf : p (f (c.arm a)))
    (h0 : p ⟨.sto, true, true, 0, 0⟩) : p ((c.updArm a f).arm a) := by
  rw [arm_eq_getD] at hf
  rw [arm_eq_getD, show (c.updArm a f).arms[a]? = (c.arms[a]?).map f from updAt_same c.arms a f]
  cases hr : c.arms[a]? with
  | none => exact h0
  | some r => rw [hr] at hf; exact hf

theorem reacts_updArm (c : Channel) (a : Nat) (f : ArmRt → ArmRt) (hf : (c.arm a).tightens le (f (c.arm a))) :
    c.reacts le (c.updArm a f) := by
  refine ⟨rfl, fun b => ?_, fun n hn => hn⟩
  by_cases hb : b = a
  · subst hb
    exact arm_updArm_same c b f hf ⟨fun _ => rfl, fun _ => rfl, fun _ _ => (by decide : 2 ≤ FState.code .sto)⟩
  · rw [arm_updArm_ne c f hb]
    exact tightens_refl _

section
variable (k : d0.reacts le h d)
include k

theorem Dev.reacts.updCh {f : Channel → Channel} (hf : (d.ch h).reacts le (f (d.ch h))) : d0.reacts le h (d.updCh h f) := by
  refine k.trans ⟨⟨keeps_safety (by decide) (keeps_refl d _ _), ch_updCh_other d h f, inForce_updCh d h f, ?_, fun s det hr => ?_⟩, ?_⟩
  · rw [ch_updCh]
    exact hf
  · cases h <;> exact hr
  · cases h <;> rfl

/-- An edit of what a channel notes. -/
theorem Dev.reacts.edit {f : Channel → Channel} (hf : ∀ c, (f c).core = c.core := by exact fun _ => rfl) :
    d0.reacts le h (d.updCh h f) := k.updCh (.of_core (hf _))

theorem Dev.reacts.updArm {f : ArmRt → ArmRt} (hf : ((d.ch h).arm a).tightens le (f ((d.ch h).arm a))) :
    d0.reacts le h (d.updCh h (fun c => c.updArm a f)) := k.updCh (reacts_updArm _ a f hf)

theorem Dev.reacts.raiseS {s det : Nat} : d0.reacts le h (d.raiseS h s det) := by
  obtain ⟨x, y, hr⟩ := raiseS_eq d h s det
  refine k.trans ⟨⟨?_, ?_, ?_, ?_, fun t e ht => ?_⟩, ?_⟩
  · rw [hr]
    exact ⟨fun p hp => by cases p <;> first | rfl | exact absurd (by decide) hp, fun _ _ => rfl⟩
  · rw [hr]; cases h <;> rfl
  · rw [hr]
  · rw [hr]; exact .of_core (by cases h <;> rfl)
  · exact raiseS_raisedS ht
  · rw [hr]; rfl

theorem Dev.reacts.countS {i : Nat} (hi : i < 7) : d0.reacts le h (d.countS h i) := by
  cases h
  · have hoff : ChannelOff false (0x8040 + 4 * i) :=
      (by decide : ∀ i < 7, (0x8040 + 4 * i) ∈ safaRegs) i hi
    exact k.trans ⟨⟨keeps_bump hoff (keeps_refl d _ _), rfl, rfl, .of_core rfl, fun _ _ hr => hr⟩, rfl⟩
  · exact k.trans ⟨⟨keeps_safety (by decide) (keeps_refl d _ _), rfl, rfl, .of_core rfl, fun _ _ hr => hr⟩, rfl⟩

/-- A stop request to the planner changes nothing of the channels (R128, R366). -/
theorem Dev.reacts.stopRequest : d0.reacts le h d.stopRequest := by
  have hkeeps : d.keeps d.stopRequest (· ∈ [.host, .kiln, .planner]) (fun _ => False) :=
    (stable_keeps d (· ∈ [.host, .kiln, .planner]) (fun _ => False)).stopRequest (by simp) (by simp) (by simp) (keeps_refl d _ _)
  have hsafety : d.stopRequest.safety = d.safety := hkeeps.1 .safety (by decide)
  have hreq : d.stopRequest.evReq = d.evReq := hkeeps.1 .evReq (by decide)
  have hch : ∀ g, d.stopRequest.ch g = d.ch g := fun g => by unfold Dev.ch; rw [hsafety]
  refine k.trans ⟨⟨keeps_mono hkeeps (fun p hp => ?_) (fun _ ho => ho.elim), hch _, by rw [hsafety], ?_, fun s det hr => ?_⟩, by rw [hsafety]⟩
  · revert hp; cases p <;> decide
  · rw [hch]; exact .of_core rfl
  · unfold Dev.raisedS at hr ⊢
    rwa [hsafety, hreq]

theorem Dev.reacts.stopFrom : d0.reacts le h (d.stopFrom h) := by
  unfold Dev.stopFrom
  split
  · exact k.stopRequest
  · exact k

end

/-- Where one turn of a loop brings a fact about and every turn keeps it, it holds after the loop. -/
theorem foldl_reaches {α : Type} {K : Dev → Prop} {f : Dev → α → Dev} {l : List α} {x : α} (hx : x ∈ l) (hset : ∀ d, K (f d x))
    (hkeep : ∀ d y, K d → K (f d y)) (d : Dev) : K (l.foldl f d) := by
  obtain ⟨l1, l2, rfl⟩ := List.append_of_mem hx
  rw [List.foldl_append, List.foldl_cons]
  exact foldl_invariant l2 (fun d y _ => hkeep d y) (hset _)

/-! ## Faults -/

theorem bitOf_faults (c : Channel) (n : Nat) : bitOf c.faults n = (decide (n < 11) && c.flt.getD n 0 != 0) := by
  rw [Channel.faults, bitOf_maskOf, contains_range_filter]

/-- Latching a fault class sets its bit and clears none (R250). -/
theorem fault_faults (d : Dev) (h : Bool) (cls mask n : Nat) :
    bitOf ((d.fault h cls mask).ch h).faults n = (bitOf (d.ch h).faults n || decide (n = cls ∧ n < 11)) := by
  have hch : (d.fault h cls mask).ch h = _ := ch_updCh d h _
  rw [hch, bitOf_faults, bitOf_faults]
  by_cases hn : n < 11
  · have hlt : n < (List.range 11).length := by simpa using hn
    rw [List.getD_eq_getElem?_getD (l := List.map _ _), List.getElem?_map, List.getElem?_eq_getElem hlt, List.getElem_range]
    simp only [Option.map_some, Option.getD_some, hn, and_true, decide_true, Bool.true_and]
    by_cases hc : n = cls
    · subst hc
      rw [if_pos rfl, decide_eq_true rfl, Bool.or_true]
      split
      · decide
      next hz => exact bne_iff_ne.2 hz
    · rw [if_neg hc, decide_eq_false hc, Bool.or_false]
  · simp [hn]

section
variable (k : d0.reacts le h d)
include k

theorem Dev.reacts.fault {cls mask : Nat} : d0.reacts le h (d.fault h cls mask) := by
  refine k.updCh ⟨rfl, fun a => tightens_refl _, fun n hn => ?_⟩
  have hset := fault_faults d h cls mask n
  rw [hn, Bool.true_or] at hset
  have hch : (d.fault h cls mask).ch h = _ := ch_updCh d h _
  rw [hch] at hset
  exact hset

omit k in
/-- A fault class latched before a source is raised stays latched, and the source raised, through every reaction. -/
theorem fault_latched {cls mask src det : Nat} {e d' : Dev} (hc : cls < 11) (k : (d.fault h cls mask).reacts le h e)
    (k' : (e.raiseS h src det).reacts le h d') : bitOf (d'.ch h).faults cls = true ∧ d'.raisedS h src det := by
  have hset : bitOf ((d.fault h cls mask).ch h).faults cls = true := by
    rw [fault_faults, decide_eq_true ⟨rfl, hc⟩, Bool.or_true]
  exact ⟨(k.raiseS.trans k').follows.own.faults cls hset, k'.follows.raised src det (raiseS_raised _ h src det)⟩

/-! ## Requests for arms -/

theorem Dev.reacts.latchArms {mask : Nat} : d0.reacts le h (d.latchArms h mask) := by
  refine k.updCh ⟨rfl, fun a => ?_, fun n hn => hn⟩
  rw [arm_eq_getD, arm_eq_getD, List.getElem?_mapIdx]
  cases (d.ch h).arms[a]? with
  | none => exact tightens_refl _
  | some r => exact ⟨id, id, fun hc _ => hc⟩

theorem Dev.reacts.toSto {mask : Nat} : d0.reacts le h (d.toSto h mask) := by
  refine foldl_invariant (K := d0.reacts le h) _ (fun d a _ k => ?_) k
  have hsto := k.updArm (a := a) (f := ArmRt.intoSto) (intoSto_tightens _)
  dsimp only
  split
  · exact hsto
  · exact hsto.raiseS

theorem Dev.reacts.enterSs1 {arms cov : Nat} : d0.reacts le h (d.enterSs1 h arms cov) := by
  refine Dev.reacts.stopFrom (foldl_invariant (K := d0.reacts le h) _ (fun d a _ k => ?_) k)
  have hss1 := k.updArm (a := a) (f := (ArmRt.intoSs1 · (bitOf cov a))) (intoSs1_tightens _ _)
  dsimp only
  split
  · exact hss1.raiseS
  · exact hss1

theorem Dev.reacts.toSs1 {mask : Nat} : d0.reacts le h (d.toSs1 h mask) := k.enterSs1
theorem Dev.reacts.reqSto {mask : Nat} : d0.reacts le h (d.reqSto h mask) := k.latchArms.toSto
theorem Dev.reacts.reqSs1 {mask : Nat} : d0.reacts le h (d.reqSs1 h mask) := k.latchArms.toSs1

theorem Dev.reacts.reqPair {p : SafPair} : d0.reacts le h (d.reqPair h p) := by
  unfold Dev.reqPair
  split
  · exact k.toSto
  · exact k.toSs1

theorem Dev.reacts.demand {i : Nat} {p : SafPair} {new : Bool} : d0.reacts le h (d.demand h i p new) := by
  have hlat : d0.reacts le h (d.updCh h (fun c => c.updPair i (fun r => { r with lat := unionMask r.lat p.armmask }))) :=
    k.edit
  unfold Dev.demand
  dsimp only
  split
  · exact hlat.reqPair
  · exact hlat

theorem Dev.reacts.stoAndSs1 {mask : Nat} : d0.reacts le h (d.stoAndSs1 h mask) := k.reqSto.enterSs1
theorem Dev.reacts.ss1All : d0.reacts le h (d.ss1All h) := k.reqSs1
theorem Dev.reacts.stoAll : d0.reacts le h (d.stoAll h) := k.reqSto

/-! ## Reactions to faults of axes, clocks and verdicts -/

theorem Dev.reacts.axisLost {s : SafSet} {gj : Nat} : d0.reacts le h (d.axisLost h s gj) :=
  k.edit.fault.raiseS.stoAndSs1

theorem Dev.reacts.telegramErr {gj : Nat} : d0.reacts le h (d.telegramErr h gj) :=
  (k.edit.countS (by decide)).raiseS

theorem Dev.reacts.axisRefused {s : SafSet} {gj : Nat} : d0.reacts le h (d.axisRefused h s gj) := by
  have hedit : d0.reacts le h (d.updCh h (fun c => c.updAxis gj (fun x => { x with refused := x.refused + 1, okRun := 0 }))) :=
    k.edit
  unfold Dev.axisRefused
  dsimp only
  split
  · split
    · exact hedit.axisLost
    · exact hedit
  · exact hedit

theorem Dev.reacts.judgeAxes {mask : Nat} : d0.reacts le h (d.judgeAxes h mask) := by
  unfold Dev.judgeAxes
  split
  · exact k
  · exact foldl_invariant (K := d0.reacts le h) _ (fun _ _ _ k => k.axisRefused) k

theorem Dev.reacts.judgeBeat : d0.reacts le h (d.judgeBeat h) := by
  unfold Dev.judgeBeat
  split
  · exact k
  · exact Dev.reacts.judgeAxes k.edit

theorem Dev.reacts.clockFault : d0.reacts le h (d.clockFault h) := k.fault.raiseS.stoAll

theorem Dev.reacts.disagree : d0.reacts le h (d.disagree h) := ((k.fault.countS (by decide)).raiseS).ss1All

end

/-! ## What a request brings about -/

/-- A request for STO puts the arms of its mask there (R235). -/
theorem toSto_sto {mask : Nat} (ha : a < 8) (hm : bitOf mask a = true) (d : Dev) : (((d.toSto h mask).ch h).arm a).st = .sto := by
  refine foldl_reaches (K := fun d => ((d.ch h).arm a).st = .sto) (mem_bitsOf.2 ⟨ha, hm⟩) (fun d => ?_) (fun d b hs => ?_) d
  · have hput : (((d.updCh h (fun c => c.updArm a ArmRt.intoSto)).ch h).arm a).st = .sto := by
      rw [ch_updCh]
      exact arm_updArm_same (p := fun r => r.st = .sto) _ a _ rfl rfl
    dsimp only
    split
    · exact hput
    · exact (reacts_refl _ True h).raiseS.follows.sto hput
  · have hput := (reacts_refl d True h).updArm (a := b) (f := ArmRt.intoSto) (intoSto_tightens _)
    dsimp only
    split
    · exact hput.follows.sto hs
    · exact hput.raiseS.follows.sto hs

theorem reqSto_sto {mask : Nat} (ha : a < 8) (hm : bitOf mask a = true) (d : Dev) : (((d.reqSto h mask).ch h).arm a).st = .sto :=
  toSto_sto ha hm _

theorem stoAll_sto (ha : a < 8) (d : Dev) : (((d.stoAll h).ch h).arm a).st = .sto := reqSto_sto ha (bitOf_all8 a ha) d

theorem Dev.follows.taken {d' : Dev} {cov : Bool} (k : d.follows le h d') (hl : le ∨ cov = true) (hr : ((d.ch h).arm a).taken cov) :
    ((d'.ch h).arm a).taken cov := (k.own.arms a).taken hl hr

/-- SS1 takes every arm of its mask that is not in STO, and covers those asked (R236). -/
theorem enterSs1_taken {arms : Nat} (ha : a < 8) (hm : bitOf arms a = true) (d : Dev) (cov : Nat) :
    (((d.enterSs1 h arms cov).ch h).arm a).taken (bitOf cov a) := by
  refine (reacts_refl _ True h).stopFrom.follows.taken (.inl trivial) ?_
  refine foldl_reaches (K := fun d => ((d.ch h).arm a).taken (bitOf cov a)) (mem_bitsOf.2 ⟨ha, hm⟩) (fun d => ?_) (fun d b hs => ?_) d
  · have hput : (((d.updCh h (fun c => c.updArm a (ArmRt.intoSs1 · (bitOf cov a)))).ch h).arm a).taken (bitOf cov a) := by
      rw [ch_updCh]
      exact arm_updArm_same (p := fun r => r.taken (bitOf cov a)) _ a _ (intoSs1_taken _ _) ⟨by decide, fun _ => rfl⟩
    dsimp only
    split
    · exact (reacts_refl _ True h).raiseS.follows.taken (.inl trivial) hput
    · exact hput
  · have hput := (reacts_refl d True h).updArm (a := b) (f := (ArmRt.intoSs1 · (bitOf cov b))) (intoSs1_tightens _ _)
    dsimp only
    split
    · exact hput.raiseS.follows.taken (.inl trivial) hs
    · exact hput.follows.taken (.inl trivial) hs

/-- SS1 of all arms takes and covers every arm. -/
theorem ss1All_taken (ha : a < 8) (d : Dev) : (((d.ss1All h).ch h).arm a).taken true := by
  have hmask : bitOf (unionMask 0xFF (d.latchArms h 0xFF).presentArms) a = true := by
    rw [bitOf_unionMask, bitOf_all8 a ha, decide_eq_true (by omega)]
    rfl
  exact (bitOf_all8 a ha) ▸ enterSs1_taken ha hmask (d.latchArms h 0xFF) 0xFF

end Sys2Proof.Machine
end

section
/-! PROOFS. What an operation of one safety channel leaves alone, what the cross-check point does in what order (R245 to R247, R251,
R255), and that both leave the sides of a running channel safe (R216, R233, R234, R254). -/

namespace Sys2Proof.Machine

variable {d d0 : Dev} {s : State} {h : Bool} {le : Prop} {P : Part → Prop} {R : Nat → Prop}

/-! ## Operations of one channel -/

/-- An operation of a running channel ends with its sides settled. -/
theorem completes_settled {i : Instr} {f : Dev → Dev} {post : Dev → Prop} (hup : d.chUp h = true)
    (hi : exec i s = .next ⟨s.pending, d.safe h f⟩) (hp : post ((f d).settle h)) : Completes i s post := by
  refine ⟨_, hi, rfl, ?_⟩
  unfold Dev.safe
  rw [if_pos hup]
  exact hp

theorem completes_safe {i : Instr} {f : Dev → Dev} {post : Dev → Prop} (hup : s.dev.chUp h = true)
    (hi : exec i s = .next ⟨s.pending, s.begun.safe h f⟩) (hp : post ((f s.begun).settle h)) : Completes i s post :=
  completes_settled (d := s.begun) hup hi hp

theorem settle_react_keeps (d : Dev) (h : Bool) : d.keeps (d.settle h) ReactPart (ChannelOff h) :=
  keeps_mono (settle_keeps d h) (fun _ hp => by rw [hp]; decide) (fun _ ho => ho)

/-- A reaction of a channel changes nothing of the other channel or of the sets. -/
theorem Dev.follows.onlyChannel {d' : Dev} (k : d.follows le h d') : d.onlyChannel d' h :=
  ⟨k.other, k.inForce, k.set, keeps_only k.frame⟩

theorem onlyChannel_trans {d' d'' : Dev} (k : d.onlyChannel d' h) (k' : d'.onlyChannel d'' h) : d.onlyChannel d'' h := by
  obtain ⟨hother, hforce, hset, honly⟩ := k
  obtain ⟨hother', hforce', hset', honly'⟩ := k'
  exact ⟨hother'.trans hother, hforce'.trans hforce, hset'.trans hset, keeps_trans honly honly'⟩

theorem onlyChannel_updCh {f : Channel → Channel} (hf : (f (d.ch h)).set = (d.ch h).set) : d.onlyChannel (d.updCh h f) h :=
  ⟨ch_updCh_other d h f, inForce_updCh d h f, by rw [ch_updCh, hf], keeps_only (keeps_safety (by simp) (keeps_refl d _ _))⟩

/-- The same holds of an operation once the channel has settled after it. -/
theorem onlyChannel_settle (k : s.begun.onlyChannel d h) : s.dev.onlyChannel (d.settle h) h := by
  obtain ⟨hother, hforce, hset, honly⟩ := k
  obtain ⟨cmd, pulse, rb, hown⟩ := settle_own d h
  refine ⟨(settle_other d h).trans hother, (settle_inForce d h).trans hforce, ?_,
    keeps_only (keeps_from_out (keeps_trans honly (settle_react_keeps d h)))⟩
  rw [hown]
  exact (fallBack_set _ _).trans hset

/-- Settling what has changed nothing but the channels' state changes nothing else. -/
theorem settle_onlySafety (k : s.begun.keeps d (· ∈ [.safety]) (ChannelOff h)) :
    s.dev.only (d.settle h) [.safety] (if h then [] else safaRegs) :=
  keeps_only (keeps_from_out (keeps_trans k (keeps_mono (settle_keeps d h) (fun _ hp => List.mem_singleton.2 hp) (fun _ ho => ho))))

theorem settle_faults (d : Dev) (h : Bool) : ((d.settle h).ch h).faults = (d.ch h).faults := by
  obtain ⟨cmd, pulse, rb, hown⟩ := settle_own d h
  rw [hown]
  cases d.setOf h <;> rfl

/-! ## The cross-check point in its order -/

/-- What a channel does where it runs. -/
def Dev.ifUp (d : Dev) (h : Bool) (f : Dev → Dev) : Dev := if d.chUp h then f d else d

def Dev.atCheck (d : Dev) : Dev :=
  if d.up && d.time.started then d.reach (d.time.beatAt + d.time.layout.beat - 25000) else d

/-- The channels judge their axes, and the torque of arms reset before comes on. -/
def Dev.judgedAndTorqued (d : Dev) : Dev :=
  (((d.ifUp false (·.judgeBeat false)).ifUp true (·.judgeBeat true)).ifUp false (·.torqueUp false)).ifUp true (·.torqueUp true)

/-- Both channels run and see each other. -/
def Dev.bothSee (d : Dev) : Bool := d.chUp false && d.chUp true && d.is CLK_XDIE

def Dev.jointly (d : Dev) : Dev := if d.bothSee then d.judgedAndTorqued.matchPresses.applyResets.setChange else d.judgedAndTorqued

def Dev.settleBoth (d : Dev) : Dev := (d.ifUp false (·.settle false)).ifUp true (·.settle true)

def Dev.sendVerdict (d : Dev) (h : Bool) : Dev := d.send (.verdict h (d.verdict h (d.snsOk h)))

theorem crossCheck_eq (d : Dev) : d.crossCheck =
    ((d.atCheck.jointly.settleBoth.ifUp false (·.sendVerdict false)).ifUp true (·.sendVerdict true)).refreshMirror := rfl

/-- The registers of the two channels, and of the Hedge's mirror. -/
@[reducible] def CheckOff (o : Nat) : Prop := 0x8000 ≤ o ∧ o < 0xA000

theorem crosses_of_reacts {d' : Dev} (k : d.reacts le h d') : d.keeps d' ReactPart CheckOff :=
  keeps_mono k.follows.frame (fun _ hp => hp) (fun _ ho => by have := channelOff_range ho; exact ⟨this.1, by omega⟩)

theorem crosses_settle (d : Dev) (h : Bool) : d.keeps (d.settle h) ReactPart CheckOff :=
  keeps_mono (settle_react_keeps d h) (fun _ hp => hp) (fun _ ho => by have := channelOff_range ho; exact ⟨this.1, by omega⟩)

theorem keeps_ifUp {f : Dev → Dev} (hf : ∀ d : Dev, d.keeps (f d) P R) (d : Dev) (h : Bool) : d.keeps (d.ifUp h f) P R := by
  unfold Dev.ifUp
  split
  · exact hf d
  · exact keeps_refl d _ _

section
variable (k : d0.reacts le h d)
include k

theorem Dev.reacts.torqueUp : d0.reacts le h (d.torqueUp h) := by
  unfold Dev.torqueUp
  split
  · exact k
  · refine foldl_invariant (K := d0.reacts le h) _ (fun d a _ k => ?_) k
    dsimp only
    split
    · exact (k.updArm (f := fun r => { r with phase := 2 }) ⟨id, id, fun hc _ => hc⟩).raiseS
    · exact k

theorem Dev.reacts.pairEval {i before : Nat} : d0.reacts le h (d.pairEval h i before) := by
  unfold Dev.pairEval
  split
  · exact k
  next s _ =>
    dsimp only
    split
    · exact k
    next p _ =>
      have hraised : d0.reacts le h (if (d.ch h).pairCode s (s.home i) != 0 && (d.ch h).pairCode s (s.home i) != before &&
          (d.ch h).pairCode s (s.home i) != 3 then d.raiseS h 0 (s.home i) else d) := by
        split
        · exact k.raiseS
        · exact k
      split
      · exact hraised
      · split
        · exact hraised.demand
        · split
          · exact hraised.edit
          · exact hraised

end

theorem judgedAndTorqued_keeps (d : Dev) : d.keeps d.judgedAndTorqued ReactPart CheckOff :=
  keeps_trans (keeps_trans (keeps_trans
    (keeps_ifUp (fun d => crosses_of_reacts (reacts_refl d True false).judgeBeat) _ _)
    (keeps_ifUp (fun d => crosses_of_reacts (reacts_refl d True true).judgeBeat) _ _))
    (keeps_ifUp (fun d => crosses_of_reacts (reacts_refl d True false).torqueUp) _ _))
    (keeps_ifUp (fun d => crosses_of_reacts (reacts_refl d True true).torqueUp) _ _)

theorem matchPresses_keeps (d : Dev) : d.keeps d.matchPresses (· = .safety) (fun _ => False) := by
  unfold Dev.matchPresses
  split
  · exact keeps_refl d _ _
  · refine foldl_invariant (K := fun x => d.keeps x (· = .safety) (fun _ => False)) _ (fun x i _ k => ?_) (keeps_refl d _ _)
    split
    · split
      · exact keeps_safety rfl (keeps_safety rfl (keeps_safety rfl k))
      · exact k
    · exact k

theorem applyResets_keeps (d : Dev) : d.keeps d.applyResets (· = .safety) (fun _ => False) := by
  unfold Dev.applyResets
  split
  · exact keeps_refl d _ _
  · refine foldl_invariant (K := fun x => d.keeps x (· = .safety) (fun _ => False)) _ (fun x i _ k => ?_) (keeps_safety rfl (keeps_refl d _ _))
    dsimp only
    split
    · exact keeps_safety rfl (keeps_safety rfl k)
    · exact keeps_safety rfl (keeps_safety rfl k)

/-- Both channels take up the sets that wait (R255). -/
def Dev.bothChange (d : Dev) (na nb : SafSet) : Dev :=
  let d := (d.updCh false (fun c => c.changeSet na)).updCh true (fun c => c.changeSet nb)
  { d with safety := { d.safety with inForce := na.setcrc == nb.setcrc } }

/-- The two channels evaluate a pair that is quiet under the set before. -/
def Dev.evalPair (d : Dev) (qa qb : Bool) (i : Nat) : Dev :=
  let d := if qa then d.pairEval false i 0 else d
  if qb then d.pairEval true i 0 else d

/-- A pair is quiet in a channel: it does not demand. -/
def Dev.quietPair (d : Dev) (h : Bool) (i : Nat) : Bool :=
  match d.setOf h with
  | some s => (d.ch h).pairCode s i == 0
  | none => true

/-- The load whose set is in force ends. -/
def Dev.endLoad (d : Dev) (na : SafSet) : Dev :=
  match d.setCmd with
  | some c => (d.adoptCopy c.id 3 0 na.setid na.setcrc).complete c.id .ok c.progress 0 na.setcrc na.setid
  | none => d

theorem setChange_eq (d : Dev) : d.setChange =
    match d.safety.a.next, d.safety.b.next with
    | some na, some nb => (((List.range 16).filter (fun i => na.home i == i)).foldl
        (fun e i => e.evalPair (d.quietPair false i) (d.quietPair true i) i)
        (((d.bothChange na nb).raiseS false 15 noDetail).raiseS true 15 noDetail)).endLoad na
    | _, _ => d := rfl

theorem endLoad_keeps (d : Dev) (na : SafSet) : d.keeps (d.endLoad na) (· = .host) (fun _ => False) := by
  unfold Dev.endLoad
  split
  · exact keeps_complete rfl (keeps_host rfl (keeps_refl d _ _))
  · exact keeps_refl d _ _

theorem evalPair_keeps (d : Dev) (qa qb : Bool) (i : Nat) : d.keeps (d.evalPair qa qb i) ReactPart CheckOff := by
  have heval : ∀ (d : Dev) (q h : Bool), d.keeps (if q then d.pairEval h i 0 else d) ReactPart CheckOff := fun d q h => by
    split
    · exact crosses_of_reacts (reacts_refl d True h).pairEval
    · exact keeps_refl d _ _
  exact keeps_trans (heval d qa false) (heval _ qb true)

theorem setChange_keeps (d : Dev) : d.keeps d.setChange ReactPart CheckOff := by
  rw [setChange_eq]
  split
  next na nb _ _ =>
    refine keeps_trans (foldl_invariant (K := fun x => d.keeps x ReactPart CheckOff) _ (fun x i _ k => keeps_trans k (evalPair_keeps _ _ _ _)) ?_)
      (keeps_mono (endLoad_keeps _ _) (fun p hp => by rw [hp]; decide) (fun _ ho => ho.elim))
    have hchanged : d.keeps (d.bothChange na nb) ReactPart CheckOff :=
      keeps_safety (by decide) (keeps_safety (by decide) (keeps_safety (by decide) (keeps_refl d _ _)))
    exact keeps_trans (keeps_trans hchanged (crosses_of_reacts (reacts_refl _ True false).raiseS))
      (crosses_of_reacts (reacts_refl _ True true).raiseS)
  · exact keeps_refl d _ _

theorem jointly_keeps (d : Dev) : d.keeps d.jointly ReactPart CheckOff := by
  have hsafety : ∀ p, p = Part.safety → ReactPart p := fun p hp => by rw [hp]; decide
  unfold Dev.jointly
  split
  · exact keeps_trans (keeps_trans (keeps_trans (judgedAndTorqued_keeps d)
      (keeps_mono (matchPresses_keeps _) hsafety (fun _ ho => ho.elim)))
      (keeps_mono (applyResets_keeps _) hsafety (fun _ ho => ho.elim))) (setChange_keeps _)
  · exact judgedAndTorqued_keeps d

theorem settleBoth_keeps (d : Dev) : d.keeps d.settleBoth ReactPart CheckOff :=
  keeps_trans (keeps_ifUp (fun d => crosses_settle d false) _ _) (keeps_ifUp (fun d => crosses_settle d true) _ _)

theorem crosses_chUp {d' : Dev} (k : d.keeps d' ReactPart CheckOff) (h : Bool) : d'.chUp h = d.chUp h :=
  keeps_chUp k (by decide) (by decide) (by decide) h

/-! ## What is told after the cross-check point -/

/-- From `d` to `d'` the channels and their sets stay: verdicts are sent, the mirror is refreshed, snapshots are written. -/
structure Dev.tells (d d' : Dev) : Prop where
  frame : d.keeps d' (· ∈ [.safety, .evReq, .host]) (fun o => CheckOff o ∨ o = 0x104C)
  safety : ∃ ev, d'.safety = { d.safety with hdgEv := ev }
  out : ∀ o ∈ d.out, o ∈ d'.out

theorem tells_refl (d : Dev) : d.tells d := ⟨keeps_refl d _ _, ⟨_, rfl⟩, fun _ ho => ho⟩

theorem Dev.tells.trans {d d' d'' : Dev} (k : d.tells d') (k' : d'.tells d'') : d.tells d'' := by
  refine ⟨keeps_trans k.frame k'.frame, ?_, fun o ho => k'.out o (k.out o ho)⟩
  obtain ⟨ev, he⟩ := k.safety
  obtain ⟨ev', he'⟩ := k'.safety
  exact ⟨ev', by rw [he', he]⟩

theorem Dev.tells.ch {d' : Dev} (k : d.tells d') (g : Bool) : d'.ch g = d.ch g := by
  obtain ⟨ev, he⟩ := k.safety
  unfold Dev.ch
  rw [he]

theorem Dev.tells.inForce {d' : Dev} (k : d.tells d') : d'.safety.inForce = d.safety.inForce := by
  obtain ⟨ev, he⟩ := k.safety
  rw [he]

theorem tells_send (d : Dev) (o : Output) : d.tells (d.send o) :=
  ⟨keeps_send (keeps_refl d _ _), ⟨_, rfl⟩, fun _ ho => List.mem_append_left _ ho⟩

theorem tells_setReg (d : Dev) {o : Nat} (w : Word) (ho : CheckOff o) : d.tells (d.setReg o w) :=
  ⟨keeps_setReg (.inl ho) (keeps_refl d _ _), ⟨_, rfl⟩, fun _ ho => ho⟩

theorem tells_raise (d : Dev) (a b : Nat) : d.tells (d.raise a b) :=
  ⟨keeps_raise (by decide) (keeps_refl d _ _), ⟨_, rfl⟩, fun _ ho => ho⟩

theorem tells_publishCh (d : Dev) : d.tells (d.publishCh true) := by
  unfold Dev.publishCh
  exact ((((((tells_setReg d _ (by decide)).trans (tells_setReg _ _ (by decide))).trans (tells_setReg _ _ (by decide))).trans
    (tells_setReg _ _ (by decide))).trans (tells_setReg _ _ (by decide))).trans (tells_setReg _ _ (by decide))).trans
    (tells_setReg _ _ (by decide))

theorem tells_foldl {α : Type} {f : Dev → α → Dev} (l : List α) (hf : ∀ (d : Dev), ∀ a ∈ l, d.tells (f d a)) (d : Dev) : d.tells (l.foldl f d) :=
  foldl_invariant (K := d.tells) l (fun e a ha k => k.trans (hf e a ha)) (tells_refl d)

theorem tells_refreshMirror (d : Dev) : d.tells d.refreshMirror := by
  unfold Dev.refreshMirror
  split
  · have hcounters := tells_foldl (List.range 7) (fun (d : Dev) k hk => tells_setReg d (o := 0x9040 + 4 * k) (d.safety.hdgCnt.getD k 0)
      (by have := List.mem_range.1 hk; exact ⟨by omega, by omega⟩))
    have hdrained : ∀ d : Dev, d.tells { d with safety := { d.safety with hdgEv := [] } } := fun d =>
      ⟨keeps_safety (by decide) (keeps_refl d _ _), ⟨_, rfl⟩, fun _ ho => ho⟩
    exact ((((tells_publishCh d).trans (tells_setReg _ _ (by decide))).trans (hcounters _)).trans (hdrained _)).trans
      (tells_foldl _ (fun d e _ => tells_raise d _ _) _)
  · exact tells_refl d

theorem tells_sendVerdict (d : Dev) (h : Bool) : d.tells (d.ifUp h (·.sendVerdict h)) := by
  unfold Dev.ifUp
  split
  · exact tells_send d _
  · exact tells_refl d

/-! ## Snapshots -/

theorem complete_out (d : Dev) (id : Nat) (st : Status) (p q r0 r1 : Nat) : (d.complete id st p q r0 r1).out = d.out := by
  unfold Dev.complete
  split
  · rfl
  · split
    · rfl
    · dsimp only
      split <;> split <;> rfl

theorem complete_stateRead (d : Dev) (id : Nat) (st : Status) (p q r0 r1 : Nat) :
    (d.complete id st p q r0 r1).host.stateRead = d.host.stateRead := by
  unfold Dev.complete
  split
  · rfl
  · split
    · rfl
    · dsimp only
      split <;> split <;> rfl

theorem tells_complete (d : Dev) (id : Nat) (st : Status) (p q r0 r1 : Nat) : d.tells (d.complete id st p q r0 r1) := by
  refine ⟨keeps_complete (by decide) (keeps_refl d _ _), ⟨d.safety.hdgEv, ?_⟩, fun o ho => ?_⟩
  · rw [complete_safety]
  · rwa [complete_out]

theorem tells_hostFault (d : Dev) (id n : Nat) : d.tells (d.hostFault id n) := by
  have herr : d.tells (if d.session = 4 then d else d.dmaError) := by
    split
    · exact tells_refl d
    · exact ⟨keeps_raise (by decide) (keeps_bump (.inr rfl) (keeps_refl d _ _)), ⟨_, rfl⟩, fun _ ho => ho⟩
  exact herr.trans (tells_complete _ _ _ _ _ _ _)

theorem hostFault_stateRead (d : Dev) (id n : Nat) : (d.hostFault id n).host.stateRead = d.host.stateRead := by
  refine (complete_stateRead _ _ _ _ _ _ _).trans ?_
  split
  · rfl
  · rfl

/-- A snapshot ends its command and tells; the snapshots that wait stay. -/
theorem snapshot_tells (d : Dev) (id bad : Nat) (wrOk : Bool) :
    d.tells (d.snapshot id bad wrOk) ∧ (d.snapshot id bad wrOk).host.stateRead = d.host.stateRead := by
  unfold Dev.snapshot
  split
  · exact ⟨tells_refl d, rfl⟩
  · split
    · exact ⟨tells_hostFault d id 2, hostFault_stateRead d id 2⟩
    · dsimp only
      split
      · exact ⟨tells_complete _ _ _ _ _ _ _, complete_stateRead _ _ _ _ _ _ _⟩
      · exact ⟨(tells_send d _).trans (tells_complete _ _ _ _ _ _ _), complete_stateRead _ _ _ _ _ _ _⟩

theorem snapshots_tell (l : List Nat) (bad : Nat) (wrOk : Bool) (d : Dev) : d.tells (l.foldl (fun d id => d.snapshot id bad wrOk) d) ∧
    (l.foldl (fun d id => d.snapshot id bad wrOk) d).host.stateRead = d.host.stateRead :=
  foldl_invariant (K := fun e => d.tells e ∧ e.host.stateRead = d.host.stateRead) l
    (fun e id _ k => ⟨k.1.trans (snapshot_tells e id bad wrOk).1, (snapshot_tells e id bad wrOk).2.trans k.2⟩) ⟨tells_refl d, rfl⟩

/-! ## CROSS_CHECK_POINT -/

/-- The device once both channels have settled at the cross-check point. -/
def Dev.crossed (d : Dev) : Dev := d.atCheck.jointly.settleBoth

/-- A verdict of a channel that runs has been sent, computed in a device that has crossed. -/
def Dev.verdictSent (d d' : Dev) (h : Bool) : Prop :=
  ∃ e n, d.keeps e ReactPart CheckOff ∧ Output.verdict h (e.verdict h n) ∈ d'.out

theorem ifUp_pos (f : Dev → Dev) (hup : d.chUp h = true) : d.ifUp h f = f d := if_pos hup

theorem verdicts_sent (d : Dev) (hup : d.chUp h = true) :
    d.verdictSent ((d.ifUp false (·.sendVerdict false)).ifUp true (·.sendVerdict true)) h := by
  cases h
  · refine ⟨d, d.snsOk false, keeps_refl d _ _, (tells_sendVerdict _ true).out _ ?_⟩
    rw [ifUp_pos _ hup]
    exact List.mem_append_right _ (List.mem_singleton_self _)
  · have hkeeps : d.keeps (d.ifUp false (·.sendVerdict false)) ReactPart CheckOff := keeps_ifUp (fun d => keeps_send (keeps_refl d _ _)) d _
    rw [ifUp_pos (d := d.ifUp false _) _ ((crosses_chUp hkeeps true).trans hup)]
    exact ⟨_, _, hkeeps, List.mem_append_right _ (List.mem_singleton_self _)⟩

/-- CROSS_CHECK_POINT lets both channels settle, sends the verdicts of those that run, and ends the snapshots that wait. -/
theorem crossCheckPoint_run {bad : BitVec 10} {wrOk : Bool} {post : Dev → Prop}
    (hp : ∀ d, s.begun.crossed.tells d → (∀ h, s.begun.crossed.chUp h = true → s.begun.crossed.verdictSent d h) →
      (s.begun.crossed.up = true → d.host.stateRead = []) → post d) : Completes (.crossCheckPoint bad wrOk) s post := by
  have htells : s.begun.crossed.tells s.begun.crossCheck := by
    rw [crossCheck_eq]
    exact ((tells_sendVerdict _ false).trans (tells_sendVerdict _ true)).trans (tells_refreshMirror _)
  have hsent : ∀ h, s.begun.crossed.chUp h = true → s.begun.crossed.verdictSent s.begun.crossCheck h := fun h hup => by
    obtain ⟨e, n, hk, hm⟩ := verdicts_sent s.begun.crossed hup
    exact ⟨e, n, hk, (tells_refreshMirror _).out _ hm⟩
  have hup : s.begun.crossCheck.up = s.begun.crossed.up := keeps_up htells.frame (by decide) (by decide)
  have hi : exec (.crossCheckPoint bad wrOk) s = .next ⟨s.pending, if !s.begun.crossCheck.up then s.begun.crossCheck else
      s.begun.crossCheck.host.stateRead.foldl (fun (d : Dev) id => d.snapshot id bad.toNat wrOk)
        { s.begun.crossCheck with host := { s.begun.crossCheck.host with stateRead := [] } }⟩ := rfl
  refine ⟨_, hi, rfl, ?_⟩
  dsimp only
  cases hc : s.begun.crossCheck.up with
  | false => exact hp _ htells hsent (fun hu => by rw [← hup, hc] at hu; cases hu)
  | true =>
    have hread : s.begun.crossCheck.tells { s.begun.crossCheck with host := { s.begun.crossCheck.host with stateRead := [] } } :=
      ⟨keeps_host (by decide) (keeps_refl _ _ _), ⟨_, rfl⟩, fun _ ho => ho⟩
    obtain ⟨hall, hnone⟩ := snapshots_tell s.begun.crossCheck.host.stateRead bad.toNat wrOk
      { s.begun.crossCheck with host := { s.begun.crossCheck.host with stateRead := [] } }
    refine hp _ ((htells.trans hread).trans hall) (fun h hu => ?_) (fun _ => hnone)
    obtain ⟨e, n, hk, hm⟩ := hsent h hu
    exact ⟨e, n, hk, hall.out _ (hread.out _ hm)⟩

theorem atCheck_keeps (d : Dev) : d.keeps d.atCheck (· = .time) (fun _ => False) := by
  unfold Dev.atCheck
  split
  · obtain ⟨x, hx, -⟩ := reach_eq d (d.time.beatAt + d.time.layout.beat - 25000)
    rw [hx]
    exact keeps_time rfl (keeps_refl d _ _)
  · exact keeps_refl d _ _

theorem crossed_keeps (d : Dev) : d.atCheck.keeps d.crossed ReactPart CheckOff := keeps_trans (jointly_keeps _) (settleBoth_keeps _)

theorem jointly_chUp (d : Dev) (h : Bool) : d.atCheck.jointly.chUp h = d.chUp h :=
  (crosses_chUp (jointly_keeps _) h).trans (keeps_chUp (atCheck_keeps d) (by decide) (by decide) (by decide) h)

/-! ## Safe sides -/

/-- The sides of a channel are safe. -/
def Dev.sidesSafe (d : Dev) (h : Bool) : Prop := d.stoLow h ∧ d.noSetLow h

theorem sidesSafe_of_ch {d' : Dev} (hc : d'.ch h = d.ch h) (hi : d'.safety.inForce = d.safety.inForce) (hs : d.sidesSafe h) :
    d'.sidesSafe h := by
  unfold Dev.sidesSafe Dev.stoLow Dev.noSetLow Dev.sideHigh at *
  rwa [hc, hi]

theorem settleBoth_safe (d : Dev) (hup : d.chUp h = true) : d.settleBoth.sidesSafe h := by
  unfold Dev.settleBoth
  cases h
  · rw [ifUp_pos (d := d) _ hup]
    unfold Dev.ifUp
    split
    · exact sidesSafe_of_ch (settle_other _ true) (settle_inForce _ true) (settle_safe d false)
    · exact settle_safe d false
  · have hup' : (d.ifUp false (·.settle false)).chUp true = true := by
      unfold Dev.ifUp
      split
      · exact (settle_chUp d false true).trans hup
      · exact hup
    rw [ifUp_pos _ hup']
    exact settle_safe _ true

theorem crossCheckPoint_safe (bad : BitVec 10) (wrOk : Bool) (hup : s.dev.chUp h = true) :
    Completes (.crossCheckPoint bad wrOk) s (·.sidesSafe h) :=
  crossCheckPoint_run fun _ ht _ _ =>
    sidesSafe_of_ch (ht.ch h) ht.inForce (settleBoth_safe _ ((jointly_chUp s.begun h).trans hup))

/-- A command is an operation of a channel that runs as before the command, and that settles after it. -/
def State.settlesAfter (s : State) (i : Instr) (h : Bool) : Prop :=
  ∃ d f, d.chUp h = s.dev.chUp h ∧ exec i s = .next ⟨s.pending, Dev.safe d h f⟩

/-- But for the cross-check point every operation of a channel is one after which it settles. -/
theorem ofChannel_settles {i : Instr} (hi : ofChannel h i = true) (s : State) :
    (∃ bad wrOk, i = .crossCheckPoint bad wrOk) ∨ s.settlesAfter i h := by
  unfold ofChannel at hi
  split at hi
  case h_13 => cases h with
    | false => exact .inr ⟨s.begun, _, rfl, rfl⟩
    | true => cases hi
  case h_14 => cases h with
    | false => exact .inr ⟨s.begun, _, rfl, rfl⟩
    | true => cases hi
  case h_15 => subst hi; exact .inr ⟨s.begun, _, rfl, rfl⟩
  case h_16 bad wrOk => exact .inl ⟨bad, wrOk, rfl⟩
  case h_17 => cases hi
  case h_4 g lost => obtain rfl := eq_of_beq hi; exact .inr ⟨s.begun.updCh g _, _, rfl, rfl⟩
  all_goals (obtain rfl := eq_of_beq hi; exact .inr ⟨s.begun, _, rfl, rfl⟩)

/-- Settles O51: the channel settles after each of its operations, at the cross-check point before it tells anything. -/
theorem safeSides : Obligations.SafeSides := by
  unfold Obligations.SafeSides
  intro s h c hc hup
  rcases ofChannel_settles hc s with ⟨bad, wrOk, rfl⟩ | ⟨d, f, hd, hi⟩
  · exact crossCheckPoint_safe bad wrOk hup
  · exact completes_settled (hd.trans hup) hi (settle_safe _ _)

end Sys2Proof.Machine
end

section
/-! PROOFS. The unlock window, the host's reset and the Hedge's clock (R235, R248, R251, R258). -/

namespace Sys2Proof.Machine

variable {d : Dev} {s : State} {h : Bool}

/-! ## The unlock window -/

theorem setUnlocked_shows (d : Dev) (u : Bool) : (d.setUnlocked u).is SAFA_UNLOCKED = u ∧ (d.setUnlocked u).is HDG_UNLOCKED = u :=
  ⟨(is_put_off _ HDG_UNLOCKED SAFA_UNLOCKED _ (by decide)).trans (is_putB_same _ SAFA_UNLOCKED u (by decide)),
   is_putB_same _ HDG_UNLOCKED u (by decide)⟩

theorem setUnlocked_only (s : State) (u : Bool) : s.dev.only (s.begun.setUnlocked u) [.safety] [0x8000, 0x9080] :=
  keeps_only (keeps_putB (by decide) (keeps_putB (by decide) (keeps_safety (by decide) (keeps_out (keeps_refl s.dev _ _)))))

/-- What a write of a key leaves, over the cross-die link (R258). -/
theorem unlockKey_eq (d : Dev) (key : BitVec 16) (inTime : Bool) (hx : d.is CLK_XDIE = true) (hu : d.hedgeUp = true) :
    d.unlockKey key.toNat inTime =
      if key = 0x0A5A then { d.setUnlocked false with safety := { (d.setUnlocked false).safety with keySeen := true } }
      else d.setUnlocked (key == 0x05A5 && d.safety.keySeen && inTime) := by
  have hfirst : key.toNat = 0x0A5A ↔ key = 0x0A5A := by bv_omega
  have hsecond : key.toNat = 0x05A5 ↔ key = 0x05A5 := by bv_omega
  unfold Dev.unlockKey
  rw [hx, hu, Bool.and_self, if_pos rfl]
  simp only [hfirst, hsecond]
  split
  · rfl
  · by_cases hk : key = 0x05A5
    · cases d.safety.keySeen <;> cases inTime <;> simp [hk]
    · rw [if_neg (fun hc => hk hc.1), beq_false_of_ne hk]
      rfl

theorem hedgeUnlockKey_acts {key : BitVec 16} {inTime u : Bool} (hl : s.dev.linked = true) (hx : s.dev.is CLK_XDIE = true)
    (hu : s.dev.hedgeUp = true) (hk : u = (key == 0x05A5 && s.dev.safety.keySeen && inTime)) :
    Completes (.hedgeUnlockKey key inTime) s (fun d =>
      d.safety = { s.dev.safety with unlocked := u, keySeen := key == 0x0A5A } ∧ d.is SAFA_UNLOCKED = u ∧
      d.is HDG_UNLOCKED = u ∧ s.dev.only d [.safety] [0x8000, 0x9080]) := by
  have hi : exec (.hedgeUnlockKey key inTime) s =
      .next ⟨s.pending, if s.dev.linked then s.begun.unlockKey key.toNat inTime else s.begun⟩ := rfl
  refine completes_when hi hl ?_
  rw [unlockKey_eq s.begun key inTime hx hu]
  split
  next hfirst =>
    obtain rfl : u = false := by rw [hk, hfirst]; rfl
    obtain ⟨hsafa, hhdg⟩ := setUnlocked_shows s.begun false
    rw [hfirst]
    exact ⟨rfl, hsafa, hhdg, keeps_only (keeps_safety (by decide) (setUnlocked_only s false))⟩
  next hother =>
    have hk' : u = (key == 0x05A5 && s.begun.safety.keySeen && inTime) := hk
    rw [← hk', beq_false_of_ne hother]
    obtain ⟨hsafa, hhdg⟩ := setUnlocked_shows s.begun u
    exact ⟨rfl, hsafa, hhdg, setUnlocked_only s u⟩

theorem begun_only (s : State) : s.dev.only s.begun [] [] := keeps_only (keeps_out (keeps_refl s.dev _ _))

theorem hedgeUnlockKey_unlinked {key : BitVec 16} {inTime : Bool} (hl : s.dev.linked = true) (hx : s.dev.is CLK_XDIE = false) :
    Completes (.hedgeUnlockKey key inTime) s (fun d => s.dev.only d [] []) := by
  have hi : exec (.hedgeUnlockKey key inTime) s =
      .next ⟨s.pending, if s.dev.linked then s.begun.unlockKey key.toNat inTime else s.begun⟩ := rfl
  refine completes_when hi hl ?_
  have hidle : s.begun.unlockKey key.toNat inTime = s.begun :=
    if_neg (by rw [show s.begun.is CLK_XDIE = false from hx, Bool.false_and]; decide)
  rw [hidle]
  exact begun_only s

theorem unlockWindowExpiry_locks (hu : s.dev.hedgeUp = true) (hw : s.dev.safety.unlocked = true) :
    Completes .unlockWindowExpiry s (fun d =>
      d.safety = { s.dev.safety with unlocked := false, keySeen := false } ∧ d.is SAFA_UNLOCKED = false ∧
      d.is HDG_UNLOCKED = false ∧ s.dev.only d [.safety] [0x8000, 0x9080]) := by
  have hi : exec .unlockWindowExpiry s =
      .next ⟨s.pending, if s.dev.hedgeUp && s.dev.safety.unlocked then s.begun.setUnlocked false else s.begun⟩ := rfl
  obtain ⟨hsafa, hhdg⟩ := setUnlocked_shows s.begun false
  exact completes_when hi (by rw [hu, hw]; rfl) ⟨rfl, hsafa, hhdg, setUnlocked_only s false⟩

theorem unlockWindowExpiry_idle (hw : s.dev.safety.unlocked = false) :
    Completes .unlockWindowExpiry s (fun d => s.dev.only d [] []) := by
  have hi : exec .unlockWindowExpiry s =
      .next ⟨s.pending, if s.dev.hedgeUp && s.dev.safety.unlocked then s.begun.setUnlocked false else s.begun⟩ := rfl
  exact completes_unless hi (by rw [hw, Bool.and_false]) (begun_only s)

/-! ## The host's reset -/

theorem safaHostReset_run {post : Dev → Prop} (hl : s.dev.linked = true) (hp : post s.begun.safaReset) :
    Completes .safaHostReset s post :=
  completes_when (c := s.dev.linked) (b := s.begun) rfl hl hp

theorem safaHostReset_flagged (hl : s.dev.linked = true) (hw : s.dev.safety.unlocked = false) :
    Completes .safaHostReset s (fun d => d.is (GLB_BLKERR 8) = true ∧ s.dev.only d [.evReq] [0x10]) := by
  refine safaHostReset_run hl ?_
  have hflag : s.begun.safaReset = s.begun.regErr 8 :=
    if_pos (by rw [show s.begun.safety.unlocked = false from hw]; rfl)
  rw [hflag]
  exact ⟨is_regErr_same _ (by decide), keeps_only (keeps_regErr (by decide) (by decide) (keeps_out (keeps_refl s.dev _ _)))⟩

theorem safaHostReset_asks {st : SafSet} (hl : s.dev.linked = true) (hw : s.dev.safety.unlocked = true)
    (hs : s.dev.setOf false = some st) : Completes .safaHostReset s (fun d =>
      d.safety = (if st.hostack then { s.dev.safety with resetArms := 0xFF } else s.dev.safety) ∧ s.dev.only d [.safety] []) := by
  refine safaHostReset_run hl ?_
  have hasks : s.begun.safaReset =
      if st.hostack then { s.begun with safety := { s.begun.safety with resetArms := 0xFF } } else s.begun := by
    unfold Dev.safaReset
    rw [show s.begun.safety.unlocked = true from hw, show s.begun.setOf false = some st from hs]
    rfl
  rw [hasks]
  cases st.hostack
  · exact ⟨rfl, keeps_only (keeps_out (keeps_refl s.dev _ _))⟩
  · exact ⟨rfl, keeps_only (keeps_safety (by decide) (keeps_out (keeps_refl s.dev _ _)))⟩

/-! ## Clock faults -/

/-- A clock fault puts every arm into STO, is latched and raised (R248). -/
def Dev.clockFailed (d : Dev) (h : Bool) : Prop :=
  (∀ a, a < 8 → ((d.ch h).arm a).st = .sto) ∧ bitOf (d.ch h).faults 8 = true ∧ d.raisedS h 13 noDetail

theorem clockFault_failed (d : Dev) (h : Bool) : (d.clockFault h).clockFailed h := by
  have hlatched := fault_latched (d := d) (le := True) (h := h) (cls := 8) (mask := 0xFF) (src := 13) (det := noDetail) (by decide)
    (reacts_refl _ _ _) (reacts_refl _ _ _).stoAll
  exact ⟨fun a ha => stoAll_sto ha _, hlatched⟩

theorem Dev.follows.clockFailed {le : Prop} {d' : Dev} (k : d.follows le h d') (hf : d.clockFailed h) : d'.clockFailed h := by
  obtain ⟨hsto, hbit, hraised⟩ := hf
  exact ⟨fun a ha => k.sto (hsto a ha), k.own.faults 8 hbit, k.raised 13 noDetail hraised⟩

theorem settle_clockFailed (hf : d.clockFailed h) : (d.settle h).clockFailed h := by
  obtain ⟨hsto, hbit, hraised⟩ := hf
  exact ⟨fun a ha => (settle_st d h a).trans (hsto a ha), by rwa [settle_faults], settle_raisedS hraised⟩

/-- A clock fault asks nothing of the rest of the device (R235): no stop request leaves the channel. -/
theorem clockFault_keeps (d : Dev) : d.keeps (d.clockFault true) (· ∈ [.safety]) (fun _ => False) := by
  have hraise : ∀ {e : Dev} (s det : Nat), d.keeps e (· ∈ [.safety]) (fun _ => False) →
      d.keeps (e.raiseS true s det) (· ∈ [.safety]) (fun _ => False) := fun {e} s det k => by
    unfold Dev.raiseS
    rw [if_pos rfl]
    split
    · exact k
    · exact keeps_safety (by decide) k
  refine foldl_invariant (K := fun e => d.keeps e (· ∈ [.safety]) (fun _ => False)) _ (fun e a _ k => ?_)
    (keeps_safety (by decide) (hraise 13 noDetail (keeps_safety (by decide) (keeps_refl d _ _))))
  dsimp only
  split
  · exact keeps_safety (by decide) k
  · exact hraise 2 a (keeps_safety (by decide) k)

theorem hedgeTickTimeout_stops (hup : s.dev.chUp true = true) : Completes .hedgeTickTimeout s (fun d =>
    d.clockFailed true ∧ (∀ n, d.sideHigh true n = true → bitOf (s.dev.ch true).clearing n = true) ∧
    s.dev.onlyChannel d true ∧ s.dev.only d [.safety] []) := by
  refine completes_safe hup (f := fun d => d.clockFault true) rfl ?_
  have hreact := (reacts_refl s.begun True true).clockFault
  have hfailed := clockFault_failed s.begun true
  refine ⟨settle_clockFailed hfailed, fun n hn => ?_, onlyChannel_settle hreact.follows.onlyChannel,
    settle_onlySafety (keeps_mono (clockFault_keeps s.begun) (fun _ hp => hp) (fun _ ho => ho.elim))⟩
  rw [show (s.dev.ch true).clearing = ((s.begun.clockFault true).ch true).clearing from hreact.follows.clearing.symm]
  exact settle_low_of_sto (hfailed.1 _ (Nat.mod_lt _ (by decide))) hn

/-! ## The obligation -/

/-- Settles O52. -/
theorem unlockAndClock : Obligations.UnlockAndClock := by
  unfold Obligations.UnlockAndClock
  intro s
  refine ⟨fun key inTime hl => ⟨hedgeUnlockKey_unlinked hl, fun hx hu u hk => hedgeUnlockKey_acts hl hx hu hk⟩,
    unlockWindowExpiry_locks, unlockWindowExpiry_idle, fun hl => ⟨safaHostReset_flagged hl, fun st => safaHostReset_asks hl⟩,
    fun hup => completes_mono (hedgeTickTimeout_stops hup) fun d hd => ?_⟩
  obtain ⟨⟨hsto, hbit, hraised⟩, hlow, hchannel, honly⟩ := hd
  exact ⟨hsto, hbit, hraised, hlow, hchannel, honly⟩

end Sys2Proof.Machine
end

section
/-! PROOFS. The outputs of a safety channel (R230, R231, R233, R238, R250, R251): the end of a pulse, readbacks, clearing tests, the
brake's delay, the end of TSS1 and a channel's own fault. -/

namespace Sys2Proof.Machine

variable {d : Dev} {s : State} {h : Bool} {le : Prop}

/-! ## What settling leaves of a channel -/

theorem settle_outFlt (d : Dev) (h : Bool) : ((d.settle h).ch h).outFlt = (d.ch h).outFlt := by
  obtain ⟨cmd, pulse, rb, hown⟩ := settle_own d h
  rw [hown]
  cases d.setOf h <;> rfl

theorem settle_clearing (d : Dev) (h : Bool) : ((d.settle h).ch h).clearing = (d.ch h).clearing := by
  obtain ⟨cmd, pulse, rb, hown⟩ := settle_own d h
  rw [hown]
  exact fallBack_clearing _ _

theorem settle_failed (d : Dev) (h : Bool) : ((d.settle h).ch h).failed = (d.ch h).failed := by
  obtain ⟨cmd, pulse, rb, hown⟩ := settle_own d h
  rw [hown]
  exact fallBack_failed _ _

theorem settle_resetArms (d : Dev) (h : Bool) : (d.settle h).safety.resetArms = d.safety.resetArms := by
  rw [settle_common]

theorem begun_ch (s : State) (h : Bool) : s.begun.ch h = s.dev.ch h := rfl

/-- An edit of the channel's own state changes nothing but the channels' state. -/
theorem updCh_onlySafety (s : State) (h : Bool) (f : Channel → Channel) :
    s.begun.keeps (s.begun.updCh h f) (· ∈ [.safety]) (ChannelOff h) := keeps_safety (by decide) (keeps_refl _ _ _)

/-! ## OFF_PULSE_END -/

theorem offPulseEnd_ends (hup : s.dev.chUp h = true) (n : Fin 16) : Completes (.offPulseEnd h n) s (fun d =>
    bitOf (d.ch h).pulse n = false ∧
    (∀ k, k ≠ n.val → bitOf (d.ch h).pulse k = (bitOf (s.dev.ch h).pulse k && bitOf (d.wantSides h) k)) ∧
    (∀ a, ((d.ch h).arm a).st = ((s.dev.ch h).arm a).st) ∧ s.dev.onlyChannel d h ∧
    s.dev.only d [.safety] (if h then [] else safaRegs)) := by
  refine completes_safe hup rfl ?_
  refine ⟨?_, fun k hk => ?_, fun a => ?_, onlyChannel_settle (onlyChannel_updCh rfl), settle_onlySafety (updCh_onlySafety s h _)⟩
  · rw [settle_pulse, ch_updCh, bitOf_setBit, if_pos rfl, Bool.false_and]
  · rw [settle_pulse, ch_updCh, bitOf_setBit, if_neg hk, begun_ch]
  · rw [settle_st, ch_updCh]
    rfl

/-! ## READBACK_FAULT -/

/-- A side with an output fault leaves its tests (R233). -/
def Channel.faultSide (c : Channel) (n : Nat) : Channel :=
  { c with outFlt := setBit c.outFlt n true, pulse := setBit c.pulse n false, clearing := setBit c.clearing n false }

theorem outputFault_eq (d : Dev) (h : Bool) (n : Nat) : d.outputFault h n =
    ((((d.updCh h (·.faultSide n)).fault h 2 (2 ^ (n % 8))).countS h 3).raiseS h 7 n).stoAndSs1 h (2 ^ (n % 8)) := rfl

theorem stoAndSs1_sto {a : Nat} (ha : a < 8) (d : Dev) : (((d.stoAndSs1 h (2 ^ a)).ch h).arm a).st = .sto :=
  (reacts_refl (d.reqSto h (2 ^ a)) True h).enterSs1.follows.sto (reqSto_sto ha (by rw [bitOf_two_pow, decide_eq_true rfl]) d)

theorem stoAndSs1_stopped {a : Nat} (ha : a < 8) (d : Dev) : (d.stoAndSs1 h (2 ^ a)).stopped h 0xFF := by
  intro b hb _
  by_cases hab : a = b
  · subst hab
    rw [stoAndSs1_sto ha d]
    decide
  · have hmask : bitOf (minusMask 0xFF (2 ^ a)) b = true := by
      rw [bitOf_minusMask, bitOf_all8 b hb, bitOf_two_pow, decide_eq_false hab, decide_eq_true (by omega)]
      rfl
    exact (enterSs1_taken hb hmask (d.reqSto h (2 ^ a)) 0).1

theorem outputFault_reacts (d : Dev) (h : Bool) (n : Nat) : (d.updCh h (·.faultSide n)).reacts True h (d.outputFault h n) := by
  rw [outputFault_eq]
  exact Dev.reacts.stoAndSs1 (Dev.reacts.raiseS (Dev.reacts.countS (Dev.reacts.fault (reacts_refl _ _ _)) (by decide)))

theorem outputFault_latched (d : Dev) (h : Bool) (n : Nat) :
    bitOf ((d.outputFault h n).ch h).faults 2 = true ∧ (d.outputFault h n).raisedS h 7 n := by
  rw [outputFault_eq]
  exact fault_latched (le := True) (by decide) ((reacts_refl _ _ _).countS (by decide)) (reacts_refl _ _ _).stoAndSs1

theorem readbackFault_run {n : Fin 16} {level : Bool} {post : Dev → Prop} (hup : s.dev.chUp h = true)
    (hp : post ((if bitOf (s.dev.ch h).cmd n != level
      then (s.begun.updCh h (fun c => { c with rb := setBit c.rb n level })).outputFault h n else s.begun).settle h)) :
    Completes (.readbackFault h n level) s post := completes_safe hup rfl hp

theorem readbackFault_faults (hup : s.dev.chUp h = true) (n : Fin 16) (level : Bool) (hc : bitOf (s.dev.ch h).cmd n ≠ level) :
    Completes (.readbackFault h n level) s (fun d =>
      bitOf (d.ch h).outFlt n = true ∧ bitOf (d.ch h).faults 2 = true ∧ ((d.ch h).arm (n % 8)).st = .sto ∧
      d.sideHigh h n = false ∧ d.raisedS h 7 n ∧ d.stopped h 0xFF ∧ s.dev.onlyChannel d h) := by
  refine readbackFault_run hup ?_
  rw [if_pos (bne_iff_ne.2 hc)]
  set e := s.begun.updCh h (fun c => { c with rb := setBit c.rb n level })
  have hn8 : n.val % 8 < 8 := Nat.mod_lt _ (by decide)
  have hreact := outputFault_reacts e h n
  obtain ⟨hbit, hraised⟩ := outputFault_latched e h n
  have hsto : (((e.outputFault h n).ch h).arm (n % 8)).st = .sto := stoAndSs1_sto hn8 _
  have hout : bitOf ((e.outputFault h n).ch h).outFlt n = true := by
    rw [hreact.follows.outFlt, ch_updCh]
    exact bitOf_setBit_same _ _ _
  have hclear : bitOf ((e.outputFault h n).ch h).clearing n = false := by
    rw [hreact.follows.clearing, ch_updCh]
    exact bitOf_setBit_same _ _ _
  refine ⟨by rwa [settle_outFlt], by rwa [settle_faults], (settle_st _ _ _).trans hsto, ?_, settle_raisedS hraised, fun b hb hm => ?_,
    onlyChannel_settle (onlyChannel_trans (onlyChannel_trans (onlyChannel_updCh rfl) (onlyChannel_updCh rfl)) hreact.follows.onlyChannel)⟩
  · exact Bool.eq_false_iff.2 fun hh => absurd ((settle_low_of_sto hsto hh).symm.trans hclear) (by decide)
  · rw [settle_st]
    exact stoAndSs1_stopped hn8 _ b hb hm

/-- Settling a channel on which nothing has happened keeps its faulted sides and the states of its arms. -/
theorem settle_quiet (s : State) (h : Bool) : ((s.begun.settle h).ch h).outFlt = (s.dev.ch h).outFlt ∧
    (∀ a, (((s.begun.settle h).ch h).arm a).st = ((s.dev.ch h).arm a).st) ∧
    s.dev.only (s.begun.settle h) [.safety] (if h then [] else safaRegs) :=
  ⟨settle_outFlt _ _, fun a => settle_st _ _ a, settle_onlySafety (keeps_refl _ _ _)⟩

theorem readbackFault_agrees (hup : s.dev.chUp h = true) (n : Fin 16) (level : Bool) (hc : bitOf (s.dev.ch h).cmd n = level) :
    Completes (.readbackFault h n level) s (fun d =>
      (d.ch h).outFlt = (s.dev.ch h).outFlt ∧ (∀ a, ((d.ch h).arm a).st = ((s.dev.ch h).arm a).st) ∧
      s.dev.only d [.safety] (if h then [] else safaRegs)) := by
  refine readbackFault_run hup ?_
  rw [if_neg (by rw [hc, bne_self_eq_false]; decide)]
  exact settle_quiet s h

/-! ## CLEARING_TEST_END -/

/-- A side leaves its clearing test, cleared where it passed (R233). -/
def Channel.endTest (c : Channel) (n : Nat) (pass : Bool) : Channel :=
  { c with clearing := setBit c.clearing n false, outFlt := if pass then setBit c.outFlt n false else c.outFlt }

/-- An arm's reset is asked. -/
def Dev.askReset (d : Dev) (a : Nat) : Dev := { d with safety := { d.safety with resetArms := setBit d.safety.resetArms a true } }

theorem askReset_onlyChannel (d : Dev) (h : Bool) (a : Nat) : d.onlyChannel (d.askReset a) h :=
  ⟨by cases h <;> rfl, rfl, by cases h <;> rfl, keeps_only (keeps_safety (by simp) (keeps_refl d _ _))⟩

theorem clearingTestEnd_run {n : Fin 16} {pass : Bool} {post : Dev → Prop} (hup : s.dev.chUp h = true)
    (hp : post ((if bitOf (s.dev.ch h).clearing n
      then (if pass then (s.begun.updCh h (·.endTest n pass)).askReset (n % 8) else s.begun.updCh h (·.endTest n pass))
      else s.begun).settle h)) :
    Completes (.clearingTestEnd h n pass) s post := completes_safe hup rfl hp

/-- Settles a clause of O55; that a passing test asks the arm's reset is the model's choice (log 116). -/
theorem clearingTestEnd_ends (hup : s.dev.chUp h = true) (n : Fin 16) (pass : Bool) (hc : bitOf (s.dev.ch h).clearing n = true) :
    Completes (.clearingTestEnd h n pass) s (fun d =>
      bitOf (d.ch h).clearing n = false ∧ bitOf (d.ch h).outFlt n = (bitOf (s.dev.ch h).outFlt n && !pass) ∧
      bitOf d.safety.resetArms (n % 8) = (bitOf s.dev.safety.resetArms (n % 8) || pass) ∧ s.dev.onlyChannel d h) := by
  refine clearingTestEnd_run hup ?_
  rw [if_pos hc]
  have hedit : s.begun.onlyChannel (s.begun.updCh h (·.endTest n pass)) h := onlyChannel_updCh rfl
  have hclear : ∀ c : Channel, bitOf (c.endTest n pass).clearing n = false := fun c => bitOf_setBit_same _ _ _
  cases pass
  · rw [if_neg (by decide)]
    refine ⟨?_, ?_, ?_, onlyChannel_settle hedit⟩
    · rw [settle_clearing, ch_updCh]
      exact hclear _
    · rw [settle_outFlt, ch_updCh, Bool.not_false, Bool.and_true]
      rfl
    · rw [settle_resetArms, Bool.or_false]
      cases h <;> rfl
  · rw [if_pos rfl]
    have hask : ∀ d : Dev, (d.askReset (n % 8)).ch h = d.ch h := fun d => by cases h <;> rfl
    refine ⟨?_, ?_, ?_, onlyChannel_settle (onlyChannel_trans hedit (askReset_onlyChannel _ h _))⟩
    · rw [settle_clearing, hask, ch_updCh]
      exact hclear _
    · rw [settle_outFlt, hask, ch_updCh, Bool.not_true, Bool.and_false]
      exact bitOf_setBit_same _ _ _
    · rw [settle_resetArms, Bool.or_true]
      exact bitOf_setBit_same _ _ _

theorem clearingTestEnd_idle (hup : s.dev.chUp h = true) (n : Fin 16) (pass : Bool) (hc : bitOf (s.dev.ch h).clearing n = false) :
    Completes (.clearingTestEnd h n pass) s (fun d =>
      (d.ch h).outFlt = (s.dev.ch h).outFlt ∧ d.safety.resetArms = s.dev.safety.resetArms ∧
      s.dev.only d [.safety] (if h then [] else safaRegs)) := by
  refine clearingTestEnd_run hup ?_
  rw [if_neg (Bool.eq_false_iff.1 hc)]
  obtain ⟨hout, -, honly⟩ := settle_quiet s h
  exact ⟨hout, settle_resetArms _ _, honly⟩

/-! ## BRAKE_RELEASE_DELAY -/

/-- The brake of an arm whose torque is on is released (R251). -/
def ArmRt.releaseBrake (r : ArmRt) : ArmRt := if r.phase = 2 ∧ r.st ≠ .sto then { r with phase := 3 } else r

theorem brakeReleaseDelay_run {a : Fin 8} {post : Dev → Prop} (hup : s.dev.chUp h = true)
    (hp : post ((s.begun.updCh h (fun c => c.updArm a ArmRt.releaseBrake)).settle h)) :
    Completes (.brakeReleaseDelay h a) s post := completes_safe hup rfl hp

theorem brakeRelease_arms {a : Fin 8} {r : ArmRt} (ha : (s.dev.ch h).arms[a.val]? = some r) :
    (((s.begun.updCh h (fun c => c.updArm a ArmRt.releaseBrake)).settle h).ch h).arms[a.val]? =
      some { r.releaseBrake with phase := (s.dev.ch h).phaseAfter (s.dev.setOf h) a r.releaseBrake } := by
  have hset : (s.begun.updCh h (fun c => c.updArm a ArmRt.releaseBrake)).setOf h = s.dev.setOf h := setOf_updCh s.begun h _ rfl
  rw [settle_arms, hset, ch_updCh, show ((s.begun.ch h).updArm a ArmRt.releaseBrake).arms[a.val]? = _ from updAt_same _ _ _, begun_ch, ha]
  rfl

theorem brakeReleaseDelay_releases (hup : s.dev.chUp h = true) {a : Fin 8} {r : ArmRt} {st : SafSet}
    (ha : (s.dev.ch h).arms[a.val]? = some r) (hs : s.dev.setOf h = some st) (hr : (s.dev.ch h).ready st a = true) (hp : r.phase = 2)
    (hst : r.st ≠ .sto) : Completes (.brakeReleaseDelay h a) s (fun d =>
      (d.ch h).arms[a.val]? = some { r with phase := 3 } ∧
      (s.dev.sidesFree h = true → bitOf (s.dev.ch h).outFlt (8 + a) = false → bitOf (s.dev.ch h).pulse (8 + a) = false →
        d.sideHigh h (8 + a) = true) ∧
      s.dev.only d [.safety] (if h then [] else safaRegs)) := by
  refine brakeReleaseDelay_run hup ?_
  have hphase : (s.dev.ch h).phaseAfter (some st) a { r with phase := 3 } = 3 := by
    unfold Channel.phaseAfter
    dsimp only
    rw [if_neg hst, if_pos hr]
  have harms := brakeRelease_arms ha
  rw [hs, show r.releaseBrake = { r with phase := 3 } from if_pos ⟨hp, hst⟩, hphase] at harms
  refine ⟨harms, fun hfree hout hpulse => ?_, settle_onlySafety (updCh_onlySafety s h _)⟩
  set e := s.begun.updCh h (fun c => c.updArm a ArmRt.releaseBrake)
  have hset : (e.settle h).setOf h = some st := (settle_setOf e h).trans ((setOf_updCh s.begun h _ rfl).trans hs)
  have hfree' : (e.settle h).sidesFree h = true := (settle_sidesFree e h).trans ((sidesFree_updCh s.begun h _ rfl).trans hfree)
  have hmod : (8 + a.val) % 8 = a := by omega
  have harm : ((e.settle h).ch h).arm a = { r with phase := 3 } := by rw [arm_eq_getD, harms]; rfl
  have hready : ((e.settle h).ch h).ready st a = true := by
    obtain ⟨cmd, pulse, rb, hown⟩ := settle_own e h
    have haxes : ((e.settle h).ch h).axes = (s.dev.ch h).axes := by
      rw [hown]
      cases e.setOf h <;> exact (congrArg Channel.axes (ch_updCh s.begun h _) :)
    unfold Channel.ready Channel.axis
    rw [haxes]
    exact hr
  have hout' : bitOf ((e.settle h).ch h).outFlt (8 + a) = false := by
    rw [settle_outFlt, ch_updCh]
    exact hout
  have hwant : bitOf ((e.settle h).wantSides h) (8 + a) = true := by
    rw [bitOf_wantSides, hset, hfree', Option.any_some, Channel.wantsSide, hmod, harm, hready, hout', if_neg (by omega),
      decide_eq_true (by omega), bne_iff_ne.2 hst]
    rfl
  rw [settle_sideHigh, hwant, ch_updCh, show bitOf ((s.begun.ch h).updArm a ArmRt.releaseBrake).pulse (8 + a) = false from hpulse]
  rfl

theorem brakeReleaseDelay_waits (hup : s.dev.chUp h = true) {a : Fin 8} {r : ArmRt} (ha : (s.dev.ch h).arms[a.val]? = some r)
    (hr : r.phase ≠ 2 ∨ r.st = .sto) : Completes (.brakeReleaseDelay h a) s (fun d =>
      (∃ r', (d.ch h).arms[a.val]? = some r' ∧ r'.st = r.st ∧ r'.phase ≤ r.phase) ∧
      s.dev.only d [.safety] (if h then [] else safaRegs)) := by
  refine brakeReleaseDelay_run hup ?_
  have hsame : r.releaseBrake = r := if_neg (fun hc => hr.elim (fun hp => hp hc.1) hc.2)
  have harms := brakeRelease_arms ha
  rw [hsame] at harms
  exact ⟨⟨_, harms, rfl, phaseAfter_le _ _ _ _⟩, settle_onlySafety (updCh_onlySafety s h _)⟩

/-! ## TSS1_EXPIRY -/

theorem raiseS_ch (d : Dev) (h : Bool) (n det : Nat) (g : Bool) : (d.raiseS h n det).ch g = d.ch g := by
  obtain ⟨x, y, hr⟩ := raiseS_eq d h n det
  rw [hr]
  rfl

/-- A request for STO leaves every arm outside its mask. -/
theorem toSto_arm_ne {mask b : Nat} (hb : b ∉ bitsOf mask 8) (d : Dev) : ((d.toSto h mask).ch h).arm b = (d.ch h).arm b := by
  refine foldl_invariant (K := fun e => (e.ch h).arm b = (d.ch h).arm b) _ (fun e a ha k => ?_) rfl
  have hput : ((e.updCh h (fun c => c.updArm a ArmRt.intoSto)).ch h).arm b = (d.ch h).arm b := by
    rw [ch_updCh, arm_updArm_ne _ _ (fun hab => hb (by rw [hab]; exact ha))]
    exact k
  dsimp only
  split
  · exact hput
  · rw [raiseS_ch]
    exact hput

theorem mem_bitsOf_two_pow {a b : Nat} : b ∈ bitsOf (2 ^ a) 8 ↔ b < 8 ∧ a = b := by
  rw [mem_bitsOf, bitOf_two_pow, decide_eq_true_iff]

/-- TSS1 of an arm in SS1 has run out (R238). -/
def Dev.endSs1 (d : Dev) (h : Bool) (a : Nat) : Dev :=
  if ((d.ch h).arm a).covered || (d.ch h).failed then d.toSto h (2 ^ a)
  else d.updCh h (fun c => c.updArm a (fun r => { r with st := .hold }))

theorem tss1Expiry_run {a : Fin 8} {post : Dev → Prop} (hup : s.dev.chUp h = true)
    (hp : post ((if ((s.dev.ch h).arm a).st = .ss1 then s.begun.endSs1 h a else s.begun).settle h)) :
    Completes (.tss1Expiry h a) s post := completes_safe hup rfl hp

theorem endSs1_arms (d : Dev) {a : Fin 8} {r : ArmRt} (ha : (d.ch h).arms[a.val]? = some r) :
    (((d.endSs1 h a).ch h).arm a).st = (if r.covered || (d.ch h).failed then .sto else .hold) ∧
    (∀ k, k ≠ a.val → ((d.endSs1 h a).ch h).arm k = (d.ch h).arm k) ∧ d.onlyChannel (d.endSs1 h a) h := by
  have harm : (d.ch h).arm a = r := by rw [arm_eq_getD, ha]; rfl
  unfold Dev.endSs1
  rw [harm]
  split
  · exact ⟨toSto_sto a.isLt (by rw [bitOf_two_pow, decide_eq_true rfl]) d,
      fun k hk => toSto_arm_ne (fun hm => hk (mem_bitsOf_two_pow.1 hm).2.symm) d, (reacts_refl d True h).toSto.follows.onlyChannel⟩
  · refine ⟨?_, fun k hk => ?_, onlyChannel_updCh rfl⟩
    · rw [ch_updCh, arm_eq_getD, show ((d.ch h).updArm a fun r => { r with st := .hold }).arms[a.val]? = _ from updAt_same _ _ _, ha]
      rfl
    · rw [ch_updCh]
      exact arm_updArm_ne _ _ hk

theorem tss1Expiry_ends (hup : s.dev.chUp h = true) {a : Fin 8} {r : ArmRt} (ha : (s.dev.ch h).arms[a.val]? = some r)
    (hr : r.st = .ss1) : Completes (.tss1Expiry h a) s (fun d =>
      ((d.ch h).arm a).st = (if r.covered || (s.dev.ch h).failed then .sto else .hold) ∧
      (∀ k, k ≠ a.val → ((d.ch h).arm k).st = ((s.dev.ch h).arm k).st) ∧ s.dev.onlyChannel d h) := by
  refine tss1Expiry_run hup ?_
  rw [if_pos (by rw [arm_eq_getD, ha]; exact hr)]
  obtain ⟨hst, hother, honly⟩ := endSs1_arms s.begun ha
  refine ⟨(settle_st _ _ _).trans hst, fun k hk => ?_, onlyChannel_settle honly⟩
  rw [settle_st, hother k hk, begun_ch]

theorem tss1Expiry_idle (hup : s.dev.chUp h = true) {a : Fin 8} {r : ArmRt} (ha : (s.dev.ch h).arms[a.val]? = some r)
    (hr : r.st ≠ .ss1) : Completes (.tss1Expiry h a) s (fun d =>
      (∀ k, ((d.ch h).arm k).st = ((s.dev.ch h).arm k).st) ∧ s.dev.only d [.safety] (if h then [] else safaRegs)) := by
  refine tss1Expiry_run hup ?_
  rw [if_neg (by rw [arm_eq_getD, ha]; exact hr)]
  exact (settle_quiet s h).2

/-! ## SAFETY_CHANNEL_FAULT -/

/-- A channel has failed. -/
def Dev.failCh (d : Dev) (h : Bool) : Dev := d.updCh h (fun c => { c with failed := true })

/-- What a failed channel asks of its arms (R250). -/
def Dev.failStop (d : Dev) (h : Bool) : Dev := if h then d.stoAll true else d.ss1All false

theorem failStop_reacts (d : Dev) (h : Bool) : d.reacts True h (d.failStop h) := by
  cases h
  · exact (reacts_refl d True false).ss1All
  · exact (reacts_refl d True true).stoAll

theorem failStop_sto {a : Nat} (ha : a < 8) (d : Dev) : (((d.failStop true).ch true).arm a).st = .sto := by
  rw [show d.failStop true = d.stoAll true from if_pos rfl]
  exact stoAll_sto ha d

theorem failStop_stops {a : Nat} (ha : a < 8) (d : Dev) : 2 ≤ (((d.failStop false).ch false).arm a).st.code := by
  rw [show d.failStop false = d.ss1All false from if_neg (by decide)]
  exact (ss1All_taken ha d).1

theorem safetyChannelFault_fails (hup : s.dev.chUp h = true) : Completes (.safetyChannelFault h) s (fun d =>
    (d.ch h).failed = true ∧ bitOf (d.ch h).faults 9 = true ∧ d.raisedS h 14 noDetail ∧
    (h = true → ∀ a, a < 8 → ((d.ch true).arm a).st = .sto) ∧
    (h = false → d.stopped false 0xFF) ∧ s.dev.onlyChannel d h) := by
  refine completes_safe hup (f := fun d => (((d.failCh h).fault h 9 0xFF).raiseS h 14 noDetail).failStop h) rfl ?_
  set e := ((s.begun.failCh h).fault h 9 0xFF).raiseS h 14 noDetail
  have hlatched : (s.begun.failCh h).reacts True h e := (reacts_refl _ True h).fault.raiseS
  have hstop := failStop_reacts e h
  have hfailed : ((s.begun.failCh h).ch h).failed = true := by rw [Dev.failCh, ch_updCh]
  obtain ⟨hbit, hraised⟩ := fault_latched (by decide) (reacts_refl ((s.begun.failCh h).fault h 9 0xFF) True h) hstop
  refine ⟨?_, by rwa [settle_faults], settle_raisedS hraised, fun ht a ha => ?_,
    fun hf a ha _ => ?_, onlyChannel_settle (onlyChannel_trans (onlyChannel_updCh rfl) (hlatched.trans hstop).follows.onlyChannel)⟩
  · rw [settle_failed, (hlatched.trans hstop).follows.failed, hfailed]
  · subst ht
    exact (settle_st _ _ _).trans (failStop_sto ha _)
  · subst hf
    rw [settle_st]
    exact failStop_stops ha _

/-! ## The obligation -/

/-- Settles O55, command by command. -/
theorem safetyOutputs : Obligations.SafetyOutputs := by
  unfold Obligations.SafetyOutputs
  intro s h hup
  exact ⟨fun n => ⟨offPulseEnd_ends hup n, readbackFault_faults hup n, readbackFault_agrees hup n, clearingTestEnd_ends hup n,
      clearingTestEnd_idle hup n⟩,
    fun a r ha => ⟨fun st hs hr hp hst => brakeReleaseDelay_releases hup ha hs hr hp hst, brakeReleaseDelay_waits hup ha,
      tss1Expiry_ends hup ha, tss1Expiry_idle hup ha⟩, safetyChannelFault_fails hup⟩

end Sys2Proof.Machine
end

section
/-! PROOFS. The monitoring of a beat by a safety channel (R220, R231, R236 to R243): each of its parts is a reaction that lets no arm
go but one in SS1 that no request covers. -/

namespace Sys2Proof.Machine

variable {d d0 : Dev} {s : State} {h : Bool} {le : Prop}

/-! ## The parts of the monitoring -/

section
variable (k : d0.reacts le h d)
include k

theorem Dev.reacts.violate {cls src a det : Nat} : d0.reacts le h (d.violate h cls src a det) := k.fault.raiseS.edit

/-- A violation that is counted and asks SS1 of its arm (R239, R240, R242). -/
theorem Dev.reacts.violateSs1 {cls src a det : Nat} :
    d0.reacts le h (((d.violate h cls src a det).countS h 4).reqSs1 h (2 ^ a)) := (k.violate.countS (by decide)).reqSs1

theorem Dev.reacts.slsMonitor {st : SafSet} {x : SafArm} : d0.reacts le h (d.slsMonitor h st x) := by
  unfold Dev.slsMonitor
  dsimp only
  split
  · exact k.violateSs1
  · exact k

theorem Dev.reacts.takeTe : d0.reacts le h (d.takeTe h) := by
  unfold Dev.takeTe
  extract_lets ss1 e
  have he : d0.reacts le h e := by
    unfold e
    split
    · exact k
    · exact k.edit
  clear_value e
  split
  · split
    · exact he
    · exact he.edit
  · exact he

theorem Dev.reacts.rampTime {eb : Nat} : d0.reacts le h (d.rampTime h eb).1 := by
  unfold Dev.rampTime
  split
  · exact k
  · dsimp only
    split
    · exact k
    · dsimp only
      split
      · exact k
      · exact k.edit

theorem Dev.reacts.relatch {st : SafSet} : d0.reacts le h (d.relatch h st) := by
  refine foldl_invariant (K := d0.reacts le h) _ (fun d i _ k => ?_) k
  split
  · split
    · exact k.demand
    · exact k
  · exact k

theorem Dev.reacts.snsStride {st : SafSet} : d0.reacts le h (d.snsStride h st) := by
  refine foldl_invariant (K := d0.reacts le h) _ (fun d x _ k => ?_) k
  extract_lets v e n
  have he : d0.reacts le h e := k.edit
  clear_value e
  split
  next hblind =>
    obtain rfl : h = true := (Bool.and_eq_true_iff.1 hblind).1
    exact he.fault.raiseS.ss1All
  next => exact he

theorem Dev.reacts.pulseStart : d0.reacts le h (d.pulseStart h) := by
  unfold Dev.pulseStart
  exact k.edit

end

theorem sphereReact_reacts (k : d0.reacts le true d) (near : Option Nat) : d0.reacts le true (d.sphereReact near) := by
  unfold Dev.sphereReact
  split
  · exact ((k.fault.countS (by decide)).raiseS).ss1All
  · exact k

theorem sphereMonitor_reacts (k : d0.reacts le true d) (st : SafSet) : d0.reacts le true (d.sphereMonitor st) := by
  unfold Dev.sphereMonitor
  dsimp only
  split
  · exact k.edit
  · exact sphereReact_reacts k.edit _

theorem approachMonitor_reacts (k : d0.reacts le false d) (st : SafSet) (t : Nat) : d0.reacts le false (d.approachMonitor st t) := by
  unfold Dev.approachMonitor
  split
  · exact k
  · refine foldl_invariant (K := d0.reacts le false) _ (fun d e _ k => ?_) k
    dsimp only
    split
    · exact k.violateSs1
    · exact k

theorem windowMonitor_reacts (k : d0.reacts le false d) (st : SafSet) (plan : Option Plan) (t : Nat) :
    d0.reacts le false (d.windowMonitor st plan t) := by
  unfold Dev.windowMonitor
  split
  · exact k
  · refine foldl_invariant (K := d0.reacts le false) _ (fun d j _ k => ?_) k
    split
    · split
      · exact k.violateSs1
      · exact k
    · exact k

theorem limitChecks_reacts (k : d0.reacts le h d) (st : SafSet) (plan : Option Plan) (t : Nat) :
    d0.reacts le h (d.limitChecks h st plan t) := by
  have hsns : d0.reacts le h (if d.time.bis = 1 then d.snsStride h st else d) := by
    split
    · exact k.snsStride
    · exact k
  unfold Dev.limitChecks
  cases h
  · exact windowMonitor_reacts (approachMonitor_reacts hsns st t) st plan t
  · exact sphereMonitor_reacts hsns st

theorem arm_updArm_keeps (c : Channel) (a : Nat) {f : ArmRt → ArmRt} (hf : ∀ r, (f r).st = r.st ∧ (f r).covered = r.covered) :
    ((c.updArm a f).arm a).st = (c.arm a).st ∧ ((c.updArm a f).arm a).covered = (c.arm a).covered := by
  rw [arm_eq_getD, arm_eq_getD, show (c.updArm a f).arms[a]? = _ from updAt_same _ _ _]
  cases c.arms[a]? with
  | none => exact ⟨rfl, rfl⟩
  | some r => exact hf r

/-- The monitoring of SS1 lets an arm go into HOLD at its standstill only where no request covers it (R238). -/
theorem armMonitor_reacts (k : d0.reacts False h d) (st : SafSet) (a : Nat) (el : Option Nat) :
    d0.reacts False h (d.armMonitor h st a el) := by
  unfold Dev.armMonitor
  extract_lets c r tramp js
  split
  next ns hss1 =>
    split
    · exact k.violate.reqSto
    next slow n e _ _ _ =>
      have he : d0.reacts False h e := k.updArm ⟨id, id, fun hc _ => hc⟩
      have harm : ((e.ch h).arm a).st = .ss1 ∧ ((e.ch h).arm a).covered = r.covered := by
        rw [show e.ch h = _ from ch_updCh d h _]
        obtain ⟨hst, hcov⟩ := arm_updArm_keeps (d.ch h) a (f := fun r => { r with still := n }) (fun _ => ⟨rfl, rfl⟩)
        exact ⟨hst.trans hss1, hcov⟩
      clear_value e
      obtain ⟨hst, hcov⟩ := harm
      split
      · split
        · exact he.toSto
        next hfree =>
          refine he.updArm ⟨fun hs => ?_, id, fun _ hc => ?_⟩
          · rw [hst] at hs
            cases hs
          · exact absurd (hcov.symm.trans (hc.resolve_left id)) hfree
      · exact he
  next =>
    split
    · exact k.violate.reqSto
    · exact k
  next => exact k

/-! ## SAFETY_BEAT in its order -/

/-- A channel notes its own count of cycles. -/
def Dev.noteCycles (d : Dev) (h : Bool) (cyc : Nat) : Dev := d.updCh h (fun c => { c with cyc := cyc, viol := 0 })

/-- A tick outside its bounds is a clock fault (R248). -/
def Dev.checkTick (d : Dev) (h : Bool) (cyc : Nat) : Dev := if tickOk h d.time.layout.beat cyc then d else d.clockFault h

/-- The main die asks SS1 of a channel, the Hedge over the cross-die link (R236). -/
def Dev.asked (d : Dev) (h : Bool) : Bool := if h then d.safety.ss1B && d.is CLK_XDIE else d.safety.ss1A

def Dev.answerAsked (d : Dev) (h : Bool) : Dev :=
  { d with safety := if h then { d.safety with ss1B := false } else { d.safety with ss1A := false } }

def Dev.takeAsked (d : Dev) (h : Bool) : Dev := if d.asked h then (d.answerAsked h).ss1All h else d

def Dev.noteRecord (d : Dev) (h : Bool) : Dev := if h then d else d.countNoRec

/-- The monitoring under a set, but for the off-pulses (R220, R237 to R243). -/
def Dev.monitorSet (d : Dev) (h : Bool) (st : SafSet) : Dev :=
  let own := (d.ch h).axes.any (·.got)
  let eb := if own then d.get HTL_BEAT else (d.get HTL_BEAT + 2 ^ 32 - 1) % 2 ^ 32
  let t := if own then d.time.beatAt else d.time.beatAt - d.time.layout.beat
  let plan := if own then d.planner.chanA.inForce else d.planner.endPlan
  let owed := (d.ch h).owed
  let d := (d.updCh h (fun c => { c with owed := 0 })).judgeAxes h owed
  let r := ((d.relatch h st).takeTe h).rampTime h eb
  let d := st.arms.foldl (fun (d : Dev) x => d.slsMonitor h st x) r.1
  let d := (List.range 8).foldl (fun (d : Dev) a => d.armMonitor h st a r.2) d
  d.limitChecks h st plan t

def Dev.monitored (d : Dev) (h : Bool) : Dev :=
  match d.setOf h with
  | none => d.takeTe h
  | some st => (d.monitorSet h st).pulseStart h

theorem safetyBeat_eq (d : Dev) (h : Bool) (cyc : Nat) :
    d.safetyBeat h cyc = ((((d.noteCycles h cyc).checkTick h cyc).takeAsked h).noteRecord h).monitored h := rfl

theorem monitorSet_reacts (d : Dev) (h : Bool) (st : SafSet) : d.reacts False h (d.monitorSet h st) := by
  unfold Dev.monitorSet
  extract_lets own eb t plan owed e r e1 e2
  have he : d.reacts False h e := Dev.reacts.judgeAxes (Dev.reacts.edit (reacts_refl d _ _))
  have hr : d.reacts False h r.1 := he.relatch.takeTe.rampTime
  have h1 : d.reacts False h e1 := foldl_invariant (K := d.reacts False h) _ (fun _ _ _ k => k.slsMonitor) hr
  have h2 : d.reacts False h e2 := foldl_invariant (K := d.reacts False h) _ (fun _ a _ k => armMonitor_reacts k st a r.2) h1
  exact limitChecks_reacts h2 st plan t

theorem monitored_reacts (d : Dev) (h : Bool) : d.reacts False h (d.monitored h) := by
  unfold Dev.monitored
  split
  · exact (reacts_refl d _ _).takeTe
  · exact (monitorSet_reacts d h _).pulseStart

theorem checkTick_reacts (d : Dev) (h : Bool) (cyc : Nat) : d.reacts False h (d.checkTick h cyc) := by
  unfold Dev.checkTick
  split
  · exact reacts_refl d _ _
  · exact (reacts_refl d _ _).clockFault

/-- An update of what the channels share, but for whether a set is in force. -/
theorem follows_shared (d : Dev) (le : Prop) (h : Bool) (x : SafetySt) (ha : x.a = d.safety.a) (hb : x.b = d.safety.b)
    (hi : x.inForce = d.safety.inForce) (he : x.hdgEv = d.safety.hdgEv) : d.follows le h { d with safety := x } := by
  have hch : ∀ g, Dev.ch { d with safety := x } g = d.ch g := fun g => by cases g <;> assumption
  refine ⟨keeps_safety (by decide) (keeps_refl d _ _), hch _, hi, ?_, fun s det hr => ?_⟩
  · rw [hch]
    exact .of_core rfl
  · cases h
    · exact hr
    · show _ ∈ x.hdgEv
      rw [he]
      exact hr

theorem answerAsked_follows (d : Dev) (h : Bool) : d.follows False h (d.answerAsked h) := by
  cases h
  · exact follows_shared d _ _ _ rfl rfl rfl rfl
  · exact follows_shared d _ _ _ rfl rfl rfl rfl

theorem takeAsked_follows (d : Dev) (h : Bool) : d.follows False h (d.takeAsked h) := by
  unfold Dev.takeAsked
  split
  · exact (answerAsked_follows d h).trans (reacts_refl _ _ _).ss1All.follows
  · exact (reacts_refl d _ _).follows

theorem noteRecord_follows (d : Dev) (h : Bool) : d.follows False h (d.noteRecord h) := by
  unfold Dev.noteRecord
  split
  · exact (reacts_refl d _ _).follows
  · exact follows_shared d _ _ _ rfl rfl rfl rfl

/-- The whole beat after the count of cycles. -/
theorem beat_follows (d : Dev) (h : Bool) (cyc : Nat) :
    (d.noteCycles h cyc).follows False h (d.safetyBeat h cyc) := by
  rw [safetyBeat_eq]
  exact (((checkTick_reacts _ h cyc).follows.trans (takeAsked_follows _ h)).trans (noteRecord_follows _ h)).trans
    (monitored_reacts _ h).follows

/-! ## What a beat brings about -/

/-- A tick outside its bounds puts every arm into STO (R248). -/
theorem beat_clockFailed (d : Dev) {h : Bool} {cyc : Nat} (ht : tickOk h d.time.layout.beat cyc = false) :
    (d.safetyBeat h cyc).clockFailed h := by
  have hfail : ((d.noteCycles h cyc).checkTick h cyc).clockFailed h := by
    rw [show (d.noteCycles h cyc).checkTick h cyc = (d.noteCycles h cyc).clockFault h from if_neg (Bool.eq_false_iff.1 ht)]
    exact clockFault_failed _ h
  rw [safetyBeat_eq]
  exact (((takeAsked_follows _ h).trans (noteRecord_follows _ h)).trans (monitored_reacts _ h).follows).clockFailed hfail

theorem reacts_asked {d' : Dev} (k : d.reacts le h d') : d'.asked h = d.asked h := by
  unfold Dev.asked
  rw [k.ss1B, k.ss1A, k.follows.is (by decide)]

/-- The SS1 request of the main die to a channel. -/
def Dev.askFlag (d : Dev) (h : Bool) : Bool := if h then d.safety.ss1B else d.safety.ss1A

theorem reacts_askFlag {d' : Dev} (k : d.reacts le h d') : d'.askFlag h = d.askFlag h := by
  unfold Dev.askFlag
  rw [k.ss1B, k.ss1A]

theorem noteRecord_askFlag (d : Dev) (h : Bool) : (d.noteRecord h).askFlag h = d.askFlag h := by
  cases h <;> rfl

/-- An SS1 request of the main die takes every arm, covered, and is answered (R236). -/
theorem beat_takesAsked {cyc : Nat} (ha : d.asked h = true) :
    (∀ a, a < 8 → (((d.safetyBeat h cyc).ch h).arm a).taken true) ∧ (d.safetyBeat h cyc).askFlag h = false := by
  set e := (d.noteCycles h cyc).checkTick h cyc
  have hasked : e.asked h = true := by
    rw [reacts_asked (checkTick_reacts (d.noteCycles h cyc) h cyc)]
    cases h <;> exact ha
  have htake : e.takeAsked h = (e.answerAsked h).ss1All h := if_pos hasked
  have hrest := monitored_reacts ((e.takeAsked h).noteRecord h) h
  rw [safetyBeat_eq]
  refine ⟨fun a ha8 => ((noteRecord_follows _ h).trans hrest.follows).taken (.inr rfl) ?_, ?_⟩
  · rw [htake]
    exact ss1All_taken ha8 _
  · rw [reacts_askFlag hrest, noteRecord_askFlag, htake, reacts_askFlag (reacts_refl (e.answerAsked h) True h).ss1All]
    cases h <;> rfl

/-- The beats without a record in force, one more or none (R241). -/
def Dev.noRecAfter (d : Dev) : Nat :=
  if (d.plState = 1 ∨ d.plState = 2) ∧ d.recordAt d.time.beatAt = none then d.safety.noRec + 1 else 0

theorem countNoRec_eq (d : Dev) : d.countNoRec = { d with safety := { d.safety with noRec := d.noRecAfter } } := by
  have hcond : ((decide (d.plState = 1) || decide (d.plState = 2)) && (d.recordAt d.time.beatAt).isNone) = true ↔
      (d.plState = 1 ∨ d.plState = 2) ∧ d.recordAt d.time.beatAt = none := by
    simp
  exact congrArg (fun n => { d with safety := { d.safety with noRec := n } }) (if_congr hcond rfl rfl)

theorem noRecAfter_congr {d' : Dev} (hpl : d'.plState = d.plState) (ht : d'.time = d.time) (hr : d'.safety.recs = d.safety.recs)
    (hn : d'.safety.noRec = d.safety.noRec) : d'.noRecAfter = d.noRecAfter := by
  unfold Dev.noRecAfter Dev.recordAt
  rw [hpl, ht, hr, hn]

theorem takeAsked_records (d : Dev) (h : Bool) :
    (d.takeAsked h).safety.recs = d.safety.recs ∧ (d.takeAsked h).safety.noRec = d.safety.noRec := by
  unfold Dev.takeAsked
  split
  · have hs := (reacts_refl (d.answerAsked h) True h).ss1All
    refine ⟨hs.recs.trans ?_, hs.noRec.trans ?_⟩
    · cases h <;> rfl
    · cases h <;> rfl
  · exact ⟨rfl, rfl⟩

theorem takeAsked_noRecAfter (d : Dev) (h : Bool) : (d.takeAsked h).noRecAfter = d.noRecAfter :=
  noRecAfter_congr ((takeAsked_follows d h).get (by decide)) ((takeAsked_follows d h).frame.1 .time (by decide))
    (takeAsked_records d h).1 (takeAsked_records d h).2

theorem reacts_noRecAfter {d' : Dev} (k : d.reacts le h d') : d'.noRecAfter = d.noRecAfter :=
  noRecAfter_congr (k.follows.get (by decide)) (k.follows.frame.1 .time (by decide)) k.recs k.noRec

theorem noteRecord_noRec (d : Dev) : (d.noteRecord false).safety.noRec = d.noRecAfter := by
  rw [show d.noteRecord false = d.countNoRec from if_neg (by decide), countNoRec_eq]

theorem noteCycles_noRecAfter (d : Dev) (h : Bool) (cyc : Nat) : (d.noteCycles h cyc).noRecAfter = d.noRecAfter := by
  refine noRecAfter_congr (get_updCh d h _ SLV_PLSTATE) rfl ?_ ?_
  · cases h <;> rfl
  · cases h <;> rfl

theorem beat_noRec (d : Dev) (cyc : Nat) : (d.safetyBeat false cyc).safety.noRec = d.noRecAfter := by
  rw [safetyBeat_eq, (monitored_reacts _ false).noRec, noteRecord_noRec, takeAsked_noRecAfter,
    reacts_noRecAfter (checkTick_reacts _ false cyc), noteCycles_noRecAfter]

/-- Side n has its off-pulse test in this beat (R231). -/
def Dev.pulseDue (d : Dev) (h : Bool) (n : Nat) : Prop :=
  d.get HTL_BEAT % (1000000000 / d.time.layout.beat) =
    (2 * n + (if h then 1 else 0)) * (1000000000 / d.time.layout.beat) / 32 ∧ bitOf (d.ch h).cmd n = true

theorem pulseStart_pulse {n : Nat} (hn : n < 16) (hd : d.pulseDue h n) : bitOf ((d.pulseStart h).ch h).pulse n = true := by
  obtain ⟨hbeat, hcmd⟩ := hd
  unfold Dev.pulseStart
  rw [ch_updCh]
  simp only [bitOf_unionMask, bitOf_maskOf, contains_range_filter, hn, hcmd, decide_true, Bool.and_true, beq_iff_eq.2 hbeat,
    Bool.or_true]

theorem follows_pulseDue {d' : Dev} (k : d.follows le h d') {n : Nat} (hd : d.pulseDue h n) : d'.pulseDue h n := by
  have ht : d'.time = d.time := k.frame.1 .time (by decide)
  unfold Dev.pulseDue at *
  rwa [k.get (by decide), ht, k.cmd]

theorem beat_pulses {cyc n : Nat} {st : SafSet} (hs : d.setOf h = some st) (hn : n < 16) (hd : d.pulseDue h n) :
    bitOf ((d.safetyBeat h cyc).ch h).pulse n = true := by
  have hfollow := ((checkTick_reacts (d.noteCycles h cyc) h cyc).follows.trans (takeAsked_follows _ h)).trans (noteRecord_follows _ h)
  rw [safetyBeat_eq]
  set e := (((d.noteCycles h cyc).checkTick h cyc).takeAsked h).noteRecord h
  have hset : e.setOf h = some st := hfollow.setOf.trans ((setOf_updCh d h _ rfl).trans hs)
  have hdue : (d.noteCycles h cyc).pulseDue h n := by
    obtain ⟨hbeat, hcmd⟩ := hd
    exact ⟨hbeat, by rw [Dev.noteCycles, ch_updCh]; exact hcmd⟩
  unfold Dev.monitored
  rw [hset]
  exact pulseStart_pulse hn (follows_pulseDue (hfollow.trans (monitorSet_reacts e h st).follows) hdue)

/-! ## The clauses on a beat -/

theorem settle_cyc (d : Dev) (h : Bool) : ((d.settle h).ch h).cyc = (d.ch h).cyc := by
  obtain ⟨cmd, pulse, rb, hown⟩ := settle_own d h
  rw [hown]
  cases d.setOf h <;> rfl

theorem settle_stopped {mask : Nat} (hs : d.stopped h mask) : (d.settle h).stopped h mask := fun a ha hm => by
  rw [settle_st]
  exact hs a ha hm

theorem settle_askFlag (d : Dev) (h : Bool) : (d.settle h).askFlag h = d.askFlag h := by
  unfold Dev.askFlag
  rw [settle_common]

theorem settle_noRec (d : Dev) (h : Bool) : (d.settle h).safety.noRec = d.safety.noRec := by
  rw [settle_common]

theorem begun_noRecAfter (s : State) : s.begun.noRecAfter = s.dev.noRecAfter :=
  noRecAfter_congr (get_withOut s.dev [] SLV_PLSTATE) rfl rfl rfl

theorem begun_pulseDue (s : State) (h : Bool) (n : Nat) : s.begun.pulseDue h n ↔ s.dev.pulseDue h n := by
  unfold Dev.pulseDue
  rw [show s.begun.get HTL_BEAT = s.dev.get HTL_BEAT from get_withOut _ _ _]
  rfl

theorem safetyBeat_monitors (hup : s.dev.chUp h = true) (cyc : Nat) : Completes (.safetyBeat h cyc) s (fun d =>
    (d.ch h).cyc = cyc ∧ s.dev.onlyChannel d h ∧
    (tickOk h s.dev.time.layout.beat cyc = false → d.clockFailed h) ∧
    (s.dev.asked h = true → d.stopped h 0xFF ∧ d.askFlag h = false) ∧
    (h = false → d.safety.noRec = s.dev.noRecAfter) ∧
    (∀ st n, n < 16 → s.dev.setOf h = some st → s.dev.pulseDue h n → bitOf (s.dev.ch h).clearing n = false →
      d.sideHigh h n = false ∧ bitOf (d.ch h).pulse n = bitOf (d.wantSides h) n)) := by
  refine completes_safe hup (f := (·.safetyBeat h cyc)) rfl ?_
  have hbeat := beat_follows s.begun h cyc
  refine ⟨?_, onlyChannel_settle (onlyChannel_trans (onlyChannel_updCh rfl) hbeat.onlyChannel),
    fun ht => settle_clockFailed (beat_clockFailed _ ht), fun ha => ?_, fun hh => ?_, fun st n hn hs hd hc => ?_⟩
  · rw [settle_cyc, hbeat.cyc, Dev.noteCycles, ch_updCh]
  · obtain ⟨htaken, hflag⟩ := beat_takesAsked (d := s.begun) (cyc := cyc) ha
    exact ⟨settle_stopped fun a ha8 _ => (htaken a ha8).1, (settle_askFlag _ h).trans hflag⟩
  · subst hh
    rw [settle_noRec, beat_noRec, begun_noRecAfter]
  · have hpulse := beat_pulses (cyc := cyc) (show s.begun.setOf h = some st from hs) hn ((begun_pulseDue s h n).2 hd)
    have hclear : bitOf ((s.begun.safetyBeat h cyc).ch h).clearing n = false := by
      rw [hbeat.clearing, Dev.noteCycles, ch_updCh]
      exact hc
    refine ⟨?_, ?_⟩
    · rw [settle_sideHigh, hpulse, hclear, Bool.not_true, Bool.and_false, Bool.and_false, Bool.or_false]
    · rw [settle_pulse, hpulse, Bool.true_and]

/-! ## NO_RECORD -/

theorem noRecord_run {post : Dev → Prop} (hup : s.dev.chUp false = true)
    (hp : post ((if 2 ≤ s.dev.safety.noRec then ((s.begun.fault false 6 0xFF).raiseS false 11 noDetail).ss1All false else s.begun).settle false)) :
    Completes .noRecord s post := completes_safe hup rfl hp

theorem noRecord_stops (hup : s.dev.chUp false = true) (hn : 2 ≤ s.dev.safety.noRec) : Completes .noRecord s (fun d =>
    d.stopped false 0xFF ∧ bitOf (d.ch false).faults 6 = true ∧ d.raisedS false 11 noDetail ∧ s.dev.onlyChannel d false) := by
  refine noRecord_run hup ?_
  rw [if_pos hn]
  have hreact := (reacts_refl s.begun True false).fault (cls := 6) (mask := 0xFF) |>.raiseS (s := 11) (det := noDetail) |>.ss1All
  obtain ⟨hbit, hraised⟩ := fault_latched (d := s.begun) (mask := 0xFF) (src := 11) (det := noDetail) (cls := 6) (le := True) (h := false)
    (by decide) (reacts_refl _ _ _) (reacts_refl _ _ _).ss1All
  exact ⟨settle_stopped fun a ha _ => (ss1All_taken ha _).1, by rwa [settle_faults], settle_raisedS hraised,
    onlyChannel_settle hreact.follows.onlyChannel⟩

theorem noRecord_waits (hup : s.dev.chUp false = true) (hn : s.dev.safety.noRec < 2) : Completes .noRecord s (fun d =>
    (∀ a, ((d.ch false).arm a).st = ((s.dev.ch false).arm a).st) ∧ s.dev.only d [.safety] safaRegs) := by
  refine noRecord_run hup ?_
  rw [if_neg (by omega)]
  exact (settle_quiet s false).2

/-! ## SEP_RECORD_RECEIVE -/

/-- A separation record is accepted: intact, newer than the last, for the set in force (R240). -/
def Dev.acceptsRecord (d : Dev) (intact : Bool) (r : SepRecord) : Bool :=
  intact && (match d.safety.recs with | q :: _ => newer 32 r.rseq q.rseq | [] => true) &&
    ((d.setOf false).map (·.seppcrc) == some r.seppcrc)

/-- Channel A has taken what it was sent, with a record in it or none. -/
def Dev.takeSepRecord (d : Dev) (intact : Bool) : Option SepRecord → Dev
  | none => { d with commons := { d.commons with sent := [] } }
  | some r => if d.acceptsRecord intact r
    then { d with commons := { d.commons with sent := [] }, safety := { d.safety with recs := (r :: d.safety.recs).take 2 } }
    else { d with commons := { d.commons with sent := [] } }

theorem takeSepRecord_effect (d : Dev) (intact : Bool) (r : Option SepRecord) :
    (d.takeSepRecord intact r).commons = { d.commons with sent := [] } ∧
    (d.takeSepRecord intact r).safety.recs =
      (match r with
       | none => d.safety.recs
       | some r => if d.acceptsRecord intact r then (r :: d.safety.recs).take 2 else d.safety.recs) ∧
    d.keeps (d.takeSepRecord intact r) (· ∈ [.safety, .commons]) (fun _ => False) := by
  have hsent : d.keeps { d with commons := { d.commons with sent := [] } } (· ∈ [.safety, .commons]) (fun _ => False) :=
    keeps_commons (by decide) (keeps_refl d _ _)
  cases r with
  | none => exact ⟨rfl, rfl, hsent⟩
  | some r =>
    unfold Dev.takeSepRecord
    dsimp only
    split
    · exact ⟨rfl, rfl, keeps_safety (by decide) hsent⟩
    · exact ⟨rfl, rfl, hsent⟩

theorem sepRecordReceive_takes (hup : s.dev.chUp false = true) (intact : Bool) : Completes (.sepRecordReceive intact) s (fun d =>
    d.commons = { s.dev.commons with sent := [] } ∧
    (sepParse s.dev.commons.sent.flatten = none → d.safety.recs = s.dev.safety.recs) ∧
    (∀ r, sepParse s.dev.commons.sent.flatten = some r →
      d.safety.recs = if s.dev.acceptsRecord intact r then (r :: s.dev.safety.recs).take 2 else s.dev.safety.recs) ∧
    s.dev.only d [.safety, .commons] safaRegs) := by
  have hrun : ∀ d : Dev, (match sepParse d.commons.sent.flatten with
      | none => { d with commons := { d.commons with sent := [] } }
      | some r =>
        let d := { d with commons := { d.commons with sent := [] } }
        let want := (d.setOf false).map (·.seppcrc)
        let newerSeq := match d.safety.recs with | q :: _ => newer 32 r.rseq q.rseq | [] => true
        if intact && newerSeq && want == some r.seppcrc then
          { d with safety := { d.safety with recs := (r :: d.safety.recs).take 2 } }
        else d) = d.takeSepRecord intact (sepParse d.commons.sent.flatten) := fun d => by
    cases sepParse d.commons.sent.flatten <;> rfl
  refine completes_safe hup (f := fun d => d.takeSepRecord intact (sepParse d.commons.sent.flatten)) ?_ ?_
  · simp only [← hrun]
    rfl
  rw [show s.begun.commons.sent = s.dev.commons.sent from rfl]
  obtain ⟨hsent, hrecs, hkeeps⟩ := takeSepRecord_effect s.begun intact (sepParse s.dev.commons.sent.flatten)
  have hsettle := settle_keeps (s.begun.takeSepRecord intact (sepParse s.dev.commons.sent.flatten)) false
  refine ⟨(hsettle.1 .commons (by decide)).trans hsent, fun hp => ?_, fun r hp => ?_,
    keeps_only (keeps_from_out (keeps_trans (keeps_mono hkeeps (fun _ hp => hp) (fun _ ho => ho.elim))
      (keeps_mono hsettle (fun _ hp => by rw [hp]; decide) (fun _ ho => ho))))⟩
  · rw [hp] at hrecs
    rw [settle_common, hp]
    exact hrecs
  · rw [hp] at hrecs
    rw [settle_common, hp]
    exact hrecs

end Sys2Proof.Machine
end

section
/-! PROOFS. The receipt of a verdict (R245 to R248): what a channel takes of the other's verdict, and when it disagrees. -/

namespace Sys2Proof.Machine

variable {d d0 : Dev} {s : State} {h : Bool} {le : Prop} {st : Option SafSet} {v : List Byte}

/-! ## The states of the arms in a verdict -/

/-- Function state of an arm in a verdict (Table — Verdict). -/
def verdictSt (v : List Byte) (a : Nat) : FState := fstateOf (uAt v (0x10 + a) 1 % 4)

/-- Arms that a verdict shows latched and the channel does not. -/
def Dev.latchNews (d : Dev) (h : Bool) (v : List Byte) : Nat :=
  maskOf ((List.range 8).filter (fun a => bitOf (uAt v (0x10 + a) 1) 7 && !(d.ch h).latchedArm a))

/-- Pairs that demand in a verdict, with the arms they act on. -/
def verdictDemands (st : Option SafSet) (v : List Byte) : List (Nat × Nat) :=
  (List.range 16).filterMap (fun i => match st.bind (fun s => s.pairs[i]?) with
    | some p => if latches p.type && uAt v 0xC 4 / 4 ^ i % 4 != 0 then some (i, p.armmask) else none
    | none => none)

/-- The latch bits of a verdict go to its pairs and to the arms (R246). -/
def Dev.mergeLatches (d : Dev) (h : Bool) (st : Option SafSet) (v : List Byte) : Dev :=
  let lat := d.latchNews h v
  let mine := verdictDemands st v
  let d := mine.foldl (fun (d : Dev) x => d.updCh h (fun c => c.updPair x.1 (fun r =>
    { r with lat := unionMask r.lat (minusMask lat (minusMask lat x.2)) }))) d
  d.latchArms h (mine.foldl (fun m x => minusMask m x.2) lat)

/-- Arms in STO in a verdict go there in the channel too. -/
def Dev.mergeSto (d : Dev) (h : Bool) (v : List Byte) : Dev :=
  d.toSto h (maskOf ((List.range 8).filter (fun a => verdictSt v a == .sto && ((d.ch h).arm a).st != .sto)))

/-- Arms in SS1 in a verdict that are in neither SS1 nor STO. -/
def Dev.ss1News (d : Dev) (h : Bool) (v : List Byte) : Nat :=
  maskOf ((List.range 8).filter (fun a => verdictSt v a == .ss1 && decide (((d.ch h).arm a).st.code < 2)))

def Dev.mergeSs1 (d : Dev) (h : Bool) (v : List Byte) : Dev :=
  if d.ss1News h v = 0 then d else d.enterSs1 h (unionMask (d.ss1News h v) d.presentArms) 0

/-- An arm takes HOLD from a verdict, and that its SS1 is a request's. -/
def ArmRt.mergeHold (r : ArmRt) (v : List Byte) (a : Nat) : ArmRt :=
  { r with st := r.st.stricter (if verdictSt v a = .hold then .hold else .run),
           covered := r.covered || (r.st == .ss1 && bitOf (uAt v (0x10 + a) 1) 7) }

def Dev.mergeHolds (d : Dev) (h : Bool) (v : List Byte) : Dev :=
  (List.range 8).foldl (fun (d : Dev) a => d.updCh h (fun c => c.updArm a (ArmRt.mergeHold · v a))) d

theorem mergeArms_eq (d : Dev) (h : Bool) (st : Option SafSet) (v : List Byte) :
    d.mergeArms h st v = (((d.mergeLatches h st v).mergeSto h v).mergeSs1 h v).mergeHolds h v := rfl

theorem mergeHold_tightens (r : ArmRt) (v : List Byte) (a : Nat) : r.tightens le (r.mergeHold v a) := by
  refine ⟨fun hs => ?_, fun hc => ?_, fun hc _ => ?_⟩
  · show r.st.stricter _ = .sto
    rw [hs, stricter_sto]
  · show (r.covered || _) = true
    rw [hc, Bool.true_or]
  · show 2 ≤ (r.st.stricter _).code
    rw [stricter_code]
    exact le_trans hc (le_max_left _ _)

section
variable (k : d0.reacts le h d)
include k

theorem Dev.reacts.mergeLatches : d0.reacts le h (d.mergeLatches h st v) :=
  Dev.reacts.latchArms (foldl_invariant (K := d0.reacts le h) _ (fun _ _ _ k => k.edit) k)

theorem Dev.reacts.mergeSto : d0.reacts le h (d.mergeSto h v) := k.toSto

theorem Dev.reacts.mergeSs1 : d0.reacts le h (d.mergeSs1 h v) := by
  unfold Dev.mergeSs1
  split
  · exact k
  · exact k.enterSs1

theorem Dev.reacts.mergeHolds : d0.reacts le h (d.mergeHolds h v) :=
  foldl_invariant (K := d0.reacts le h) _ (fun _ a _ k => k.updArm (f := (ArmRt.mergeHold · v a)) (mergeHold_tightens _ v a)) k

theorem Dev.reacts.mergeArms : d0.reacts le h (d.mergeArms h st v) := k.mergeLatches.mergeSto.mergeSs1.mergeHolds

theorem Dev.reacts.mergeAxes {x : SafSet} : d0.reacts le h (d.mergeAxes h x v) := by
  refine foldl_invariant (K := d0.reacts le h) _ (fun d j _ k => ?_) k
  split
  · exact k
  · extract_lets one both old e e1 e2
    have he : d0.reacts le h e := k.edit
    clear_value e
    have h1 : d0.reacts le h e1 := by
      unfold e1
      split
      · exact he.countS (by decide)
      · exact he
    clear_value e1
    have h2 : d0.reacts le h e2 := by
      unfold e2
      split
      · exact h1.telegramErr
      · exact h1
    clear_value e2
    split
    · exact h2.axisRefused
    · exact h2

omit k in
/-- After the states of the arms a verdict brings refused axes and faults. -/
theorem mergeVerdict_after (d : Dev) (h : Bool) (st : Option SafSet) (v : List Byte) :
    (d.mergeArms h st v).reacts le h (d.mergeVerdict h st v) := by
  refine foldl_invariant (K := (d.mergeArms h st v).reacts le h) _ (fun d n _ k => ?_) ?_
  · split
    · exact k
    · exact k.fault
  · cases st with
    | none => exact reacts_refl _ _ _
    | some x => exact (reacts_refl _ _ _).mergeAxes

theorem Dev.reacts.mergeVerdict : d0.reacts le h (d.mergeVerdict h st v) := k.mergeArms.trans (mergeVerdict_after d h st v)

theorem Dev.reacts.comparePairs {x : SafSet} : d0.reacts le h (d.comparePairs h x v) := by
  have hlevels := foldl_invariant (K := d0.reacts le h) (f := fun (d : Dev) i =>
    d.updCh h (fun c => c.updPair i (fun r => { r with disc := r.level != bitOf (uAt v 8 2) i }))) (List.range 16)
    (fun _ _ _ k => k.edit) k
  exact foldl_invariant (K := d0.reacts le h) _ (fun _ _ _ k => k.edit) hlevels

end

/-- After the merge an arm is at least as strict as SS1 or STO in the verdict (R246). -/
theorem mergeArms_follows {a : Nat} (ha : a < 8) (d : Dev) (h : Bool) (st : Option SafSet) (v : List Byte) :
    (verdictSt v a = .sto → (((d.mergeArms h st v).ch h).arm a).st = .sto) ∧
    (verdictSt v a = .ss1 → 2 ≤ (((d.mergeArms h st v).ch h).arm a).st.code) := by
  rw [mergeArms_eq]
  set e := d.mergeLatches h st v
  refine ⟨fun hv => ?_, fun hv => ?_⟩
  · refine (reacts_refl (e.mergeSto h v) True h).mergeSs1.mergeHolds.follows.sto ?_
    by_cases hs : ((e.ch h).arm a).st = .sto
    · exact (reacts_refl e True h).mergeSto.follows.sto hs
    · refine toSto_sto ha ?_ e
      rw [bitOf_maskOf, contains_range_filter, hv, bne_iff_ne.2 hs, decide_eq_true ha]
      rfl
  · refine ((reacts_refl ((e.mergeSto h v).mergeSs1 h v) True h).mergeHolds.follows.taken (cov := false) (.inl trivial) ?_).1
    by_cases hs : 2 ≤ (((e.mergeSto h v).ch h).arm a).st.code
    · exact (reacts_refl (e.mergeSto h v) True h).mergeSs1.follows.taken (.inl trivial) ⟨hs, fun hc => by cases hc⟩
    · have hbit : bitOf ((e.mergeSto h v).ss1News h v) a = true := by
        rw [Dev.ss1News, bitOf_maskOf, contains_range_filter, hv, decide_eq_true ha, decide_eq_true (by omega)]
        rfl
      have hnews : (e.mergeSto h v).ss1News h v ≠ 0 := fun hz => by rw [hz, bitOf_zero] at hbit; cases hbit
      have hmask : bitOf (unionMask ((e.mergeSto h v).ss1News h v) (e.mergeSto h v).presentArms) a = true := by
        rw [bitOf_unionMask, hbit, decide_eq_true (by omega)]
        rfl
      rw [Dev.mergeSs1, if_neg hnews]
      exact ⟨(enterSs1_taken ha hmask _ 0).1, fun hc => by cases hc⟩

/-! ## VERDICT_RECEIVE in its order -/

/-- A verdict that passes its CRC. -/
def intactVerdict (v : Option (List Byte)) : Option (List Byte) := v.filter (fun b => b.length == 64 && crc16 (b.take 62) == uAt b 62 2)

/-- The channel notes a verdict, or that one is missing. -/
def Dev.noteVerdict (d : Dev) (h : Bool) : Option (List Byte) → Dev
  | some b => d.updCh h (fun c => { c with verMiss := 0, lastVerdict := b })
  | none => ((d.countS h 6).fault h 10 0xFF).updCh h (fun c => { c with verMiss := c.verMiss + 1 })

/-- The channel merges a verdict and compares its pairs, where it has one. -/
def Dev.useVerdict (d : Dev) (h : Bool) (st : Option SafSet) (use : List Byte) : Dev :=
  let d := if use.isEmpty then d else d.mergeVerdict h st use
  match st with
  | some s => if use.isEmpty then d else d.comparePairs h s use
  | none => d

/-- The channel disagrees with the other (R247). -/
def Dev.disagrees (d : Dev) (h : Bool) (st : Option SafSet) (ok : Option (List Byte)) : Bool :=
  (match ok with
    | some b => uAt b 0 4 != d.get HTL_BEAT || uAt b 4 4 != (st.map (·.setcrc)).getD 0
    | none => decide (2 ≤ (d.ch h).verMiss)) || (d.ch h).axes.any (fun x => decide (3 ≤ x.oneSided))

def Dev.answerVerdict (d : Dev) (h : Bool) (st : Option SafSet) (ok : Option (List Byte)) : Dev :=
  if d.disagrees h st ok then (d.doubleFault h).disagree h else d

/-- Channel A checks the Hedge's oscillator. -/
def Dev.checkOsc (d : Dev) (h : Bool) (ok : Option (List Byte)) : Dev :=
  match h, ok with
  | false, some b => if oscOk d.time.layout.beat b then d else d.clockFault false
  | _, _ => d

theorem verdictReceive_eq (d : Dev) (h : Bool) (v : Option (List Byte)) : d.verdictReceive h v =
    (((d.noteVerdict h (intactVerdict v)).useVerdict h ((d.noteVerdict h (intactVerdict v)).setOf h)
      ((intactVerdict v).getD (d.ch h).lastVerdict)).answerVerdict h ((d.noteVerdict h (intactVerdict v)).setOf h)
      (intactVerdict v)).checkOsc h (intactVerdict v) := by
  unfold Dev.verdictReceive intactVerdict
  cases h <;> cases v.filter (fun b => b.length == 64 && crc16 (b.take 62) == uAt b 62 2) <;> rfl

/-- After the merge a verdict is compared with the pairs. -/
theorem useVerdict_after (d : Dev) (h : Bool) (st : Option SafSet) {use : List Byte} (hu : use.isEmpty = false) :
    (d.mergeVerdict h st use).reacts True h (d.useVerdict h st use) := by
  unfold Dev.useVerdict
  rw [hu]
  cases st with
  | none => exact reacts_refl _ _ _
  | some x => exact (reacts_refl _ _ _).comparePairs

theorem useVerdict_reacts (d : Dev) (h : Bool) (st : Option SafSet) (use : List Byte) : d.reacts True h (d.useVerdict h st use) := by
  cases hu : use.isEmpty
  · exact (reacts_refl d _ _).mergeVerdict.trans (useVerdict_after d h st hu)
  · unfold Dev.useVerdict
    rw [hu]
    cases st <;> exact reacts_refl d _ _

theorem follows_raise (d : Dev) (le : Prop) (h : Bool) (src det : Nat) : d.follows le h (d.raise src det) := by
  refine ⟨keeps_raise (by decide) (keeps_refl d _ _), rfl, rfl, .of_core rfl, fun n e hr => ?_⟩
  cases h
  · exact List.mem_append_left _ hr
  · exact hr

theorem requestSs1_follows (d : Dev) (le : Prop) (h : Bool) : d.follows le h d.requestSs1 := follows_shared d _ _ _ rfl rfl rfl rfl

/-- A double fault asks the stop of both channels and of the planner and changes no channel (R137, R247). -/
theorem doubleFault_follows (d : Dev) (h : Bool) : d.follows True h (d.doubleFault h) := by
  unfold Dev.doubleFault
  split
  · exact ((reacts_refl d True h).stopRequest.follows.trans (requestSs1_follows _ _ _)).trans (follows_raise _ _ _ _ _)
  · exact (reacts_refl d _ _).follows

theorem answerVerdict_follows (d : Dev) (h : Bool) (st : Option SafSet) (ok : Option (List Byte)) :
    d.follows True h (d.answerVerdict h st ok) := by
  unfold Dev.answerVerdict
  split
  · exact (doubleFault_follows d h).trans (reacts_refl _ _ _).disagree.follows
  · exact (reacts_refl d _ _).follows

theorem checkOsc_reacts (d : Dev) (h : Bool) (ok : Option (List Byte)) : d.reacts True h (d.checkOsc h ok) := by
  unfold Dev.checkOsc
  split
  · split
    · exact reacts_refl d _ _
    · exact (reacts_refl d _ _).clockFault
  · exact reacts_refl d _ _

/-- What follows once a verdict, or its absence, is noted. -/
theorem verdictReceive_follows (d : Dev) (h : Bool) (v : Option (List Byte)) :
    (d.noteVerdict h (intactVerdict v)).follows True h (d.verdictReceive h v) := by
  rw [verdictReceive_eq]
  exact ((useVerdict_reacts _ h _ _).follows.trans (answerVerdict_follows _ h _ _)).trans (checkOsc_reacts _ h _).follows

theorem noteVerdict_onlyChannel (d : Dev) (h : Bool) (ok : Option (List Byte)) : d.onlyChannel (d.noteVerdict h ok) h := by
  cases ok with
  | some b => exact onlyChannel_updCh rfl
  | none =>
    exact onlyChannel_trans ((reacts_refl d True h).countS (i := 6) (by decide) |>.fault (cls := 10) (mask := 0xFF)).follows.onlyChannel
      (onlyChannel_updCh rfl)

theorem disagree_stops (d : Dev) (h : Bool) : (d.disagree h).stopped h 0xFF ∧ bitOf ((d.disagree h).ch h).faults 7 = true := by
  obtain ⟨hbit, -⟩ := fault_latched (d := d) (le := True) (h := h) (cls := 7) (mask := 0xFF) (src := 12) (det := noDetail) (by decide)
    ((reacts_refl _ _ _).countS (i := 5) (by decide)) (reacts_refl _ _ _).ss1All
  exact ⟨fun a ha _ => (ss1All_taken ha _).1, hbit⟩

/-- A disagreement stops every arm and latches its fault (R247). -/
theorem verdictReceive_disagrees {v : Option (List Byte)}
    (hd : ((d.noteVerdict h (intactVerdict v)).useVerdict h ((d.noteVerdict h (intactVerdict v)).setOf h)
      ((intactVerdict v).getD (d.ch h).lastVerdict)).disagrees h ((d.noteVerdict h (intactVerdict v)).setOf h) (intactVerdict v) = true) :
    (d.verdictReceive h v).stopped h 0xFF ∧ bitOf ((d.verdictReceive h v).ch h).faults 7 = true := by
  rw [verdictReceive_eq, Dev.answerVerdict, if_pos hd]
  obtain ⟨hstop, hbit⟩ := disagree_stops (((d.noteVerdict h (intactVerdict v)).useVerdict h ((d.noteVerdict h (intactVerdict v)).setOf h)
      ((intactVerdict v).getD (d.ch h).lastVerdict)).doubleFault h) h
  have hosc := (checkOsc_reacts ((((d.noteVerdict h (intactVerdict v)).useVerdict h ((d.noteVerdict h (intactVerdict v)).setOf h)
      ((intactVerdict v).getD (d.ch h).lastVerdict)).doubleFault h).disagree h) h (intactVerdict v)).follows
  exact ⟨fun a ha hm => (hosc.taken (cov := false) (.inl trivial) ⟨hstop a ha hm, fun hc => by cases hc⟩).1, hosc.own.faults 7 hbit⟩

/-! ## The clauses on a verdict -/

theorem settle_verMiss (d : Dev) (h : Bool) : ((d.settle h).ch h).verMiss = (d.ch h).verMiss := by
  obtain ⟨cmd, pulse, rb, hown⟩ := settle_own d h
  rw [hown]
  cases d.setOf h <;> rfl

theorem settle_lastVerdict (d : Dev) (h : Bool) : ((d.settle h).ch h).lastVerdict = (d.ch h).lastVerdict := by
  obtain ⟨cmd, pulse, rb, hown⟩ := settle_own d h
  rw [hown]
  cases d.setOf h <;> rfl

theorem verdictReceive_run {v : Option (List Byte)} {post : Dev → Prop} (hup : s.dev.chUp h = true)
    (hp : post ((s.begun.verdictReceive h v).settle h)) : Completes (.verdictReceive h v) s post :=
  completes_safe hup (f := (·.verdictReceive h v)) rfl hp

theorem verdictReceive_onlyChannel (s : State) (h : Bool) (v : Option (List Byte)) :
    s.dev.onlyChannel ((s.begun.verdictReceive h v).settle h) h :=
  onlyChannel_settle (onlyChannel_trans (noteVerdict_onlyChannel _ h _) (verdictReceive_follows _ h v).onlyChannel)

theorem intactVerdict_none {v : Option (List Byte)} (hv : ∀ b, v = some b → b.length ≠ 64 ∨ crc16 (b.take 62) ≠ uAt b 62 2) :
    intactVerdict v = none := by
  cases v with
  | none => rfl
  | some b =>
    refine Option.filter_eq_none_iff.2 fun x hx hc => ?_
    obtain ⟨hlen, hcrc⟩ := Bool.and_eq_true_iff.1 hc
    rcases hv x hx with hne | hne
    · exact hne (beq_iff_eq.1 hlen)
    · exact hne (beq_iff_eq.1 hcrc)

theorem intactVerdict_some {b : List Byte} (hlen : b.length = 64) (hcrc : crc16 (b.take 62) = uAt b 62 2) :
    intactVerdict (some b) = some b :=
  Option.filter_some_pos (by rw [hlen, hcrc]; simp)

/-- A missing verdict is counted and latched (R246). -/
theorem noteVerdict_none (d : Dev) (h : Bool) :
    ((d.noteVerdict h none).ch h).verMiss = (d.ch h).verMiss + 1 ∧ ((d.noteVerdict h none).ch h).lastVerdict = (d.ch h).lastVerdict ∧
    bitOf ((d.noteVerdict h none).ch h).faults 10 = true := by
  have hcount := ((reacts_refl d True h).countS (i := 6) (by decide)).fault (cls := 10) (mask := 0xFF) |>.follows
  have hbit := fault_faults (d.countS h 6) h 10 0xFF 10
  rw [Dev.noteVerdict, ch_updCh]
  exact ⟨congrArg (· + 1) hcount.verMiss, hcount.lastVerdict, hbit.trans (Bool.or_true _)⟩

theorem verdictReceive_missing (hup : s.dev.chUp h = true) {v : Option (List Byte)}
    (hv : ∀ b, v = some b → b.length ≠ 64 ∨ crc16 (b.take 62) ≠ uAt b 62 2) : Completes (.verdictReceive h v) s (fun d =>
      (d.ch h).verMiss = (s.dev.ch h).verMiss + 1 ∧ bitOf (d.ch h).faults 10 = true ∧
      (d.ch h).lastVerdict = (s.dev.ch h).lastVerdict ∧ s.dev.onlyChannel d h ∧
      (1 ≤ (s.dev.ch h).verMiss → d.stopped h 0xFF ∧ bitOf (d.ch h).faults 7 = true)) := by
  refine verdictReceive_run hup ?_
  have hnone := intactVerdict_none hv
  have hfollow := verdictReceive_follows s.begun h v
  obtain ⟨hmiss, hlast, hbit⟩ := noteVerdict_none s.begun h
  rw [hnone] at hfollow
  refine ⟨?_, ?_, ?_, verdictReceive_onlyChannel s h v, fun hm => ?_⟩
  · rw [settle_verMiss, hfollow.verMiss, hmiss, begun_ch]
  · rw [settle_faults]
    exact hfollow.own.faults 10 hbit
  · rw [settle_lastVerdict, hfollow.lastVerdict, hlast, begun_ch]
  · have hdis := verdictReceive_disagrees (d := s.begun) (h := h) (v := v) (by
      rw [hnone]
      have huse := (useVerdict_reacts (s.begun.noteVerdict h none) h ((s.begun.noteVerdict h none).setOf h)
        ((none : Option (List Byte)).getD (s.begun.ch h).lastVerdict)).follows.verMiss
      unfold Dev.disagrees
      dsimp only
      rw [huse, hmiss, begun_ch, decide_eq_true (by omega), Bool.true_or])
    exact ⟨settle_stopped hdis.1, by rw [settle_faults]; exact hdis.2⟩

theorem useVerdict_some {a : Nat} (ha : a < 8) {b : List Byte} (hb : b.isEmpty = false) (d : Dev) (h : Bool) (st : Option SafSet) :
    (verdictSt b a = .sto → (((d.useVerdict h st b).ch h).arm a).st = .sto) ∧
    (verdictSt b a = .ss1 → 2 ≤ (((d.useVerdict h st b).ch h).arm a).st.code) := by
  have hrest := ((mergeVerdict_after (le := True) d h st b).trans (useVerdict_after d h st hb)).follows
  obtain ⟨hsto, hss1⟩ := mergeArms_follows ha d h st b
  exact ⟨fun hv => hrest.sto (hsto hv), fun hv => (hrest.taken (cov := false) (.inl trivial) ⟨hss1 hv, fun hc => by cases hc⟩).1⟩

/-- The answer to a verdict and the check of the oscillator leave the arms that the merge has stopped. -/
theorem verdictReceive_arms {a : Nat} (ha : a < 8) {v : Option (List Byte)} {b : List Byte} (hv : intactVerdict v = some b)
    (hb : b.isEmpty = false) (d : Dev) :
    (verdictSt b a = .sto → (((d.verdictReceive h v).ch h).arm a).st = .sto) ∧
    (verdictSt b a = .ss1 → 2 ≤ (((d.verdictReceive h v).ch h).arm a).st.code) := by
  rw [verdictReceive_eq, hv]
  obtain ⟨hsto, hss1⟩ := useVerdict_some ha hb (d.noteVerdict h (some b)) h ((d.noteVerdict h (some b)).setOf h)
  have hrest := (answerVerdict_follows ((d.noteVerdict h (some b)).useVerdict h ((d.noteVerdict h (some b)).setOf h) b) h
    ((d.noteVerdict h (some b)).setOf h) (some b)).trans (checkOsc_reacts _ h (some b)).follows
  exact ⟨fun hs => hrest.sto (hsto hs), fun hs => (hrest.taken (cov := false) (.inl trivial) ⟨hss1 hs, fun hc => by cases hc⟩).1⟩

theorem noteVerdict_some (d : Dev) (h : Bool) (b : List Byte) :
    ((d.noteVerdict h (some b)).ch h).verMiss = 0 ∧ ((d.noteVerdict h (some b)).ch h).lastVerdict = b ∧
    (d.noteVerdict h (some b)).setOf h = d.setOf h ∧ (d.noteVerdict h (some b)).get HTL_BEAT = d.get HTL_BEAT := by
  refine ⟨?_, ?_, setOf_updCh d h _ rfl, get_updCh d h _ HTL_BEAT⟩
  · rw [Dev.noteVerdict, ch_updCh]
  · rw [Dev.noteVerdict, ch_updCh]

/-- A verdict of another beat or another set disagrees (R247). -/
theorem disagrees_some {st : Option SafSet} {b : List Byte} (hd : uAt b 0 4 ≠ d.get HTL_BEAT ∨ uAt b 4 4 ≠ (st.map (·.setcrc)).getD 0) :
    d.disagrees h st (some b) = true := by
  unfold Dev.disagrees
  dsimp only
  rcases hd with hb | hc
  · rw [bne_iff_ne.2 hb, Bool.true_or, Bool.true_or]
  · rw [bne_iff_ne.2 hc, Bool.or_true, Bool.true_or]

theorem verdictReceive_accepts (hup : s.dev.chUp h = true) {b : List Byte} (hlen : b.length = 64) (hcrc : crc16 (b.take 62) = uAt b 62 2) :
    Completes (.verdictReceive h (some b)) s (fun d =>
      (d.ch h).verMiss = 0 ∧ (d.ch h).lastVerdict = b ∧ s.dev.onlyChannel d h ∧
      (∀ a, a < 8 → (uAt b (0x10 + a) 1 % 4 = 3 → ((d.ch h).arm a).st = .sto) ∧
        (uAt b (0x10 + a) 1 % 4 = 2 → 2 ≤ ((d.ch h).arm a).st.code)) ∧
      (uAt b 0 4 ≠ s.dev.get HTL_BEAT ∨ uAt b 4 4 ≠ ((s.dev.setOf h).map (·.setcrc)).getD 0 →
        d.stopped h 0xFF ∧ bitOf (d.ch h).faults 7 = true)) := by
  refine verdictReceive_run hup ?_
  have hsome := intactVerdict_some hlen hcrc
  have hne : b.isEmpty = false := List.isEmpty_eq_false_iff.2 fun hnil => by rw [hnil] at hlen; cases hlen
  have hfollow := verdictReceive_follows s.begun h (some b)
  obtain ⟨hmiss, hlast, hset, hbeat⟩ := noteVerdict_some s.begun h b
  rw [hsome] at hfollow
  refine ⟨?_, ?_, verdictReceive_onlyChannel s h _, fun a ha => ?_, fun hd => ?_⟩
  · rw [settle_verMiss, hfollow.verMiss, hmiss]
  · rw [settle_lastVerdict, hfollow.lastVerdict, hlast]
  · obtain ⟨hsto, hss1⟩ := verdictReceive_arms (h := h) ha hsome hne s.begun
    rw [settle_st]
    exact ⟨fun hs => hsto (by rw [verdictSt, hs]; rfl), fun hs => hss1 (by rw [verdictSt, hs]; rfl)⟩
  · obtain ⟨hstop, hbit⟩ := verdictReceive_disagrees (d := s.begun) (h := h) (v := some b) (by
      rw [hsome]
      refine disagrees_some ?_
      rw [(useVerdict_reacts _ h _ _).follows.get (by decide), hset, hbeat, show s.begun.get HTL_BEAT = s.dev.get HTL_BEAT from get_withOut _ _ _]
      exact hd)
    exact ⟨settle_stopped hstop, by rw [settle_faults]; exact hbit⟩

end Sys2Proof.Machine
end

section
/-! PROOFS. What the cross-check point sends and when, and the change of both sets together (R245, R246, R255). -/

namespace Sys2Proof.Machine

variable {d d' d'' : Dev} {s : State} {h : Bool} {le : Prop}

/-! ## The verdicts, the instant and the state reads -/

theorem verdict_length (d : Dev) (h : Bool) (n : Nat) : (d.verdict h n).length = 64 := by
  simp [Dev.verdict, length_leBytes, List.length_flatMap]

theorem verdict_beat (d : Dev) (h : Bool) (n : Nat) : (d.verdict h n).take 4 = leBytes 4 (d.get HTL_BEAT) := by
  unfold Dev.verdict
  simp only [List.append_assoc]
  exact List.take_left' (length_leBytes _ _)

theorem crossed_keeps_begun (s : State) : s.dev.keeps s.begun.crossed (fun p => p = .time ∨ ReactPart p) CheckOff :=
  keeps_trans (begun_keeps s _ _) (keeps_trans (keeps_mono (atCheck_keeps _) (fun _ hp => .inl hp) (fun _ ho => ho.elim))
    (keeps_mono (crossed_keeps _) (fun _ hp => .inr hp) (fun _ ho => ho)))

theorem crossed_chUp (s : State) (h : Bool) : s.begun.crossed.chUp h = s.dev.chUp h :=
  keeps_chUp (crossed_keeps_begun s) (by decide) (by decide) (by decide) h

theorem crossed_up (s : State) : s.begun.crossed.up = s.dev.up := keeps_up (crossed_keeps_begun s) (by decide) (by decide)

/-- The cross-check point stands 25 us before the end of the beat (R245). -/
theorem atCheck_now (d : Dev) (hup : d.up = true) (hs : d.time.started = true) :
    d.atCheck.now = max d.now (d.time.beatAt + d.time.layout.beat - 25000) := by
  unfold Dev.atCheck
  rw [hup, hs, Bool.and_self, if_pos rfl]
  obtain ⟨x, hx, hnow⟩ := reach_eq d (d.time.beatAt + d.time.layout.beat - 25000)
  rw [hx]
  exact congrArg TimeSt.now hnow

theorem crossCheckPoint_tells (hup : s.dev.chUp h = true) (bad : BitVec 10) (wrOk : Bool) : Completes (.crossCheckPoint bad wrOk) s (fun d =>
    (∃ b, Output.verdict h b ∈ d.out ∧ b.length = 64 ∧ b.take 4 = leBytes 4 (s.dev.get HTL_BEAT)) ∧
    (s.dev.up = true → s.dev.time.started = true →
      d.now = max s.dev.now (s.dev.time.beatAt + s.dev.time.layout.beat - 25000)) ∧
    (s.dev.up = true → d.host.stateRead = [])) := by
  refine crossCheckPoint_run fun d ht hsent hread => ⟨?_, fun hu hs => ?_, fun hu => hread ((crossed_up s).trans hu)⟩
  · obtain ⟨e, n, hkeeps, hmem⟩ := hsent h ((crossed_chUp s h).trans hup)
    refine ⟨_, hmem, verdict_length e h n, ?_⟩
    rw [verdict_beat, keeps_get hkeeps (by decide), keeps_get (crossed_keeps_begun s) (by decide)]
  · have htime : d.time = s.begun.atCheck.time := (ht.frame.1 .time (by decide)).trans ((crossed_keeps s.begun).1 .time (by decide))
    refine Eq.trans ?_ (atCheck_now s.begun hu hs)
    unfold Dev.now
    rw [htime]

/-! ## What keeps the sets of the channels -/

/-- From `d` to `d'` each channel keeps its set and the set that waits, and the set in force stays so. -/
structure Dev.sameSets (d d' : Dev) : Prop where
  set : ∀ g, (d'.ch g).set = (d.ch g).set
  next : ∀ g, (d'.ch g).next = (d.ch g).next
  inForce : d'.safety.inForce = d.safety.inForce

theorem sameSets_refl (d : Dev) : d.sameSets d := ⟨fun _ => rfl, fun _ => rfl, rfl⟩

theorem Dev.sameSets.trans (k : d.sameSets d') (k' : d'.sameSets d'') : d.sameSets d'' :=
  ⟨fun g => (k'.set g).trans (k.set g), fun g => (k'.next g).trans (k.next g), k'.inForce.trans k.inForce⟩

theorem sameSets_of_safety (hs : d'.safety = d.safety) : d.sameSets d' := by
  have hch : ∀ g, d'.ch g = d.ch g := fun g => by unfold Dev.ch; rw [hs]
  exact ⟨fun g => by rw [hch], fun g => by rw [hch], by rw [hs]⟩

/-- What holds of a channel and of the other holds of both. -/
theorem both_channels {p : Bool → Prop} (h : Bool) (hown : p h) (hother : p (!h)) : ∀ g, p g := fun g => by
  cases h <;> cases g <;> assumption

theorem Dev.follows.sameSets (k : d.follows le h d') : d.sameSets d' :=
  ⟨both_channels h k.set (by rw [k.other]), both_channels h k.next (by rw [k.other]), k.inForce⟩

theorem sameSets_updCh (d : Dev) (h : Bool) {f : Channel → Channel} (hs : (f (d.ch h)).set = (d.ch h).set)
    (hn : (f (d.ch h)).next = (d.ch h).next) : d.sameSets (d.updCh h f) :=
  ⟨both_channels h (by rw [ch_updCh, hs]) (by rw [ch_updCh_other]), both_channels h (by rw [ch_updCh, hn]) (by rw [ch_updCh_other]),
   inForce_updCh d h f⟩

theorem sameSets_settle (d : Dev) (h : Bool) : d.sameSets (d.settle h) := by
  obtain ⟨cmd, pulse, rb, hown⟩ := settle_own d h
  have hset : ((d.settle h).ch h).set = (d.ch h).set ∧ ((d.settle h).ch h).next = (d.ch h).next := by
    rw [hown]
    cases d.setOf h <;> exact ⟨rfl, rfl⟩
  exact ⟨both_channels h hset.1 (by rw [settle_other]), both_channels h hset.2 (by rw [settle_other]), settle_inForce d h⟩

theorem Dev.tells.sameSets (k : d.tells d') : d.sameSets d' := ⟨fun g => by rw [k.ch], fun g => by rw [k.ch], k.inForce⟩

theorem sameSets_ifUp {f : Dev → Dev} (hf : ∀ d : Dev, d.sameSets (f d)) (d : Dev) (h : Bool) : d.sameSets (d.ifUp h f) := by
  unfold Dev.ifUp
  split
  · exact hf d
  · exact sameSets_refl d

theorem atCheck_sameSets (d : Dev) : d.sameSets d.atCheck := sameSets_of_safety ((atCheck_keeps d).1 .safety (by decide))

theorem judgedAndTorqued_sameSets (d : Dev) : d.sameSets d.judgedAndTorqued :=
  (((sameSets_ifUp (fun d => (reacts_refl d True false).judgeBeat.follows.sameSets) d false).trans
    (sameSets_ifUp (fun d => (reacts_refl d True true).judgeBeat.follows.sameSets) _ true)).trans
    (sameSets_ifUp (fun d => (reacts_refl d True false).torqueUp.follows.sameSets) _ false)).trans
    (sameSets_ifUp (fun d => (reacts_refl d True true).torqueUp.follows.sameSets) _ true)

theorem settleBoth_sameSets (d : Dev) : d.sameSets d.settleBoth :=
  (sameSets_ifUp (fun d => sameSets_settle d false) d false).trans (sameSets_ifUp (fun d => sameSets_settle d true) _ true)

theorem matchPresses_sameSets (d : Dev) : d.sameSets d.matchPresses := by
  unfold Dev.matchPresses
  split
  · exact sameSets_refl d
  · refine foldl_invariant (K := d.sameSets) _ (fun x i _ k => ?_) (sameSets_refl d)
    split
    · split
      · exact k.trans ⟨fun g => by cases g <;> rfl, fun g => by cases g <;> rfl, rfl⟩
      · exact k
    · exact k

/-! ## Resets -/

/-- An arm after its reset (R251). -/
def ArmRt.restarted (r : ArmRt) : ArmRt :=
  { r with st := .run, latched := false, covered := false, still := 0, phase := if r.st = .sto then 1 else max r.phase 1 }

/-- A pair after the reset of an arm. -/
def PairRt.restarted (p : PairRt) (st : SafSet) (a i : Nat) : PairRt :=
  match st.pairs[i]? with
  | some e => if bitOf e.armmask a && p.faultStep == 2 then { p with lat := setBit p.lat a false, fault := false, faultStep := 0 }
    else { p with lat := setBit p.lat a false }
  | none => p

def Channel.restartPairs (c : Channel) (st : SafSet) (a : Nat) : Channel :=
  { c with pairs := c.pairs.mapIdx (fun i p => p.restarted st a i) }

theorem foldl_updAxis {α : Type} (l : List α) (gj : α → Nat) (f : SafAxis → SafAxis) (c : Channel) :
    ∃ axes, l.foldl (fun (c : Channel) j => c.updAxis (gj j) f) c = { c with axes := axes } := by
  induction l generalizing c with
  | nil => exact ⟨c.axes, rfl⟩
  | cons j l ih =>
    obtain ⟨axes, hc⟩ := ih (c.updAxis (gj j) f)
    exact ⟨axes, hc⟩

/-- The reset of an arm in its channel (R251): the arm, the pairs, its axes and its faults. -/
theorem resetArm_ch (d : Dev) (h : Bool) (st : SafSet) (a : Nat) : ∃ axes flt, (d.resetArm h st a).ch h =
    { ((d.ch h).updArm a ArmRt.restarted).restartPairs st a with axes := axes, flt := flt } := by
  obtain ⟨axes, hc⟩ := foldl_updAxis (st.jointsOf a) (·.gj) (fun x => { x with lost := false, refused := 0 })
    ((d.ch h).updArm a ArmRt.restarted)
  exact ⟨axes, _, (ch_updCh d h _).trans (congrArg (fun c : Channel => (c.restartPairs st a).clearFaults st a) hc)⟩

/-- A channel whose sides of a mask go into their clearing test (R233). -/
def Channel.testing (c : Channel) (mask : Nat) : Channel := { c with clearing := unionMask c.clearing mask }

/-- The faulted sides of an arm start their clearing test, one of a pair at a time. -/
def Dev.startTests (d : Dev) (a : Nat) : Dev :=
  (d.updCh false (·.testing (maskOf (d.safety.a.fltSides a)))).updCh true
    (·.testing (maskOf ((d.safety.b.fltSides a).filter (fun n => !(d.safety.a.fltSides a).contains n))))

/-- An arm whose reset is due is reset in both channels, or starts its clearing tests (R233, R251). -/
def Dev.resetOrTest (d : Dev) (st : SafSet) (a : Nat) : Dev :=
  if (d.safety.a.fltSides a).isEmpty && (d.safety.b.fltSides a).isEmpty then (d.resetArm false st a).resetArm true st a
  else d.startTests a

def Dev.resetsTaken (d : Dev) : Dev := { d with safety := { d.safety with resetArms := 0 } }

/-- No cause of an arm stands in either channel. -/
def Dev.resetReady (d : Dev) (st : SafSet) (a : Nat) : Bool :=
  d.calm false && d.calm true && d.safety.a.causesGone st a && d.safety.b.causesGone st a

theorem applyResets_eq (d : Dev) : d.applyResets = match d.setOf false with
    | none => d
    | some st => ((bitsOf d.safety.resetArms 8).filter (d.resetsTaken.resetReady st)).foldl (fun e a => e.resetOrTest st a) d.resetsTaken := rfl

/-! ## The change of the sets -/

theorem resetArm_sameSets (d : Dev) (h : Bool) (st : SafSet) (a : Nat) : d.sameSets (d.resetArm h st a) := by
  obtain ⟨axes, flt, hc⟩ := resetArm_ch d h st a
  have hother : (d.resetArm h st a).ch (!h) = d.ch (!h) := ch_updCh_other d h _
  exact ⟨both_channels h (by rw [hc]; rfl) (by rw [hother]), both_channels h (by rw [hc]; rfl) (by rw [hother]), inForce_updCh d h _⟩

theorem testing_sameSets (d : Dev) (h : Bool) (mask : Nat) : d.sameSets (d.updCh h (·.testing mask)) := sameSets_updCh d h rfl rfl

theorem startTests_sameSets (d : Dev) (a : Nat) : d.sameSets (d.startTests a) :=
  (testing_sameSets d false _).trans (testing_sameSets _ true _)

theorem resetOrTest_sameSets (d : Dev) (st : SafSet) (a : Nat) : d.sameSets (d.resetOrTest st a) := by
  unfold Dev.resetOrTest
  split
  · exact (resetArm_sameSets d false st a).trans (resetArm_sameSets _ true st a)
  · exact startTests_sameSets d a

theorem resetsTaken_sameSets (d : Dev) : d.sameSets d.resetsTaken := ⟨fun g => by cases g <;> rfl, fun g => by cases g <;> rfl, rfl⟩

theorem applyResets_sameSets (d : Dev) : d.sameSets d.applyResets := by
  rw [applyResets_eq]
  split
  · exact sameSets_refl d
  · exact foldl_invariant (K := d.sameSets) _ (fun x a _ k => k.trans (resetOrTest_sameSets x _ a)) (resetsTaken_sameSets d)

theorem evalPair_sameSets (d : Dev) (qa qb : Bool) (i : Nat) : d.sameSets (d.evalPair qa qb i) := by
  have heval : ∀ (d : Dev) (q h : Bool), d.sameSets (if q then d.pairEval h i 0 else d) := fun d q h => by
    split
    · exact (reacts_refl d True h).pairEval.follows.sameSets
    · exact sameSets_refl d
  exact (heval d qa false).trans (heval _ qb true)

/-- Once both channels have changed over, the sets stay (R255). -/
theorem setChange_after {na nb : SafSet} (ha : d.safety.a.next = some na) (hb : d.safety.b.next = some nb) :
    (d.bothChange na nb).sameSets d.setChange := by
  rw [setChange_eq, ha, hb]
  have hraised : (d.bothChange na nb).sameSets (((d.bothChange na nb).raiseS false 15 noDetail).raiseS true 15 noDetail) :=
    (reacts_refl _ True false).raiseS.follows.sameSets.trans (reacts_refl _ True true).raiseS.follows.sameSets
  exact (foldl_invariant (K := (d.bothChange na nb).sameSets) _ (fun x i _ k => k.trans (evalPair_sameSets x _ _ i)) hraised).trans
    (sameSets_of_safety ((endLoad_keeps _ na).1 .safety (by decide)))

theorem jointly_both (hb : d.bothSee = true) : d.jointly = d.judgedAndTorqued.matchPresses.applyResets.setChange := if_pos hb

/-- Both channels run and see each other at the cross-check point. -/
theorem atCheck_bothSee (hup : s.dev.chUp h = true) (hother : s.dev.chUp (!h) = true) (hsee : s.dev.is CLK_XDIE = true) :
    s.begun.atCheck.bothSee = true := by
  have hk : s.dev.keeps s.begun.atCheck (· = .time) (fun _ => False) := keeps_trans (begun_keeps s _ _) (atCheck_keeps _)
  have hall : ∀ g, s.begun.atCheck.chUp g = true :=
    both_channels h ((keeps_chUp hk (by decide) (by decide) (by decide) h).trans hup)
      ((keeps_chUp hk (by decide) (by decide) (by decide) (!h)).trans hother)
  unfold Dev.bothSee
  rw [hall, hall, keeps_is hk (by decide), hsee]
  rfl

theorem crossCheckPoint_changes (hup : s.dev.chUp h = true) (hother : s.dev.chUp (!h) = true) (hsee : s.dev.is CLK_XDIE = true)
    {na nb : SafSet} (ha : s.dev.safety.a.next = some na) (hb : s.dev.safety.b.next = some nb) (bad : BitVec 10) (wrOk : Bool) :
    Completes (.crossCheckPoint bad wrOk) s (fun d =>
      d.safety.inForce = (na.setcrc == nb.setcrc) ∧ (d.ch false).set = some na ∧ (d.ch true).set = some nb ∧
      (d.ch false).next = none ∧ (d.ch true).next = none) := by
  refine crossCheckPoint_run fun d ht _ _ => ?_
  have hjoint : s.begun.crossed = s.begun.atCheck.judgedAndTorqued.matchPresses.applyResets.setChange.settleBoth := by
    rw [Dev.crossed, jointly_both (atCheck_bothSee hup hother hsee)]
  set e := s.begun.atCheck.judgedAndTorqued.matchPresses.applyResets
  have hbefore : s.begun.sameSets e :=
    (((atCheck_sameSets s.begun).trans (judgedAndTorqued_sameSets _)).trans (matchPresses_sameSets _)).trans (applyResets_sameSets _)
  have hafter : (e.bothChange na nb).sameSets d :=
    ((setChange_after ((hbefore.next false).trans ha) ((hbefore.next true).trans hb)).trans (settleBoth_sameSets _)).trans
      (hjoint ▸ ht.sameSets)
  exact ⟨hafter.inForce, hafter.set false, hafter.set true, hafter.next false, hafter.next true⟩

end Sys2Proof.Machine
end

section
/-! PROOFS. The resets at the cross-check point (R251): what decides them stays until they are applied, and an arm that is reset
stays so to the end of the point. -/

namespace Sys2Proof.Machine

variable {d d' d'' : Dev} {s : State} {h : Bool} {st : SafSet} {a b : Nat}

/-! ## What decides a reset -/

/-- A channel less its arms and the presses it keeps. -/
def Channel.causes (c : Channel) : Channel := { c with arms := [], pairs := c.pairs.map (fun p => { p with press := 0 }) }

theorem pair_causes (c : Channel) (i : Nat) : c.causes.pair i = { c.pair i with press := 0 } := by
  unfold Channel.pair Channel.causes
  rw [List.getD_eq_getElem?_getD, List.getD_eq_getElem?_getD, List.getElem?_map]
  cases c.pairs[i]? <;> rfl

theorem wants_causes (c : Channel) (st : SafSet) (i : Nat) : c.causes.wants st i = c.wants st i := by
  unfold Channel.wants
  dsimp only
  rw [pair_causes]

theorem causesGone_causes (c : Channel) (st : SafSet) (a : Nat) : c.causes.causesGone st a = c.causesGone st a := by
  unfold Channel.causesGone
  simp only [wants_causes, pair_causes]
  rfl

theorem updPair_causes (c : Channel) (i : Nat) : (c.updPair i (fun r => { r with press := 0 })).causes = c.causes := by
  have hpairs : (updAt c.pairs i (fun r => { r with press := 0 })).map (fun p => { p with press := 0 }) =
      c.pairs.map (fun p => { p with press := 0 }) := by
    refine List.ext_getElem? fun k => ?_
    rw [List.getElem?_map, List.getElem?_map]
    by_cases hk : k = i
    · subst hk
      rw [updAt_same]
      cases c.pairs[k]? <;> rfl
    · rw [updAt_ne _ _ _ _ hk]
  exact congrArg (fun l => { c with arms := [], pairs := l }) hpairs

/-- From `d` to `d'` what decides the resets stays, and a reset that is due stays due. -/
structure Dev.sameCauses (d d' : Dev) : Prop where
  causes : ∀ g, (d'.ch g).causes = (d.ch g).causes
  arms : ∀ g, (d'.ch g).arms.length = (d.ch g).arms.length
  inForce : d'.safety.inForce = d.safety.inForce
  noRec : d'.safety.noRec = d.safety.noRec
  layout : d'.time.layout = d.time.layout
  due : ∀ a < 16, bitOf d.safety.resetArms a = true → bitOf d'.safety.resetArms a = true

theorem sameCauses_refl (d : Dev) : d.sameCauses d := ⟨fun _ => rfl, fun _ => rfl, rfl, rfl, rfl, fun _ _ hb => hb⟩

theorem Dev.sameCauses.trans (k : d.sameCauses d') (k' : d'.sameCauses d'') : d.sameCauses d'' :=
  ⟨fun g => (k'.causes g).trans (k.causes g), fun g => (k'.arms g).trans (k.arms g), k'.inForce.trans k.inForce,
   k'.noRec.trans k.noRec, k'.layout.trans k.layout, fun a ha hb => k'.due a ha (k.due a ha hb)⟩

section
variable (k : d.sameCauses d')
include k

theorem Dev.sameCauses.setOf (g : Bool) : d'.setOf g = d.setOf g := by
  unfold Dev.setOf
  rw [k.inForce, show (d'.ch g).set = (d.ch g).set from (congrArg Channel.set (k.causes g) :)]

theorem Dev.sameCauses.causesGone (g : Bool) (st : SafSet) (a : Nat) : (d'.ch g).causesGone st a = (d.ch g).causesGone st a := by
  rw [← causesGone_causes, k.causes, causesGone_causes]

theorem Dev.sameCauses.outFlt (g : Bool) : (d'.ch g).outFlt = (d.ch g).outFlt := (congrArg Channel.outFlt (k.causes g) :)
theorem Dev.sameCauses.next (g : Bool) : (d'.ch g).next = (d.ch g).next := (congrArg Channel.next (k.causes g) :)

theorem Dev.sameCauses.stands (g : Bool) (n : Nat) : d'.stands g n = d.stands g n := by
  have hset : (d'.ch g).set = (d.ch g).set := (congrArg Channel.set (k.causes g) :)
  have hsensors : (d'.ch g).sensors = (d.ch g).sensors := (congrArg Channel.sensors (k.causes g) :)
  have hmiss : (d'.ch g).verMiss = (d.ch g).verMiss := (congrArg Channel.verMiss (k.causes g) :)
  have haxes : (d'.ch g).axes = (d.ch g).axes := (congrArg Channel.axes (k.causes g) :)
  have hcyc : (d'.ch g).cyc = (d.ch g).cyc := (congrArg Channel.cyc (k.causes g) :)
  have hlast : (d'.ch g).lastVerdict = (d.ch g).lastVerdict := (congrArg Channel.lastVerdict (k.causes g) :)
  have hfailed : (d'.ch g).failed = (d.ch g).failed := (congrArg Channel.failed (k.causes g) :)
  unfold Dev.stands
  dsimp only
  rw [hset, hsensors, hmiss, haxes, hcyc, hlast, hfailed, k.noRec, k.layout]

theorem Dev.sameCauses.calm (g : Bool) : d'.calm g = d.calm g := by
  unfold Dev.calm
  simp only [k.stands]

theorem Dev.sameCauses.resetReady (st : SafSet) (a : Nat) : d'.resetReady st a = d.resetReady st a := by
  have hgone := fun g => k.causesGone g st a
  unfold Dev.resetReady
  rw [k.calm, k.calm, show d'.safety.a.causesGone st a = _ from hgone false, show d'.safety.b.causesGone st a = _ from hgone true]
  rfl

end

theorem length_updAt {α : Type} (l : List α) (n : Nat) (f : α → α) : (updAt l n f).length = l.length := by
  induction l generalizing n with
  | nil => rfl
  | cons x xs ih =>
    cases n with
    | zero => rfl
    | succ n => exact congrArg (· + 1) (ih n)

theorem sameCauses_updArm (d : Dev) (h : Bool) (a : Nat) (f : ArmRt → ArmRt) : d.sameCauses (d.updCh h (fun c => c.updArm a f)) := by
  refine ⟨both_channels h ?_ ?_, both_channels h ?_ ?_, inForce_updCh d h _, ?_, rfl, fun n _ hb => ?_⟩
  · rw [ch_updCh]
    rfl
  · rw [ch_updCh_other]
  · rw [ch_updCh]
    exact length_updAt _ _ _
  · rw [ch_updCh_other]
  · cases h <;> rfl
  · cases h <;> exact hb

theorem sameCauses_raiseS (d : Dev) (h : Bool) (src det : Nat) : d.sameCauses (d.raiseS h src det) := by
  obtain ⟨x, y, hr⟩ := raiseS_eq d h src det
  rw [hr]
  exact ⟨fun g => by cases g <;> rfl, fun g => by cases g <;> rfl, rfl, rfl, rfl, fun _ _ hb => hb⟩

theorem torqueUp_sameCauses (d : Dev) (h : Bool) : d.sameCauses (d.torqueUp h) := by
  unfold Dev.torqueUp
  split
  · exact sameCauses_refl d
  · refine foldl_invariant (K := d.sameCauses) _ (fun x a _ k => ?_) (sameCauses_refl d)
    dsimp only
    split
    · exact (k.trans (sameCauses_updArm x h a _)).trans (sameCauses_raiseS _ h 3 a)
    · exact k

theorem matchPresses_sameCauses (d : Dev) : d.sameCauses d.matchPresses := by
  unfold Dev.matchPresses
  split
  · exact sameCauses_refl d
  · refine foldl_invariant (K := d.sameCauses) _ (fun x i _ k => ?_) (sameCauses_refl d)
    split
    · split
      · refine k.trans ⟨fun g => ?_, fun g => by cases g <;> rfl, rfl, rfl, rfl, fun a ha hb => ?_⟩
        · cases g
          · exact updPair_causes x.safety.a i
          · exact updPair_causes x.safety.b i
        · show bitOf (unionMask _ _) a = true
          rw [bitOf_unionMask, decide_eq_true ha, Bool.true_and, Bool.or_eq_true]
          exact .inl hb
      · exact k
    · exact k

theorem atCheck_sameCauses (d : Dev) : d.sameCauses d.atCheck := by
  unfold Dev.atCheck
  split
  · obtain ⟨x, hx, hnow⟩ := reach_eq d (d.time.beatAt + d.time.layout.beat - 25000)
    rw [hx]
    exact ⟨fun _ => rfl, fun _ => rfl, rfl, rfl, (congrArg TimeSt.layout hnow :), fun _ _ hb => hb⟩
  · exact sameCauses_refl d

theorem sameCauses_ifUp {f : Dev → Dev} (hf : ∀ d : Dev, d.sameCauses (f d)) (d : Dev) (h : Bool) : d.sameCauses (d.ifUp h f) := by
  unfold Dev.ifUp
  split
  · exact hf d
  · exact sameCauses_refl d

/-- A channel that has judged its beat does not judge it again. -/
theorem judgeBeat_judged (hj : (d.ch h).judged = true) : d.ifUp h (·.judgeBeat h) = d := by
  have hstay : d.judgeBeat h = d := if_pos hj
  unfold Dev.ifUp
  dsimp only
  rw [hstay, ite_self]

theorem judgedAndTorqued_sameCauses (hj : ∀ g, (d.ch g).judged = true) : d.sameCauses d.judgedAndTorqued := by
  unfold Dev.judgedAndTorqued
  rw [judgeBeat_judged (hj false), judgeBeat_judged (hj true)]
  exact (sameCauses_ifUp (fun d => torqueUp_sameCauses d false) d false).trans (sameCauses_ifUp (fun d => torqueUp_sameCauses d true) _ true)

/-! ## What a reset brings about -/

/-- An arm has been reset in a channel: it runs, and no request for it is latched (R251). -/
def Channel.isReset (c : Channel) (st : SafSet) (a : Nat) : Prop :=
  (c.arm a).st = .run ∧ (c.arm a).latched = false ∧ ∀ i, i < st.pairs.length → bitOf (c.pair i).lat a = false

theorem lat_restarted (p : PairRt) {i : Nat} (hi : i < st.pairs.length) :
    bitOf (p.restarted st b i).lat a = (bitOf p.lat a && !decide (a = b)) := by
  have hlat : (p.restarted st b i).lat = setBit p.lat b false := by
    unfold PairRt.restarted
    rw [List.getElem?_eq_getElem hi]
    dsimp only
    split <;> rfl
  rw [hlat, bitOf_setBit]
  by_cases hab : a = b
  · rw [if_pos hab, decide_eq_true hab, Bool.not_true, Bool.and_false]
  · rw [if_neg hab, decide_eq_false hab, Bool.not_false, Bool.and_true]

theorem pair_restartPairs (c : Channel) {i : Nat} (hi : i < st.pairs.length) :
    bitOf ((c.restartPairs st b).pair i).lat a = (bitOf (c.pair i).lat a && !decide (a = b)) := by
  unfold Channel.pair Channel.restartPairs
  rw [List.getD_eq_getElem?_getD, List.getD_eq_getElem?_getD, List.getElem?_mapIdx]
  cases c.pairs[i]? with
  | none => rw [Option.map_none, Option.getD_none, bitOf_zero, Bool.false_and]
  | some p => exact lat_restarted p hi

/-- A reset arm is reset, and what was reset before stays. -/
theorem resetArm_isReset {c : Channel} {axes : List SafAxis} {flt : List Nat} (hr : c.isReset st a ∨ a = b ∧ a < c.arms.length) :
    Channel.isReset { (c.updArm b ArmRt.restarted).restartPairs st b with axes := axes, flt := flt } st a := by
  suffices harm : ((c.updArm b ArmRt.restarted).arm a).st = .run ∧ ((c.updArm b ArmRt.restarted).arm a).latched = false by
    refine ⟨harm.1, harm.2, fun i hi => (pair_restartPairs (c.updArm b ArmRt.restarted) hi).trans ?_⟩
    rcases hr with ⟨-, -, hlat⟩ | ⟨hab, -⟩
    · rw [show (c.updArm b ArmRt.restarted).pair i = c.pair i from rfl, hlat i hi, Bool.false_and]
    · rw [decide_eq_true hab, Bool.not_true, Bool.and_false]
  by_cases hab : a = b
  · subst hab
    have hlen : a < c.arms.length := by
      rcases hr with ⟨hrun, -, -⟩ | ⟨-, hlen⟩
      · refine Nat.lt_of_not_le fun hle => ?_
        rw [arm_eq_getD, List.getElem?_eq_none hle] at hrun
        cases hrun
      · exact hlen
    rw [arm_eq_getD, show (c.updArm a ArmRt.restarted).arms[a]? = (c.arms[a]?).map ArmRt.restarted from updAt_same c.arms a _,
      List.getElem?_eq_getElem hlen]
    exact ⟨rfl, rfl⟩
  · rw [arm_updArm_ne c ArmRt.restarted hab]
    obtain ⟨hrun, hlatched, -⟩ | ⟨hc, -⟩ := hr
    · exact ⟨hrun, hlatched⟩
    · exact absurd hc hab

/-- An arm may be reset: no side of it is faulted, and the channels have its state. -/
def Dev.resettable (d : Dev) (a : Nat) : Prop := ∀ g, (d.ch g).fltSides a = [] ∧ (d.ch g).arms.length = 8

/-- The resets are taken, and an arm is reset in both channels. -/
def Dev.resetDone (d : Dev) (st : SafSet) (a : Nat) : Prop := d.safety.resetArms = 0 ∧ ∀ g, (d.ch g).isReset st a

theorem fltSides_congr {c c' : Channel} (hc : c'.outFlt = c.outFlt) (a : Nat) : c'.fltSides a = c.fltSides a := by
  unfold Channel.fltSides
  rw [hc]

theorem resetArm_resettable (hr : d.resettable a) (h : Bool) (b : Nat) : (d.resetArm h st b).resettable a := by
  obtain ⟨axes, flt, hc⟩ := resetArm_ch d h st b
  have hother : (d.resetArm h st b).ch (!h) = d.ch (!h) := ch_updCh_other d h _
  refine both_channels h ?_ (by rw [hother]; exact hr _)
  obtain ⟨hflt, hlen⟩ := hr h
  rw [hc]
  exact ⟨hflt, (length_updAt _ _ _).trans hlen⟩

theorem resetArms_resetArm (d : Dev) (h : Bool) (st : SafSet) (b : Nat) : (d.resetArm h st b).safety.resetArms = d.safety.resetArms := by
  cases h <;> rfl

theorem testing_ch (d : Dev) (h : Bool) (mask : Nat) {p : Channel → Prop} (hp : ∀ c m, p c → p (Channel.testing c m)) (hd : ∀ g, p (d.ch g)) :
    ∀ g, p ((d.updCh h (·.testing mask)).ch g) := by
  refine both_channels h ?_ ?_
  · rw [ch_updCh]
    exact hp _ _ (hd h)
  · rw [ch_updCh_other]
    exact hd _

/-- What no clearing test changes of the channels, the start of the tests of an arm leaves. -/
theorem startTests_ch (d : Dev) (b : Nat) {p : Channel → Prop} (hp : ∀ c m, p c → p (Channel.testing c m)) (hd : ∀ g, p (d.ch g)) :
    ∀ g, p ((d.startTests b).ch g) := testing_ch _ true _ hp (testing_ch d false _ hp hd)

theorem resetOrTest_resettable (hr : d.resettable a) (b : Nat) : (d.resetOrTest st b).resettable a := by
  unfold Dev.resetOrTest
  split
  · exact resetArm_resettable (resetArm_resettable hr false b) true b
  · exact startTests_ch d b (p := fun c => c.fltSides a = [] ∧ c.arms.length = 8) (fun _ _ hc => hc) hr

/-- A reset in one channel. -/
theorem resetArm_reset (d : Dev) (h : Bool) (hr : (d.ch h).isReset st a ∨ a = b ∧ a < (d.ch h).arms.length) :
    ((d.resetArm h st b).ch h).isReset st a := by
  obtain ⟨axes, flt, hc⟩ := resetArm_ch d h st b
  rw [hc]
  exact resetArm_isReset hr

theorem resetArm_other (d : Dev) (h : Bool) (st : SafSet) (b : Nat) : (d.resetArm h st b).ch (!h) = d.ch (!h) := ch_updCh_other d h _

theorem resetBoth_reset (hr : ∀ g, (d.ch g).isReset st a ∨ a = b ∧ a < (d.ch g).arms.length) :
    ∀ g, (((d.resetArm false st b).resetArm true st b).ch g).isReset st a := by
  refine both_channels true (resetArm_reset _ true ?_) ?_
  · rw [show (d.resetArm false st b).ch true = d.ch true from resetArm_other d false st b]
    exact hr true
  · rw [resetArm_other (d.resetArm false st b) true]
    exact resetArm_reset d false (hr false)

theorem resetOrTest_keeps (hr : d.resetDone st a) (b : Nat) : (d.resetOrTest st b).resetDone st a := by
  obtain ⟨hnone, hreset⟩ := hr
  unfold Dev.resetOrTest
  split
  · exact ⟨((resetArms_resetArm _ true st b).trans (resetArms_resetArm d false st b)).trans hnone,
      resetBoth_reset fun g => .inl (hreset g)⟩
  · exact ⟨hnone, startTests_ch d b (p := fun c => c.isReset st a) (fun _ _ hc => hc) hreset⟩

theorem resetOrTest_done (ha : a < 8) (hr : d.resettable a) (hnone : d.safety.resetArms = 0) : (d.resetOrTest st a).resetDone st a := by
  have hno : ((d.safety.a.fltSides a).isEmpty && (d.safety.b.fltSides a).isEmpty) = true := by
    rw [show d.safety.a.fltSides a = [] from (hr false).1, show d.safety.b.fltSides a = [] from (hr true).1]
    rfl
  unfold Dev.resetOrTest
  rw [if_pos hno]
  exact ⟨((resetArms_resetArm _ true st a).trans (resetArms_resetArm d false st a)).trans hnone,
    resetBoth_reset fun g => .inr ⟨rfl, by rw [(hr g).2]; exact ha⟩⟩

theorem resetArms_resetOrTest (d : Dev) (st : SafSet) (b : Nat) : (d.resetOrTest st b).safety.resetArms = d.safety.resetArms := by
  unfold Dev.resetOrTest
  split
  · exact (resetArms_resetArm _ true st b).trans (resetArms_resetArm d false st b)
  · rfl

/-- An arm that is ready and among those due is reset (R251). -/
theorem applyResets_resets (ha : a < 8) (hs : d.setOf false = some st) (hdue : bitOf d.safety.resetArms a = true)
    (hready : d.resetReady st a = true) (hr : d.resettable a) : d.applyResets.resetDone st a := by
  rw [applyResets_eq, hs]
  have hmem : a ∈ (bitsOf d.safety.resetArms 8).filter (d.resetsTaken.resetReady st) :=
    List.mem_filter.2 ⟨mem_bitsOf.2 ⟨ha, hdue⟩, hready⟩
  obtain ⟨l1, l2, hl⟩ := List.append_of_mem hmem
  dsimp only
  rw [hl, List.foldl_append, List.foldl_cons]
  have hbefore := foldl_invariant (K := fun e : Dev => e.resettable a ∧ e.safety.resetArms = 0) (f := fun e b => e.resetOrTest st b) l1
    (fun e b _ k => ⟨resetOrTest_resettable k.1 b, (resetArms_resetOrTest e st b).trans k.2⟩)
    (⟨fun g => by have := hr g; cases g <;> exact this, rfl⟩ : d.resetsTaken.resettable a ∧ d.resetsTaken.safety.resetArms = 0)
  exact foldl_invariant (K := fun e : Dev => e.resetDone st a) l2 (fun e b _ k => resetOrTest_keeps k b)
    (resetOrTest_done ha hbefore.1 hbefore.2)

/-! ## A reset arm to the end of the cross-check point -/

theorem settle_isReset (d : Dev) (h : Bool) (hr : (d.ch h).isReset st a) : ((d.settle h).ch h).isReset st a := by
  obtain ⟨hrun, hlatched, hlat⟩ := hr
  obtain ⟨p, -, harm⟩ := settle_arm d h a
  obtain ⟨cmd, pulse, rb, hown⟩ := settle_own d h
  have hpairs : ((d.settle h).ch h).pairs = (d.ch h).pairs := by
    rw [hown]
    cases d.setOf h <;> rfl
  unfold Channel.isReset Channel.pair at *
  rw [harm, hpairs]
  exact ⟨hrun, hlatched, hlat⟩

theorem settle_resetDone (d : Dev) (h : Bool) (hr : d.resetDone st a) : (d.settle h).resetDone st a := by
  obtain ⟨hnone, hreset⟩ := hr
  refine ⟨by rw [settle_common]; exact hnone, both_channels h (settle_isReset d h (hreset h)) ?_⟩
  rw [settle_other]
  exact hreset _

theorem settleBoth_resetDone (hr : d.resetDone st a) : d.settleBoth.resetDone st a := by
  have hone : ∀ (d : Dev) (h : Bool), d.resetDone st a → (d.ifUp h (·.settle h)).resetDone st a := fun d h hr => by
    unfold Dev.ifUp
    split
    · exact settle_resetDone d h hr
    · exact hr
  exact hone _ true (hone d false hr)

theorem Dev.tells.resetDone (k : d.tells d') (hr : d.resetDone st a) : d'.resetDone st a := by
  obtain ⟨ev, he⟩ := k.safety
  exact ⟨by rw [he]; exact hr.1, fun g => by rw [k.ch]; exact hr.2 g⟩

theorem setChange_none (hn : d.safety.a.next = none) : d.setChange = d := by
  rw [setChange_eq, hn]

theorem crossCheckPoint_resets (hup : s.dev.chUp h = true) (hother : s.dev.chUp (!h) = true) (hsee : s.dev.is CLK_XDIE = true)
    (ha : a < 8) (hn : s.dev.safety.a.next = none) (hs : s.dev.setOf false = some st) (hlen : ∀ g, (s.dev.ch g).arms.length = 8)
    (hdue : bitOf s.dev.safety.resetArms a = true)
    (hgone : ∀ g, (s.dev.ch g).judged = true ∧ s.dev.calm g = true ∧ (s.dev.ch g).causesGone st a = true ∧ (s.dev.ch g).fltSides a = [])
    (bad : BitVec 10) (wrOk : Bool) : Completes (.crossCheckPoint bad wrOk) s (·.resetDone st a) := by
  refine crossCheckPoint_run fun d ht _ _ => ht.resetDone ?_
  have hjudged : ∀ g, (s.begun.atCheck.ch g).judged = true := fun g =>
    (congrArg Channel.judged ((atCheck_sameCauses s.begun).causes g)).trans (hgone g).1
  set e := s.begun.atCheck.judgedAndTorqued.matchPresses with he
  have hk : s.begun.sameCauses e :=
    ((atCheck_sameCauses s.begun).trans (judgedAndTorqued_sameCauses hjudged)).trans (matchPresses_sameCauses _)
  have hready : s.begun.resetReady st a = true := by
    obtain ⟨-, hcalmA, hgoneA, -⟩ := hgone false
    obtain ⟨-, hcalmB, hgoneB, -⟩ := hgone true
    unfold Dev.resetReady
    rw [show s.begun.calm false = true from hcalmA, show s.begun.calm true = true from hcalmB,
      show s.begun.safety.a.causesGone st a = true from hgoneA, show s.begun.safety.b.causesGone st a = true from hgoneB]
    rfl
  have hdone : e.applyResets.resetDone st a :=
    applyResets_resets ha ((hk.setOf false).trans hs) (hk.due a (by omega) hdue) ((hk.resetReady st a).trans hready)
      fun g => ⟨(fltSides_congr (hk.outFlt g) a).trans (hgone g).2.2.2, (hk.arms g).trans (hlen g)⟩
  have hnext : e.applyResets.safety.a.next = none := ((applyResets_sameSets e).next false).trans ((hk.next false).trans hn)
  rw [Dev.crossed, jointly_both (atCheck_bothSee hup hother hsee), ← he, setChange_none hnext]
  exact settleBoth_resetDone hdone

/-! ## The safety beats -/

/-- Settles O53, command by command: the beat, a missing record, a separation record, a missing and an intact verdict, and the
cross-check point with what it tells, the change of the sets and the resets. -/
theorem safetyBeats : Obligations.SafetyBeats := by
  unfold Obligations.SafetyBeats
  intro s h hup
  refine ⟨fun cyc => ?_, fun hA => ?_, fun v hv => verdictReceive_missing hup hv,
    fun b hlen hcrc => verdictReceive_accepts hup hlen hcrc,
    fun bad wrOk => ⟨crossCheckPoint_tells hup bad wrOk, fun hother hsee => ⟨fun na nb ha hb => ?_, fun st a hn hs hlen hdue hgone => ?_⟩⟩⟩
  · refine completes_mono (safetyBeat_monitors hup cyc) fun d ⟨hcyc, honly, hclock, hask, hrec, hpulse⟩ => ?_
    refine ⟨hcyc, honly, hclock, hask, hrec, fun st n ns hs hns hcmd hclear hbeat => ?_⟩
    subst hns
    exact hpulse st n n.isLt hs ⟨hbeat, hcmd⟩ hclear
  · subst hA
    exact ⟨noRecord_stops hup, noRecord_waits hup, sepRecordReceive_takes hup⟩
  · exact crossCheckPoint_changes hup hother hsee ha hb bad wrOk
  · exact crossCheckPoint_resets hup hother hsee a.isLt hn hs hlen hdue hgone bad wrOk

end Sys2Proof.Machine
end
